-- ==== Sys2Proof/Word.lean ====
section
/-! DEFINITION. The word types of the device: 64-bit registers (R12) and bytes (R11). -/

namespace Sys2Proof

/-- A 64-bit register word (R12). -/
abbrev Word := BitVec 64

/-- A byte of memory, of a packet or of an image (R11). -/
abbrev Byte := BitVec 8

/-- A run of bytes, lowest address or first on the wire first. -/
abbrev Bytes := List Byte

end Sys2Proof
end

