-- ==== Sys2Proof/Machine/Bits.lean ====
section
/-! DEFINITION. Bit-field, byte-order and saturation helpers, and sorted tables: the association lists that hold every
indexed piece of state in one canonical form (keys strictly rising). -/

namespace Sys2Proof.Machine

/-- Bits `lo + w - 1` down to `lo` of `x`. -/
def bits (x lo w : Nat) : Nat := x / 2 ^ lo % 2 ^ w

/-- Bit `i` of `x`. -/
def bit (x i : Nat) : Bool := x / 2 ^ i % 2 == 1

/-- A flag as a number. -/
def b2n (b : Bool) : Nat := if b then 1 else 0

/-- `x` with bit `i` set. -/
def setBit (x i : Nat) : Nat := if bit x i then x else x + 2 ^ i

/-- `x` with bit `i` clear. -/
def clrBit (x i : Nat) : Nat := if bit x i then x - 2 ^ i else x

/-- The number a `w`-bit two's complement field stands for. -/
def toSigned (w x : Nat) : Int := if x % 2 ^ w < 2 ^ (w - 1) then (x % 2 ^ w : Nat) else (x % 2 ^ w : Nat) - (2 ^ w : Nat)

/-- The `w`-bit two's complement field of a number. -/
def ofSigned (w : Nat) (x : Int) : Nat := (x % (2 ^ w : Nat)).toNat

/-- Add with saturation at all ones of a `w`-bit field. -/
def satAdd (w x k : Nat) : Nat := min (x + k) (2 ^ w - 1)

/-- Little-endian number of a run of bytes (R11). -/
def leNat : Bytes → Nat
  | [] => 0
  | b :: r => b.toNat + 256 * leNat r

/-- The `n` little-endian bytes of a number (R11). -/
def leBytes : Nat → Nat → Bytes
  | 0, _ => []
  | n + 1, x => BitVec.ofNat 8 x :: leBytes n (x / 256)

/-- The number in `n` bytes at byte offset `o` of a run. -/
def leAt (b : Bytes) (o n : Nat) : Nat := leNat ((b.drop o).take n)

/-- `b` with the bytes from offset `o` replaced by `v`. -/
def putBytes (b : Bytes) (o : Nat) (v : Bytes) : Bytes := b.take o ++ v ++ b.drop (o + v.length)

/-- Number of set bits among the `n` low bits. -/
def popcount : Nat → Nat → Nat
  | 0, _ => 0
  | n + 1, x => x % 2 + popcount n (x / 2)

/-- The positions of the set bits among the `n` low bits, rising. -/
def bitsSet (n x : Nat) : List Nat := (List.range n).filter (fun i => bit x i)

/-- A table from numbers to values: keys strictly rising. -/
abbrev Tab (v : Type) := List (Nat × v)

/-- The value at a key. -/
def tabGet {v : Type} : Tab v → Nat → Option v
  | [], _ => none
  | (k, x) :: r, i => if i = k then some x else tabGet r i

/-- Put a value at a key, in key order. -/
def tabPut {v : Type} : Tab v → Nat → v → Tab v
  | [], i, y => [(i, y)]
  | (k, x) :: r, i, y =>
    if i < k then (i, y) :: (k, x) :: r
    else if i = k then (i, y) :: r
    else (k, x) :: tabPut r i y

/-- Take a key out. -/
def tabDel {v : Type} : Tab v → Nat → Tab v
  | [], _ => []
  | (k, x) :: r, i => if i = k then tabDel r i else (k, x) :: tabDel r i

/-- The value at a key, or `d` where none is listed. -/
def tabGetD {v : Type} (t : Tab v) (i : Nat) (d : v) : v := (tabGet t i).getD d

/-- Put a value, taking the key out where the value is what an unlisted key reads as. -/
def tabSet {v : Type} [DecidableEq v] (t : Tab v) (i : Nat) (d y : v) : Tab v :=
  if y = d then tabDel t i else tabPut t i y

/-- Change the value at a key that is listed. -/
def tabMod {v : Type} (t : Tab v) (i : Nat) (f : v → v) : Tab v :=
  match tabGet t i with
  | some x => tabPut t i (f x)
  | none => t

/-- Canonical form: keys strictly rising. -/
def tabWf {v : Type} : Tab v → Bool
  | [] => true
  | [_] => true
  | (k, _) :: (k', y) :: r => decide (k < k') && tabWf ((k', y) :: r)

/-- Repeat a state change over a list, in order. -/
def foldS {α σ : Type} (l : List α) (s : σ) (f : σ → α → σ) : σ := l.foldl f s

end Sys2Proof.Machine
end

