-- ==== Sys2Proof/Machine/Crypto.lean ====
section
/-! DEFINITION. The named standards that the loader uses: the CRC-32 of R57, and SHA-384 (FIPS 180-4) and ECDSA over
P-384 (FIPS 186-5) of R58. The constants of the two FIPS standards are PRESUMED (log entry 7). -/

namespace Sys2Proof.Machine

/-- One bit of the reflected CRC-32 register (R57). -/
def crcBit (c : Nat) : Nat := if c % 2 = 1 then (c / 2) ^^^ 0xEDB88320 else c / 2

/-- One byte of the reflected CRC-32 register. -/
def crcByte (c : Nat) (b : Byte) : Nat :=
  crcBit (crcBit (crcBit (crcBit (crcBit (crcBit (crcBit (crcBit (c ^^^ b.toNat))))))))

/-- CRC-32 of IEEE 802.3 (R57). -/
def crc32 (b : Bytes) : Nat := (b.foldl crcByte 0xFFFFFFFF) ^^^ 0xFFFFFFFF

/-- Big-endian number of an octet string (Table 2.3). -/
def beNat (b : Bytes) : Nat := b.foldl (fun a x => a * 256 + x.toNat) 0

/-- Big-endian octets of a number. -/
def beBytes (n x : Nat) : Bytes := (leBytes n x).reverse

/-- The whole part of a `k`-th root, found from its bit `n - 1` down: `y` holds the bits already found. -/
def rootFrom (k x : Nat) : Nat → Nat → Nat
  | 0, y => y
  | n + 1, y => rootFrom k x n (if (y + 2 ^ n) ^ k ≤ x then y + 2 ^ n else y)

/-- The primes up to 409, which are the first 80. -/
def shaPrimes : List Nat := (List.range 410).filter (fun n => decide (2 ≤ n) && (List.range n).all (fun d => decide (d < 2) || n % d != 0))

/-- The first 64 bits of the fractional part of a prime's `k`-th root: FIPS 180-4 takes its constants so. -/
def shaFraction (k p : Nat) : Word := BitVec.ofNat 64 (rootFrom k (p * 2 ^ (64 * k)) 68 0)

/-- The words that the 80 rounds add: cube roots of the first 80 primes. -/
def shaRounds : List Word := shaPrimes.map (shaFraction 3)

/-- What SHA-384 starts from: square roots of the ninth to the sixteenth prime. -/
def shaStart : List Word := ((shaPrimes.drop 8).take 8).map (shaFraction 2)

/-- Exclusive or of two rotations of a word and a third word made of it. -/
def shaMix (x : Word) (i j : Nat) (y : Word) : Word := x.rotateRight i ^^^ x.rotateRight j ^^^ y

/-- One round: the eight working words `v`, oldest input word of the sixteen in `win` used and its successor made. -/
def shaRound (x : List Word × List Word) (k : Word) : List Word × List Word :=
  let at' (l : List Word) (i : Nat) : Word := l.getD i 0
  let (v, win) := x
  let (e, w) := (at' v 4, at' win)
  let pick := (e &&& at' v 5) ||| (~~~e &&& at' v 6)
  let most := (at' v 0 &&& (at' v 1 ||| at' v 2)) ||| (at' v 1 &&& at' v 2)
  let gain := at' v 7 + w 0 + k + pick + shaMix e 14 18 (e.rotateRight 41)
  let turn := most + shaMix (at' v 0) 28 34 ((at' v 0).rotateRight 39)
  let fresh := w 0 + w 9 + shaMix (w 1) 1 8 (w 1 >>> 7) + shaMix (w 14) 19 61 (w 14 >>> 6)
  ((gain + turn) :: (v.take 7).set 3 (at' v 3 + gain), win.drop 1 ++ [fresh])

/-- The words of octets, each most significant octet first. -/
def shaWords (n : Nat) (b : Bytes) : List Word := (List.range n).map (fun i => BitVec.ofNat 64 (beNat ((b.drop (8 * i)).take 8)))

/-- The padded message's blocks of 128 octets, one after another, on a chaining value. -/
def shaFold (ks : List Word) : Nat → Bytes → List Word → List Word
  | 0, _, h => h
  | n + 1, b, h => shaFold ks n (b.drop 128) ((ks.foldl shaRound (h, shaWords 16 b)).1.zipWith (· + ·) h)

/-- SHA-384 of a message: 48 octets. -/
def sha384 (m : Bytes) : Bytes :=
  let blocks := (m.length + 17 + 127) / 128
  let fill := 128 * blocks - 17 - m.length
  let h := shaFold shaRounds blocks (m ++ 0x80 :: List.replicate fill 0 ++ beBytes 16 (8 * m.length)) shaStart
  (h.take 6).flatMap (fun w => beBytes 8 w.toNat)

/-- The field prime of P-384. -/
def ecP : Nat := 2 ^ 384 - 2 ^ 128 - 2 ^ 96 + 2 ^ 32 - 1
/-- The order of P-384. -/
def ecN : Nat := 0xFFFFFFFFFFFFFFFFFFFFFFFFFFFFFFFFFFFFFFFFFFFFFFFFC7634D81F4372DDF581A0DB248B0A77AECEC196ACCC52973
/-- The coefficient b of P-384. -/
def ecB : Nat := 0xB3312FA7E23EE7E4988E056BE3F82D19181D9C6EFE8141120314088F5013875AC656398D8A2ED19D2A85C8EDD3EC2AEF
/-- The base point of P-384. -/
def ecGx : Nat := 0xAA87CA22BE8B05378EB1C71EF320AD746E1D3B628BA79B9859F741E082542A385502F25DBF55296C3A545E3872760AB7
def ecGy : Nat := 0x3617DE4A96262C6F5D9E98BF9292DC29F8F41DBD289A147CE9DA3113B5F0B8C00A60B1CE1D7E819D7A431D7C90EA0E5F

/-- `b` to the power of the `n` low bits of `e`, modulo `m`. -/
def powMod (m : Nat) : Nat → Nat → Nat → Nat
  | 0, _, _ => 1
  | n + 1, b, e => (if e % 2 = 1 then b else 1) * powMod m n (b * b % m) (e / 2) % m

/-- The inverse modulo a prime of 384 bits. -/
def invMod (m x : Nat) : Nat := powMod m 384 x (m - 2)

/-- Difference in the field. -/
def ecSub (a b : Nat) : Nat := (a % ecP + ecP - b % ecP) % ecP

/-- A point in Jacobian coordinates; the point at infinity has z = 0. -/
structure JPoint where
  x : Nat
  y : Nat
  z : Nat
  deriving DecidableEq, Repr

def ecDouble (a : JPoint) : JPoint :=
  let zz := a.z * a.z % ecP
  let m := 3 * (ecSub a.x zz * ((a.x + zz) % ecP)) % ecP
  let yy := a.y * a.y % ecP
  let s := 4 * (a.x * yy) % ecP
  let x := ecSub (m * m % ecP) (2 * s)
  ⟨x, ecSub (m * ecSub s x % ecP) (8 * (yy * yy) % ecP), 2 * (a.y * a.z) % ecP⟩

def ecAdd (a b : JPoint) : JPoint :=
  if a.z = 0 then b else if b.z = 0 then a else
  let z1 := a.z * a.z % ecP
  let z2 := b.z * b.z % ecP
  let u1 := a.x * z2 % ecP
  let u2 := b.x * z1 % ecP
  let s1 := a.y * b.z % ecP * z2 % ecP
  let s2 := b.y * a.z % ecP * z1 % ecP
  if u1 = u2 then (if s1 = s2 then ecDouble a else ⟨1, 1, 0⟩) else
  let h := ecSub u2 u1
  let r := ecSub s2 s1
  let hh := h * h % ecP
  let h3 := h * hh % ecP
  let v := u1 * hh % ecP
  let x := ecSub (ecSub (r * r % ecP) h3) (2 * v)
  ⟨x, ecSub (r * ecSub v x % ecP) (s1 * h3 % ecP), h * a.z % ecP * b.z % ecP⟩

/-- `k` times a point, over the `n` low bits of `k`. -/
def ecMul : Nat → Nat → JPoint → JPoint
  | 0, _, _ => ⟨1, 1, 0⟩
  | n + 1, k, a => let r := ecMul n (k / 2) (ecDouble a); if k % 2 = 1 then ecAdd r a else r

/-- ECDSA verification over P-384 of a 48-octet digest (R58, R70). -/
def ecdsaOk (qx qy r s : Nat) (digest : Bytes) : Bool :=
  decide (0 < r ∧ r < ecN ∧ 0 < s ∧ s < ecN ∧ qx < ecP ∧ qy < ecP) &&
  decide (qy * qy % ecP = (ecSub (qx * qx * qx) (3 * qx) + ecB) % ecP) &&
  (let w := invMod ecN s
   let a := ecAdd (ecMul 384 (beNat digest * w % ecN) ⟨ecGx, ecGy, 1⟩) (ecMul 384 (r * w % ecN) ⟨qx, qy, 1⟩)
   a.z != 0 && (a.x * powMod ecP 384 (a.z * a.z % ecP) (ecP - 2) % ecP) % ecN == r)

end Sys2Proof.Machine
end

