-- ==== Sys2Proof/Machine/Fec.lean ====
section
/-! DEFINITION. The flit's forward error correction (R119): three interleaved Reed-Solomon codes over GF(256). -/

namespace Sys2Proof.Machine

/-- Multiply by the primitive element 0x02 with x^8 + x^4 + x^3 + x^2 + 1. -/
def gfX (a : Nat) : Nat := if 128 ≤ a then ((a * 2) ^^^ 0x11D) % 256 else a * 2

/-- Product in GF(256), over `n` low bits of `b`. -/
def gfMulN : Nat → Nat → Nat → Nat
  | 0, _, _ => 0
  | n + 1, a, b => (if b % 2 = 1 then a else 0) ^^^ gfMulN n (gfX a) (b / 2)

def gfMul (a b : Nat) : Nat := gfMulN 8 a b

def gfPowN : Nat → Nat → Nat
  | 0, _ => 1
  | n + 1, a => gfMul a (gfPowN n a)

/-- The inverse of a non-zero element: its 254th power. -/
def gfInv (a : Nat) : Nat :=
  let a2 := gfMul a a
  let a4 := gfMul a2 a2
  let a8 := gfMul a4 a4
  let a16 := gfMul a8 a8
  let a32 := gfMul a16 a16
  let a64 := gfMul a32 a32
  let a128 := gfMul a64 a64
  gfMul a128 (gfMul a64 (gfMul a32 (gfMul a16 (gfMul a8 (gfMul a4 a2)))))

/-- The power of the primitive element. -/
def gfExp (k : Nat) : Nat := gfPowN k 2

/-- The value of a polynomial, highest coefficient first. -/
def gfEval (l : List Nat) (x : Nat) : Nat := l.foldl (fun a c => gfMul a x ^^^ c) 0

/-- One step of the systematic encoder's remainder; 15, 54, 120 and 64 are the coefficients, highest first, of the
generator polynomial (x − α^0)(x − α^1)(x − α^2)(x − α^3) below its leading term. -/
def rsStep (r : List Nat) (c : Nat) : List Nat :=
  match r with
  | [a, b, d, e] =>
    let f := c ^^^ a
    [b ^^^ gfMul f 15, d ^^^ gfMul f 54, e ^^^ gfMul f 120, gfMul f 64]
  | _ => r

/-- The four parity bytes of an interleave. -/
def rsParity (l : List Nat) : List Nat := l.foldl rsStep [0, 0, 0, 0]

/-- The bytes of interleave `i`, in rising index. -/
def interleave (i : Nat) (l : List Nat) : List Nat :=
  (List.zip (List.range l.length) l).filterMap (fun e => if e.1 % 3 = i then some e.2 else none)

/-- Replace the byte at a place of a list. -/
def setAt (l : List Nat) (k v : Nat) : List Nat := l.take k ++ [v] ++ l.drop (k + 1)

/-- Decode an interleave of `n` bytes: the corrected bytes and how many were corrected, or none (R119). -/
def rsDecode (l : List Nat) : Option (List Nat × Nat) :=
  let n := l.length
  let s0 := gfEval l 1
  let s1 := gfEval l 2
  let s2 := gfEval l 4
  let s3 := gfEval l 8
  if s0 = 0 ∧ s1 = 0 ∧ s2 = 0 ∧ s3 = 0 then some (l, 0) else
  let det := gfMul s0 s2 ^^^ gfMul s1 s1
  if det = 0 then
    if s0 = 0 then none else
    let x := gfMul s1 (gfInv s0)
    if gfMul s1 x = s2 ∧ gfMul s2 x = s3 then
      match (List.range n).find? (fun k => gfExp k == x) with
      | some k => some (setAt l (n - 1 - k) (l.getD (n - 1 - k) 0 ^^^ s0), 1)
      | none => none
    else none
  else
    let di := gfInv det
    let g1 := gfMul (gfMul s0 s3 ^^^ gfMul s1 s2) di
    let g2 := gfMul (gfMul s1 s3 ^^^ gfMul s2 s2) di
    let roots := (List.range n).filter (fun k => let x := gfExp k; (gfMul x x ^^^ gfMul g1 x ^^^ g2) == 0)
    match roots with
    | [j, k] =>
      let x := gfExp j
      let y := gfExp k
      let e2 := gfMul (s1 ^^^ gfMul s0 x) (gfInv (x ^^^ y))
      let e1 := s0 ^^^ e2
      let l := setAt l (n - 1 - j) (l.getD (n - 1 - j) 0 ^^^ e1)
      some (setAt l (n - 1 - k) (l.getD (n - 1 - k) 0 ^^^ e2), 2)
    | _ => none

/-- The bytes of a flit with the byte at place `k` of interleave `i` put back at index `3 k + i`. -/
def weave (a b c : List Nat) (n : Nat) : List Nat :=
  (List.range n).map (fun k => (if k % 3 = 0 then a else if k % 3 = 1 then b else c).getD (k / 3) 0)

/-- Correct a received flit of 256 bytes: its bytes, and how many bytes were corrected; none when an interleave is
uncorrectable or the CRC fails after correction (R119, R120). -/
def flitDecode (f : Bytes) : Option (Bytes × Nat) :=
  let l := f.map (·.toNat)
  match rsDecode (interleave 0 l), rsDecode (interleave 1 l), rsDecode (interleave 2 l) with
  | some (a, x), some (b, y), some (c, z) =>
    let g : Bytes := (weave a b c 256).map (fun v => BitVec.ofNat 8 v)
    if leAt g 240 4 = crc32 (g.take 240) then some (g, x + y + z) else none
  | _, _, _ => none

/-- Build a flit from its header word and its body of 236 bytes, with its CRC inverted where asked (R117, R146). -/
def flitEncode (hdr : Nat) (body : Bytes) (badCrc : Bool) : Bytes :=
  let h := leBytes 4 hdr ++ (body ++ List.replicate 236 0).take 236
  let c := crc32 h
  let d := h ++ leBytes 4 (if badCrc then 0xFFFFFFFF - c else c)
  let l := d.map (·.toNat)
  let p0 := rsParity (interleave 0 l)
  let p1 := rsParity (interleave 1 l)
  let p2 := rsParity (interleave 2 l)
  let par := (List.range 12).map (fun k =>
    let i := (244 + k) % 3
    (if i = 0 then p0 else if i = 1 then p1 else p2).getD (k / 3) 0)
  d ++ par.map (fun v => BitVec.ofNat 8 v)

end Sys2Proof.Machine
end

