-- ==== Sys2Proof/Config.lean ====
section
/-! DEFINITION. What an implementation fixes and the spec leaves open: the free values. None has a body, so no proof can
see a value of one. -/

namespace Sys2Proof

/-- The `n`-th free value (log entry 3): whatever the spec leaves open at the moment that the state's counter names. -/
opaque Config.freeValue : Nat → Nat

/-- Bits 11 to 0 of IDCODE, which R441 leaves to the BSDL file (log entry 4). -/
opaque Config.idcodeLow : BitVec 12

/-- The cells of the boundary register, which R441 leaves to the BSDL file (log entry 4). -/
opaque Config.scanCells : Nat

/-- Check bits of a Standard or Strong code word: 12_stored_data_protection.md names the codes and not their matrices
(log entry 5). Arguments: the code (1 Standard, 2 Strong) and the data word. -/
opaque Config.checkBits : Nat → Nat → Nat

/-- The per-part offset of the case estimate, fused at test (R443), in 0.1 K (log entry 6). -/
opaque Config.caseOffset : Int

/-- Which of several equal candidates (or whether a mark is set, of THRESH chances) a TIE, FALLBACK or EDDY draw settles on:
R159, R173 and R178 name the LFSR and not the mapping (log entry 8). Arguments: the drawn value and the number of
candidates. -/
opaque Config.lfsrChoice : Nat → Nat → Nat

/-- The spare elements that the SRAM regions have in all, of which Table 14.7 counts the used ones per mille: the spec gives no number
(log entry 34). -/
opaque Config.spareElements : Nat

end Sys2Proof
end

