-- ==== Sys2Proof/Machine/FaultTable.lean ====
section
/-! DEFINITION. The fault sources of Table 13.1 (R371): number, default severity, scope. -/

namespace Sys2Proof.Machine

/-- The fault sources by name (Table 13.1). -/
inductive Src where
  | FLT_SELF | CFG_REJECT | CFG_ABSENT | REG_ACCESS | GLB_CORE_PLL | GLB_CFGNET | GLB_FUSE | GLB_BIST_FAIL
  | TRS_FORMAT | TRS_VERSION | TRS_SIGNATURE | TRS_ROLLBACK | TRS_MEMBER_CRC | TRS_MEMBER_UNKNOWN
  | TRS_MEMBER_SKIPPED | TRS_MISSING | TRS_LIMIT | TRS_ABSENT | TRS_BEAT_BUDGET | TRS_HOT_REJECT
  | TRS_BUSY | TRS_NO_IMAGE | FMN_FW_REJECT | FMN_RESTART | SER_CAL_FAIL | SER_PLL_UNLOCK | SER_BRINGUP_FAIL
  | SER_PEER_MISMATCH | SER_STEP_FALLBACK | SER_NARROWED | SER_EQ_REVERT | SER_EQ_LIMIT | SER_EYE_LOW
  | SER_LANE_MSG_BAD | LNK_DOWN | LNK_FENCE | LNK_ACK_BAD | LNK_CTRL_UNKNOWN | BEA_OVERRUN | BEA_HOLDOVER
  | BEA_UNALIGNED | BEA_MASTER_TAKEOVER | BEA_MASTER_YIELD | BEA_PERIOD_MISMATCH | BEA_REF_LOST | BEA_LATE_COMMIT
  | RTE_PEER_MISPLACED | RTE_SRC_BAD | RTE_MALFORMED | RTE_E2E_CRC | RTE_CREDIT_OVERRUN | RTE_CREDIT_AUDIT
  | RTE_UNROUTABLE | RTE_LIMITER_FULL | RTE_MGMT_DENIED | MCT_BRANCH_SKIPPED | MCT_MC_NO_LAND | MCT_MC_BOUNDS
  | MCT_TREE_LOAD_FAIL | MCT_CF_ABORT | MCT_NOTICE_DROP | HIF_QUEUE_ERROR | HIF_CQ_OVERFLOW | HIF_DB_BAD
  | HIF_DMA_ERR | HIF_CTX_ERR | HIF_EQ_HELD | HIF_LINK_DOWN | RMA_ACCESS_VIOLATION | RMA_REMOTE_VIOLATION
  | RMA_RETRY_EXCEEDED | RMA_REGION_ERR | RMA_CONN_MISMATCH | RMA_HORIZON | RMA_MISS_FULL | RMA_ATOMIC_FULL
  | MAT_MSN_BAD | MAT_LIST_FULL | MAT_EAGER_LOST | MAT_SPILL_ERR | MAT_ML_CREATE_FAIL | COH_POISON
  | COH_DEAD_LOSS | COH_AGENT_GIVEUP | COH_NOT_MEMBER | COH_PROTO | PEG_NOT_OWNER | PEG_DENIED | PEG_ABANDONED
  | PEG_FORCED | ECC_CE | ECC_UE_PKT | ECC_UE_REPLAY | ECC_UE_CTX | ECC_UE_REGION | ECC_UE_WINDOW
  | ECC_UE_DIR | ECC_UE_ENGINE | ECC_UE_TABLE | ECC_LAP_MISSED | ECC_NARROW_WRITE | PWR_OVERTEMP
  | PWR_DERATE | PWR_AVS_LIMIT | PWR_VR_FAULT | PWR_SPRINT_END | PWR_LATENCY_UNMET | GRN_EOL_WARN
  | GRN_SPARES_LOW | GRN_MONITOR_ERR
  deriving DecidableEq, Repr

/-- The source number of each source (Table 13.1). -/
def Src.num : Src → Nat
  | .FLT_SELF => 0
  | .CFG_REJECT => 1
  | .CFG_ABSENT => 2
  | .REG_ACCESS => 3
  | .GLB_CORE_PLL => 4
  | .GLB_CFGNET => 5
  | .GLB_FUSE => 6
  | .GLB_BIST_FAIL => 7
  | .TRS_FORMAT => 16
  | .TRS_VERSION => 17
  | .TRS_SIGNATURE => 18
  | .TRS_ROLLBACK => 19
  | .TRS_MEMBER_CRC => 20
  | .TRS_MEMBER_UNKNOWN => 21
  | .TRS_MEMBER_SKIPPED => 22
  | .TRS_MISSING => 23
  | .TRS_LIMIT => 24
  | .TRS_ABSENT => 25
  | .TRS_BEAT_BUDGET => 26
  | .TRS_HOT_REJECT => 27
  | .TRS_BUSY => 28
  | .TRS_NO_IMAGE => 29
  | .FMN_FW_REJECT => 30
  | .FMN_RESTART => 31
  | .SER_CAL_FAIL => 32
  | .SER_PLL_UNLOCK => 33
  | .SER_BRINGUP_FAIL => 34
  | .SER_PEER_MISMATCH => 35
  | .SER_STEP_FALLBACK => 36
  | .SER_NARROWED => 37
  | .SER_EQ_REVERT => 38
  | .SER_EQ_LIMIT => 39
  | .SER_EYE_LOW => 40
  | .SER_LANE_MSG_BAD => 41
  | .LNK_DOWN => 96
  | .LNK_FENCE => 97
  | .LNK_ACK_BAD => 98
  | .LNK_CTRL_UNKNOWN => 99
  | .BEA_OVERRUN => 128
  | .BEA_HOLDOVER => 129
  | .BEA_UNALIGNED => 130
  | .BEA_MASTER_TAKEOVER => 131
  | .BEA_MASTER_YIELD => 132
  | .BEA_PERIOD_MISMATCH => 133
  | .BEA_REF_LOST => 134
  | .BEA_LATE_COMMIT => 135
  | .RTE_PEER_MISPLACED => 160
  | .RTE_SRC_BAD => 161
  | .RTE_MALFORMED => 162
  | .RTE_E2E_CRC => 163
  | .RTE_CREDIT_OVERRUN => 164
  | .RTE_CREDIT_AUDIT => 165
  | .RTE_UNROUTABLE => 166
  | .RTE_LIMITER_FULL => 167
  | .RTE_MGMT_DENIED => 168
  | .MCT_BRANCH_SKIPPED => 192
  | .MCT_MC_NO_LAND => 193
  | .MCT_MC_BOUNDS => 194
  | .MCT_TREE_LOAD_FAIL => 195
  | .MCT_CF_ABORT => 196
  | .MCT_NOTICE_DROP => 197
  | .HIF_QUEUE_ERROR => 224
  | .HIF_CQ_OVERFLOW => 225
  | .HIF_DB_BAD => 226
  | .HIF_DMA_ERR => 227
  | .HIF_CTX_ERR => 228
  | .HIF_EQ_HELD => 229
  | .HIF_LINK_DOWN => 230
  | .RMA_ACCESS_VIOLATION => 288
  | .RMA_REMOTE_VIOLATION => 289
  | .RMA_RETRY_EXCEEDED => 290
  | .RMA_REGION_ERR => 291
  | .RMA_CONN_MISMATCH => 292
  | .RMA_HORIZON => 293
  | .RMA_MISS_FULL => 294
  | .RMA_ATOMIC_FULL => 295
  | .MAT_MSN_BAD => 336
  | .MAT_LIST_FULL => 337
  | .MAT_EAGER_LOST => 338
  | .MAT_SPILL_ERR => 339
  | .MAT_ML_CREATE_FAIL => 340
  | .COH_POISON => 368
  | .COH_DEAD_LOSS => 369
  | .COH_AGENT_GIVEUP => 370
  | .COH_NOT_MEMBER => 371
  | .COH_PROTO => 372
  | .PEG_NOT_OWNER => 416
  | .PEG_DENIED => 417
  | .PEG_ABANDONED => 418
  | .PEG_FORCED => 419
  | .ECC_CE => 432
  | .ECC_UE_PKT => 433
  | .ECC_UE_REPLAY => 434
  | .ECC_UE_CTX => 435
  | .ECC_UE_REGION => 436
  | .ECC_UE_WINDOW => 437
  | .ECC_UE_DIR => 438
  | .ECC_UE_ENGINE => 439
  | .ECC_UE_TABLE => 440
  | .ECC_LAP_MISSED => 441
  | .ECC_NARROW_WRITE => 442
  | .PWR_OVERTEMP => 464
  | .PWR_DERATE => 465
  | .PWR_AVS_LIMIT => 466
  | .PWR_VR_FAULT => 467
  | .PWR_SPRINT_END => 468
  | .PWR_LATENCY_UNMET => 469
  | .GRN_EOL_WARN => 470
  | .GRN_SPARES_LOW => 471
  | .GRN_MONITOR_ERR => 472

/-- Severity codes of FLT_SEV: 0 Note, 1 Mend, 2 Contain, 3 Halt (Table 13.18). -/
abbrev sevNote : Nat := 0
abbrev sevMend : Nat := 1
abbrev sevContain : Nat := 2
abbrev sevHalt : Nat := 3

/-- Default severity and scope code (Table 13.18) of each assigned source number; the integrity sources are the
ones whose default is Halt (R371). -/
def srcRow : Nat → Option (Nat × Nat)
  | 0 => some (3, 0)
  | 1 => some (0, 0)
  | 2 => some (0, 0)
  | 3 => some (0, 0)
  | 4 => some (3, 0)
  | 5 => some (3, 0)
  | 6 => some (3, 0)
  | 7 => some (2, 8)
  | 16 => some (1, 7)
  | 17 => some (2, 7)
  | 18 => some (2, 7)
  | 19 => some (2, 7)
  | 20 => some (1, 7)
  | 21 => some (2, 7)
  | 22 => some (0, 0)
  | 23 => some (2, 7)
  | 24 => some (2, 7)
  | 25 => some (2, 7)
  | 26 => some (2, 7)
  | 27 => some (0, 0)
  | 28 => some (0, 0)
  | 29 => some (2, 7)
  | 30 => some (1, 0)
  | 31 => some (1, 0)
  | 32 => some (2, 1)
  | 33 => some (1, 3)
  | 34 => some (1, 2)
  | 35 => some (1, 2)
  | 36 => some (1, 2)
  | 37 => some (1, 2)
  | 38 => some (1, 1)
  | 39 => some (0, 1)
  | 40 => some (0, 1)
  | 41 => some (0, 2)
  | 96 => some (1, 2)
  | 97 => some (0, 2)
  | 98 => some (0, 2)
  | 99 => some (0, 2)
  | 128 => some (1, 0)
  | 129 => some (0, 0)
  | 130 => some (1, 0)
  | 131 => some (0, 0)
  | 132 => some (0, 0)
  | 133 => some (1, 2)
  | 134 => some (1, 0)
  | 135 => some (0, 0)
  | 160 => some (1, 2)
  | 161 => some (0, 2)
  | 162 => some (0, 0)
  | 163 => some (1, 0)
  | 164 => some (1, 2)
  | 165 => some (1, 2)
  | 166 => some (1, 0)
  | 167 => some (0, 0)
  | 168 => some (0, 0)
  | 192 => some (0, 0)
  | 193 => some (0, 0)
  | 194 => some (1, 0)
  | 195 => some (0, 0)
  | 196 => some (1, 0)
  | 197 => some (0, 0)
  | 224 => some (0, 0)
  | 225 => some (0, 0)
  | 226 => some (0, 0)
  | 227 => some (1, 4)
  | 228 => some (1, 0)
  | 229 => some (0, 0)
  | 230 => some (1, 0)
  | 288 => some (1, 0)
  | 289 => some (0, 0)
  | 290 => some (1, 0)
  | 291 => some (1, 0)
  | 292 => some (0, 4)
  | 293 => some (0, 4)
  | 294 => some (0, 0)
  | 295 => some (0, 0)
  | 336 => some (1, 0)
  | 337 => some (0, 5)
  | 338 => some (1, 5)
  | 339 => some (1, 0)
  | 340 => some (0, 0)
  | 368 => some (1, 0)
  | 369 => some (1, 0)
  | 370 => some (1, 0)
  | 371 => some (0, 0)
  | 372 => some (0, 0)
  | 416 => some (0, 0)
  | 417 => some (0, 0)
  | 418 => some (0, 0)
  | 419 => some (0, 0)
  | 432 => some (1, 0)
  | 433 => some (1, 0)
  | 434 => some (1, 2)
  | 435 => some (1, 4)
  | 436 => some (1, 0)
  | 437 => some (1, 0)
  | 438 => some (1, 0)
  | 439 => some (2, 6)
  | 440 => some (1, 0)
  | 441 => some (0, 0)
  | 442 => some (0, 0)
  | 464 => some (3, 0)
  | 465 => some (0, 0)
  | 466 => some (1, 0)
  | 467 => some (1, 0)
  | 468 => some (0, 0)
  | 469 => some (0, 0)
  | 470 => some (0, 0)
  | 471 => some (0, 0)
  | 472 => some (1, 0)
  | _ => none

/-- The source is listed in Table 13.1 (R371, R372). -/
def srcAssigned (n : Nat) : Bool := (srcRow n).isSome

/-- The default severity of Table 13.1; zero for a source that is not listed. -/
def srcDefault (n : Nat) : Nat := ((srcRow n).getD (0, 0)).1

/-- The scope code of Table 13.1; zero for none, for the fixed Halt sources and for a source that is not listed. -/
def srcScope (n : Nat) : Nat := ((srcRow n).getD (0, 0)).2

/-- A source marked Halt, fixed (R371). -/
def srcIntegrity (n : Nat) : Bool := srcDefault n = 3

/-- The sources of capture slots 0 to 15 by default (Table 13.3). -/
def richDefault (s : Nat) : Nat :=
  [18, 368, 288, 435, 436, 369, 19, 438, 439, 437, 96, 164, 228, 196, 336, 464].getD s 0
end Sys2Proof.Machine
end

