-- ==== Sys2Proof/Machine/RegTable.lean ====
section
/-! DEFINITION. The register map: every register of the device (17_register_map_index.md), its block,
offset, stride and instances, and the fields that each chapter's register table gives it (bits, access type,
configuration class, reset value). Reserved fields are not listed: they read zero and hold nothing (R14). -/

namespace Sys2Proof.Machine

/-- Access types of Table 0.8 (R13). -/
inductive Acc | RO | RW | RW1C | WO | TR
  deriving DecidableEq, Repr

/-- Configuration classes of Table 0.9; `N` for a field that software cannot write. -/
inductive Cls | N | L | B | Q
  deriving DecidableEq, Repr

/-- The registers of the device. -/
inductive Reg where
  | GLB_IDENT | GLB_FITTED | GLB_UNIT_RESET | GLB_PORT_RESET | GLB_DEVICE_RESET | GLB_BOOT_STATUS
  | GLB_RESET_CAUSE | GLB_BOOT_CTRL | TRS_STATUS | TRS_IMAGE_DIGEST | TRS_BUILD_ID | TRS_ERROR | TRS_HOT_STATUS
  | TRS_KEY_STATUS | TRS_ENABLE | TRS_SLOT_CHECK | BEA_CONFIG | BEA_COUNT | BEA_PHASE | BEA_STATUS
  | BEA_BUDGET | BEA_OFFSET | BEA_HOLDOVER | BEA_COMMIT_HOLD | BEA_COMMIT_PENDING | BEA_COMMIT_AT
  | BEA_COMMIT_ARM | BEA_PPS_COUNT | BEA_PPS_PHASE | BEA_LINK_DELAY | SER_CTRL | SER_BRINGUP_CFG
  | SER_PLL_STATUS | SER_PORT_CTRL | SER_PORT_STATUS | SER_LANE_STATUS | SER_FFE | SER_CTLE | SER_DFE_TAPS
  | SER_EQ_OVERRIDE | SER_DFE_OVERRIDE | SER_TEST | SER_PRBS_COUNT | LNK_CTRL | LNK_TIMERS | LNK_HEALTH
  | LNK_PORT_STATUS | LNK_REPLAY_STATUS | LNK_ERR_COUNT | LNK_FEC_COUNT | LNK_PORT_CTRL | RTE_CTRL
  | RTE_NODE | RTE_ARB | RTE_TC_WEIGHT | RTE_ADAPT | RTE_ADAPT_OVERRIDE | RTE_EDDY | RTE_EDDY_OVERRIDE
  | RTE_LIMITER_CFG | RTE_LIMITER_STATUS | RTE_DROP_COUNT | RTE_SEED | RTE_MGMT_ALLOW | RTE_PORT_STATUS
  | RTE_PORT_FALLBACK | RTE_CONG | RTE_CREDIT | RTE_GROUP_TABLE | RTE_ALIAS | MCT_CTRL | MCT_TREE_ADDR
  | MCT_TREE_CMD | MCT_TREE_RESULT | MCT_COUNT | MCT_MC_LAND | MCT_TREE_STATUS | MCT_MC_MASK | MCT_MC_CTL
  | HIF_CTRL | HIF_FN_INFO | HIF_QCT_BASE | HIF_SCHED | HIF_QUEUE_ADDR | HIF_QUEUE_CMD | HIF_QUEUE_RESULT
  | HIF_COUNT | HIF_PORT_STATUS | HIF_VF_MAP | HIF_EQ_BASE | HIF_EQ_CFG | HIF_EQ_STATUS | HIF_EQ_DB
  | HIF_SQ_DB | HIF_CQ_DB | HIF_Q_CTRL | HIF_Q_STATUS | HIF_Q_STATE | HIF_CQ_STATUS | RMA_CTRL | RMA_CFG
  | RMA_RT_BASE | RMA_REG_CMD | RMA_REG_RESULT | RMA_QINFO_SEL | RMA_QINFO | RMA_COUNT | RMA_STATUS
  | RMA_VF_RMAP | MAT_CTRL | MAT_ML_ADDR | MAT_ML_CMD | MAT_ML_RESULT | MAT_COUNT | MAT_ML_STATUS
  | COH_CTRL | COH_MODE | COH_FWD_TIMEOUT | COH_CMD | COH_RESULT | COH_STATUS | COH_COUNT | COH_EXPORT
  | COH_MEMBER | COH_HDM_TARGET | PEG_CTRL | PEG_CFG | PEG_SUPERVISOR | PEG_FORCE | PEG_COUNT | PEG_FN_CFG
  | PEG_GROUP | PEG_VF_MAP | PEG_TAKE | PEG_TRY | PEG_RELEASE | PEG_WATCH | PEG_STATE | ECC_CTRL
  | ECC_CODES | ECC_SCRUB_CFG | ECC_LAST_UE | ECC_FLIP_CTRL | ECC_FLIP_DATA | ECC_FLIP_STATUS | ECC_WIN_SEL
  | ECC_WIN_STATUS | ECC_REGION_STATUS | ECC_WIN | FLT_CTRL | FLT_STATUS | FLT_THRESH | FLT_NOTIFY
  | FLT_FORCE_INST | FLT_STICKY | FLT_FORCE | FLT_RICH_ASSIGN | FLT_RICH_META | FLT_RICH_ADDR | FLT_RICH_INFO
  | FLT_RICH_BEAT | FLT_SEV | PWR_CTRL | PWR_FABRIC_TOL | PWR_STATE | PWR_IDLE | PWR_ENV | PWR_POWER
  | PWR_TEMP | PWR_COOLING | PWR_LOOP_CFG | PWR_PORT_CFG | PWR_PORT_AUTO | PWR_ENG | PWR_ENG_OVERRIDE
  | PWR_PLACE | PWR_HOST_TOL | PWR_LOOP_GAIN | PWR_AVS | PWR_AVS_OVERRIDE | GRN_CTRL | GRN_EOL | GRN_INPUT
  | FMN_INFO | FMN_MB_CTRL | FMN_MB_STATUS | FMN_REQ | FMN_RESP
  deriving DecidableEq, Repr

/-- One field of a register: its lowest bit, its width, access type, class and the reset value of its table. -/
structure Fld where
  reg : Reg
  lo : Nat
  w : Nat
  acc : Acc
  cls : Cls
  rst : Nat
  deriving DecidableEq, Repr

abbrev F.GLB_IDENT.DEVICE : Fld := ⟨.GLB_IDENT, 16, 16, .RO, .N, 0xf1a0⟩
abbrev F.GLB_IDENT.STEP_LETTER : Fld := ⟨.GLB_IDENT, 8, 8, .RO, .N, 0x42⟩
abbrev F.GLB_IDENT.STEP_DIGIT : Fld := ⟨.GLB_IDENT, 0, 8, .RO, .N, 0⟩
abbrev F.GLB_FITTED.BAY_MASK : Fld := ⟨.GLB_FITTED, 24, 16, .RO, .N, 0⟩
abbrev F.GLB_FITTED.FMN : Fld := ⟨.GLB_FITTED, 18, 1, .RO, .N, 1⟩
abbrev F.GLB_FITTED.GRN : Fld := ⟨.GLB_FITTED, 17, 1, .RO, .N, 1⟩
abbrev F.GLB_FITTED.PWR : Fld := ⟨.GLB_FITTED, 16, 1, .RO, .N, 1⟩
abbrev F.GLB_FITTED.FLT : Fld := ⟨.GLB_FITTED, 15, 1, .RO, .N, 1⟩
abbrev F.GLB_FITTED.ECC : Fld := ⟨.GLB_FITTED, 14, 1, .RO, .N, 1⟩
abbrev F.GLB_FITTED.PEG : Fld := ⟨.GLB_FITTED, 13, 1, .RO, .N, 0⟩
abbrev F.GLB_FITTED.COH : Fld := ⟨.GLB_FITTED, 12, 1, .RO, .N, 0⟩
abbrev F.GLB_FITTED.MAT : Fld := ⟨.GLB_FITTED, 11, 1, .RO, .N, 0⟩
abbrev F.GLB_FITTED.RMA : Fld := ⟨.GLB_FITTED, 10, 1, .RO, .N, 0⟩
abbrev F.GLB_FITTED.HIF1 : Fld := ⟨.GLB_FITTED, 9, 1, .RO, .N, 0⟩
abbrev F.GLB_FITTED.HIF0 : Fld := ⟨.GLB_FITTED, 8, 1, .RO, .N, 0⟩
abbrev F.GLB_FITTED.CONF : Fld := ⟨.GLB_FITTED, 7, 1, .RO, .N, 0⟩
abbrev F.GLB_FITTED.MCAST : Fld := ⟨.GLB_FITTED, 6, 1, .RO, .N, 1⟩
abbrev F.GLB_FITTED.RTE : Fld := ⟨.GLB_FITTED, 5, 1, .RO, .N, 1⟩
abbrev F.GLB_FITTED.LNK : Fld := ⟨.GLB_FITTED, 4, 1, .RO, .N, 1⟩
abbrev F.GLB_FITTED.SER : Fld := ⟨.GLB_FITTED, 3, 1, .RO, .N, 1⟩
abbrev F.GLB_FITTED.BEA : Fld := ⟨.GLB_FITTED, 2, 1, .RO, .N, 1⟩
abbrev F.GLB_FITTED.TRS : Fld := ⟨.GLB_FITTED, 1, 1, .RO, .N, 1⟩
abbrev F.GLB_FITTED.GLB : Fld := ⟨.GLB_FITTED, 0, 1, .RO, .N, 1⟩
abbrev F.GLB_UNIT_RESET.BUSY : Fld := ⟨.GLB_UNIT_RESET, 32, 19, .RO, .N, 0⟩
abbrev F.GLB_UNIT_RESET.REQUEST : Fld := ⟨.GLB_UNIT_RESET, 0, 19, .WO, .L, 0⟩
abbrev F.GLB_PORT_RESET.PORTS : Fld := ⟨.GLB_PORT_RESET, 0, 64, .WO, .L, 0⟩
abbrev F.GLB_DEVICE_RESET.KEY : Fld := ⟨.GLB_DEVICE_RESET, 56, 8, .WO, .L, 0⟩
abbrev F.GLB_DEVICE_RESET.RESET : Fld := ⟨.GLB_DEVICE_RESET, 0, 1, .WO, .L, 0⟩
abbrev F.GLB_BOOT_STATUS.BOOT_MS : Fld := ⟨.GLB_BOOT_STATUS, 40, 16, .RO, .N, 0⟩
abbrev F.GLB_BOOT_STATUS.REPAIRS : Fld := ⟨.GLB_BOOT_STATUS, 32, 8, .RO, .N, 0⟩
abbrev F.GLB_BOOT_STATUS.BAD_BAYS : Fld := ⟨.GLB_BOOT_STATUS, 16, 16, .RO, .N, 0⟩
abbrev F.GLB_BOOT_STATUS.FW_SLOT : Fld := ⟨.GLB_BOOT_STATUS, 6, 2, .RO, .N, 0⟩
abbrev F.GLB_BOOT_STATUS.PHASE : Fld := ⟨.GLB_BOOT_STATUS, 0, 3, .RO, .N, 0⟩
abbrev F.GLB_RESET_CAUSE.DEVICE_RESETS : Fld := ⟨.GLB_RESET_CAUSE, 48, 16, .RO, .N, 0⟩
abbrev F.GLB_RESET_CAUSE.CAUSE : Fld := ⟨.GLB_RESET_CAUSE, 0, 4, .RO, .N, 0⟩
abbrev F.GLB_BOOT_CTRL.ROUTES_READY : Fld := ⟨.GLB_BOOT_CTRL, 0, 1, .RW, .L, 0⟩
abbrev F.TRS_STATUS.LOADS : Fld := ⟨.TRS_STATUS, 48, 16, .RO, .N, 0⟩
abbrev F.TRS_STATUS.SEC_VERSION : Fld := ⟨.TRS_STATUS, 40, 8, .RO, .N, 0⟩
abbrev F.TRS_STATUS.SIGN_SLOT : Fld := ⟨.TRS_STATUS, 10, 2, .RO, .N, 0⟩
abbrev F.TRS_STATUS.SOURCE : Fld := ⟨.TRS_STATUS, 8, 2, .RO, .N, 0⟩
abbrev F.TRS_STATUS.PUSH_CLOSED : Fld := ⟨.TRS_STATUS, 2, 1, .RO, .N, 0⟩
abbrev F.TRS_STATUS.STATE : Fld := ⟨.TRS_STATUS, 0, 2, .RO, .N, 0⟩
abbrev F.TRS_IMAGE_DIGEST.DIGEST : Fld := ⟨.TRS_IMAGE_DIGEST, 0, 64, .RO, .N, 0⟩
abbrev F.TRS_BUILD_ID.BUILD_ID : Fld := ⟨.TRS_BUILD_ID, 0, 64, .RO, .N, 0⟩
abbrev F.TRS_ERROR.MEMBER_TYPE : Fld := ⟨.TRS_ERROR, 48, 16, .RO, .N, 0⟩
abbrev F.TRS_ERROR.OFFSET : Fld := ⟨.TRS_ERROR, 24, 24, .RO, .N, 0⟩
abbrev F.TRS_ERROR.CHECK : Fld := ⟨.TRS_ERROR, 8, 8, .RO, .N, 0⟩
abbrev F.TRS_ERROR.ORIGIN : Fld := ⟨.TRS_ERROR, 2, 2, .RO, .N, 0⟩
abbrev F.TRS_ERROR.VALID : Fld := ⟨.TRS_ERROR, 0, 1, .RW1C, .L, 0⟩
abbrev F.TRS_HOT_STATUS.HOT_COMMITS : Fld := ⟨.TRS_HOT_STATUS, 8, 16, .RO, .N, 0⟩
abbrev F.TRS_HOT_STATUS.DISCARDED : Fld := ⟨.TRS_HOT_STATUS, 4, 1, .RW1C, .L, 0⟩
abbrev F.TRS_HOT_STATUS.STATE : Fld := ⟨.TRS_HOT_STATUS, 0, 2, .RO, .N, 0⟩
abbrev F.TRS_KEY_STATUS.SEC_FLOOR : Fld := ⟨.TRS_KEY_STATUS, 8, 7, .RO, .N, 0⟩
abbrev F.TRS_KEY_STATUS.REVOKED : Fld := ⟨.TRS_KEY_STATUS, 4, 4, .RO, .N, 0⟩
abbrev F.TRS_KEY_STATUS.PROGRAMMED : Fld := ⟨.TRS_KEY_STATUS, 0, 4, .RO, .N, 0⟩
abbrev F.TRS_ENABLE.ENABLE : Fld := ⟨.TRS_ENABLE, 0, 40, .TR, .N, 0x7c007⟩
abbrev F.TRS_SLOT_CHECK.START : Fld := ⟨.TRS_SLOT_CHECK, 18, 2, .WO, .L, 0⟩
abbrev F.TRS_SLOT_CHECK.BUSY : Fld := ⟨.TRS_SLOT_CHECK, 16, 2, .RO, .N, 0⟩
abbrev F.TRS_SLOT_CHECK.SLOT1_CHECK : Fld := ⟨.TRS_SLOT_CHECK, 8, 8, .RO, .N, 0⟩
abbrev F.TRS_SLOT_CHECK.SLOT0_CHECK : Fld := ⟨.TRS_SLOT_CHECK, 0, 8, .RO, .N, 0⟩
abbrev F.BEA_CONFIG.TASK_EN : Fld := ⟨.BEA_CONFIG, 16, 8, .TR, .N, 0⟩
abbrev F.BEA_CONFIG.EXT_REF : Fld := ⟨.BEA_CONFIG, 11, 1, .TR, .N, 0⟩
abbrev F.BEA_CONFIG.ROLE : Fld := ⟨.BEA_CONFIG, 8, 2, .TR, .N, 0⟩
abbrev F.BEA_CONFIG.PERIOD_UNITS : Fld := ⟨.BEA_CONFIG, 0, 8, .TR, .N, 0x14⟩
abbrev F.BEA_COUNT.COUNT : Fld := ⟨.BEA_COUNT, 0, 64, .RO, .N, 0⟩
abbrev F.BEA_PHASE.CYCLE : Fld := ⟨.BEA_PHASE, 4, 14, .RO, .N, 0⟩
abbrev F.BEA_PHASE.SUB : Fld := ⟨.BEA_PHASE, 0, 4, .RO, .N, 0⟩
abbrev F.BEA_STATUS.OVERRUNS : Fld := ⟨.BEA_STATUS, 56, 8, .RO, .N, 0⟩
abbrev F.BEA_STATUS.DISTANCE : Fld := ⟨.BEA_STATUS, 40, 8, .RO, .N, 0xff⟩
abbrev F.BEA_STATUS.UPSTREAM : Fld := ⟨.BEA_STATUS, 34, 6, .RO, .N, 0⟩
abbrev F.BEA_STATUS.UP_VALID : Fld := ⟨.BEA_STATUS, 33, 1, .RO, .N, 0⟩
abbrev F.BEA_STATUS.EVER_LOCKED : Fld := ⟨.BEA_STATUS, 32, 1, .RO, .N, 0⟩
abbrev F.BEA_STATUS.MASTER_ID : Fld := ⟨.BEA_STATUS, 15, 17, .RO, .N, 0⟩
abbrev F.BEA_STATUS.MASTER_PRIO : Fld := ⟨.BEA_STATUS, 14, 1, .RO, .N, 0⟩
abbrev F.BEA_STATUS.REF_LOCK : Fld := ⟨.BEA_STATUS, 13, 1, .RO, .N, 0⟩
abbrev F.BEA_STATUS.STATE : Fld := ⟨.BEA_STATUS, 0, 3, .RO, .N, 0⟩
abbrev F.BEA_BUDGET.PEAK : Fld := ⟨.BEA_BUDGET, 48, 16, .RO, .N, 0⟩
abbrev F.BEA_BUDGET.ENABLED : Fld := ⟨.BEA_BUDGET, 32, 16, .RO, .N, 0⟩
abbrev F.BEA_BUDGET.MANDATORY : Fld := ⟨.BEA_BUDGET, 16, 16, .RO, .N, 0x188⟩
abbrev F.BEA_BUDGET.BUDGET : Fld := ⟨.BEA_BUDGET, 0, 16, .RO, .N, 0x3e8⟩
abbrev F.BEA_OFFSET.HOLD_MS : Fld := ⟨.BEA_OFFSET, 32, 16, .RO, .N, 0⟩
abbrev F.BEA_OFFSET.OFFSET : Fld := ⟨.BEA_OFFSET, 0, 16, .RO, .N, 0⟩
abbrev F.BEA_HOLDOVER.LIMIT_S : Fld := ⟨.BEA_HOLDOVER, 0, 4, .RW, .L, 0xa⟩
abbrev F.BEA_COMMIT_HOLD.HOLD : Fld := ⟨.BEA_COMMIT_HOLD, 0, 17, .RW, .L, 0⟩
abbrev F.BEA_COMMIT_PENDING.PENDING : Fld := ⟨.BEA_COMMIT_PENDING, 0, 17, .RO, .N, 0⟩
abbrev F.BEA_COMMIT_AT.TARGET : Fld := ⟨.BEA_COMMIT_AT, 0, 64, .RW, .L, 0⟩
abbrev F.BEA_COMMIT_ARM.ARM : Fld := ⟨.BEA_COMMIT_ARM, 63, 1, .RW, .L, 0⟩
abbrev F.BEA_COMMIT_ARM.MASK : Fld := ⟨.BEA_COMMIT_ARM, 0, 17, .RW, .L, 0⟩
abbrev F.BEA_PPS_COUNT.COUNT : Fld := ⟨.BEA_PPS_COUNT, 0, 64, .RO, .N, 0⟩
abbrev F.BEA_PPS_PHASE.VALID : Fld := ⟨.BEA_PPS_PHASE, 63, 1, .RO, .N, 0⟩
abbrev F.BEA_PPS_PHASE.CYCLE : Fld := ⟨.BEA_PPS_PHASE, 4, 14, .RO, .N, 0⟩
abbrev F.BEA_PPS_PHASE.SUB : Fld := ⟨.BEA_PPS_PHASE, 0, 4, .RO, .N, 0⟩
abbrev F.BEA_LINK_DELAY.VALID : Fld := ⟨.BEA_LINK_DELAY, 63, 1, .RO, .N, 0⟩
abbrev F.BEA_LINK_DELAY.DELAY : Fld := ⟨.BEA_LINK_DELAY, 0, 16, .RO, .N, 0⟩
abbrev F.SER_CTRL.ENABLE : Fld := ⟨.SER_CTRL, 0, 1, .RW, .L, 0⟩
abbrev F.SER_BRINGUP_CFG.EYE_FLOOR : Fld := ⟨.SER_BRINGUP_CFG, 56, 8, .RW, .B, 0x18⟩
abbrev F.SER_BRINGUP_CFG.ERR_MAX : Fld := ⟨.SER_BRINGUP_CFG, 48, 8, .RW, .B, 0x14⟩
abbrev F.SER_BRINGUP_CFG.CAPS_TIMEOUT : Fld := ⟨.SER_BRINGUP_CFG, 32, 16, .RW, .B, 0x3e8⟩
abbrev F.SER_BRINGUP_CFG.TRAIN_US : Fld := ⟨.SER_BRINGUP_CFG, 20, 12, .RW, .B, 0x190⟩
abbrev F.SER_BRINGUP_CFG.CHECK_US : Fld := ⟨.SER_BRINGUP_CFG, 8, 12, .RW, .B, 0x64⟩
abbrev F.SER_BRINGUP_CFG.RETRY_MS : Fld := ⟨.SER_BRINGUP_CFG, 0, 8, .RW, .B, 0xa⟩
abbrev F.SER_PLL_STATUS.LOCK : Fld := ⟨.SER_PLL_STATUS, 0, 4, .RO, .N, 0⟩
abbrev F.SER_PORT_CTRL.MODE : Fld := ⟨.SER_PORT_CTRL, 10, 2, .RW, .L, 0⟩
abbrev F.SER_PORT_CTRL.RESTART : Fld := ⟨.SER_PORT_CTRL, 9, 1, .WO, .L, 0⟩
abbrev F.SER_PORT_CTRL.POWER_DOWN : Fld := ⟨.SER_PORT_CTRL, 8, 1, .RW, .L, 0⟩
abbrev F.SER_PORT_CTRL.TARGET_STEP : Fld := ⟨.SER_PORT_CTRL, 4, 2, .RW, .B, 0⟩
abbrev F.SER_PORT_CTRL.TARGET_WIDTH : Fld := ⟨.SER_PORT_CTRL, 2, 2, .RW, .B, 0⟩
abbrev F.SER_PORT_STATUS.PEER_NODE : Fld := ⟨.SER_PORT_STATUS, 47, 17, .RO, .N, 0⟩
abbrev F.SER_PORT_STATUS.PEER_PORT : Fld := ⟨.SER_PORT_STATUS, 41, 6, .RO, .N, 0⟩
abbrev F.SER_PORT_STATUS.PEER_ROUTER : Fld := ⟨.SER_PORT_STATUS, 40, 1, .RO, .N, 0⟩
abbrev F.SER_PORT_STATUS.PEER_BEAT : Fld := ⟨.SER_PORT_STATUS, 39, 1, .RO, .N, 0⟩
abbrev F.SER_PORT_STATUS.PEER_STEP : Fld := ⟨.SER_PORT_STATUS, 37, 2, .RO, .N, 0⟩
abbrev F.SER_PORT_STATUS.FAILS : Fld := ⟨.SER_PORT_STATUS, 29, 8, .RO, .N, 0⟩
abbrev F.SER_PORT_STATUS.SWAPPED : Fld := ⟨.SER_PORT_STATUS, 23, 1, .RO, .N, 0⟩
abbrev F.SER_PORT_STATUS.POL_INV : Fld := ⟨.SER_PORT_STATUS, 21, 2, .RO, .N, 0⟩
abbrev F.SER_PORT_STATUS.LANES : Fld := ⟨.SER_PORT_STATUS, 19, 2, .RO, .N, 0⟩
abbrev F.SER_PORT_STATUS.STEP : Fld := ⟨.SER_PORT_STATUS, 14, 2, .RO, .N, 0⟩
abbrev F.SER_PORT_STATUS.WIDTH : Fld := ⟨.SER_PORT_STATUS, 12, 2, .RO, .N, 0⟩
abbrev F.SER_PORT_STATUS.STATE : Fld := ⟨.SER_PORT_STATUS, 0, 3, .RO, .N, 0⟩
abbrev F.SER_LANE_STATUS.HEIGHT_AVG : Fld := ⟨.SER_LANE_STATUS, 48, 16, .RO, .N, 0⟩
abbrev F.SER_LANE_STATUS.WIDTH : Fld := ⟨.SER_LANE_STATUS, 40, 8, .RO, .N, 0⟩
abbrev F.SER_LANE_STATUS.HEIGHT : Fld := ⟨.SER_LANE_STATUS, 16, 16, .RO, .N, 0⟩
abbrev F.SER_LANE_STATUS.WORST_EYE : Fld := ⟨.SER_LANE_STATUS, 14, 2, .RO, .N, 0⟩
abbrev F.SER_LANE_STATUS.REVERTED : Fld := ⟨.SER_LANE_STATUS, 8, 1, .RW1C, .L, 0⟩
abbrev F.SER_LANE_STATUS.LIMIT : Fld := ⟨.SER_LANE_STATUS, 7, 1, .RO, .N, 0⟩
abbrev F.SER_LANE_STATUS.FROZEN : Fld := ⟨.SER_LANE_STATUS, 6, 1, .RO, .N, 0⟩
abbrev F.SER_LANE_STATUS.FAILED : Fld := ⟨.SER_LANE_STATUS, 5, 1, .RO, .N, 0⟩
abbrev F.SER_LANE_STATUS.SIG_DET : Fld := ⟨.SER_LANE_STATUS, 4, 1, .RO, .N, 0⟩
abbrev F.SER_LANE_STATUS.CDR_LOCK : Fld := ⟨.SER_LANE_STATUS, 3, 1, .RO, .N, 0⟩
abbrev F.SER_LANE_STATUS.CAL_OK : Fld := ⟨.SER_LANE_STATUS, 2, 1, .RO, .N, 0⟩
abbrev F.SER_LANE_STATUS.POWERED : Fld := ⟨.SER_LANE_STATUS, 1, 1, .RO, .N, 0⟩
abbrev F.SER_FFE.MAIN : Fld := ⟨.SER_FFE, 16, 6, .RO, .N, 0x3f⟩
abbrev F.SER_FFE.POST : Fld := ⟨.SER_FFE, 8, 5, .RW, .B, 0⟩
abbrev F.SER_FFE.PRE : Fld := ⟨.SER_FFE, 0, 5, .RW, .B, 0⟩
abbrev F.SER_CTLE.DC_GAIN : Fld := ⟨.SER_CTLE, 8, 3, .RW, .B, 0⟩
abbrev F.SER_CTLE.PEAK : Fld := ⟨.SER_CTLE, 0, 4, .RW, .B, 0⟩
abbrev F.SER_DFE_TAPS.TAP1 : Fld := ⟨.SER_DFE_TAPS, 0, 5, .RW, .B, 0⟩
abbrev F.SER_DFE_TAPS.TAP2 : Fld := ⟨.SER_DFE_TAPS, 5, 5, .RW, .B, 0⟩
abbrev F.SER_DFE_TAPS.TAP3 : Fld := ⟨.SER_DFE_TAPS, 10, 5, .RW, .B, 0⟩
abbrev F.SER_DFE_TAPS.TAP4 : Fld := ⟨.SER_DFE_TAPS, 15, 5, .RW, .B, 0⟩
abbrev F.SER_DFE_TAPS.TAP5 : Fld := ⟨.SER_DFE_TAPS, 20, 5, .RW, .B, 0⟩
abbrev F.SER_DFE_TAPS.TAP6 : Fld := ⟨.SER_DFE_TAPS, 25, 5, .RW, .B, 0⟩
abbrev F.SER_DFE_TAPS.TAP7 : Fld := ⟨.SER_DFE_TAPS, 30, 5, .RW, .B, 0⟩
abbrev F.SER_DFE_TAPS.TAP8 : Fld := ⟨.SER_DFE_TAPS, 35, 5, .RW, .B, 0⟩
abbrev F.SER_DFE_TAPS.TAP9 : Fld := ⟨.SER_DFE_TAPS, 40, 5, .RW, .B, 0⟩
abbrev F.SER_DFE_TAPS.TAP10 : Fld := ⟨.SER_DFE_TAPS, 45, 5, .RW, .B, 0⟩
abbrev F.SER_DFE_TAPS.TAP11 : Fld := ⟨.SER_DFE_TAPS, 50, 5, .RW, .B, 0⟩
abbrev F.SER_DFE_TAPS.TAP12 : Fld := ⟨.SER_DFE_TAPS, 55, 5, .RW, .B, 0⟩
abbrev F.SER_EQ_OVERRIDE.FFE_OVR : Fld := ⟨.SER_EQ_OVERRIDE, 63, 1, .RW, .B, 0⟩
abbrev F.SER_EQ_OVERRIDE.CTLE_OVR : Fld := ⟨.SER_EQ_OVERRIDE, 62, 1, .RW, .B, 0⟩
abbrev F.SER_EQ_OVERRIDE.DFE_OVR : Fld := ⟨.SER_EQ_OVERRIDE, 61, 1, .RW, .B, 0⟩
abbrev F.SER_EQ_OVERRIDE.FREEZE : Fld := ⟨.SER_EQ_OVERRIDE, 60, 1, .RW, .B, 0⟩
abbrev F.SER_EQ_OVERRIDE.DC_GAIN : Fld := ⟨.SER_EQ_OVERRIDE, 24, 3, .RW, .B, 0⟩
abbrev F.SER_EQ_OVERRIDE.PEAK : Fld := ⟨.SER_EQ_OVERRIDE, 16, 4, .RW, .B, 0⟩
abbrev F.SER_EQ_OVERRIDE.POST : Fld := ⟨.SER_EQ_OVERRIDE, 8, 5, .RW, .B, 0⟩
abbrev F.SER_EQ_OVERRIDE.PRE : Fld := ⟨.SER_EQ_OVERRIDE, 0, 5, .RW, .B, 0⟩
abbrev F.SER_DFE_OVERRIDE.TAP1 : Fld := ⟨.SER_DFE_OVERRIDE, 0, 5, .RW, .B, 0⟩
abbrev F.SER_DFE_OVERRIDE.TAP2 : Fld := ⟨.SER_DFE_OVERRIDE, 5, 5, .RW, .B, 0⟩
abbrev F.SER_DFE_OVERRIDE.TAP3 : Fld := ⟨.SER_DFE_OVERRIDE, 10, 5, .RW, .B, 0⟩
abbrev F.SER_DFE_OVERRIDE.TAP4 : Fld := ⟨.SER_DFE_OVERRIDE, 15, 5, .RW, .B, 0⟩
abbrev F.SER_DFE_OVERRIDE.TAP5 : Fld := ⟨.SER_DFE_OVERRIDE, 20, 5, .RW, .B, 0⟩
abbrev F.SER_DFE_OVERRIDE.TAP6 : Fld := ⟨.SER_DFE_OVERRIDE, 25, 5, .RW, .B, 0⟩
abbrev F.SER_DFE_OVERRIDE.TAP7 : Fld := ⟨.SER_DFE_OVERRIDE, 30, 5, .RW, .B, 0⟩
abbrev F.SER_DFE_OVERRIDE.TAP8 : Fld := ⟨.SER_DFE_OVERRIDE, 35, 5, .RW, .B, 0⟩
abbrev F.SER_DFE_OVERRIDE.TAP9 : Fld := ⟨.SER_DFE_OVERRIDE, 40, 5, .RW, .B, 0⟩
abbrev F.SER_DFE_OVERRIDE.TAP10 : Fld := ⟨.SER_DFE_OVERRIDE, 45, 5, .RW, .B, 0⟩
abbrev F.SER_DFE_OVERRIDE.TAP11 : Fld := ⟨.SER_DFE_OVERRIDE, 50, 5, .RW, .B, 0⟩
abbrev F.SER_DFE_OVERRIDE.TAP12 : Fld := ⟨.SER_DFE_OVERRIDE, 55, 5, .RW, .B, 0⟩
abbrev F.SER_TEST.PRESET : Fld := ⟨.SER_TEST, 20, 3, .RW, .L, 0⟩
abbrev F.SER_TEST.STEP : Fld := ⟨.SER_TEST, 16, 2, .RW, .L, 0⟩
abbrev F.SER_TEST.LOOP : Fld := ⟨.SER_TEST, 12, 3, .RW, .L, 0⟩
abbrev F.SER_TEST.PATTERN : Fld := ⟨.SER_TEST, 8, 4, .RW, .L, 0⟩
abbrev F.SER_TEST.GEN_EN : Fld := ⟨.SER_TEST, 4, 1, .RW, .L, 0⟩
abbrev F.SER_TEST.CHK_EN : Fld := ⟨.SER_TEST, 3, 1, .RW, .L, 0⟩
abbrev F.SER_TEST.INVERT : Fld := ⟨.SER_TEST, 2, 1, .RW, .L, 0⟩
abbrev F.SER_TEST.CLEAR : Fld := ⟨.SER_TEST, 1, 1, .WO, .L, 0⟩
abbrev F.SER_TEST.INJECT : Fld := ⟨.SER_TEST, 0, 1, .WO, .L, 0⟩
abbrev F.SER_PRBS_COUNT.LOCK : Fld := ⟨.SER_PRBS_COUNT, 63, 1, .RO, .N, 0⟩
abbrev F.SER_PRBS_COUNT.SAT : Fld := ⟨.SER_PRBS_COUNT, 62, 1, .RO, .N, 0⟩
abbrev F.SER_PRBS_COUNT.BITS : Fld := ⟨.SER_PRBS_COUNT, 40, 22, .RO, .N, 0⟩
abbrev F.SER_PRBS_COUNT.ERRORS : Fld := ⟨.SER_PRBS_COUNT, 0, 40, .RO, .N, 0⟩
abbrev F.LNK_CTRL.ENABLE : Fld := ⟨.LNK_CTRL, 0, 1, .RW, .L, 0⟩
abbrev F.LNK_TIMERS.NOPROG_US : Fld := ⟨.LNK_TIMERS, 48, 16, .RW, .B, 0x3e8⟩
abbrev F.LNK_TIMERS.ACK_TIMEOUT : Fld := ⟨.LNK_TIMERS, 32, 16, .RW, .B, 0x64⟩
abbrev F.LNK_TIMERS.NAK_RETRY : Fld := ⟨.LNK_TIMERS, 16, 16, .RW, .B, 0x64⟩
abbrev F.LNK_TIMERS.INIT_TIMEOUT : Fld := ⟨.LNK_TIMERS, 0, 16, .RW, .B, 0xc8⟩
abbrev F.LNK_HEALTH.REPLAY_MAX : Fld := ⟨.LNK_HEALTH, 48, 16, .TR, .N, 0x80⟩
abbrev F.LNK_HEALTH.UNCORR_MAX : Fld := ⟨.LNK_HEALTH, 32, 16, .TR, .N, 0x40⟩
abbrev F.LNK_HEALTH.WINDOW : Fld := ⟨.LNK_HEALTH, 0, 21, .TR, .N, 0x100000⟩
abbrev F.LNK_PORT_STATUS.STALL_BEATS : Fld := ⟨.LNK_PORT_STATUS, 32, 32, .RO, .N, 0⟩
abbrev F.LNK_PORT_STATUS.DOWNS : Fld := ⟨.LNK_PORT_STATUS, 16, 16, .RO, .N, 0⟩
abbrev F.LNK_PORT_STATUS.PEER_REASON : Fld := ⟨.LNK_PORT_STATUS, 12, 4, .RO, .N, 0⟩
abbrev F.LNK_PORT_STATUS.LAST_REASON : Fld := ⟨.LNK_PORT_STATUS, 8, 4, .RO, .N, 0⟩
abbrev F.LNK_PORT_STATUS.STATE : Fld := ⟨.LNK_PORT_STATUS, 0, 2, .RO, .N, 0⟩
abbrev F.LNK_REPLAY_STATUS.TX_NEXT : Fld := ⟨.LNK_REPLAY_STATUS, 52, 12, .RO, .N, 0⟩
abbrev F.LNK_REPLAY_STATUS.TX_OLDEST : Fld := ⟨.LNK_REPLAY_STATUS, 40, 12, .RO, .N, 0⟩
abbrev F.LNK_REPLAY_STATUS.OUTSTANDING : Fld := ⟨.LNK_REPLAY_STATUS, 30, 10, .RO, .N, 0⟩
abbrev F.LNK_REPLAY_STATUS.FULL : Fld := ⟨.LNK_REPLAY_STATUS, 29, 1, .RO, .N, 0⟩
abbrev F.LNK_REPLAY_STATUS.REPLAYING : Fld := ⟨.LNK_REPLAY_STATUS, 28, 1, .RO, .N, 0⟩
abbrev F.LNK_REPLAY_STATUS.NAK_OUT : Fld := ⟨.LNK_REPLAY_STATUS, 27, 1, .RO, .N, 0⟩
abbrev F.LNK_REPLAY_STATUS.RX_EXPECT : Fld := ⟨.LNK_REPLAY_STATUS, 12, 12, .RO, .N, 0⟩
abbrev F.LNK_ERR_COUNT.UNCORR_WIN : Fld := ⟨.LNK_ERR_COUNT, 48, 16, .RO, .N, 0⟩
abbrev F.LNK_ERR_COUNT.REPLAY_WIN : Fld := ⟨.LNK_ERR_COUNT, 32, 16, .RO, .N, 0⟩
abbrev F.LNK_ERR_COUNT.UNCORR_TOTAL : Fld := ⟨.LNK_ERR_COUNT, 16, 16, .RO, .N, 0⟩
abbrev F.LNK_ERR_COUNT.REPLAY_TOTAL : Fld := ⟨.LNK_ERR_COUNT, 0, 16, .RO, .N, 0⟩
abbrev F.LNK_FEC_COUNT.CORR_BYTES : Fld := ⟨.LNK_FEC_COUNT, 32, 32, .RO, .N, 0⟩
abbrev F.LNK_FEC_COUNT.CORR_FLITS : Fld := ⟨.LNK_FEC_COUNT, 0, 32, .RO, .N, 0⟩
abbrev F.LNK_PORT_CTRL.CORRUPT : Fld := ⟨.LNK_PORT_CTRL, 0, 1, .WO, .L, 0⟩
abbrev F.RTE_CTRL.ADAPT_VN : Fld := ⟨.RTE_CTRL, 8, 5, .RW, .B, 0x1e⟩
abbrev F.RTE_CTRL.NONMIN_EN : Fld := ⟨.RTE_CTRL, 1, 1, .RW, .B, 1⟩
abbrev F.RTE_CTRL.ENABLE : Fld := ⟨.RTE_CTRL, 0, 1, .RW, .L, 0⟩
abbrev F.RTE_NODE.GROUP_Y : Fld := ⟨.RTE_NODE, 53, 5, .TR, .N, 0⟩
abbrev F.RTE_NODE.GROUP_X : Fld := ⟨.RTE_NODE, 48, 5, .TR, .N, 0⟩
abbrev F.RTE_NODE.GROUPS : Fld := ⟨.RTE_NODE, 32, 10, .TR, .N, 0⟩
abbrev F.RTE_NODE.NODE_ID : Fld := ⟨.RTE_NODE, 0, 17, .TR, .N, 0⟩
abbrev F.RTE_ARB.AGE_PROMOTE : Fld := ⟨.RTE_ARB, 0, 5, .RW, .B, 8⟩
abbrev F.RTE_TC_WEIGHT.WEIGHT_0 : Fld := ⟨.RTE_TC_WEIGHT, 0, 8, .RW, .B, 0x10⟩
abbrev F.RTE_TC_WEIGHT.WEIGHT_1 : Fld := ⟨.RTE_TC_WEIGHT, 8, 8, .RW, .B, 0x10⟩
abbrev F.RTE_TC_WEIGHT.WEIGHT_2 : Fld := ⟨.RTE_TC_WEIGHT, 16, 8, .RW, .B, 0x10⟩
abbrev F.RTE_TC_WEIGHT.WEIGHT_3 : Fld := ⟨.RTE_TC_WEIGHT, 24, 8, .RW, .B, 0x10⟩
abbrev F.RTE_TC_WEIGHT.WEIGHT_4 : Fld := ⟨.RTE_TC_WEIGHT, 32, 8, .RW, .B, 0x10⟩
abbrev F.RTE_TC_WEIGHT.WEIGHT_5 : Fld := ⟨.RTE_TC_WEIGHT, 40, 8, .RW, .B, 0x10⟩
abbrev F.RTE_TC_WEIGHT.WEIGHT_6 : Fld := ⟨.RTE_TC_WEIGHT, 48, 8, .RW, .B, 0x10⟩
abbrev F.RTE_TC_WEIGHT.WEIGHT_7 : Fld := ⟨.RTE_TC_WEIGHT, 56, 8, .RW, .B, 0x10⟩
abbrev F.RTE_ADAPT.BIAS : Fld := ⟨.RTE_ADAPT, 0, 16, .RW, .B, 0x40⟩
abbrev F.RTE_ADAPT_OVERRIDE.OVR : Fld := ⟨.RTE_ADAPT_OVERRIDE, 63, 1, .RW, .B, 0⟩
abbrev F.RTE_ADAPT_OVERRIDE.BIAS : Fld := ⟨.RTE_ADAPT_OVERRIDE, 0, 16, .RW, .B, 0x40⟩
abbrev F.RTE_EDDY.THRESH : Fld := ⟨.RTE_EDDY, 0, 16, .RW, .B, 0x80⟩
abbrev F.RTE_EDDY_OVERRIDE.OVR : Fld := ⟨.RTE_EDDY_OVERRIDE, 63, 1, .RW, .B, 0⟩
abbrev F.RTE_EDDY_OVERRIDE.THRESH : Fld := ⟨.RTE_EDDY_OVERRIDE, 0, 16, .RW, .B, 0x80⟩
abbrev F.RTE_LIMITER_CFG.RATE_MIN : Fld := ⟨.RTE_LIMITER_CFG, 48, 16, .RW, .B, 8⟩
abbrev F.RTE_LIMITER_CFG.MD : Fld := ⟨.RTE_LIMITER_CFG, 40, 8, .RW, .B, 0x40⟩
abbrev F.RTE_LIMITER_CFG.AI : Fld := ⟨.RTE_LIMITER_CFG, 16, 16, .RW, .B, 0x10⟩
abbrev F.RTE_LIMITER_CFG.FREE_BEATS : Fld := ⟨.RTE_LIMITER_CFG, 0, 16, .RW, .B, 0x40⟩
abbrev F.RTE_LIMITER_STATUS.RATE_CAP : Fld := ⟨.RTE_LIMITER_STATUS, 48, 16, .RO, .N, 0x310⟩
abbrev F.RTE_LIMITER_STATUS.REPLACED : Fld := ⟨.RTE_LIMITER_STATUS, 32, 16, .RO, .N, 0⟩
abbrev F.RTE_LIMITER_STATUS.IN_USE : Fld := ⟨.RTE_LIMITER_STATUS, 0, 13, .RO, .N, 0⟩
abbrev F.RTE_DROP_COUNT.UNROUTABLE : Fld := ⟨.RTE_DROP_COUNT, 48, 16, .RO, .N, 0⟩
abbrev F.RTE_DROP_COUNT.MALFORMED : Fld := ⟨.RTE_DROP_COUNT, 32, 16, .RO, .N, 0⟩
abbrev F.RTE_DROP_COUNT.SRC_BAD : Fld := ⟨.RTE_DROP_COUNT, 16, 16, .RO, .N, 0⟩
abbrev F.RTE_DROP_COUNT.E2E_CRC : Fld := ⟨.RTE_DROP_COUNT, 0, 16, .RO, .N, 0⟩
abbrev F.RTE_SEED.SEED : Fld := ⟨.RTE_SEED, 0, 64, .TR, .N, 0⟩
abbrev F.RTE_MGMT_ALLOW.VALID : Fld := ⟨.RTE_MGMT_ALLOW, 63, 1, .RW, .L, 0⟩
abbrev F.RTE_MGMT_ALLOW.NODE : Fld := ⟨.RTE_MGMT_ALLOW, 0, 17, .RW, .L, 0⟩
abbrev F.RTE_PORT_STATUS.PEER_GROUP : Fld := ⟨.RTE_PORT_STATUS, 16, 9, .RO, .N, 0⟩
abbrev F.RTE_PORT_STATUS.PEER_POS : Fld := ⟨.RTE_PORT_STATUS, 8, 8, .RO, .N, 0⟩
abbrev F.RTE_PORT_STATUS.KIND : Fld := ⟨.RTE_PORT_STATUS, 4, 3, .RO, .N, 0⟩
abbrev F.RTE_PORT_STATUS.DEAD : Fld := ⟨.RTE_PORT_STATUS, 3, 1, .RO, .N, 1⟩
abbrev F.RTE_PORT_FALLBACK.MASK : Fld := ⟨.RTE_PORT_FALLBACK, 0, 64, .RW, .B, 0⟩
abbrev F.RTE_CONG.EPOCH_AVG : Fld := ⟨.RTE_CONG, 48, 16, .RO, .N, 0⟩
abbrev F.RTE_CONG.EPOCH_MAX : Fld := ⟨.RTE_CONG, 32, 16, .RO, .N, 0⟩
abbrev F.RTE_CONG.MARKS : Fld := ⟨.RTE_CONG, 16, 16, .RO, .N, 0⟩
abbrev F.RTE_CONG.QUEUE : Fld := ⟨.RTE_CONG, 0, 16, .RO, .N, 0⟩
abbrev F.RTE_CREDIT.D2 : Fld := ⟨.RTE_CREDIT, 50, 7, .RO, .N, 0⟩
abbrev F.RTE_CREDIT.D1 : Fld := ⟨.RTE_CREDIT, 43, 7, .RO, .N, 0⟩
abbrev F.RTE_CREDIT.D0 : Fld := ⟨.RTE_CREDIT, 36, 7, .RO, .N, 0⟩
abbrev F.RTE_CREDIT.C2 : Fld := ⟨.RTE_CREDIT, 24, 12, .RO, .N, 0⟩
abbrev F.RTE_CREDIT.C1 : Fld := ⟨.RTE_CREDIT, 12, 12, .RO, .N, 0⟩
abbrev F.RTE_CREDIT.C0 : Fld := ⟨.RTE_CREDIT, 0, 12, .RO, .N, 0⟩
abbrev F.RTE_GROUP_TABLE.GW0 : Fld := ⟨.RTE_GROUP_TABLE, 0, 16, .RW, .B, 0⟩
abbrev F.RTE_GROUP_TABLE.GW1 : Fld := ⟨.RTE_GROUP_TABLE, 16, 16, .RW, .B, 0⟩
abbrev F.RTE_GROUP_TABLE.GW2 : Fld := ⟨.RTE_GROUP_TABLE, 32, 16, .RW, .B, 0⟩
abbrev F.RTE_GROUP_TABLE.GW3 : Fld := ⟨.RTE_GROUP_TABLE, 48, 16, .RW, .B, 0⟩
abbrev F.RTE_ALIAS.VALID : Fld := ⟨.RTE_ALIAS, 63, 1, .RW, .B, 0⟩
abbrev F.RTE_ALIAS.PORT : Fld := ⟨.RTE_ALIAS, 16, 6, .RW, .B, 0⟩
abbrev F.RTE_ALIAS.SERVE_POS : Fld := ⟨.RTE_ALIAS, 8, 8, .RW, .B, 0⟩
abbrev F.RTE_ALIAS.POS : Fld := ⟨.RTE_ALIAS, 0, 8, .RW, .B, 0⟩
abbrev F.MCT_CTRL.MC_RATE : Fld := ⟨.MCT_CTRL, 16, 16, .RW, .B, 0x310⟩
abbrev F.MCT_CTRL.ENABLE : Fld := ⟨.MCT_CTRL, 0, 1, .RW, .L, 0⟩
abbrev F.MCT_TREE_ADDR.ADDR : Fld := ⟨.MCT_TREE_ADDR, 6, 58, .RW, .L, 0⟩
abbrev F.MCT_TREE_CMD.EPOCH : Fld := ⟨.MCT_TREE_CMD, 16, 16, .WO, .L, 0⟩
abbrev F.MCT_TREE_CMD.TREE : Fld := ⟨.MCT_TREE_CMD, 4, 10, .WO, .L, 0⟩
abbrev F.MCT_TREE_CMD.CMD : Fld := ⟨.MCT_TREE_CMD, 0, 4, .WO, .L, 0⟩
abbrev F.MCT_TREE_RESULT.BUSY : Fld := ⟨.MCT_TREE_RESULT, 63, 1, .RO, .N, 0⟩
abbrev F.MCT_TREE_RESULT.CODE : Fld := ⟨.MCT_TREE_RESULT, 16, 8, .RO, .N, 0⟩
abbrev F.MCT_TREE_RESULT.TREE : Fld := ⟨.MCT_TREE_RESULT, 0, 10, .RO, .N, 0⟩
abbrev F.MCT_COUNT.MC_SKIPPED : Fld := ⟨.MCT_COUNT, 48, 16, .RO, .N, 0⟩
abbrev F.MCT_COUNT.STALE : Fld := ⟨.MCT_COUNT, 32, 16, .RO, .N, 0⟩
abbrev F.MCT_COUNT.NOTICE_DROP : Fld := ⟨.MCT_COUNT, 16, 16, .RO, .N, 0⟩
abbrev F.MCT_COUNT.MC_GAPS : Fld := ⟨.MCT_COUNT, 0, 16, .RO, .N, 0⟩
abbrev F.MCT_MC_LAND.VALID : Fld := ⟨.MCT_MC_LAND, 63, 1, .RW, .B, 0⟩
abbrev F.MCT_MC_LAND.CQ : Fld := ⟨.MCT_MC_LAND, 32, 20, .RW, .B, 0⟩
abbrev F.MCT_MC_LAND.KEY : Fld := ⟨.MCT_MC_LAND, 0, 32, .RW, .B, 0⟩
abbrev F.MCT_TREE_STATUS.OP_SEQ : Fld := ⟨.MCT_TREE_STATUS, 48, 16, .RO, .N, 0⟩
abbrev F.MCT_TREE_STATUS.EPOCH : Fld := ⟨.MCT_TREE_STATUS, 32, 16, .RO, .N, 0⟩
abbrev F.MCT_TREE_STATUS.LAST_STATUS : Fld := ⟨.MCT_TREE_STATUS, 24, 8, .RO, .N, 0⟩
abbrev F.MCT_TREE_STATUS.ENGINE : Fld := ⟨.MCT_TREE_STATUS, 8, 8, .RO, .N, 0⟩
abbrev F.MCT_TREE_STATUS.STATE : Fld := ⟨.MCT_TREE_STATUS, 0, 3, .RO, .N, 0⟩
abbrev F.MCT_MC_MASK.MASK : Fld := ⟨.MCT_MC_MASK, 0, 64, .RW, .B, 0⟩
abbrev F.MCT_MC_CTL.VALID : Fld := ⟨.MCT_MC_CTL, 63, 1, .RW, .B, 0⟩
abbrev F.MCT_MC_CTL.EJECT : Fld := ⟨.MCT_MC_CTL, 62, 1, .RW, .B, 0⟩
abbrev F.MCT_MC_CTL.ROOT : Fld := ⟨.MCT_MC_CTL, 40, 17, .RW, .B, 0⟩
abbrev F.MCT_MC_CTL.LAND : Fld := ⟨.MCT_MC_CTL, 32, 8, .RW, .B, 0⟩
abbrev F.MCT_MC_CTL.NEXT_SEQ : Fld := ⟨.MCT_MC_CTL, 0, 16, .RO, .N, 0⟩
abbrev F.HIF_CTRL.ENABLE : Fld := ⟨.HIF_CTRL, 0, 1, .RW, .L, 0⟩
abbrev F.HIF_FN_INFO.PF : Fld := ⟨.HIF_FN_INFO, 62, 2, .RO, .N, 0⟩
abbrev F.HIF_FN_INFO.VF : Fld := ⟨.HIF_FN_INFO, 61, 1, .RO, .N, 0⟩
abbrev F.HIF_FN_INFO.VFNUM : Fld := ⟨.HIF_FN_INFO, 52, 9, .RO, .N, 0⟩
abbrev F.HIF_FN_INFO.QCOUNT : Fld := ⟨.HIF_FN_INFO, 32, 20, .RO, .N, 0⟩
abbrev F.HIF_FN_INFO.EQCOUNT : Fld := ⟨.HIF_FN_INFO, 20, 12, .RO, .N, 0⟩
abbrev F.HIF_FN_INFO.VECTORS : Fld := ⟨.HIF_FN_INFO, 8, 12, .RO, .N, 0⟩
abbrev F.HIF_FN_INFO.ENABLED : Fld := ⟨.HIF_FN_INFO, 0, 1, .RO, .N, 0⟩
abbrev F.HIF_QCT_BASE.BASE : Fld := ⟨.HIF_QCT_BASE, 12, 52, .RW, .L, 0⟩
abbrev F.HIF_QCT_BASE.LOG_LIMIT : Fld := ⟨.HIF_QCT_BASE, 0, 5, .RW, .L, 0⟩
abbrev F.HIF_SCHED.CQ_FULL_BEATS : Fld := ⟨.HIF_SCHED, 48, 16, .RW, .B, 0x3e8⟩
abbrev F.HIF_SCHED.PREFETCH : Fld := ⟨.HIF_SCHED, 32, 6, .RW, .B, 8⟩
abbrev F.HIF_SCHED.AGE_PROMOTE : Fld := ⟨.HIF_SCHED, 0, 5, .RW, .B, 8⟩
abbrev F.HIF_QUEUE_ADDR.ADDR : Fld := ⟨.HIF_QUEUE_ADDR, 6, 58, .RW, .L, 0⟩
abbrev F.HIF_QUEUE_CMD.NUM : Fld := ⟨.HIF_QUEUE_CMD, 4, 20, .WO, .L, 0⟩
abbrev F.HIF_QUEUE_CMD.CMD : Fld := ⟨.HIF_QUEUE_CMD, 0, 4, .WO, .L, 0⟩
abbrev F.HIF_QUEUE_RESULT.BUSY : Fld := ⟨.HIF_QUEUE_RESULT, 63, 1, .RO, .N, 0⟩
abbrev F.HIF_QUEUE_RESULT.CODE : Fld := ⟨.HIF_QUEUE_RESULT, 28, 4, .RO, .N, 0⟩
abbrev F.HIF_QUEUE_RESULT.CMD : Fld := ⟨.HIF_QUEUE_RESULT, 24, 4, .RO, .N, 0⟩
abbrev F.HIF_QUEUE_RESULT.NUM : Fld := ⟨.HIF_QUEUE_RESULT, 0, 20, .RO, .N, 0⟩
abbrev F.HIF_COUNT.PUSH_DROP : Fld := ⟨.HIF_COUNT, 32, 32, .RO, .N, 0⟩
abbrev F.HIF_COUNT.DB_BAD : Fld := ⟨.HIF_COUNT, 16, 16, .RO, .N, 0⟩
abbrev F.HIF_COUNT.PARKED : Fld := ⟨.HIF_COUNT, 0, 16, .RO, .N, 0⟩
abbrev F.HIF_PORT_STATUS.LINK_UP : Fld := ⟨.HIF_PORT_STATUS, 15, 1, .RO, .N, 0⟩
abbrev F.HIF_PORT_STATUS.FLIT : Fld := ⟨.HIF_PORT_STATUS, 14, 1, .RO, .N, 0⟩
abbrev F.HIF_PORT_STATUS.BIFURCATED : Fld := ⟨.HIF_PORT_STATUS, 13, 1, .RO, .N, 0⟩
abbrev F.HIF_PORT_STATUS.CXL : Fld := ⟨.HIF_PORT_STATUS, 12, 1, .RO, .N, 0⟩
abbrev F.HIF_PORT_STATUS.CACHE : Fld := ⟨.HIF_PORT_STATUS, 11, 1, .RO, .N, 0⟩
abbrev F.HIF_PORT_STATUS.MEM : Fld := ⟨.HIF_PORT_STATUS, 10, 1, .RO, .N, 0⟩
abbrev F.HIF_PORT_STATUS.RATE : Fld := ⟨.HIF_PORT_STATUS, 5, 4, .RO, .N, 0⟩
abbrev F.HIF_PORT_STATUS.WIDTH : Fld := ⟨.HIF_PORT_STATUS, 0, 5, .RO, .N, 0⟩
abbrev F.HIF_VF_MAP.QBASE : Fld := ⟨.HIF_VF_MAP, 44, 20, .RW, .L, 0⟩
abbrev F.HIF_VF_MAP.QCOUNT : Fld := ⟨.HIF_VF_MAP, 24, 20, .RW, .L, 0⟩
abbrev F.HIF_VF_MAP.EQBASE : Fld := ⟨.HIF_VF_MAP, 13, 11, .RW, .L, 0⟩
abbrev F.HIF_VF_MAP.EQCOUNT : Fld := ⟨.HIF_VF_MAP, 6, 7, .RW, .L, 0⟩
abbrev F.HIF_EQ_BASE.BASE : Fld := ⟨.HIF_EQ_BASE, 12, 52, .RW, .L, 0⟩
abbrev F.HIF_EQ_BASE.LOG_SIZE : Fld := ⟨.HIF_EQ_BASE, 0, 5, .RW, .L, 6⟩
abbrev F.HIF_EQ_CFG.ENABLE : Fld := ⟨.HIF_EQ_CFG, 63, 1, .RW, .L, 0⟩
abbrev F.HIF_EQ_CFG.VECTOR : Fld := ⟨.HIF_EQ_CFG, 32, 12, .RW, .L, 0⟩
abbrev F.HIF_EQ_CFG.MOD_COUNT : Fld := ⟨.HIF_EQ_CFG, 24, 8, .RW, .L, 1⟩
abbrev F.HIF_EQ_CFG.MOD_TIME : Fld := ⟨.HIF_EQ_CFG, 0, 10, .RW, .L, 0⟩
abbrev F.HIF_EQ_STATUS.PI : Fld := ⟨.HIF_EQ_STATUS, 32, 32, .RO, .N, 0⟩
abbrev F.HIF_EQ_STATUS.MERGED : Fld := ⟨.HIF_EQ_STATUS, 16, 16, .RO, .N, 0⟩
abbrev F.HIF_EQ_STATUS.HELD : Fld := ⟨.HIF_EQ_STATUS, 1, 1, .RO, .N, 0⟩
abbrev F.HIF_EQ_STATUS.ARMED : Fld := ⟨.HIF_EQ_STATUS, 0, 1, .RO, .N, 0⟩
abbrev F.HIF_EQ_DB.ARM : Fld := ⟨.HIF_EQ_DB, 32, 1, .WO, .L, 0⟩
abbrev F.HIF_EQ_DB.CI : Fld := ⟨.HIF_EQ_DB, 0, 32, .WO, .L, 0⟩
abbrev F.HIF_SQ_DB.PI : Fld := ⟨.HIF_SQ_DB, 0, 32, .WO, .L, 0⟩
abbrev F.HIF_CQ_DB.ARM : Fld := ⟨.HIF_CQ_DB, 32, 1, .WO, .L, 0⟩
abbrev F.HIF_CQ_DB.CI : Fld := ⟨.HIF_CQ_DB, 0, 32, .WO, .L, 0⟩
abbrev F.HIF_Q_CTRL.ENABLE : Fld := ⟨.HIF_Q_CTRL, 0, 1, .RW, .L, 0⟩
abbrev F.HIF_Q_STATUS.DB : Fld := ⟨.HIF_Q_STATUS, 32, 32, .RO, .N, 0⟩
abbrev F.HIF_Q_STATUS.TAKEN : Fld := ⟨.HIF_Q_STATUS, 0, 32, .RO, .N, 0⟩
abbrev F.HIF_Q_STATE.ERR_INDEX : Fld := ⟨.HIF_Q_STATE, 32, 32, .RO, .N, 0⟩
abbrev F.HIF_Q_STATE.REASON : Fld := ⟨.HIF_Q_STATE, 8, 8, .RO, .N, 0⟩
abbrev F.HIF_Q_STATE.CQ_HOLD : Fld := ⟨.HIF_Q_STATE, 5, 1, .RO, .N, 0⟩
abbrev F.HIF_Q_STATE.IDLE : Fld := ⟨.HIF_Q_STATE, 4, 1, .RO, .N, 0⟩
abbrev F.HIF_Q_STATE.STATE : Fld := ⟨.HIF_Q_STATE, 0, 3, .RO, .N, 0⟩
abbrev F.HIF_CQ_STATUS.PI : Fld := ⟨.HIF_CQ_STATUS, 32, 32, .RO, .N, 0⟩
abbrev F.HIF_CQ_STATUS.FULL_BEATS : Fld := ⟨.HIF_CQ_STATUS, 16, 16, .RO, .N, 0⟩
abbrev F.HIF_CQ_STATUS.PARKED : Fld := ⟨.HIF_CQ_STATUS, 8, 8, .RO, .N, 0⟩
abbrev F.HIF_CQ_STATUS.ARMED : Fld := ⟨.HIF_CQ_STATUS, 3, 1, .RO, .N, 0⟩
abbrev F.HIF_CQ_STATUS.STATE : Fld := ⟨.HIF_CQ_STATUS, 0, 2, .RO, .N, 0⟩
abbrev F.RMA_CTRL.ENABLE : Fld := ⟨.RMA_CTRL, 0, 1, .RW, .L, 0⟩
abbrev F.RMA_CFG.RTO_BEATS : Fld := ⟨.RMA_CFG, 50, 14, .RW, .B, 0x40⟩
abbrev F.RMA_CFG.BACKOFF_BEATS : Fld := ⟨.RMA_CFG, 40, 10, .RW, .B, 4⟩
abbrev F.RMA_CFG.WINDOW_LOG : Fld := ⟨.RMA_CFG, 36, 4, .RW, .B, 8⟩
abbrev F.RMA_CFG.ACK_DELAY : Fld := ⟨.RMA_CFG, 26, 10, .RW, .B, 0x40⟩
abbrev F.RMA_RT_BASE.BASE : Fld := ⟨.RMA_RT_BASE, 12, 52, .RW, .L, 0⟩
abbrev F.RMA_RT_BASE.LOG_LIMIT : Fld := ⟨.RMA_RT_BASE, 0, 5, .RW, .L, 0⟩
abbrev F.RMA_REG_CMD.INDEX : Fld := ⟨.RMA_REG_CMD, 8, 24, .WO, .L, 0⟩
abbrev F.RMA_REG_CMD.CMD : Fld := ⟨.RMA_REG_CMD, 0, 4, .WO, .L, 0⟩
abbrev F.RMA_REG_RESULT.BUSY : Fld := ⟨.RMA_REG_RESULT, 63, 1, .RO, .N, 0⟩
abbrev F.RMA_REG_RESULT.CODE : Fld := ⟨.RMA_REG_RESULT, 36, 4, .RO, .N, 0⟩
abbrev F.RMA_REG_RESULT.CMD : Fld := ⟨.RMA_REG_RESULT, 32, 4, .RO, .N, 0⟩
abbrev F.RMA_REG_RESULT.KEY : Fld := ⟨.RMA_REG_RESULT, 0, 32, .RO, .N, 0⟩
abbrev F.RMA_QINFO_SEL.NUM : Fld := ⟨.RMA_QINFO_SEL, 0, 20, .RW, .L, 0⟩
abbrev F.RMA_QINFO.QGEN : Fld := ⟨.RMA_QINFO, 56, 8, .RO, .N, 0⟩
abbrev F.RMA_QINFO.NEXT_PSN : Fld := ⟨.RMA_QINFO, 32, 24, .RO, .N, 0⟩
abbrev F.RMA_QINFO.CUM_PSN : Fld := ⟨.RMA_QINFO, 8, 24, .RO, .N, 0⟩
abbrev F.RMA_QINFO.CAUSE : Fld := ⟨.RMA_QINFO, 0, 8, .RO, .N, 0⟩
abbrev F.RMA_COUNT.RETRANSMITS : Fld := ⟨.RMA_COUNT, 48, 16, .RO, .N, 0⟩
abbrev F.RMA_COUNT.DUPLICATES : Fld := ⟨.RMA_COUNT, 32, 16, .RO, .N, 0⟩
abbrev F.RMA_COUNT.VIOLATIONS : Fld := ⟨.RMA_COUNT, 16, 16, .RO, .N, 0⟩
abbrev F.RMA_COUNT.STALE : Fld := ⟨.RMA_COUNT, 0, 16, .RO, .N, 0⟩
abbrev F.RMA_STATUS.BUSY_SENT : Fld := ⟨.RMA_STATUS, 48, 16, .RO, .N, 0⟩
abbrev F.RMA_STATUS.RESEND_SENT : Fld := ⟨.RMA_STATUS, 32, 16, .RO, .N, 0⟩
abbrev F.RMA_STATUS.ATOMIC_RECORDS : Fld := ⟨.RMA_STATUS, 14, 18, .RO, .N, 0⟩
abbrev F.RMA_STATUS.MISS_OCC : Fld := ⟨.RMA_STATUS, 0, 12, .RO, .N, 0⟩
abbrev F.RMA_VF_RMAP.RBASE : Fld := ⟨.RMA_VF_RMAP, 42, 22, .RW, .L, 0⟩
abbrev F.RMA_VF_RMAP.RCOUNT : Fld := ⟨.RMA_VF_RMAP, 21, 21, .RW, .L, 0⟩
abbrev F.RMA_VF_RMAP.PDBASE : Fld := ⟨.RMA_VF_RMAP, 5, 16, .RW, .L, 0⟩
abbrev F.RMA_VF_RMAP.PDLOG : Fld := ⟨.RMA_VF_RMAP, 0, 5, .RW, .L, 0⟩
abbrev F.MAT_CTRL.ENABLE : Fld := ⟨.MAT_CTRL, 0, 1, .RW, .L, 0⟩
abbrev F.MAT_ML_ADDR.ADDR : Fld := ⟨.MAT_ML_ADDR, 6, 58, .RW, .L, 0⟩
abbrev F.MAT_ML_CMD.ML : Fld := ⟨.MAT_ML_CMD, 16, 12, .WO, .L, 0⟩
abbrev F.MAT_ML_CMD.CMD : Fld := ⟨.MAT_ML_CMD, 0, 4, .WO, .L, 0⟩
abbrev F.MAT_ML_RESULT.BUSY : Fld := ⟨.MAT_ML_RESULT, 63, 1, .RO, .N, 0⟩
abbrev F.MAT_ML_RESULT.CODE : Fld := ⟨.MAT_ML_RESULT, 20, 4, .RO, .N, 0⟩
abbrev F.MAT_ML_RESULT.CMD : Fld := ⟨.MAT_ML_RESULT, 16, 4, .RO, .N, 0⟩
abbrev F.MAT_ML_RESULT.ML : Fld := ⟨.MAT_ML_RESULT, 0, 12, .RO, .N, 0⟩
abbrev F.MAT_COUNT.UNEXPECTED : Fld := ⟨.MAT_COUNT, 48, 16, .RO, .N, 0⟩
abbrev F.MAT_COUNT.BUSY_SENT : Fld := ⟨.MAT_COUNT, 32, 16, .RO, .N, 0⟩
abbrev F.MAT_COUNT.SPILL_READS : Fld := ⟨.MAT_COUNT, 16, 16, .RO, .N, 0⟩
abbrev F.MAT_COUNT.STALE : Fld := ⟨.MAT_COUNT, 0, 16, .RO, .N, 0⟩
abbrev F.MAT_ML_STATUS.POSTED : Fld := ⟨.MAT_ML_STATUS, 44, 20, .RO, .N, 0⟩
abbrev F.MAT_ML_STATUS.UNEXP : Fld := ⟨.MAT_ML_STATUS, 24, 20, .RO, .N, 0⟩
abbrev F.MAT_ML_STATUS.HELD : Fld := ⟨.MAT_ML_STATUS, 13, 11, .RO, .N, 0⟩
abbrev F.MAT_ML_STATUS.ENGINE : Fld := ⟨.MAT_ML_STATUS, 5, 8, .RO, .N, 0⟩
abbrev F.MAT_ML_STATUS.STATE : Fld := ⟨.MAT_ML_STATUS, 0, 2, .RO, .N, 0⟩
abbrev F.COH_CTRL.ENABLE : Fld := ⟨.COH_CTRL, 0, 1, .RW, .L, 0⟩
abbrev F.COH_MODE.DOMAIN : Fld := ⟨.COH_MODE, 16, 8, .RW, .Q, 0⟩
abbrev F.COH_MODE.MID : Fld := ⟨.COH_MODE, 8, 6, .RW, .Q, 0⟩
abbrev F.COH_MODE.RACE_MODE : Fld := ⟨.COH_MODE, 0, 1, .TR, .N, 0⟩
abbrev F.COH_FWD_TIMEOUT.FWD_BEATS : Fld := ⟨.COH_FWD_TIMEOUT, 48, 16, .RW, .B, 0x3e8⟩
abbrev F.COH_FWD_TIMEOUT.REQ_BEATS : Fld := ⟨.COH_FWD_TIMEOUT, 32, 16, .RW, .B, 0x7d0⟩
abbrev F.COH_FWD_TIMEOUT.REQ_RETRY_MAX : Fld := ⟨.COH_FWD_TIMEOUT, 28, 4, .RW, .B, 3⟩
abbrev F.COH_CMD.MEMBER : Fld := ⟨.COH_CMD, 8, 6, .WO, .L, 0⟩
abbrev F.COH_CMD.CMD : Fld := ⟨.COH_CMD, 0, 4, .WO, .L, 0⟩
abbrev F.COH_RESULT.BUSY : Fld := ⟨.COH_RESULT, 63, 1, .RO, .N, 0⟩
abbrev F.COH_RESULT.LINES : Fld := ⟨.COH_RESULT, 32, 24, .RO, .N, 0⟩
abbrev F.COH_RESULT.CODE : Fld := ⟨.COH_RESULT, 28, 4, .RO, .N, 0⟩
abbrev F.COH_RESULT.CMD : Fld := ⟨.COH_RESULT, 24, 4, .RO, .N, 0⟩
abbrev F.COH_RESULT.MEMBER : Fld := ⟨.COH_RESULT, 8, 6, .RO, .N, 0⟩
abbrev F.COH_STATUS.HOME_TX : Fld := ⟨.COH_STATUS, 48, 11, .RO, .N, 0⟩
abbrev F.COH_STATUS.AGENT_TX : Fld := ⟨.COH_STATUS, 32, 11, .RO, .N, 0⟩
abbrev F.COH_STATUS.RETRY_WAIT : Fld := ⟨.COH_STATUS, 16, 13, .RO, .N, 0⟩
abbrev F.COH_STATUS.WB_USED : Fld := ⟨.COH_STATUS, 7, 9, .RO, .N, 0⟩
abbrev F.COH_STATUS.RECLAIMING : Fld := ⟨.COH_STATUS, 0, 1, .RO, .N, 0⟩
abbrev F.COH_COUNT.RETRIES : Fld := ⟨.COH_COUNT, 48, 16, .RO, .N, 0⟩
abbrev F.COH_COUNT.POISONED : Fld := ⟨.COH_COUNT, 32, 16, .RO, .N, 0⟩
abbrev F.COH_COUNT.STALE : Fld := ⟨.COH_COUNT, 16, 16, .RO, .N, 0⟩
abbrev F.COH_COUNT.DEAD_LOST : Fld := ⟨.COH_COUNT, 0, 16, .RO, .N, 0⟩
abbrev F.COH_EXPORT.VALID : Fld := ⟨.COH_EXPORT, 63, 1, .RW, .Q, 0⟩
abbrev F.COH_EXPORT.BASE : Fld := ⟨.COH_EXPORT, 28, 24, .RW, .Q, 0⟩
abbrev F.COH_EXPORT.SIZE : Fld := ⟨.COH_EXPORT, 0, 12, .RW, .Q, 0⟩
abbrev F.COH_MEMBER.VALID : Fld := ⟨.COH_MEMBER, 63, 1, .RW, .B, 0⟩
abbrev F.COH_MEMBER.DEAD : Fld := ⟨.COH_MEMBER, 62, 1, .RO, .N, 0⟩
abbrev F.COH_MEMBER.NODE : Fld := ⟨.COH_MEMBER, 0, 17, .RW, .B, 0⟩
abbrev F.COH_HDM_TARGET.VALID : Fld := ⟨.COH_HDM_TARGET, 63, 1, .RW, .Q, 0⟩
abbrev F.COH_HDM_TARGET.DA_BASE : Fld := ⟨.COH_HDM_TARGET, 28, 18, .RW, .Q, 0⟩
abbrev F.PEG_CTRL.ENABLE : Fld := ⟨.PEG_CTRL, 0, 1, .RW, .L, 0⟩
abbrev F.PEG_CFG.STALL_LIMIT : Fld := ⟨.PEG_CFG, 0, 9, .RW, .B, 0x14⟩
abbrev F.PEG_SUPERVISOR.MASK : Fld := ⟨.PEG_SUPERVISOR, 0, 4, .RW, .L, 1⟩
abbrev F.PEG_FORCE.INDEX : Fld := ⟨.PEG_FORCE, 16, 12, .WO, .L, 0⟩
abbrev F.PEG_FORCE.CMD : Fld := ⟨.PEG_FORCE, 0, 4, .WO, .L, 0⟩
abbrev F.PEG_COUNT.STALLED : Fld := ⟨.PEG_COUNT, 48, 9, .RO, .N, 0⟩
abbrev F.PEG_COUNT.WAITING : Fld := ⟨.PEG_COUNT, 32, 14, .RO, .N, 0⟩
abbrev F.PEG_COUNT.NO_ROOM : Fld := ⟨.PEG_COUNT, 16, 16, .RO, .N, 0⟩
abbrev F.PEG_COUNT.FORCED : Fld := ⟨.PEG_COUNT, 0, 16, .RO, .N, 0⟩
abbrev F.PEG_FN_CFG.WATCH_EN : Fld := ⟨.PEG_FN_CFG, 63, 1, .RW, .L, 0⟩
abbrev F.PEG_FN_CFG.WATCH_EQ : Fld := ⟨.PEG_FN_CFG, 0, 11, .RW, .L, 0⟩
abbrev F.PEG_GROUP.PF_MASK : Fld := ⟨.PEG_GROUP, 0, 4, .RW, .B, 0xf⟩
abbrev F.PEG_VF_MAP.PBASE : Fld := ⟨.PEG_VF_MAP, 52, 12, .RW, .L, 0⟩
abbrev F.PEG_VF_MAP.PCOUNT : Fld := ⟨.PEG_VF_MAP, 0, 7, .RW, .L, 0⟩
abbrev F.PEG_TAKE.RESULT : Fld := ⟨.PEG_TAKE, 0, 64, .RO, .N, 0⟩
abbrev F.PEG_TRY.RESULT : Fld := ⟨.PEG_TRY, 0, 64, .RO, .N, 0⟩
abbrev F.PEG_RELEASE.RELEASE : Fld := ⟨.PEG_RELEASE, 0, 1, .WO, .L, 0⟩
abbrev F.PEG_WATCH.CANCEL : Fld := ⟨.PEG_WATCH, 1, 1, .WO, .L, 0⟩
abbrev F.PEG_WATCH.WATCH : Fld := ⟨.PEG_WATCH, 0, 1, .WO, .L, 0⟩
abbrev F.PEG_STATE.HELD : Fld := ⟨.PEG_STATE, 63, 1, .RO, .N, 0⟩
abbrev F.PEG_STATE.ABANDONED : Fld := ⟨.PEG_STATE, 62, 1, .RO, .N, 0⟩
abbrev F.PEG_STATE.FORCED : Fld := ⟨.PEG_STATE, 61, 1, .RO, .N, 0⟩
abbrev F.PEG_STATE.OWNER : Fld := ⟨.PEG_STATE, 48, 13, .RO, .N, 0⟩
abbrev F.PEG_STATE.WAITERS : Fld := ⟨.PEG_STATE, 34, 14, .RO, .N, 0⟩
abbrev F.PEG_STATE.GRANTS : Fld := ⟨.PEG_STATE, 0, 32, .RO, .N, 0⟩
abbrev F.ECC_CTRL.ENABLE : Fld := ⟨.ECC_CTRL, 0, 1, .RW, .L, 0⟩
abbrev F.ECC_CODES.CODE_0 : Fld := ⟨.ECC_CODES, 0, 8, .TR, .N, 1⟩
abbrev F.ECC_CODES.CODE_1 : Fld := ⟨.ECC_CODES, 8, 8, .TR, .N, 1⟩
abbrev F.ECC_CODES.CODE_2 : Fld := ⟨.ECC_CODES, 16, 8, .TR, .N, 1⟩
abbrev F.ECC_CODES.CODE_3 : Fld := ⟨.ECC_CODES, 24, 8, .TR, .N, 1⟩
abbrev F.ECC_CODES.CODE_4 : Fld := ⟨.ECC_CODES, 32, 8, .TR, .N, 1⟩
abbrev F.ECC_CODES.CODE_5 : Fld := ⟨.ECC_CODES, 40, 8, .TR, .N, 1⟩
abbrev F.ECC_CODES.CODE_6 : Fld := ⟨.ECC_CODES, 48, 8, .TR, .N, 1⟩
abbrev F.ECC_CODES.CODE_7 : Fld := ⟨.ECC_CODES, 56, 8, .TR, .N, 1⟩
abbrev F.ECC_SCRUB_CFG.LAP_UNITS : Fld := ⟨.ECC_SCRUB_CFG, 0, 16, .RW, .B, 0x400⟩
abbrev F.ECC_LAST_UE.VALID : Fld := ⟨.ECC_LAST_UE, 63, 1, .RW1C, .L, 0⟩
abbrev F.ECC_LAST_UE.REGION : Fld := ⟨.ECC_LAST_UE, 59, 3, .RO, .N, 0⟩
abbrev F.ECC_LAST_UE.BY_SCRUB : Fld := ⟨.ECC_LAST_UE, 58, 1, .RO, .N, 0⟩
abbrev F.ECC_LAST_UE.WORD : Fld := ⟨.ECC_LAST_UE, 0, 23, .RO, .N, 0⟩
abbrev F.ECC_FLIP_CTRL.ARM : Fld := ⟨.ECC_FLIP_CTRL, 63, 1, .RW, .L, 0⟩
abbrev F.ECC_FLIP_CTRL.MATCH : Fld := ⟨.ECC_FLIP_CTRL, 62, 1, .RW, .L, 0⟩
abbrev F.ECC_FLIP_CTRL.REGION : Fld := ⟨.ECC_FLIP_CTRL, 59, 3, .RW, .L, 0⟩
abbrev F.ECC_FLIP_CTRL.HALF : Fld := ⟨.ECC_FLIP_CTRL, 58, 1, .RW, .L, 0⟩
abbrev F.ECC_FLIP_CTRL.CHECK_MASK : Fld := ⟨.ECC_FLIP_CTRL, 32, 17, .RW, .L, 0⟩
abbrev F.ECC_FLIP_CTRL.WORD : Fld := ⟨.ECC_FLIP_CTRL, 0, 23, .RW, .L, 0⟩
abbrev F.ECC_FLIP_DATA.MASK : Fld := ⟨.ECC_FLIP_DATA, 0, 64, .RW, .L, 0⟩
abbrev F.ECC_FLIP_STATUS.DONE : Fld := ⟨.ECC_FLIP_STATUS, 63, 1, .RW1C, .L, 0⟩
abbrev F.ECC_FLIP_STATUS.REGION : Fld := ⟨.ECC_FLIP_STATUS, 59, 3, .RO, .N, 0⟩
abbrev F.ECC_FLIP_STATUS.WORD : Fld := ⟨.ECC_FLIP_STATUS, 0, 23, .RO, .N, 0⟩
abbrev F.ECC_WIN_SEL.RAW : Fld := ⟨.ECC_WIN_SEL, 63, 1, .RW, .L, 0⟩
abbrev F.ECC_WIN_SEL.REGION : Fld := ⟨.ECC_WIN_SEL, 59, 3, .RW, .L, 0⟩
abbrev F.ECC_WIN_SEL.PAGE : Fld := ⟨.ECC_WIN_SEL, 0, 8, .RW, .L, 0⟩
abbrev F.ECC_WIN_STATUS.CHECK : Fld := ⟨.ECC_WIN_STATUS, 32, 17, .RO, .N, 0⟩
abbrev F.ECC_WIN_STATUS.UE : Fld := ⟨.ECC_WIN_STATUS, 1, 1, .RW1C, .L, 0⟩
abbrev F.ECC_WIN_STATUS.CE : Fld := ⟨.ECC_WIN_STATUS, 0, 1, .RW1C, .L, 0⟩
abbrev F.ECC_REGION_STATUS.LAST_LAP : Fld := ⟨.ECC_REGION_STATUS, 48, 16, .RO, .N, 0⟩
abbrev F.ECC_REGION_STATUS.CE_COUNT : Fld := ⟨.ECC_REGION_STATUS, 32, 16, .RO, .N, 0⟩
abbrev F.ECC_REGION_STATUS.UE_COUNT : Fld := ⟨.ECC_REGION_STATUS, 24, 8, .RO, .N, 0⟩
abbrev F.ECC_REGION_STATUS.PROGRESS : Fld := ⟨.ECC_REGION_STATUS, 8, 16, .RO, .N, 0⟩
abbrev F.ECC_REGION_STATUS.FORCED : Fld := ⟨.ECC_REGION_STATUS, 2, 1, .RO, .N, 0⟩
abbrev F.ECC_REGION_STATUS.CODE : Fld := ⟨.ECC_REGION_STATUS, 0, 2, .RO, .N, 1⟩
abbrev F.ECC_WIN.DATA : Fld := ⟨.ECC_WIN, 0, 64, .RW, .L, 0⟩
abbrev F.FLT_CTRL.SPILL_KEY : Fld := ⟨.FLT_CTRL, 56, 8, .WO, .L, 0⟩
abbrev F.FLT_CTRL.PIN_LEVEL : Fld := ⟨.FLT_CTRL, 8, 2, .RW, .L, 2⟩
abbrev F.FLT_CTRL.SPILL : Fld := ⟨.FLT_CTRL, 0, 1, .WO, .L, 0⟩
abbrev F.FLT_STATUS.SPILLWAY : Fld := ⟨.FLT_STATUS, 63, 1, .RO, .N, 0⟩
abbrev F.FLT_STATUS.SW_SPILL : Fld := ⟨.FLT_STATUS, 62, 1, .RO, .N, 0⟩
abbrev F.FLT_STATUS.SELF : Fld := ⟨.FLT_STATUS, 61, 1, .RO, .N, 0⟩
abbrev F.FLT_STATUS.SPILL_SOURCE : Fld := ⟨.FLT_STATUS, 52, 9, .RO, .N, 0⟩
abbrev F.FLT_STATUS.ESCALATIONS : Fld := ⟨.FLT_STATUS, 16, 16, .RO, .N, 0⟩
abbrev F.FLT_STATUS.RICH_VALID : Fld := ⟨.FLT_STATUS, 0, 16, .RO, .N, 0⟩
abbrev F.FLT_THRESH.ESC_COUNT : Fld := ⟨.FLT_THRESH, 32, 8, .TR, .N, 0x10⟩
abbrev F.FLT_THRESH.ESC_WINDOW : Fld := ⟨.FLT_THRESH, 0, 21, .TR, .N, 0x10000⟩
abbrev F.FLT_NOTIFY.VALID : Fld := ⟨.FLT_NOTIFY, 63, 1, .RW, .L, 0⟩
abbrev F.FLT_NOTIFY.MIN_SEV : Fld := ⟨.FLT_NOTIFY, 16, 2, .RW, .L, 1⟩
abbrev F.FLT_NOTIFY.EQ : Fld := ⟨.FLT_NOTIFY, 0, 11, .RW, .L, 0⟩
abbrev F.FLT_FORCE_INST.INSTANCE : Fld := ⟨.FLT_FORCE_INST, 0, 27, .RW, .L, 0⟩
abbrev F.FLT_STICKY.STICKY : Fld := ⟨.FLT_STICKY, 0, 64, .RW1C, .L, 0⟩
abbrev F.FLT_FORCE.FORCE : Fld := ⟨.FLT_FORCE, 0, 64, .WO, .L, 0⟩
abbrev F.FLT_RICH_ASSIGN.SOURCE : Fld := ⟨.FLT_RICH_ASSIGN, 0, 9, .RW, .B, 0⟩
abbrev F.FLT_RICH_META.VALID : Fld := ⟨.FLT_RICH_META, 63, 1, .RW1C, .L, 0⟩
abbrev F.FLT_RICH_META.MULTI : Fld := ⟨.FLT_RICH_META, 62, 1, .RO, .N, 0⟩
abbrev F.FLT_RICH_META.FORCED : Fld := ⟨.FLT_RICH_META, 61, 1, .RO, .N, 0⟩
abbrev F.FLT_RICH_META.STATE : Fld := ⟨.FLT_RICH_META, 58, 3, .RO, .N, 0⟩
abbrev F.FLT_RICH_META.SEV : Fld := ⟨.FLT_RICH_META, 56, 2, .RO, .N, 0⟩
abbrev F.FLT_RICH_META.ACCESS : Fld := ⟨.FLT_RICH_META, 54, 2, .RO, .N, 0⟩
abbrev F.FLT_RICH_META.REMOTE : Fld := ⟨.FLT_RICH_META, 53, 1, .RO, .N, 0⟩
abbrev F.FLT_RICH_META.INITIATOR : Fld := ⟨.FLT_RICH_META, 36, 17, .RO, .N, 0⟩
abbrev F.FLT_RICH_META.SOURCE : Fld := ⟨.FLT_RICH_META, 27, 9, .RO, .N, 0⟩
abbrev F.FLT_RICH_META.INSTANCE : Fld := ⟨.FLT_RICH_META, 0, 27, .RO, .N, 0⟩
abbrev F.FLT_RICH_ADDR.ADDR : Fld := ⟨.FLT_RICH_ADDR, 0, 64, .RO, .N, 0⟩
abbrev F.FLT_RICH_INFO.INFO : Fld := ⟨.FLT_RICH_INFO, 0, 64, .RO, .N, 0⟩
abbrev F.FLT_RICH_BEAT.BEAT : Fld := ⟨.FLT_RICH_BEAT, 0, 64, .RO, .N, 0⟩
abbrev F.FLT_SEV.MULTI : Fld := ⟨.FLT_SEV, 63, 1, .RW1C, .L, 0⟩
abbrev F.FLT_SEV.INTEGRITY : Fld := ⟨.FLT_SEV, 62, 1, .RO, .N, 0⟩
abbrev F.FLT_SEV.SCOPE : Fld := ⟨.FLT_SEV, 58, 4, .RO, .N, 0⟩
abbrev F.FLT_SEV.DEFAULT : Fld := ⟨.FLT_SEV, 56, 2, .TR, .N, 0⟩
abbrev F.FLT_SEV.ESC_DIS : Fld := ⟨.FLT_SEV, 49, 1, .RW, .B, 0⟩
abbrev F.FLT_SEV.ASSIGNED : Fld := ⟨.FLT_SEV, 48, 1, .RO, .N, 0⟩
abbrev F.FLT_SEV.LAST_SEV : Fld := ⟨.FLT_SEV, 40, 2, .RO, .N, 0⟩
abbrev F.FLT_SEV.SEV : Fld := ⟨.FLT_SEV, 32, 2, .RW, .B, 0⟩
abbrev F.FLT_SEV.WIN_COUNT : Fld := ⟨.FLT_SEV, 24, 8, .RO, .N, 0⟩
abbrev F.FLT_SEV.COUNT : Fld := ⟨.FLT_SEV, 0, 16, .RO, .N, 0⟩
abbrev F.PWR_CTRL.MAX_STATE : Fld := ⟨.PWR_CTRL, 4, 3, .RW, .B, 4⟩
abbrev F.PWR_CTRL.ENABLE : Fld := ⟨.PWR_CTRL, 0, 1, .RW, .L, 0⟩
abbrev F.PWR_FABRIC_TOL.TOL_NS : Fld := ⟨.PWR_FABRIC_TOL, 0, 32, .RW, .B, 0⟩
abbrev F.PWR_STATE.TOL_NS : Fld := ⟨.PWR_STATE, 32, 32, .RO, .N, 0⟩
abbrev F.PWR_STATE.SPRINT_OK : Fld := ⟨.PWR_STATE, 8, 1, .RO, .N, 0⟩
abbrev F.PWR_STATE.OVER_CEIL : Fld := ⟨.PWR_STATE, 7, 1, .RO, .N, 0⟩
abbrev F.PWR_STATE.DERATE : Fld := ⟨.PWR_STATE, 4, 3, .RO, .N, 0⟩
abbrev F.PWR_STATE.EXITING : Fld := ⟨.PWR_STATE, 3, 1, .RO, .N, 0⟩
abbrev F.PWR_STATE.STATE : Fld := ⟨.PWR_STATE, 0, 3, .RO, .N, 0⟩
abbrev F.PWR_IDLE.P4_BEATS : Fld := ⟨.PWR_IDLE, 32, 16, .RW, .B, 0x1000⟩
abbrev F.PWR_IDLE.P3_BEATS : Fld := ⟨.PWR_IDLE, 16, 16, .RW, .B, 0x100⟩
abbrev F.PWR_IDLE.P2_BEATS : Fld := ⟨.PWR_IDLE, 0, 16, .RW, .B, 0x10⟩
abbrev F.PWR_ENV.SPRINT_EFF : Fld := ⟨.PWR_ENV, 48, 10, .RO, .N, 0x1e0⟩
abbrev F.PWR_ENV.ENV_EFF : Fld := ⟨.PWR_ENV, 32, 10, .RO, .N, 0x1e0⟩
abbrev F.PWR_ENV.SPRINT_W : Fld := ⟨.PWR_ENV, 16, 10, .TR, .N, 0x1e0⟩
abbrev F.PWR_ENV.ENVELOPE_W : Fld := ⟨.PWR_ENV, 0, 10, .TR, .N, 0x1e0⟩
abbrev F.PWR_POWER.SPRINT_S : Fld := ⟨.PWR_POWER, 48, 16, .RO, .N, 0⟩
abbrev F.PWR_POWER.P_FILT : Fld := ⟨.PWR_POWER, 32, 16, .RO, .N, 0⟩
abbrev F.PWR_POWER.CEILING : Fld := ⟨.PWR_POWER, 16, 16, .RO, .N, 0x12c0⟩
abbrev F.PWR_POWER.P_NOW : Fld := ⟨.PWR_POWER, 0, 16, .RO, .N, 0⟩
abbrev F.PWR_TEMP.TJ_MAX : Fld := ⟨.PWR_TEMP, 16, 16, .RO, .N, 0⟩
abbrev F.PWR_TEMP.CASE : Fld := ⟨.PWR_TEMP, 0, 16, .RO, .N, 0⟩
abbrev F.PWR_COOLING.COOLANT_MAX : Fld := ⟨.PWR_COOLING, 54, 10, .TR, .N, 0⟩
abbrev F.PWR_COOLING.THETA_CC : Fld := ⟨.PWR_COOLING, 34, 20, .TR, .N, 0⟩
abbrev F.PWR_COOLING.THERMAL_MASS : Fld := ⟨.PWR_COOLING, 0, 24, .TR, .N, 0⟩
abbrev F.PWR_LOOP_CFG.EDDY_QREF : Fld := ⟨.PWR_LOOP_CFG, 16, 16, .RW, .B, 0x40⟩
abbrev F.PWR_LOOP_CFG.AVS_SLACK : Fld := ⟨.PWR_LOOP_CFG, 0, 8, .RW, .B, 0x1e⟩
abbrev F.PWR_PORT_CFG.PORT_IDLE_BEATS : Fld := ⟨.PWR_PORT_CFG, 32, 16, .RW, .B, 0x400⟩
abbrev F.PWR_PORT_CFG.WIDEN_PCT : Fld := ⟨.PWR_PORT_CFG, 8, 8, .RW, .B, 0x46⟩
abbrev F.PWR_PORT_CFG.NARROW_PCT : Fld := ⟨.PWR_PORT_CFG, 0, 8, .RW, .B, 0x28⟩
abbrev F.PWR_PORT_AUTO.AUTO : Fld := ⟨.PWR_PORT_AUTO, 0, 64, .RW, .B, 0⟩
abbrev F.PWR_ENG.CAP : Fld := ⟨.PWR_ENG, 8, 6, .RO, .N, 0x20⟩
abbrev F.PWR_ENG.STEP : Fld := ⟨.PWR_ENG, 0, 6, .RW, .B, 0x20⟩
abbrev F.PWR_ENG_OVERRIDE.OVR : Fld := ⟨.PWR_ENG_OVERRIDE, 63, 1, .RW, .B, 0⟩
abbrev F.PWR_ENG_OVERRIDE.STEP : Fld := ⟨.PWR_ENG_OVERRIDE, 0, 6, .RW, .B, 0x20⟩
abbrev F.PWR_PLACE.FREEZE : Fld := ⟨.PWR_PLACE, 63, 1, .RW, .B, 0⟩
abbrev F.PWR_PLACE.MOVES : Fld := ⟨.PWR_PLACE, 0, 16, .RO, .N, 0⟩
abbrev F.PWR_HOST_TOL.OVR : Fld := ⟨.PWR_HOST_TOL, 63, 1, .RW, .B, 0⟩
abbrev F.PWR_HOST_TOL.OVR_NS : Fld := ⟨.PWR_HOST_TOL, 0, 32, .RW, .B, 0⟩
abbrev F.PWR_LOOP_GAIN.STEP_LIMIT : Fld := ⟨.PWR_LOOP_GAIN, 32, 11, .TR, .N, 0⟩
abbrev F.PWR_LOOP_GAIN.GAIN_I : Fld := ⟨.PWR_LOOP_GAIN, 16, 16, .TR, .N, 0⟩
abbrev F.PWR_LOOP_GAIN.GAIN_P : Fld := ⟨.PWR_LOOP_GAIN, 0, 16, .TR, .N, 0⟩
abbrev F.PWR_AVS.SLACK : Fld := ⟨.PWR_AVS, 48, 16, .RO, .N, 0⟩
abbrev F.PWR_AVS.V_MAX : Fld := ⟨.PWR_AVS, 32, 9, .RO, .N, 0⟩
abbrev F.PWR_AVS.V_MIN : Fld := ⟨.PWR_AVS, 16, 9, .RO, .N, 0⟩
abbrev F.PWR_AVS.VOLT : Fld := ⟨.PWR_AVS, 0, 9, .RW, .B, 0⟩
abbrev F.PWR_AVS_OVERRIDE.OVR : Fld := ⟨.PWR_AVS_OVERRIDE, 63, 1, .RW, .B, 0⟩
abbrev F.PWR_AVS_OVERRIDE.VOLT : Fld := ⟨.PWR_AVS_OVERRIDE, 0, 9, .RW, .B, 0⟩
abbrev F.GRN_CTRL.WARN_MONTHS : Fld := ⟨.GRN_CTRL, 8, 8, .RW, .B, 0xc⟩
abbrev F.GRN_CTRL.ENABLE : Fld := ⟨.GRN_CTRL, 0, 1, .RW, .L, 0⟩
abbrev F.GRN_EOL.VALID : Fld := ⟨.GRN_EOL, 63, 1, .RO, .N, 0⟩
abbrev F.GRN_EOL.INPUT : Fld := ⟨.GRN_EOL, 48, 3, .RO, .N, 0⟩
abbrev F.GRN_EOL.HIGH : Fld := ⟨.GRN_EOL, 32, 16, .RO, .N, 0⟩
abbrev F.GRN_EOL.LOW : Fld := ⟨.GRN_EOL, 16, 16, .RO, .N, 0⟩
abbrev F.GRN_EOL.MONTHS : Fld := ⟨.GRN_EOL, 0, 16, .RO, .N, 0⟩
abbrev F.GRN_INPUT.POINTS : Fld := ⟨.GRN_INPUT, 56, 8, .RO, .N, 0⟩
abbrev F.GRN_INPUT.MONTHS : Fld := ⟨.GRN_INPUT, 40, 16, .RO, .N, 0⟩
abbrev F.GRN_INPUT.LIMIT : Fld := ⟨.GRN_INPUT, 20, 20, .RO, .N, 0⟩
abbrev F.GRN_INPUT.VALUE : Fld := ⟨.GRN_INPUT, 0, 20, .RO, .N, 0⟩
abbrev F.FMN_INFO.VENDOR : Fld := ⟨.FMN_INFO, 32, 32, .RO, .N, 0xf1a0a1⟩
abbrev F.FMN_INFO.FW_VERSION : Fld := ⟨.FMN_INFO, 16, 16, .RO, .N, 0⟩
abbrev F.FMN_INFO.EID : Fld := ⟨.FMN_INFO, 8, 8, .RO, .N, 0⟩
abbrev F.FMN_INFO.STATE : Fld := ⟨.FMN_INFO, 0, 2, .RO, .N, 0⟩
abbrev F.FMN_MB_CTRL.GO : Fld := ⟨.FMN_MB_CTRL, 0, 1, .WO, .L, 0⟩
abbrev F.FMN_MB_STATUS.DONE : Fld := ⟨.FMN_MB_STATUS, 1, 1, .RW1C, .L, 0⟩
abbrev F.FMN_MB_STATUS.BUSY : Fld := ⟨.FMN_MB_STATUS, 0, 1, .RO, .N, 0⟩
abbrev F.FMN_REQ.DATA : Fld := ⟨.FMN_REQ, 0, 64, .RW, .L, 0⟩
abbrev F.FMN_RESP.DATA : Fld := ⟨.FMN_RESP, 0, 64, .RO, .N, 0⟩

/-- The fields of each register, from high bits to low as its table lists them. -/
def Reg.fields : Reg → List Fld
  | .GLB_IDENT => [F.GLB_IDENT.DEVICE, F.GLB_IDENT.STEP_LETTER, F.GLB_IDENT.STEP_DIGIT]
  | .GLB_FITTED => [F.GLB_FITTED.BAY_MASK, F.GLB_FITTED.FMN, F.GLB_FITTED.GRN, F.GLB_FITTED.PWR,
      F.GLB_FITTED.FLT, F.GLB_FITTED.ECC, F.GLB_FITTED.PEG, F.GLB_FITTED.COH, F.GLB_FITTED.MAT,
      F.GLB_FITTED.RMA, F.GLB_FITTED.HIF1, F.GLB_FITTED.HIF0, F.GLB_FITTED.CONF, F.GLB_FITTED.MCAST,
      F.GLB_FITTED.RTE, F.GLB_FITTED.LNK, F.GLB_FITTED.SER, F.GLB_FITTED.BEA, F.GLB_FITTED.TRS,
      F.GLB_FITTED.GLB]
  | .GLB_UNIT_RESET => [F.GLB_UNIT_RESET.BUSY, F.GLB_UNIT_RESET.REQUEST]
  | .GLB_PORT_RESET => [F.GLB_PORT_RESET.PORTS]
  | .GLB_DEVICE_RESET => [F.GLB_DEVICE_RESET.KEY, F.GLB_DEVICE_RESET.RESET]
  | .GLB_BOOT_STATUS => [F.GLB_BOOT_STATUS.BOOT_MS, F.GLB_BOOT_STATUS.REPAIRS, F.GLB_BOOT_STATUS.BAD_BAYS,
      F.GLB_BOOT_STATUS.FW_SLOT, F.GLB_BOOT_STATUS.PHASE]
  | .GLB_RESET_CAUSE => [F.GLB_RESET_CAUSE.DEVICE_RESETS, F.GLB_RESET_CAUSE.CAUSE]
  | .GLB_BOOT_CTRL => [F.GLB_BOOT_CTRL.ROUTES_READY]
  | .TRS_STATUS => [F.TRS_STATUS.LOADS, F.TRS_STATUS.SEC_VERSION, F.TRS_STATUS.SIGN_SLOT,
      F.TRS_STATUS.SOURCE, F.TRS_STATUS.PUSH_CLOSED, F.TRS_STATUS.STATE]
  | .TRS_IMAGE_DIGEST => [F.TRS_IMAGE_DIGEST.DIGEST]
  | .TRS_BUILD_ID => [F.TRS_BUILD_ID.BUILD_ID]
  | .TRS_ERROR => [F.TRS_ERROR.MEMBER_TYPE, F.TRS_ERROR.OFFSET, F.TRS_ERROR.CHECK, F.TRS_ERROR.ORIGIN,
      F.TRS_ERROR.VALID]
  | .TRS_HOT_STATUS => [F.TRS_HOT_STATUS.HOT_COMMITS, F.TRS_HOT_STATUS.DISCARDED, F.TRS_HOT_STATUS.STATE]
  | .TRS_KEY_STATUS => [F.TRS_KEY_STATUS.SEC_FLOOR, F.TRS_KEY_STATUS.REVOKED, F.TRS_KEY_STATUS.PROGRAMMED]
  | .TRS_ENABLE => [F.TRS_ENABLE.ENABLE]
  | .TRS_SLOT_CHECK => [F.TRS_SLOT_CHECK.START, F.TRS_SLOT_CHECK.BUSY, F.TRS_SLOT_CHECK.SLOT1_CHECK,
      F.TRS_SLOT_CHECK.SLOT0_CHECK]
  | .BEA_CONFIG => [F.BEA_CONFIG.TASK_EN, F.BEA_CONFIG.EXT_REF, F.BEA_CONFIG.ROLE, F.BEA_CONFIG.PERIOD_UNITS]
  | .BEA_COUNT => [F.BEA_COUNT.COUNT]
  | .BEA_PHASE => [F.BEA_PHASE.CYCLE, F.BEA_PHASE.SUB]
  | .BEA_STATUS => [F.BEA_STATUS.OVERRUNS, F.BEA_STATUS.DISTANCE, F.BEA_STATUS.UPSTREAM,
      F.BEA_STATUS.UP_VALID, F.BEA_STATUS.EVER_LOCKED, F.BEA_STATUS.MASTER_ID, F.BEA_STATUS.MASTER_PRIO,
      F.BEA_STATUS.REF_LOCK, F.BEA_STATUS.STATE]
  | .BEA_BUDGET => [F.BEA_BUDGET.PEAK, F.BEA_BUDGET.ENABLED, F.BEA_BUDGET.MANDATORY, F.BEA_BUDGET.BUDGET]
  | .BEA_OFFSET => [F.BEA_OFFSET.HOLD_MS, F.BEA_OFFSET.OFFSET]
  | .BEA_HOLDOVER => [F.BEA_HOLDOVER.LIMIT_S]
  | .BEA_COMMIT_HOLD => [F.BEA_COMMIT_HOLD.HOLD]
  | .BEA_COMMIT_PENDING => [F.BEA_COMMIT_PENDING.PENDING]
  | .BEA_COMMIT_AT => [F.BEA_COMMIT_AT.TARGET]
  | .BEA_COMMIT_ARM => [F.BEA_COMMIT_ARM.ARM, F.BEA_COMMIT_ARM.MASK]
  | .BEA_PPS_COUNT => [F.BEA_PPS_COUNT.COUNT]
  | .BEA_PPS_PHASE => [F.BEA_PPS_PHASE.VALID, F.BEA_PPS_PHASE.CYCLE, F.BEA_PPS_PHASE.SUB]
  | .BEA_LINK_DELAY => [F.BEA_LINK_DELAY.VALID, F.BEA_LINK_DELAY.DELAY]
  | .SER_CTRL => [F.SER_CTRL.ENABLE]
  | .SER_BRINGUP_CFG => [F.SER_BRINGUP_CFG.EYE_FLOOR, F.SER_BRINGUP_CFG.ERR_MAX,
      F.SER_BRINGUP_CFG.CAPS_TIMEOUT, F.SER_BRINGUP_CFG.TRAIN_US, F.SER_BRINGUP_CFG.CHECK_US,
      F.SER_BRINGUP_CFG.RETRY_MS]
  | .SER_PLL_STATUS => [F.SER_PLL_STATUS.LOCK]
  | .SER_PORT_CTRL => [F.SER_PORT_CTRL.MODE, F.SER_PORT_CTRL.RESTART, F.SER_PORT_CTRL.POWER_DOWN,
      F.SER_PORT_CTRL.TARGET_STEP, F.SER_PORT_CTRL.TARGET_WIDTH]
  | .SER_PORT_STATUS => [F.SER_PORT_STATUS.PEER_NODE, F.SER_PORT_STATUS.PEER_PORT,
      F.SER_PORT_STATUS.PEER_ROUTER, F.SER_PORT_STATUS.PEER_BEAT, F.SER_PORT_STATUS.PEER_STEP,
      F.SER_PORT_STATUS.FAILS, F.SER_PORT_STATUS.SWAPPED, F.SER_PORT_STATUS.POL_INV, F.SER_PORT_STATUS.LANES,
      F.SER_PORT_STATUS.STEP, F.SER_PORT_STATUS.WIDTH, F.SER_PORT_STATUS.STATE]
  | .SER_LANE_STATUS => [F.SER_LANE_STATUS.HEIGHT_AVG, F.SER_LANE_STATUS.WIDTH, F.SER_LANE_STATUS.HEIGHT,
      F.SER_LANE_STATUS.WORST_EYE, F.SER_LANE_STATUS.REVERTED, F.SER_LANE_STATUS.LIMIT,
      F.SER_LANE_STATUS.FROZEN, F.SER_LANE_STATUS.FAILED, F.SER_LANE_STATUS.SIG_DET,
      F.SER_LANE_STATUS.CDR_LOCK, F.SER_LANE_STATUS.CAL_OK, F.SER_LANE_STATUS.POWERED]
  | .SER_FFE => [F.SER_FFE.MAIN, F.SER_FFE.POST, F.SER_FFE.PRE]
  | .SER_CTLE => [F.SER_CTLE.DC_GAIN, F.SER_CTLE.PEAK]
  | .SER_DFE_TAPS => [F.SER_DFE_TAPS.TAP1, F.SER_DFE_TAPS.TAP2, F.SER_DFE_TAPS.TAP3, F.SER_DFE_TAPS.TAP4,
      F.SER_DFE_TAPS.TAP5, F.SER_DFE_TAPS.TAP6, F.SER_DFE_TAPS.TAP7, F.SER_DFE_TAPS.TAP8,
      F.SER_DFE_TAPS.TAP9, F.SER_DFE_TAPS.TAP10, F.SER_DFE_TAPS.TAP11, F.SER_DFE_TAPS.TAP12]
  | .SER_EQ_OVERRIDE => [F.SER_EQ_OVERRIDE.FFE_OVR, F.SER_EQ_OVERRIDE.CTLE_OVR, F.SER_EQ_OVERRIDE.DFE_OVR,
      F.SER_EQ_OVERRIDE.FREEZE, F.SER_EQ_OVERRIDE.DC_GAIN, F.SER_EQ_OVERRIDE.PEAK, F.SER_EQ_OVERRIDE.POST,
      F.SER_EQ_OVERRIDE.PRE]
  | .SER_DFE_OVERRIDE => [F.SER_DFE_OVERRIDE.TAP1, F.SER_DFE_OVERRIDE.TAP2, F.SER_DFE_OVERRIDE.TAP3,
      F.SER_DFE_OVERRIDE.TAP4, F.SER_DFE_OVERRIDE.TAP5, F.SER_DFE_OVERRIDE.TAP6, F.SER_DFE_OVERRIDE.TAP7,
      F.SER_DFE_OVERRIDE.TAP8, F.SER_DFE_OVERRIDE.TAP9, F.SER_DFE_OVERRIDE.TAP10, F.SER_DFE_OVERRIDE.TAP11,
      F.SER_DFE_OVERRIDE.TAP12]
  | .SER_TEST => [F.SER_TEST.PRESET, F.SER_TEST.STEP, F.SER_TEST.LOOP, F.SER_TEST.PATTERN, F.SER_TEST.GEN_EN,
      F.SER_TEST.CHK_EN, F.SER_TEST.INVERT, F.SER_TEST.CLEAR, F.SER_TEST.INJECT]
  | .SER_PRBS_COUNT => [F.SER_PRBS_COUNT.LOCK, F.SER_PRBS_COUNT.SAT, F.SER_PRBS_COUNT.BITS,
      F.SER_PRBS_COUNT.ERRORS]
  | .LNK_CTRL => [F.LNK_CTRL.ENABLE]
  | .LNK_TIMERS => [F.LNK_TIMERS.NOPROG_US, F.LNK_TIMERS.ACK_TIMEOUT, F.LNK_TIMERS.NAK_RETRY,
      F.LNK_TIMERS.INIT_TIMEOUT]
  | .LNK_HEALTH => [F.LNK_HEALTH.REPLAY_MAX, F.LNK_HEALTH.UNCORR_MAX, F.LNK_HEALTH.WINDOW]
  | .LNK_PORT_STATUS => [F.LNK_PORT_STATUS.STALL_BEATS, F.LNK_PORT_STATUS.DOWNS,
      F.LNK_PORT_STATUS.PEER_REASON, F.LNK_PORT_STATUS.LAST_REASON, F.LNK_PORT_STATUS.STATE]
  | .LNK_REPLAY_STATUS => [F.LNK_REPLAY_STATUS.TX_NEXT, F.LNK_REPLAY_STATUS.TX_OLDEST,
      F.LNK_REPLAY_STATUS.OUTSTANDING, F.LNK_REPLAY_STATUS.FULL, F.LNK_REPLAY_STATUS.REPLAYING,
      F.LNK_REPLAY_STATUS.NAK_OUT, F.LNK_REPLAY_STATUS.RX_EXPECT]
  | .LNK_ERR_COUNT => [F.LNK_ERR_COUNT.UNCORR_WIN, F.LNK_ERR_COUNT.REPLAY_WIN, F.LNK_ERR_COUNT.UNCORR_TOTAL,
      F.LNK_ERR_COUNT.REPLAY_TOTAL]
  | .LNK_FEC_COUNT => [F.LNK_FEC_COUNT.CORR_BYTES, F.LNK_FEC_COUNT.CORR_FLITS]
  | .LNK_PORT_CTRL => [F.LNK_PORT_CTRL.CORRUPT]
  | .RTE_CTRL => [F.RTE_CTRL.ADAPT_VN, F.RTE_CTRL.NONMIN_EN, F.RTE_CTRL.ENABLE]
  | .RTE_NODE => [F.RTE_NODE.GROUP_Y, F.RTE_NODE.GROUP_X, F.RTE_NODE.GROUPS, F.RTE_NODE.NODE_ID]
  | .RTE_ARB => [F.RTE_ARB.AGE_PROMOTE]
  | .RTE_TC_WEIGHT => [F.RTE_TC_WEIGHT.WEIGHT_0, F.RTE_TC_WEIGHT.WEIGHT_1, F.RTE_TC_WEIGHT.WEIGHT_2,
      F.RTE_TC_WEIGHT.WEIGHT_3, F.RTE_TC_WEIGHT.WEIGHT_4, F.RTE_TC_WEIGHT.WEIGHT_5, F.RTE_TC_WEIGHT.WEIGHT_6,
      F.RTE_TC_WEIGHT.WEIGHT_7]
  | .RTE_ADAPT => [F.RTE_ADAPT.BIAS]
  | .RTE_ADAPT_OVERRIDE => [F.RTE_ADAPT_OVERRIDE.OVR, F.RTE_ADAPT_OVERRIDE.BIAS]
  | .RTE_EDDY => [F.RTE_EDDY.THRESH]
  | .RTE_EDDY_OVERRIDE => [F.RTE_EDDY_OVERRIDE.OVR, F.RTE_EDDY_OVERRIDE.THRESH]
  | .RTE_LIMITER_CFG => [F.RTE_LIMITER_CFG.RATE_MIN, F.RTE_LIMITER_CFG.MD, F.RTE_LIMITER_CFG.AI,
      F.RTE_LIMITER_CFG.FREE_BEATS]
  | .RTE_LIMITER_STATUS => [F.RTE_LIMITER_STATUS.RATE_CAP, F.RTE_LIMITER_STATUS.REPLACED,
      F.RTE_LIMITER_STATUS.IN_USE]
  | .RTE_DROP_COUNT => [F.RTE_DROP_COUNT.UNROUTABLE, F.RTE_DROP_COUNT.MALFORMED, F.RTE_DROP_COUNT.SRC_BAD,
      F.RTE_DROP_COUNT.E2E_CRC]
  | .RTE_SEED => [F.RTE_SEED.SEED]
  | .RTE_MGMT_ALLOW => [F.RTE_MGMT_ALLOW.VALID, F.RTE_MGMT_ALLOW.NODE]
  | .RTE_PORT_STATUS => [F.RTE_PORT_STATUS.PEER_GROUP, F.RTE_PORT_STATUS.PEER_POS, F.RTE_PORT_STATUS.KIND,
      F.RTE_PORT_STATUS.DEAD]
  | .RTE_PORT_FALLBACK => [F.RTE_PORT_FALLBACK.MASK]
  | .RTE_CONG => [F.RTE_CONG.EPOCH_AVG, F.RTE_CONG.EPOCH_MAX, F.RTE_CONG.MARKS, F.RTE_CONG.QUEUE]
  | .RTE_CREDIT => [F.RTE_CREDIT.D2, F.RTE_CREDIT.D1, F.RTE_CREDIT.D0, F.RTE_CREDIT.C2, F.RTE_CREDIT.C1,
      F.RTE_CREDIT.C0]
  | .RTE_GROUP_TABLE => [F.RTE_GROUP_TABLE.GW0, F.RTE_GROUP_TABLE.GW1, F.RTE_GROUP_TABLE.GW2,
      F.RTE_GROUP_TABLE.GW3]
  | .RTE_ALIAS => [F.RTE_ALIAS.VALID, F.RTE_ALIAS.PORT, F.RTE_ALIAS.SERVE_POS, F.RTE_ALIAS.POS]
  | .MCT_CTRL => [F.MCT_CTRL.MC_RATE, F.MCT_CTRL.ENABLE]
  | .MCT_TREE_ADDR => [F.MCT_TREE_ADDR.ADDR]
  | .MCT_TREE_CMD => [F.MCT_TREE_CMD.EPOCH, F.MCT_TREE_CMD.TREE, F.MCT_TREE_CMD.CMD]
  | .MCT_TREE_RESULT => [F.MCT_TREE_RESULT.BUSY, F.MCT_TREE_RESULT.CODE, F.MCT_TREE_RESULT.TREE]
  | .MCT_COUNT => [F.MCT_COUNT.MC_SKIPPED, F.MCT_COUNT.STALE, F.MCT_COUNT.NOTICE_DROP, F.MCT_COUNT.MC_GAPS]
  | .MCT_MC_LAND => [F.MCT_MC_LAND.VALID, F.MCT_MC_LAND.CQ, F.MCT_MC_LAND.KEY]
  | .MCT_TREE_STATUS => [F.MCT_TREE_STATUS.OP_SEQ, F.MCT_TREE_STATUS.EPOCH, F.MCT_TREE_STATUS.LAST_STATUS,
      F.MCT_TREE_STATUS.ENGINE, F.MCT_TREE_STATUS.STATE]
  | .MCT_MC_MASK => [F.MCT_MC_MASK.MASK]
  | .MCT_MC_CTL => [F.MCT_MC_CTL.VALID, F.MCT_MC_CTL.EJECT, F.MCT_MC_CTL.ROOT, F.MCT_MC_CTL.LAND,
      F.MCT_MC_CTL.NEXT_SEQ]
  | .HIF_CTRL => [F.HIF_CTRL.ENABLE]
  | .HIF_FN_INFO => [F.HIF_FN_INFO.PF, F.HIF_FN_INFO.VF, F.HIF_FN_INFO.VFNUM, F.HIF_FN_INFO.QCOUNT,
      F.HIF_FN_INFO.EQCOUNT, F.HIF_FN_INFO.VECTORS, F.HIF_FN_INFO.ENABLED]
  | .HIF_QCT_BASE => [F.HIF_QCT_BASE.BASE, F.HIF_QCT_BASE.LOG_LIMIT]
  | .HIF_SCHED => [F.HIF_SCHED.CQ_FULL_BEATS, F.HIF_SCHED.PREFETCH, F.HIF_SCHED.AGE_PROMOTE]
  | .HIF_QUEUE_ADDR => [F.HIF_QUEUE_ADDR.ADDR]
  | .HIF_QUEUE_CMD => [F.HIF_QUEUE_CMD.NUM, F.HIF_QUEUE_CMD.CMD]
  | .HIF_QUEUE_RESULT => [F.HIF_QUEUE_RESULT.BUSY, F.HIF_QUEUE_RESULT.CODE, F.HIF_QUEUE_RESULT.CMD,
      F.HIF_QUEUE_RESULT.NUM]
  | .HIF_COUNT => [F.HIF_COUNT.PUSH_DROP, F.HIF_COUNT.DB_BAD, F.HIF_COUNT.PARKED]
  | .HIF_PORT_STATUS => [F.HIF_PORT_STATUS.LINK_UP, F.HIF_PORT_STATUS.FLIT, F.HIF_PORT_STATUS.BIFURCATED,
      F.HIF_PORT_STATUS.CXL, F.HIF_PORT_STATUS.CACHE, F.HIF_PORT_STATUS.MEM, F.HIF_PORT_STATUS.RATE,
      F.HIF_PORT_STATUS.WIDTH]
  | .HIF_VF_MAP => [F.HIF_VF_MAP.QBASE, F.HIF_VF_MAP.QCOUNT, F.HIF_VF_MAP.EQBASE, F.HIF_VF_MAP.EQCOUNT]
  | .HIF_EQ_BASE => [F.HIF_EQ_BASE.BASE, F.HIF_EQ_BASE.LOG_SIZE]
  | .HIF_EQ_CFG => [F.HIF_EQ_CFG.ENABLE, F.HIF_EQ_CFG.VECTOR, F.HIF_EQ_CFG.MOD_COUNT, F.HIF_EQ_CFG.MOD_TIME]
  | .HIF_EQ_STATUS => [F.HIF_EQ_STATUS.PI, F.HIF_EQ_STATUS.MERGED, F.HIF_EQ_STATUS.HELD, F.HIF_EQ_STATUS.ARMED]
  | .HIF_EQ_DB => [F.HIF_EQ_DB.ARM, F.HIF_EQ_DB.CI]
  | .HIF_SQ_DB => [F.HIF_SQ_DB.PI]
  | .HIF_CQ_DB => [F.HIF_CQ_DB.ARM, F.HIF_CQ_DB.CI]
  | .HIF_Q_CTRL => [F.HIF_Q_CTRL.ENABLE]
  | .HIF_Q_STATUS => [F.HIF_Q_STATUS.DB, F.HIF_Q_STATUS.TAKEN]
  | .HIF_Q_STATE => [F.HIF_Q_STATE.ERR_INDEX, F.HIF_Q_STATE.REASON, F.HIF_Q_STATE.CQ_HOLD,
      F.HIF_Q_STATE.IDLE, F.HIF_Q_STATE.STATE]
  | .HIF_CQ_STATUS => [F.HIF_CQ_STATUS.PI, F.HIF_CQ_STATUS.FULL_BEATS, F.HIF_CQ_STATUS.PARKED,
      F.HIF_CQ_STATUS.ARMED, F.HIF_CQ_STATUS.STATE]
  | .RMA_CTRL => [F.RMA_CTRL.ENABLE]
  | .RMA_CFG => [F.RMA_CFG.RTO_BEATS, F.RMA_CFG.BACKOFF_BEATS, F.RMA_CFG.WINDOW_LOG, F.RMA_CFG.ACK_DELAY]
  | .RMA_RT_BASE => [F.RMA_RT_BASE.BASE, F.RMA_RT_BASE.LOG_LIMIT]
  | .RMA_REG_CMD => [F.RMA_REG_CMD.INDEX, F.RMA_REG_CMD.CMD]
  | .RMA_REG_RESULT => [F.RMA_REG_RESULT.BUSY, F.RMA_REG_RESULT.CODE, F.RMA_REG_RESULT.CMD,
      F.RMA_REG_RESULT.KEY]
  | .RMA_QINFO_SEL => [F.RMA_QINFO_SEL.NUM]
  | .RMA_QINFO => [F.RMA_QINFO.QGEN, F.RMA_QINFO.NEXT_PSN, F.RMA_QINFO.CUM_PSN, F.RMA_QINFO.CAUSE]
  | .RMA_COUNT => [F.RMA_COUNT.RETRANSMITS, F.RMA_COUNT.DUPLICATES, F.RMA_COUNT.VIOLATIONS, F.RMA_COUNT.STALE]
  | .RMA_STATUS => [F.RMA_STATUS.BUSY_SENT, F.RMA_STATUS.RESEND_SENT, F.RMA_STATUS.ATOMIC_RECORDS,
      F.RMA_STATUS.MISS_OCC]
  | .RMA_VF_RMAP => [F.RMA_VF_RMAP.RBASE, F.RMA_VF_RMAP.RCOUNT, F.RMA_VF_RMAP.PDBASE, F.RMA_VF_RMAP.PDLOG]
  | .MAT_CTRL => [F.MAT_CTRL.ENABLE]
  | .MAT_ML_ADDR => [F.MAT_ML_ADDR.ADDR]
  | .MAT_ML_CMD => [F.MAT_ML_CMD.ML, F.MAT_ML_CMD.CMD]
  | .MAT_ML_RESULT => [F.MAT_ML_RESULT.BUSY, F.MAT_ML_RESULT.CODE, F.MAT_ML_RESULT.CMD, F.MAT_ML_RESULT.ML]
  | .MAT_COUNT => [F.MAT_COUNT.UNEXPECTED, F.MAT_COUNT.BUSY_SENT, F.MAT_COUNT.SPILL_READS, F.MAT_COUNT.STALE]
  | .MAT_ML_STATUS => [F.MAT_ML_STATUS.POSTED, F.MAT_ML_STATUS.UNEXP, F.MAT_ML_STATUS.HELD,
      F.MAT_ML_STATUS.ENGINE, F.MAT_ML_STATUS.STATE]
  | .COH_CTRL => [F.COH_CTRL.ENABLE]
  | .COH_MODE => [F.COH_MODE.DOMAIN, F.COH_MODE.MID, F.COH_MODE.RACE_MODE]
  | .COH_FWD_TIMEOUT => [F.COH_FWD_TIMEOUT.FWD_BEATS, F.COH_FWD_TIMEOUT.REQ_BEATS,
      F.COH_FWD_TIMEOUT.REQ_RETRY_MAX]
  | .COH_CMD => [F.COH_CMD.MEMBER, F.COH_CMD.CMD]
  | .COH_RESULT => [F.COH_RESULT.BUSY, F.COH_RESULT.LINES, F.COH_RESULT.CODE, F.COH_RESULT.CMD,
      F.COH_RESULT.MEMBER]
  | .COH_STATUS => [F.COH_STATUS.HOME_TX, F.COH_STATUS.AGENT_TX, F.COH_STATUS.RETRY_WAIT,
      F.COH_STATUS.WB_USED, F.COH_STATUS.RECLAIMING]
  | .COH_COUNT => [F.COH_COUNT.RETRIES, F.COH_COUNT.POISONED, F.COH_COUNT.STALE, F.COH_COUNT.DEAD_LOST]
  | .COH_EXPORT => [F.COH_EXPORT.VALID, F.COH_EXPORT.BASE, F.COH_EXPORT.SIZE]
  | .COH_MEMBER => [F.COH_MEMBER.VALID, F.COH_MEMBER.DEAD, F.COH_MEMBER.NODE]
  | .COH_HDM_TARGET => [F.COH_HDM_TARGET.VALID, F.COH_HDM_TARGET.DA_BASE]
  | .PEG_CTRL => [F.PEG_CTRL.ENABLE]
  | .PEG_CFG => [F.PEG_CFG.STALL_LIMIT]
  | .PEG_SUPERVISOR => [F.PEG_SUPERVISOR.MASK]
  | .PEG_FORCE => [F.PEG_FORCE.INDEX, F.PEG_FORCE.CMD]
  | .PEG_COUNT => [F.PEG_COUNT.STALLED, F.PEG_COUNT.WAITING, F.PEG_COUNT.NO_ROOM, F.PEG_COUNT.FORCED]
  | .PEG_FN_CFG => [F.PEG_FN_CFG.WATCH_EN, F.PEG_FN_CFG.WATCH_EQ]
  | .PEG_GROUP => [F.PEG_GROUP.PF_MASK]
  | .PEG_VF_MAP => [F.PEG_VF_MAP.PBASE, F.PEG_VF_MAP.PCOUNT]
  | .PEG_TAKE => [F.PEG_TAKE.RESULT]
  | .PEG_TRY => [F.PEG_TRY.RESULT]
  | .PEG_RELEASE => [F.PEG_RELEASE.RELEASE]
  | .PEG_WATCH => [F.PEG_WATCH.CANCEL, F.PEG_WATCH.WATCH]
  | .PEG_STATE => [F.PEG_STATE.HELD, F.PEG_STATE.ABANDONED, F.PEG_STATE.FORCED, F.PEG_STATE.OWNER,
      F.PEG_STATE.WAITERS, F.PEG_STATE.GRANTS]
  | .ECC_CTRL => [F.ECC_CTRL.ENABLE]
  | .ECC_CODES => [F.ECC_CODES.CODE_0, F.ECC_CODES.CODE_1, F.ECC_CODES.CODE_2, F.ECC_CODES.CODE_3,
      F.ECC_CODES.CODE_4, F.ECC_CODES.CODE_5, F.ECC_CODES.CODE_6, F.ECC_CODES.CODE_7]
  | .ECC_SCRUB_CFG => [F.ECC_SCRUB_CFG.LAP_UNITS]
  | .ECC_LAST_UE => [F.ECC_LAST_UE.VALID, F.ECC_LAST_UE.REGION, F.ECC_LAST_UE.BY_SCRUB, F.ECC_LAST_UE.WORD]
  | .ECC_FLIP_CTRL => [F.ECC_FLIP_CTRL.ARM, F.ECC_FLIP_CTRL.MATCH, F.ECC_FLIP_CTRL.REGION,
      F.ECC_FLIP_CTRL.HALF, F.ECC_FLIP_CTRL.CHECK_MASK, F.ECC_FLIP_CTRL.WORD]
  | .ECC_FLIP_DATA => [F.ECC_FLIP_DATA.MASK]
  | .ECC_FLIP_STATUS => [F.ECC_FLIP_STATUS.DONE, F.ECC_FLIP_STATUS.REGION, F.ECC_FLIP_STATUS.WORD]
  | .ECC_WIN_SEL => [F.ECC_WIN_SEL.RAW, F.ECC_WIN_SEL.REGION, F.ECC_WIN_SEL.PAGE]
  | .ECC_WIN_STATUS => [F.ECC_WIN_STATUS.CHECK, F.ECC_WIN_STATUS.UE, F.ECC_WIN_STATUS.CE]
  | .ECC_REGION_STATUS => [F.ECC_REGION_STATUS.LAST_LAP, F.ECC_REGION_STATUS.CE_COUNT,
      F.ECC_REGION_STATUS.UE_COUNT, F.ECC_REGION_STATUS.PROGRESS, F.ECC_REGION_STATUS.FORCED,
      F.ECC_REGION_STATUS.CODE]
  | .ECC_WIN => [F.ECC_WIN.DATA]
  | .FLT_CTRL => [F.FLT_CTRL.SPILL_KEY, F.FLT_CTRL.PIN_LEVEL, F.FLT_CTRL.SPILL]
  | .FLT_STATUS => [F.FLT_STATUS.SPILLWAY, F.FLT_STATUS.SW_SPILL, F.FLT_STATUS.SELF,
      F.FLT_STATUS.SPILL_SOURCE, F.FLT_STATUS.ESCALATIONS, F.FLT_STATUS.RICH_VALID]
  | .FLT_THRESH => [F.FLT_THRESH.ESC_COUNT, F.FLT_THRESH.ESC_WINDOW]
  | .FLT_NOTIFY => [F.FLT_NOTIFY.VALID, F.FLT_NOTIFY.MIN_SEV, F.FLT_NOTIFY.EQ]
  | .FLT_FORCE_INST => [F.FLT_FORCE_INST.INSTANCE]
  | .FLT_STICKY => [F.FLT_STICKY.STICKY]
  | .FLT_FORCE => [F.FLT_FORCE.FORCE]
  | .FLT_RICH_ASSIGN => [F.FLT_RICH_ASSIGN.SOURCE]
  | .FLT_RICH_META => [F.FLT_RICH_META.VALID, F.FLT_RICH_META.MULTI, F.FLT_RICH_META.FORCED,
      F.FLT_RICH_META.STATE, F.FLT_RICH_META.SEV, F.FLT_RICH_META.ACCESS, F.FLT_RICH_META.REMOTE,
      F.FLT_RICH_META.INITIATOR, F.FLT_RICH_META.SOURCE, F.FLT_RICH_META.INSTANCE]
  | .FLT_RICH_ADDR => [F.FLT_RICH_ADDR.ADDR]
  | .FLT_RICH_INFO => [F.FLT_RICH_INFO.INFO]
  | .FLT_RICH_BEAT => [F.FLT_RICH_BEAT.BEAT]
  | .FLT_SEV => [F.FLT_SEV.MULTI, F.FLT_SEV.INTEGRITY, F.FLT_SEV.SCOPE, F.FLT_SEV.DEFAULT, F.FLT_SEV.ESC_DIS,
      F.FLT_SEV.ASSIGNED, F.FLT_SEV.LAST_SEV, F.FLT_SEV.SEV, F.FLT_SEV.WIN_COUNT, F.FLT_SEV.COUNT]
  | .PWR_CTRL => [F.PWR_CTRL.MAX_STATE, F.PWR_CTRL.ENABLE]
  | .PWR_FABRIC_TOL => [F.PWR_FABRIC_TOL.TOL_NS]
  | .PWR_STATE => [F.PWR_STATE.TOL_NS, F.PWR_STATE.SPRINT_OK, F.PWR_STATE.OVER_CEIL, F.PWR_STATE.DERATE,
      F.PWR_STATE.EXITING, F.PWR_STATE.STATE]
  | .PWR_IDLE => [F.PWR_IDLE.P4_BEATS, F.PWR_IDLE.P3_BEATS, F.PWR_IDLE.P2_BEATS]
  | .PWR_ENV => [F.PWR_ENV.SPRINT_EFF, F.PWR_ENV.ENV_EFF, F.PWR_ENV.SPRINT_W, F.PWR_ENV.ENVELOPE_W]
  | .PWR_POWER => [F.PWR_POWER.SPRINT_S, F.PWR_POWER.P_FILT, F.PWR_POWER.CEILING, F.PWR_POWER.P_NOW]
  | .PWR_TEMP => [F.PWR_TEMP.TJ_MAX, F.PWR_TEMP.CASE]
  | .PWR_COOLING => [F.PWR_COOLING.COOLANT_MAX, F.PWR_COOLING.THETA_CC, F.PWR_COOLING.THERMAL_MASS]
  | .PWR_LOOP_CFG => [F.PWR_LOOP_CFG.EDDY_QREF, F.PWR_LOOP_CFG.AVS_SLACK]
  | .PWR_PORT_CFG => [F.PWR_PORT_CFG.PORT_IDLE_BEATS, F.PWR_PORT_CFG.WIDEN_PCT, F.PWR_PORT_CFG.NARROW_PCT]
  | .PWR_PORT_AUTO => [F.PWR_PORT_AUTO.AUTO]
  | .PWR_ENG => [F.PWR_ENG.CAP, F.PWR_ENG.STEP]
  | .PWR_ENG_OVERRIDE => [F.PWR_ENG_OVERRIDE.OVR, F.PWR_ENG_OVERRIDE.STEP]
  | .PWR_PLACE => [F.PWR_PLACE.FREEZE, F.PWR_PLACE.MOVES]
  | .PWR_HOST_TOL => [F.PWR_HOST_TOL.OVR, F.PWR_HOST_TOL.OVR_NS]
  | .PWR_LOOP_GAIN => [F.PWR_LOOP_GAIN.STEP_LIMIT, F.PWR_LOOP_GAIN.GAIN_I, F.PWR_LOOP_GAIN.GAIN_P]
  | .PWR_AVS => [F.PWR_AVS.SLACK, F.PWR_AVS.V_MAX, F.PWR_AVS.V_MIN, F.PWR_AVS.VOLT]
  | .PWR_AVS_OVERRIDE => [F.PWR_AVS_OVERRIDE.OVR, F.PWR_AVS_OVERRIDE.VOLT]
  | .GRN_CTRL => [F.GRN_CTRL.WARN_MONTHS, F.GRN_CTRL.ENABLE]
  | .GRN_EOL => [F.GRN_EOL.VALID, F.GRN_EOL.INPUT, F.GRN_EOL.HIGH, F.GRN_EOL.LOW, F.GRN_EOL.MONTHS]
  | .GRN_INPUT => [F.GRN_INPUT.POINTS, F.GRN_INPUT.MONTHS, F.GRN_INPUT.LIMIT, F.GRN_INPUT.VALUE]
  | .FMN_INFO => [F.FMN_INFO.VENDOR, F.FMN_INFO.FW_VERSION, F.FMN_INFO.EID, F.FMN_INFO.STATE]
  | .FMN_MB_CTRL => [F.FMN_MB_CTRL.GO]
  | .FMN_MB_STATUS => [F.FMN_MB_STATUS.DONE, F.FMN_MB_STATUS.BUSY]
  | .FMN_REQ => [F.FMN_REQ.DATA]
  | .FMN_RESP => [F.FMN_RESP.DATA]

/-- Where the instances of a register lie: commit group (block window index), block offset (or offset in the
doorbell page), bytes from one instance to the next, number of instances, and whether it is a page register. -/
structure Place where
  blk : Nat
  off : Nat
  stride : Nat
  count : Nat
  page : Bool
  deriving DecidableEq, Repr

/-- The place of each register (Tables 17.1 to 17.13). -/
def Reg.place : Reg → Place
  | .GLB_IDENT => ⟨0, 0x8, 8, 1, false⟩
  | .GLB_FITTED => ⟨0, 0x10, 8, 1, false⟩
  | .GLB_UNIT_RESET => ⟨0, 0x18, 8, 1, false⟩
  | .GLB_PORT_RESET => ⟨0, 0x20, 8, 1, false⟩
  | .GLB_DEVICE_RESET => ⟨0, 0x28, 8, 1, false⟩
  | .GLB_BOOT_STATUS => ⟨0, 0x30, 8, 1, false⟩
  | .GLB_RESET_CAUSE => ⟨0, 0x38, 8, 1, false⟩
  | .GLB_BOOT_CTRL => ⟨0, 0x40, 8, 1, false⟩
  | .TRS_STATUS => ⟨1, 0x8, 8, 1, false⟩
  | .TRS_IMAGE_DIGEST => ⟨1, 0x10, 8, 2, false⟩
  | .TRS_BUILD_ID => ⟨1, 0x20, 8, 1, false⟩
  | .TRS_ERROR => ⟨1, 0x28, 8, 1, false⟩
  | .TRS_HOT_STATUS => ⟨1, 0x30, 8, 1, false⟩
  | .TRS_KEY_STATUS => ⟨1, 0x38, 8, 1, false⟩
  | .TRS_ENABLE => ⟨1, 0x40, 8, 1, false⟩
  | .TRS_SLOT_CHECK => ⟨1, 0x48, 8, 1, false⟩
  | .BEA_CONFIG => ⟨2, 0x8, 8, 1, false⟩
  | .BEA_COUNT => ⟨2, 0x10, 8, 1, false⟩
  | .BEA_PHASE => ⟨2, 0x18, 8, 1, false⟩
  | .BEA_STATUS => ⟨2, 0x20, 8, 1, false⟩
  | .BEA_BUDGET => ⟨2, 0x28, 8, 1, false⟩
  | .BEA_OFFSET => ⟨2, 0x30, 8, 1, false⟩
  | .BEA_HOLDOVER => ⟨2, 0x38, 8, 1, false⟩
  | .BEA_COMMIT_HOLD => ⟨2, 0x40, 8, 1, false⟩
  | .BEA_COMMIT_PENDING => ⟨2, 0x48, 8, 1, false⟩
  | .BEA_COMMIT_AT => ⟨2, 0x50, 8, 1, false⟩
  | .BEA_COMMIT_ARM => ⟨2, 0x58, 8, 1, false⟩
  | .BEA_PPS_COUNT => ⟨2, 0x60, 8, 1, false⟩
  | .BEA_PPS_PHASE => ⟨2, 0x68, 8, 1, false⟩
  | .BEA_LINK_DELAY => ⟨2, 0x1000, 8, 64, false⟩
  | .SER_CTRL => ⟨3, 0x8, 8, 1, false⟩
  | .SER_BRINGUP_CFG => ⟨3, 0x10, 8, 1, false⟩
  | .SER_PLL_STATUS => ⟨3, 0x18, 8, 1, false⟩
  | .SER_PORT_CTRL => ⟨3, 0x1000, 8, 64, false⟩
  | .SER_PORT_STATUS => ⟨3, 0x1200, 8, 64, false⟩
  | .SER_LANE_STATUS => ⟨3, 0x2000, 8, 128, false⟩
  | .SER_FFE => ⟨3, 0x2400, 8, 128, false⟩
  | .SER_CTLE => ⟨3, 0x2800, 8, 128, false⟩
  | .SER_DFE_TAPS => ⟨3, 0x2c00, 8, 128, false⟩
  | .SER_EQ_OVERRIDE => ⟨3, 0x3000, 8, 128, false⟩
  | .SER_DFE_OVERRIDE => ⟨3, 0x3400, 8, 128, false⟩
  | .SER_TEST => ⟨3, 0x3800, 8, 128, false⟩
  | .SER_PRBS_COUNT => ⟨3, 0x3c00, 8, 128, false⟩
  | .LNK_CTRL => ⟨4, 0x8, 8, 1, false⟩
  | .LNK_TIMERS => ⟨4, 0x10, 8, 1, false⟩
  | .LNK_HEALTH => ⟨4, 0x18, 8, 1, false⟩
  | .LNK_PORT_STATUS => ⟨4, 0x1000, 8, 64, false⟩
  | .LNK_REPLAY_STATUS => ⟨4, 0x1200, 8, 64, false⟩
  | .LNK_ERR_COUNT => ⟨4, 0x1400, 8, 64, false⟩
  | .LNK_FEC_COUNT => ⟨4, 0x1600, 8, 64, false⟩
  | .LNK_PORT_CTRL => ⟨4, 0x1800, 8, 64, false⟩
  | .RTE_CTRL => ⟨5, 0x8, 8, 1, false⟩
  | .RTE_NODE => ⟨5, 0x10, 8, 1, false⟩
  | .RTE_ARB => ⟨5, 0x18, 8, 1, false⟩
  | .RTE_TC_WEIGHT => ⟨5, 0x20, 8, 1, false⟩
  | .RTE_ADAPT => ⟨5, 0x28, 8, 1, false⟩
  | .RTE_ADAPT_OVERRIDE => ⟨5, 0x30, 8, 1, false⟩
  | .RTE_EDDY => ⟨5, 0x38, 8, 1, false⟩
  | .RTE_EDDY_OVERRIDE => ⟨5, 0x40, 8, 1, false⟩
  | .RTE_LIMITER_CFG => ⟨5, 0x48, 8, 1, false⟩
  | .RTE_LIMITER_STATUS => ⟨5, 0x50, 8, 1, false⟩
  | .RTE_DROP_COUNT => ⟨5, 0x58, 8, 1, false⟩
  | .RTE_SEED => ⟨5, 0x60, 8, 4, false⟩
  | .RTE_MGMT_ALLOW => ⟨5, 0x80, 8, 4, false⟩
  | .RTE_PORT_STATUS => ⟨5, 0x1000, 8, 64, false⟩
  | .RTE_PORT_FALLBACK => ⟨5, 0x1200, 8, 64, false⟩
  | .RTE_CONG => ⟨5, 0x1400, 8, 64, false⟩
  | .RTE_CREDIT => ⟨5, 0x2000, 8, 512, false⟩
  | .RTE_GROUP_TABLE => ⟨5, 0x10000, 8, 512, false⟩
  | .RTE_ALIAS => ⟨5, 0x11000, 8, 16, false⟩
  | .MCT_CTRL => ⟨6, 0x8, 8, 1, false⟩
  | .MCT_TREE_ADDR => ⟨6, 0x10, 8, 1, false⟩
  | .MCT_TREE_CMD => ⟨6, 0x18, 8, 1, false⟩
  | .MCT_TREE_RESULT => ⟨6, 0x20, 8, 1, false⟩
  | .MCT_COUNT => ⟨6, 0x28, 8, 1, false⟩
  | .MCT_MC_LAND => ⟨6, 0x2000, 8, 256, false⟩
  | .MCT_TREE_STATUS => ⟨6, 0x10000, 8, 1024, false⟩
  | .MCT_MC_MASK => ⟨6, 0x40000, 8, 16384, false⟩
  | .MCT_MC_CTL => ⟨6, 0x60000, 8, 16384, false⟩
  | .HIF_CTRL => ⟨7, 0x8, 8, 1, false⟩
  | .HIF_FN_INFO => ⟨7, 0x10, 8, 1, false⟩
  | .HIF_QCT_BASE => ⟨7, 0x18, 8, 1, false⟩
  | .HIF_SCHED => ⟨7, 0x20, 8, 1, false⟩
  | .HIF_QUEUE_ADDR => ⟨7, 0x28, 8, 1, false⟩
  | .HIF_QUEUE_CMD => ⟨7, 0x30, 8, 1, false⟩
  | .HIF_QUEUE_RESULT => ⟨7, 0x38, 8, 1, false⟩
  | .HIF_COUNT => ⟨7, 0x40, 8, 1, false⟩
  | .HIF_PORT_STATUS => ⟨7, 0x48, 8, 1, false⟩
  | .HIF_VF_MAP => ⟨7, 0x1000, 8, 512, false⟩
  | .HIF_EQ_BASE => ⟨7, 0x10000, 32, 2048, false⟩
  | .HIF_EQ_CFG => ⟨7, 0x10008, 32, 2048, false⟩
  | .HIF_EQ_STATUS => ⟨7, 0x10010, 32, 2048, false⟩
  | .HIF_EQ_DB => ⟨7, 0x10018, 32, 2048, false⟩
  | .HIF_SQ_DB => ⟨7, 0x0, 8, 1, true⟩
  | .HIF_CQ_DB => ⟨7, 0x8, 8, 1, true⟩
  | .HIF_Q_CTRL => ⟨7, 0x10, 8, 1, true⟩
  | .HIF_Q_STATUS => ⟨7, 0x18, 8, 1, true⟩
  | .HIF_Q_STATE => ⟨7, 0x20, 8, 1, true⟩
  | .HIF_CQ_STATUS => ⟨7, 0x28, 8, 1, true⟩
  | .RMA_CTRL => ⟨8, 0x8, 8, 1, false⟩
  | .RMA_CFG => ⟨8, 0x10, 8, 1, false⟩
  | .RMA_RT_BASE => ⟨8, 0x18, 8, 1, false⟩
  | .RMA_REG_CMD => ⟨8, 0x20, 8, 1, false⟩
  | .RMA_REG_RESULT => ⟨8, 0x28, 8, 1, false⟩
  | .RMA_QINFO_SEL => ⟨8, 0x30, 8, 1, false⟩
  | .RMA_QINFO => ⟨8, 0x38, 8, 1, false⟩
  | .RMA_COUNT => ⟨8, 0x40, 8, 1, false⟩
  | .RMA_STATUS => ⟨8, 0x48, 8, 1, false⟩
  | .RMA_VF_RMAP => ⟨8, 0x1000, 8, 512, false⟩
  | .MAT_CTRL => ⟨9, 0x8, 8, 1, false⟩
  | .MAT_ML_ADDR => ⟨9, 0x10, 8, 1, false⟩
  | .MAT_ML_CMD => ⟨9, 0x18, 8, 1, false⟩
  | .MAT_ML_RESULT => ⟨9, 0x20, 8, 1, false⟩
  | .MAT_COUNT => ⟨9, 0x28, 8, 1, false⟩
  | .MAT_ML_STATUS => ⟨9, 0x10000, 8, 4096, false⟩
  | .COH_CTRL => ⟨10, 0x8, 8, 1, false⟩
  | .COH_MODE => ⟨10, 0x10, 8, 1, false⟩
  | .COH_FWD_TIMEOUT => ⟨10, 0x18, 8, 1, false⟩
  | .COH_CMD => ⟨10, 0x20, 8, 1, false⟩
  | .COH_RESULT => ⟨10, 0x28, 8, 1, false⟩
  | .COH_STATUS => ⟨10, 0x30, 8, 1, false⟩
  | .COH_COUNT => ⟨10, 0x38, 8, 1, false⟩
  | .COH_EXPORT => ⟨10, 0x100, 8, 2, false⟩
  | .COH_MEMBER => ⟨10, 0x200, 8, 64, false⟩
  | .COH_HDM_TARGET => ⟨10, 0x400, 8, 16, false⟩
  | .PEG_CTRL => ⟨11, 0x8, 8, 1, false⟩
  | .PEG_CFG => ⟨11, 0x10, 8, 1, false⟩
  | .PEG_SUPERVISOR => ⟨11, 0x18, 8, 1, false⟩
  | .PEG_FORCE => ⟨11, 0x20, 8, 1, false⟩
  | .PEG_COUNT => ⟨11, 0x28, 8, 1, false⟩
  | .PEG_FN_CFG => ⟨11, 0x30, 8, 1, false⟩
  | .PEG_GROUP => ⟨11, 0x1000, 8, 64, false⟩
  | .PEG_VF_MAP => ⟨11, 0x1200, 8, 512, false⟩
  | .PEG_TAKE => ⟨11, 0x10000, 8, 4096, false⟩
  | .PEG_TRY => ⟨11, 0x20000, 8, 4096, false⟩
  | .PEG_RELEASE => ⟨11, 0x30000, 8, 4096, false⟩
  | .PEG_WATCH => ⟨11, 0x40000, 8, 4096, false⟩
  | .PEG_STATE => ⟨11, 0x50000, 8, 4096, false⟩
  | .ECC_CTRL => ⟨12, 0x8, 8, 1, false⟩
  | .ECC_CODES => ⟨12, 0x10, 8, 1, false⟩
  | .ECC_SCRUB_CFG => ⟨12, 0x18, 8, 1, false⟩
  | .ECC_LAST_UE => ⟨12, 0x20, 8, 1, false⟩
  | .ECC_FLIP_CTRL => ⟨12, 0x28, 8, 1, false⟩
  | .ECC_FLIP_DATA => ⟨12, 0x30, 8, 1, false⟩
  | .ECC_FLIP_STATUS => ⟨12, 0x38, 8, 1, false⟩
  | .ECC_WIN_SEL => ⟨12, 0x40, 8, 1, false⟩
  | .ECC_WIN_STATUS => ⟨12, 0x48, 8, 1, false⟩
  | .ECC_REGION_STATUS => ⟨12, 0x1000, 8, 8, false⟩
  | .ECC_WIN => ⟨12, 0x40000, 8, 32768, false⟩
  | .FLT_CTRL => ⟨13, 0x8, 8, 1, false⟩
  | .FLT_STATUS => ⟨13, 0x10, 8, 1, false⟩
  | .FLT_THRESH => ⟨13, 0x18, 8, 1, false⟩
  | .FLT_NOTIFY => ⟨13, 0x20, 8, 1, false⟩
  | .FLT_FORCE_INST => ⟨13, 0x28, 8, 1, false⟩
  | .FLT_STICKY => ⟨13, 0x100, 8, 8, false⟩
  | .FLT_FORCE => ⟨13, 0x200, 8, 8, false⟩
  | .FLT_RICH_ASSIGN => ⟨13, 0x300, 8, 16, false⟩
  | .FLT_RICH_META => ⟨13, 0x1000, 32, 16, false⟩
  | .FLT_RICH_ADDR => ⟨13, 0x1008, 32, 16, false⟩
  | .FLT_RICH_INFO => ⟨13, 0x1010, 32, 16, false⟩
  | .FLT_RICH_BEAT => ⟨13, 0x1018, 32, 16, false⟩
  | .FLT_SEV => ⟨13, 0x2000, 8, 512, false⟩
  | .PWR_CTRL => ⟨14, 0x8, 8, 1, false⟩
  | .PWR_FABRIC_TOL => ⟨14, 0x10, 8, 1, false⟩
  | .PWR_STATE => ⟨14, 0x18, 8, 1, false⟩
  | .PWR_IDLE => ⟨14, 0x20, 8, 1, false⟩
  | .PWR_ENV => ⟨14, 0x28, 8, 1, false⟩
  | .PWR_POWER => ⟨14, 0x30, 8, 1, false⟩
  | .PWR_TEMP => ⟨14, 0x38, 8, 1, false⟩
  | .PWR_COOLING => ⟨14, 0x40, 8, 1, false⟩
  | .PWR_LOOP_CFG => ⟨14, 0x48, 8, 1, false⟩
  | .PWR_PORT_CFG => ⟨14, 0x50, 8, 1, false⟩
  | .PWR_PORT_AUTO => ⟨14, 0x58, 8, 1, false⟩
  | .PWR_ENG => ⟨14, 0x60, 8, 1, false⟩
  | .PWR_ENG_OVERRIDE => ⟨14, 0x68, 8, 1, false⟩
  | .PWR_PLACE => ⟨14, 0x70, 8, 1, false⟩
  | .PWR_HOST_TOL => ⟨14, 0x100, 8, 4, false⟩
  | .PWR_LOOP_GAIN => ⟨14, 0x200, 8, 7, false⟩
  | .PWR_AVS => ⟨14, 0x300, 8, 4, false⟩
  | .PWR_AVS_OVERRIDE => ⟨14, 0x400, 8, 4, false⟩
  | .GRN_CTRL => ⟨15, 0x8, 8, 1, false⟩
  | .GRN_EOL => ⟨15, 0x10, 8, 1, false⟩
  | .GRN_INPUT => ⟨15, 0x100, 8, 5, false⟩
  | .FMN_INFO => ⟨16, 0x8, 8, 1, false⟩
  | .FMN_MB_CTRL => ⟨16, 0x10, 8, 1, false⟩
  | .FMN_MB_STATUS => ⟨16, 0x18, 8, 1, false⟩
  | .FMN_REQ => ⟨16, 0x1000, 8, 128, false⟩
  | .FMN_RESP => ⟨16, 0x2000, 8, 128, false⟩

/-- The registers of one block window, by window index (Table 17.1). -/
def blockRegs : Nat → List Reg
  | 0 => [.GLB_IDENT, .GLB_FITTED, .GLB_UNIT_RESET, .GLB_PORT_RESET, .GLB_DEVICE_RESET, .GLB_BOOT_STATUS,
      .GLB_RESET_CAUSE, .GLB_BOOT_CTRL]
  | 1 => [.TRS_STATUS, .TRS_IMAGE_DIGEST, .TRS_BUILD_ID, .TRS_ERROR, .TRS_HOT_STATUS, .TRS_KEY_STATUS,
      .TRS_ENABLE, .TRS_SLOT_CHECK]
  | 2 => [.BEA_CONFIG, .BEA_COUNT, .BEA_PHASE, .BEA_STATUS, .BEA_BUDGET, .BEA_OFFSET, .BEA_HOLDOVER,
      .BEA_COMMIT_HOLD, .BEA_COMMIT_PENDING, .BEA_COMMIT_AT, .BEA_COMMIT_ARM, .BEA_PPS_COUNT, .BEA_PPS_PHASE,
      .BEA_LINK_DELAY]
  | 3 => [.SER_CTRL, .SER_BRINGUP_CFG, .SER_PLL_STATUS, .SER_PORT_CTRL, .SER_PORT_STATUS, .SER_LANE_STATUS,
      .SER_FFE, .SER_CTLE, .SER_DFE_TAPS, .SER_EQ_OVERRIDE, .SER_DFE_OVERRIDE, .SER_TEST, .SER_PRBS_COUNT]
  | 4 => [.LNK_CTRL, .LNK_TIMERS, .LNK_HEALTH, .LNK_PORT_STATUS, .LNK_REPLAY_STATUS, .LNK_ERR_COUNT,
      .LNK_FEC_COUNT, .LNK_PORT_CTRL]
  | 5 => [.RTE_CTRL, .RTE_NODE, .RTE_ARB, .RTE_TC_WEIGHT, .RTE_ADAPT, .RTE_ADAPT_OVERRIDE, .RTE_EDDY,
      .RTE_EDDY_OVERRIDE, .RTE_LIMITER_CFG, .RTE_LIMITER_STATUS, .RTE_DROP_COUNT, .RTE_SEED, .RTE_MGMT_ALLOW,
      .RTE_PORT_STATUS, .RTE_PORT_FALLBACK, .RTE_CONG, .RTE_CREDIT, .RTE_GROUP_TABLE, .RTE_ALIAS]
  | 6 => [.MCT_CTRL, .MCT_TREE_ADDR, .MCT_TREE_CMD, .MCT_TREE_RESULT, .MCT_COUNT, .MCT_MC_LAND,
      .MCT_TREE_STATUS, .MCT_MC_MASK, .MCT_MC_CTL]
  | 7 => [.HIF_CTRL, .HIF_FN_INFO, .HIF_QCT_BASE, .HIF_SCHED, .HIF_QUEUE_ADDR, .HIF_QUEUE_CMD,
      .HIF_QUEUE_RESULT, .HIF_COUNT, .HIF_PORT_STATUS, .HIF_VF_MAP, .HIF_EQ_BASE, .HIF_EQ_CFG,
      .HIF_EQ_STATUS, .HIF_EQ_DB]
  | 8 => [.RMA_CTRL, .RMA_CFG, .RMA_RT_BASE, .RMA_REG_CMD, .RMA_REG_RESULT, .RMA_QINFO_SEL, .RMA_QINFO,
      .RMA_COUNT, .RMA_STATUS, .RMA_VF_RMAP]
  | 9 => [.MAT_CTRL, .MAT_ML_ADDR, .MAT_ML_CMD, .MAT_ML_RESULT, .MAT_COUNT, .MAT_ML_STATUS]
  | 10 => [.COH_CTRL, .COH_MODE, .COH_FWD_TIMEOUT, .COH_CMD, .COH_RESULT, .COH_STATUS, .COH_COUNT,
      .COH_EXPORT, .COH_MEMBER, .COH_HDM_TARGET]
  | 11 => [.PEG_CTRL, .PEG_CFG, .PEG_SUPERVISOR, .PEG_FORCE, .PEG_COUNT, .PEG_FN_CFG, .PEG_GROUP,
      .PEG_VF_MAP, .PEG_TAKE, .PEG_TRY, .PEG_RELEASE, .PEG_WATCH, .PEG_STATE]
  | 12 => [.ECC_CTRL, .ECC_CODES, .ECC_SCRUB_CFG, .ECC_LAST_UE, .ECC_FLIP_CTRL, .ECC_FLIP_DATA,
      .ECC_FLIP_STATUS, .ECC_WIN_SEL, .ECC_WIN_STATUS, .ECC_REGION_STATUS, .ECC_WIN]
  | 13 => [.FLT_CTRL, .FLT_STATUS, .FLT_THRESH, .FLT_NOTIFY, .FLT_FORCE_INST, .FLT_STICKY, .FLT_FORCE,
      .FLT_RICH_ASSIGN, .FLT_RICH_META, .FLT_RICH_ADDR, .FLT_RICH_INFO, .FLT_RICH_BEAT, .FLT_SEV]
  | 14 => [.PWR_CTRL, .PWR_FABRIC_TOL, .PWR_STATE, .PWR_IDLE, .PWR_ENV, .PWR_POWER, .PWR_TEMP, .PWR_COOLING,
      .PWR_LOOP_CFG, .PWR_PORT_CFG, .PWR_PORT_AUTO, .PWR_ENG, .PWR_ENG_OVERRIDE, .PWR_PLACE, .PWR_HOST_TOL,
      .PWR_LOOP_GAIN, .PWR_AVS, .PWR_AVS_OVERRIDE]
  | 15 => [.GRN_CTRL, .GRN_EOL, .GRN_INPUT]
  | 16 => [.FMN_INFO, .FMN_MB_CTRL, .FMN_MB_STATUS, .FMN_REQ, .FMN_RESP]
  | _ => []

/-- The registers of a doorbell page (R222). -/
def pageRegs : List Reg :=
  [.HIF_SQ_DB, .HIF_CQ_DB, .HIF_Q_CTRL, .HIF_Q_STATUS, .HIF_Q_STATE, .HIF_CQ_STATUS]

end Sys2Proof.Machine
end

