-- ==== Sys2Proof/Syntax.lean ====
section
/-! DEFINITION. The commands that the block takes: one constructor for each row of the table of operations and events,
with the operands that the rule of its row gives it. A command that is an event of the outside world or of time carries
what the device measures or receives in that event. -/

namespace Sys2Proof

/-- A fabric port (Table 0.2). -/
abbrev Port := Fin 64

/-- A fabric lane (R80). -/
abbrev Lane := Fin 128

/-- A host-visible function: a physical function, or a virtual function of one. -/
inductive Fn where
  | pf (p : Fin 4)
  | vf (p : Fin 4) (v : Fin 512)
  deriving DecidableEq, Repr

/-- Who accesses a register: a function, the Foreman mailbox, or the remote manager that entry `i` of RTE_MGMT_ALLOW
admits (R46, R182, R445). -/
inductive Who where
  | fn (f : Fn)
  | mailbox
  | mgmt (i : Fin 4)
  deriving DecidableEq, Repr

/-- A mailbox requester (R424): an MCTP endpoint of the sideband, or the FMN window of a physical function. -/
inductive Mbx where
  | mctp (eid : Nat)
  | window (p : Fin 4)
  deriving DecidableEq, Repr

/-- The BARs of a function (17_register_map_index.md). -/
inductive Bar where
  | bar0 | bar2 | bar4
  deriving DecidableEq, Repr

/-- A 64-bit time-stamp of the Beat exchange: BEAT[45:0], CYCLE[13:0], SUB[3:0] from high to low (R135). -/
abbrev Stamp := Nat

/-- The content of a BEAT_XCHG message beside its OP (Table 4.6). -/
structure Xchg where
  xid : Nat
  prio : Nat
  distance : Nat
  period : Nat
  masterId : Nat
  alive : Nat
  count : Nat
  t1 : Stamp
  t2 : Stamp
  t3 : Stamp
  deriving DecidableEq, Repr

/-- A read of a register: who reads, and whether by a whole, aligned access (R12). -/
structure ReadBy (α : Type) where
  src : α
  whole : Bool
  deriving DecidableEq, Repr

/-- A symbol on a lane as its receiver decides it, or as its transmitter sends it: a PAM4 level -3, -1, +1 or +3; at S0 -1 for a zero
and +1 for a one (R81). -/
abbrev Level := Int

/-- What a receiver decided in a check against PRBS13 (R88): where in the stream its checker stands at the start, as the register of
the generator, and the symbols. -/
structure PrbsRx where
  start : Nat
  syms : List Level
  deriving DecidableEq, Repr

/-- What a lane's receiver hears in the time of one capability set (R83): the symbols that it decides, and the differential peak-to-peak
amplitude in mV (Table 16.11). -/
structure Heard where
  levels : List Level
  mv : Nat
  deriving DecidableEq, Repr

/-- A physical lane of a port that lost lock, and the amplitude in mV that its receiver still finds (Table 16.11). -/
structure LostLane where
  lane : Fin 2
  mv : Nat
  deriving DecidableEq, Repr

/-- A number of a command that reaches registers, and whether a check of the fault collector that the access meets finds a parity error
(R387). -/
structure Checked where
  val : Nat
  parity : Bool
  deriving DecidableEq, Repr

/-- Equalizer values of one lane as trained: CTLE peaking and DC gain, and the twelve DFE taps (Table 3.7). -/
structure EqVals where
  peak : Nat
  dcGain : Nat
  taps : List Int
  deriving DecidableEq, Repr

/-- The host's answer to a read of the device: data, an error, or poisoned data. -/
inductive Ans where
  | ok (b : Bytes)
  | err
  | poison
  deriving DecidableEq, Repr

/-- What a code word of an SRAM region holds, where a rule acts on it (Table 12.3): a held packet, the replay buffer of a
port, a context, a region, a window cache line and a directory line (by DA/64), a group table entry, an alias entry, a
multicast entry, a tree, a match list, and what an engine keeps beside them. -/
inductive EObj where
  | packet (b : Bytes)
  | replay (p : Nat)
  | ctx (g : Nat)
  | region (k : Nat)
  | line (a : Nat)
  | dir (a : Nat)
  | group (i : Nat)
  | aliasEntry (i : Nat)
  | mcast (g : Nat)
  | tree (t : Nat)
  | ml (m : Nat)
  | engine (e : Nat)
  deriving DecidableEq, Repr

/-- What the equalization loop finds at a visit of a lane (R105, R111): the eye's height and width and which eye is the
smallest, the accumulators of PEAK, DC_GAIN and the twelve taps scaled to Table 14.3, and the PRE and POST steps that the
receiver wants of its peer's transmitter. -/
structure EyeVisit where
  lane : Lane
  height : Nat
  width : Nat
  worst : Nat
  errs : List Int
  ffe : Option (Int × Int)
  deriving DecidableEq, Repr

/-- What is measured in the Beat that ends at a boundary: the congestion epoch (port, queue average, queue maximum), the
ports whose credit counts the audit found wrong (R170), the lanes visited, the critical-path slack of each island in ps,
the power in 0.1 W, the 24 junction sensors in 0.1 K above
0 °C, the busy share of engines in 1/256 (function of R65,
engine, share), the traffic of ports in percent of one lane (port, out, in), the Joiner bays that had an event, whether the
window cache was accessed, whether a host attachment carried anything, the core cycles that the tasks took, and the tasks of
Table 1.4 that will not finish in the Beat that begins (R28), a parity error found in the collector (R387), and the symbols that
receivers of lanes in TEST decided since they were last told (R113, R114). -/
structure BeatIn where
  epoch : List (Nat × Nat × Nat)
  audit : List Port
  visits : List EyeVisit
  slack : List Int
  power : Nat
  sensors : List Int
  busy : List (Nat × Nat × Nat)
  traffic : List (Nat × Nat × Nat)
  bays : Nat
  window : Bool
  host : Bool
  cycles : Nat
  overrun : List Nat
  parity : Bool
  prbs : List (Lane × List Level)
  deriving DecidableEq, Repr

/-- A read of a descriptor that completes (R226): of a queue or CQ, a tree, a region, a match list, or of a region whose descriptor is fetched again (Table 12.3). -/
inductive DescRead where
  | queue (f : Fn)
  | tree
  | region (f : Fn)
  | list (f : Fn)
  | again (k : Nat)
  deriving DecidableEq, Repr

/-- The commands: one constructor per row of the table of operations and events. -/
inductive Instr where
  /-- REGISTER_WRITE (R16): A write to a register that has no row of its own is applied field by field according to each field's class. -/
  | registerWrite (f : Fn) (bar : Bar) (addr size value : Nat) (parity : Fin 3)
  /-- UNIT_ENABLE (R52): A write sets a unit's ENABLE, and is refused when the image leaves the unit disabled or the unit is contained. -/
  | unitEnable (who : Who) (u : Fin 19)
  /-- UNIT_DISABLE (R19): A write clears a unit's ENABLE, with the effects its chapter gives (fences, ports OFF, or acting as a unit reset). -/
  | unitDisable (who : Who) (u : Fin 19)
  /-- BEAT_BOUNDARY (R29): At each Beat boundary the unheld commit groups commit and the Beat sequencer runs the per-Beat tasks. -/
  | beatBoundary (m : BeatIn)
  /-- POWER_STATE_ENTRY (R392): At a boundary the device enters the deepest power state whose idle count and tolerance allow it. -/
  | powerStateEntry
  /-- ARMED_COMMIT (R35): When BEA_COUNT reaches BEA_COMMIT_AT, the armed groups commit, their HOLD bits clear and ARM clears. -/
  | armedCommit
  /-- BEA_COMMIT_ARM (R35): A write of BEA_COMMIT_ARM sets the HOLD bits of MASK, cancels, or is refused; a late target commits at the next boundary. -/
  | beaCommitArm (who : Who) (value : Nat)
  /-- BEA_COMMIT_AT (R36): A write of BEA_COMMIT_AT while ARM is set moves the target, or forces a late commit. -/
  | beaCommitAt (who : Who) (value : Nat)
  /-- BEA_COUNT (R46): A read of BEA_COUNT captures the Beat phase into the requester's BEA_PHASE capture. -/
  | beaCount (who : ReadBy Who) (cycle sub : Nat)
  /-- BEAT_XCHG_SEND (R38): Every 4 Beats to the upstream, and every 64 Beats to other Beat-capable ports, a BEAT_XCHG request is sent. -/
  | beatXchgSend (p : Port)
  /-- BEAT_XCHG_REQUEST (R136): A received BEAT_XCHG request is stamped and answered on the same port within 64 flit slots. -/
  | beatXchgRequest (p : Port) (m : Xchg) (t2 : Stamp)
  /-- BEAT_XCHG_RESPONSE (R39): A received response gives delay and offset, updates the residue and moves the alignment state. -/
  | beatXchgResponse (p : Port) (m : Xchg) (t4 : Stamp)
  /-- UPSTREAM_LOST (R43): After 16 Beats without exchange the device chooses another candidate or enters HOLDOVER or FREE. -/
  | upstreamLost
  /-- HOLDOVER_LIMIT (R43): The holdover limit LIMIT_S is reached, and the device goes to FREE with BEA_UNALIGNED. -/
  | holdoverLimit
  /-- MASTER_ALIVE_MISSING (R43): After 16 Beats without a fresh master-alive sequence, a backup becomes master. -/
  | masterAliveMissing
  /-- LISTEN_WINDOW_END (R43): A primary with no master heard in its 64-Beat listen window becomes master. -/
  | listenWindowEnd
  /-- PPS_EDGE (R37): A rising BEAT_PPS edge captures BEA_COUNT and the phase. -/
  | ppsEdge (cycle sub ms : Nat)
  /-- BEAT_REF_LOST (R37): The master loses its BEAT_REF lock, runs on REFCLK_FAB and logs BEA_REF_LOST. -/
  | beatRefLost
  /-- PWROK_RISE (R409): PWROK rises, the straps are sampled, and boot begins with ROM. -/
  | pwrokRise (hostBif smbAddr : Fin 4)
  /-- PWROK_FALL (R407): PWROK falls: a cold reset stops all lanes, releases FAULT_L and stops SPI and sideband. -/
  | pwrokFall
  /-- ROM (R409): The boot ROM reads fuses, sets GLB_FITTED, locks the core PLL and releases the host ports. -/
  | rom (fuse pll parity : Bool)
  /-- FIRMWARE (R412): The Foreman firmware is read and verified from slot A or B, or the Foreman runs in RECOVERY. -/
  | firmware
  /-- BIST (R415): SRAM self-test and repair complete, and unrepairable regions contain their units. -/
  | bist (repairs bad bays : Nat)
  /-- LOAD (R48): The loader checks the image candidates in order and applies the first that passes, or runs with no image. -/
  | load (ms : Nat)
  /-- WARM_RST_L_ASSERT (R450): WARM_RST_L held for 1 µs starts a device reset, or holds the boot or reset in progress. -/
  | warmRstLAssert
  /-- WARM_RST_L_RELEASE (R422): The release of WARM_RST_L lets a held boot or reset continue from BIST. -/
  | warmRstLRelease
  /-- GLB_DEVICE_RESET (R418): A write of RESET with key 0x5A starts a device reset. -/
  | glbDeviceReset (who : Who) (value : Nat)
  /-- GLB_UNIT_RESET (R420): A 1 in a unit bit starts that unit's reset. -/
  | glbUnitReset (who : Who) (value : Nat)
  /-- UNIT_RESET_COMPLETE (R420): A unit reset finishes, and ENABLE is set again when TRS_ENABLE enables the unit. -/
  | unitResetComplete (u : Fin 19)
  /-- GLB_PORT_RESET (R421): A port reset fences the port, clears its counters and FAILED marks, ends any Contain and restarts bring-up. -/
  | glbPortReset (who : Who) (value : Nat)
  /-- CORE_PLL_UNLOCK (R411): The core PLL fails to lock or loses lock, raising GLB_CORE_PLL and entering the Spillway. -/
  | corePllUnlock (parity : Bool)
  /-- FUSE_READ (R411): Every 1,048,576 Beats the fuses are re-read, and a failed check raises GLB_FUSE. -/
  | fuseRead (ok parity : Bool)
  /-- WATCHDOG_EXPIRE (R414): The Foreman watchdog expires and the Foreman restarts, freeing its Pegs. -/
  | watchdogExpire
  /-- FOREMAN_RESTART_DONE (R414): The Foreman restart completes, and held mailbox requests are answered. -/
  | foremanRestartDone
  /-- ROUTES_READY (R417): A write of ROUTES_READY allows reserve grants; writing 0 after 1 is refused. -/
  | routesReady (who : Who) (on : Bool)
  /-- PUSH_BEGIN (R425): The mailbox command opens a full or hot push. -/
  | pushBegin (who : Mbx) (tag : Nat) (hot : Nat) (len : Nat)
  /-- PUSH_DATA (R425): The mailbox command adds contiguous bytes to the open push. -/
  | pushData (who : Mbx) (tag : Nat) (off : Nat) (data : Bytes)
  /-- PUSH_END (R425): The mailbox command checks a pushed image, holding it for the next reset (NOW starts one) or staging a hot image. -/
  | pushEnd (who : Mbx) (tag : Nat) (now : Bool)
  /-- TRS_SLOT_CHECK (R74): A START bit starts a check of a flash slot without applying it. -/
  | trsSlotCheck (who : Who) (value : Nat)
  /-- SLOT_CHECK_COMPLETE (R74): A slot check finishes, and its result lands in SLOT0_CHECK or SLOT1_CHECK. -/
  | slotCheckComplete (k : Fin 2)
  /-- IDENT (R424): The mailbox command returns the identity, fitted units, boot status and Foreman information. -/
  | ident (who : Mbx) (tag : Nat)
  /-- REG_READ (R448): The mailbox command reads 1 to 16 shared registers. -/
  | regRead (who : Mbx) (tag : Nat) (off : Checked) (count : Nat)
  /-- REG_WRITE (R448): The mailbox command writes one shared register, judged as a BAR0 write. -/
  | regWrite (who : Mbx) (tag : Nat) (off : Checked) (value : Nat)
  /-- TELEMETRY (R424): The mailbox command returns power, temperature, state and AVS registers. -/
  | telemetry (who : Mbx) (tag : Nat)
  /-- BEAT_READ (R424): The mailbox command returns BEA_COUNT, BEA_PHASE and BEA_STATUS. -/
  | beatRead (who : Mbx) (tag : Nat)
  /-- MAILBOX_SPILL (R389): The mailbox SPILL request enters the Spillway with key 0xA5, or is answered BAD_ARG. -/
  | mailboxSpill (who : Mbx) (tag : Nat) (key : Nat)
  /-- UNIT_RESET (R420): The mailbox command resets the units in its mask. -/
  | unitReset (who : Mbx) (tag : Nat) (mask : Nat)
  /-- PORT_RESET (R421): The mailbox command resets the ports in its mask. -/
  | portReset (who : Mbx) (tag : Nat) (mask : Nat)
  /-- LANE_POWER (R115): The mailbox command powers the lanes of the masked ports down or up. -/
  | lanePower (who : Mbx) (tag : Nat) (mask down : Nat)
  /-- DEVICE_RESET (R418): The mailbox command answers and then starts a device reset. -/
  | deviceReset (who : Mbx) (tag : Nat)
  /-- FLASH_READ (R424): The mailbox command reads SPI flash. -/
  | flashRead (who : Mbx) (tag : Nat) (off len : Nat)
  /-- FLASH_ERASE (R424): The mailbox command erases a 64 KiB flash block where Table 15.3 allows. -/
  | flashErase (who : Mbx) (tag : Nat) (off : Nat)
  /-- FLASH_WRITE (R424): The mailbox command writes flash where Table 15.3 allows. -/
  | flashWrite (who : Mbx) (tag : Nat) (off : Nat) (data : Bytes)
  /-- SLOT_CHECK (R424): The mailbox command checks a Truss slot and returns the failing check number. -/
  | slotCheck (who : Mbx) (tag : Nat) (slot : Nat)
  /-- FUSE_KEY (R70): The mailbox command programs a key slot's hash. -/
  | fuseKey (who : Mbx) (tag : Nat) (slot : Nat) (hash : Bytes) (blown : Bool)
  /-- FUSE_REVOKE (R71): The mailbox command revokes a key slot, unless it signed the image in force. -/
  | fuseRevoke (who : Mbx) (tag : Nat) (slot : Nat) (blown : Bool)
  /-- FUSE_FLOOR (R71): The mailbox command raises the security floor, unless it exceeds the image or firmware SEC_VERSION. -/
  | fuseFloor (who : Mbx) (tag : Nat) (floor : Nat) (blown : Bool)
  /-- MAILBOX_PEG_TAKE (R425): The mailbox command acts as a PEG_TRY read with OWNER 0x1000. -/
  | mailboxPegTake (who : Mbx) (tag : Nat) (peg : Nat)
  /-- MAILBOX_PEG_RELEASE (R349): The mailbox command releases a Peg held by the Foreman. -/
  | mailboxPegRelease (who : Mbx) (tag : Nat) (peg : Nat)
  /-- PEG_SUPERVISOR (R351): The mailbox command writes PEG_SUPERVISOR.MASK. -/
  | pegSupervisor (who : Mbx) (tag : Nat) (mask : Nat)
  /-- SET_ENDPOINT_ID (R423): The MCTP control command assigns the device's endpoint ID. -/
  | setEndpointId (src eid : Nat)
  /-- GET_ENDPOINT_ID (R423): The MCTP control command returns the endpoint ID. -/
  | getEndpointId (src : Nat)
  /-- GET_MCTP_VERSION_SUPPORT (R423): The MCTP control command returns the supported MCTP versions. -/
  | getMctpVersionSupport (src ty : Nat)
  /-- GET_MESSAGE_TYPE_SUPPORT (R423): The MCTP control command returns the supported message types. -/
  | getMessageTypeSupport (src : Nat)
  /-- GET_VENDOR_DEFINED_MESSAGE (R423): The MCTP control command Get Vendor Defined Message Support returns the Alorex vendor support. -/
  | getVendorDefinedMessage (src sel : Nat)
  /-- GO (R425): A PF writes GO to submit FMN_REQ to the mailbox, and DONE is set when the response lands. -/
  | go (p : Fin 4)
  /-- CALIBRATION_DONE (R94): Lane calibration ends and the port enters DETECT, or the lane is marked FAILED. -/
  | calibrationDone (p : Port) (ok0 ok1 : Bool)
  /-- CAPABILITY_SET (R83): A received valid capability set moves the port to CAPS and counts toward the countdown. -/
  | capabilitySet (p : Port) (k : Fin 2) (raw : Heard) (peak : Nat)
  /-- COUNTDOWN_END (R85): After the set carrying 0, the lanes switch to the agreed step and training begins. -/
  | countdownEnd (p : Port)
  /-- CAPS_TIMEOUT (R86): CAPS_TIMEOUT expires without a countdown, so the port goes to WAIT. -/
  | capsTimeout (p : Port)
  /-- TRAIN_US_END (R88): The adaptation window ends and the coefficients are held for the check. -/
  | trainUsEnd (p : Port) (e0 e1 : EqVals)
  /-- CHECK_US_END (R89): The check window ends, each lane judges pass or fail and sends result blocks. -/
  | checkUsEnd (p : Port) (r0 r1 : PrbsRx)
  /-- RESULT_BLOCK (R90): A received result block decides which lanes are used: ACTIVE, or fall back. -/
  | resultBlock (p : Port) (k : Fin 2) (raw : List Level)
  /-- RESULT_WAIT_END (R89): 50 µs pass without a result block, which is taken as PASS 0. -/
  | resultWaitEnd (p : Port)
  /-- RETRY_MS (R94): The WAIT time expires and the port returns to DETECT, calibrating first any uncalibrated lane. -/
  | retryMs (p : Port)
  /-- LANE_LOCK_LOST (R102): A used lane loses lock, so the port narrows by WIDTH_REQ, or goes down with reason LANES when every lane is lost. -/
  | laneLockLost (p : Port) (k : LostLane)
  /-- PLL_UNLOCK (R95): A chiplet PLL loses lock, its ports go to WAIT, and links go down with reason LANES. -/
  | pllUnlock (c : Fin 4)
  /-- PLL_LOCK (R95): A chiplet PLL locks, and its ports may leave WAIT. -/
  | pllLock (c : Fin 4)
  /-- RESTART (R94): RESTART written to SER_PORT_CTRL fences the port and restarts bring-up at DETECT. -/
  | restart (who : Who) (p : Port)
  /-- MODE_TEST (R112): MODE set to TEST fences the port and puts it into TEST. -/
  | modeTest (who : Who) (p : Port)
  /-- MODE_OPERATE (R94): MODE set to OPERATE takes a port in TEST back to DETECT. -/
  | modeOperate (who : Who) (p : Port)
  /-- POWER_DOWN (R115): Setting POWER_DOWN fences the port and powers its lanes down within 1 µs. -/
  | powerDown (who : Who) (p : Port)
  /-- FFE_REQ (R106): A received FFE_REQ is staged for the next boundary, or answered at limit, overridden or malformed. -/
  | ffeReq (p : Port) (lane seq : Nat) (dpre dpost : Int)
  /-- FFE_ACK (R106): A received FFE_ACK ends the outstanding request, and another may be sent. -/
  | ffeAck (p : Port) (lane seq : Nat)
  /-- WIDTH_REQ (R98): A received WIDTH_REQ is answered done or refused. -/
  | widthReq (p : Port) (lane seq width atBeat : Nat)
  /-- WIDTH_ACK (R98): A received WIDTH_ACK confirms the change, or marks the request to be repeated. -/
  | widthAck (p : Port) (lane seq status : Nat)
  /-- WIDTH_REQ_REPEAT (R98): 64 Beats after a refusal, the WIDTH_REQ is repeated while the target still differs. -/
  | widthReqRepeat (p : Port)
  /-- WIDTH_CHANGE (R99): At the AT_BEAT boundary the transmitter sends the width marker and continues at the new width. -/
  | widthChange (p : Port)
  /-- WIDTH_MARKER (R99): A receiver that finds the width marker switches width. -/
  | widthMarker (p : Port)
  /-- REACQUISITION (R103): Every 1,024 Beats a narrowed port starts re-acquisition of its unused lane. -/
  | reacquisition (p : Port)
  /-- REACQUISITION_END (R100): Re-acquisition ends, result blocks are exchanged, and a passing lane leads to widening. -/
  | reacquisitionEnd (p : Port) (start : Nat) (syms : List Level) (e : EqVals)
  /-- EQ_FREEZE_END (R109): After 64 visits a reverted lane resumes adaptation. -/
  | eqFreezeEnd (l : Lane)
  /-- INJECT (R114): INJECT flips one transmitted bit of the PRBS generator. -/
  | inject (who : Who) (l : Lane)
  /-- CLEAR (R114): CLEAR zeroes SER_PRBS_COUNT of the lane. -/
  | clear (who : Who) (l : Lane)
  /-- CHECKER_LOCK (R114): The PRBS checker sets LOCK after 64 correct bits, or clears it after 1,024 errors in 4,096 bits. -/
  | checkerLock (l : Lane) (before during after : List Level)
  /-- FLIT_RECEIVE (R124): A received flit is checked by FEC and CRC, its ACK taken, and it is accepted, discarded or NAKed. -/
  | flitReceive (p : Port) (rx : List Level × List Level) (stamp : Stamp)
  /-- NAK (R127): A received link NAK acknowledges up to x − 1 and starts a replay from x. -/
  | nak (p : Port) (x : Nat)
  /-- FENCE (R143): A received FENCE fences the port and enters DOWN with reason PEER_FENCE. -/
  | fence (p : Port) (reason : Nat)
  /-- CREDIT (R167): A received CREDIT message returns or grants credits to channels, or is a protocol violation. -/
  | credit (p : Port) (words : Bytes)
  /-- FLIT_TRANSMIT (R132): At each flit boundary the transmitter sends a NAK or FENCE, a replay flit, a BEAT_XCHG, a CTRL_S, DATA or IDLE flit. -/
  | flitTransmit (p : Port) (stamp : Stamp)
  /-- NAK_RETRY (R125): NAK_RETRY passes with NAK_OUT set, and NAK(E) is sent again. -/
  | nakRetry (p : Port)
  /-- ACK_TIMEOUT (R128): ACK_TIMEOUT passes without progress, and the transmitter replays from TX_OLDEST. -/
  | ackTimeout (p : Port)
  /-- HEALTH_WINDOW_RESTART (R137): Every LINK_WINDOW-th boundary the health window restarts and its counters clear. -/
  | healthWindowRestart (p : Port)
  /-- NOPROG_US (R138): NOPROG_US passes without progress, and the link is declared down with reason NOPROG. -/
  | noprogUs (p : Port) (noFlit : Bool)
  /-- INIT_TIMEOUT (R139): The link fails to reach UP within INIT_TIMEOUT and is declared down with reason INIT. -/
  | initTimeout (p : Port)
  /-- FENCE_COMPLETE (R142): After the fourth FENCE the link enters DOWN and the lanes go to the state the cause gives. -/
  | fenceComplete (p : Port)
  /-- CORRUPT (R146): CORRUPT makes the next new sequenced flit be sent once with its CRC inverted. -/
  | corrupt (who : Who) (p : Port)
  /-- PACKET_ARRIVE (R155): A packet arriving at an input is checked, assigned a channel and a route, or discarded. -/
  | packetArrive (p : Port)
  /-- PACKET_INJECT (R159): An internal agent injects a packet, and the router chooses a minimal or non-minimal route. -/
  | packetInject (k : Nat)
  /-- PACKET_FORWARD (R172): A packet that holds credits for its output is chosen by arbitration and starts on the link, or is ejected. -/
  | packetForward (out : Fin 65) (lost : Option Nat)
  /-- LIMITER_FREE (R175): A limiter that has stood at RATE_CAP for FREE_BEATS Beats is freed. -/
  | limiterFree (node : Nat)
  /-- ECHO (R174): A received ECHO, or a VN2 packet with ECHO or MARK, records an echo against its SRC. -/
  | echo
  /-- MGMT_WRITE (R182): A VN0 management write is checked against RTE_MGMT_ALLOW, performed and answered. -/
  | mgmtWrite
  /-- MGMT_READ (R182): A VN0 management read is checked against RTE_MGMT_ALLOW, performed and answered. -/
  | mgmtRead (cycle sub : Nat)
  /-- MGMT_RESP (R182): A management response is consumed into the manager's response slot. -/
  | mgmtResp
  /-- MC_PUT_ENTRY (R189): An MC_PUT work entry is checked, stamped with MSEQ and injected, then completes. -/
  | mcPutEntry
  /-- MC_PUT (R193): An ejected MC_PUT replica is checked, placed and completed to the landing CQ. -/
  | mcPut
  /-- COLLECTIVE_ENTRY (R202): A COLLECTIVE work entry is checked and posted to its tree as the next OP_SEQ. -/
  | collectiveEntry
  /-- CF_UP (R206): A received CF_UP is checked and its chunk held in a slot. -/
  | cfUp
  /-- CF_DOWN (R206): A received CF_DOWN is checked and its result chunk held, written or passed on. -/
  | cfDown
  /-- CF_GRANT (R201): A received CF_GRANT returns UP or DOWN credits. -/
  | cfGrant
  /-- CF_ABORT (R200): A received CF_ABORT completes open operations with a remote cause, forwards aborts and makes the tree BROKEN. -/
  | cfAbort
  /-- CHUNK_COMBINE (R207): A vertex holding chunk c from its host and every child folds them in child order on its engine. -/
  | chunkCombine (t seq c : Nat)
  /-- CHUNK_SEND (R198): A vertex spends a credit and sends a CF_UP or CF_DOWN chunk. -/
  | chunkSend (t seq c k : Nat)
  /-- PHASE_TIMEOUT (R210): The oldest open operation makes no progress for PHASE_BEATS, and the vertex aborts with TIMEOUT. -/
  | phaseTimeout (t : Nat)
  /-- TREE_LOAD (R195): The LOAD tree command fetches a tree descriptor, or reports a code. -/
  | treeLoad (who : Who) (t : Nat)
  /-- TREE_RESET (R213): The RESET tree command clears slots and credits, sets OP_SEQ 0 and the new epoch, and returns the tree to READY. -/
  | treeReset (who : Who) (t epoch : Nat)
  /-- TREE_UNLOAD (R200): The UNLOAD tree command releases the slots and returns the tree to FREE. -/
  | treeUnload (who : Who) (t : Nat)
  /-- TREE_ABORT (R200): The ABORT tree command completes open operations with SW_ABORT, sends aborts, and the tree becomes BROKEN. -/
  | treeAbort (who : Who) (t : Nat)
  /-- DESCRIPTOR_FETCH_DONE (R226): The read of a queue, CQ, tree, region or ML descriptor completes, and the command's checks decide its code. -/
  | descriptorFetchDone (k : DescRead) (a : Ans)
  /-- CONTEXT_FETCH_DONE (R228): A QCT entry fetch completes, doorbells and parked headers resume, or a stub is kept on error. -/
  | contextFetchDone (g : Nat) (a : Ans)
  /-- CONTEXT_STATUS_READ (R228): A read of HIF_Q_STATUS, HIF_Q_STATE or HIF_CQ_STATUS fetches an uncached context. -/
  | contextStatusRead (f : ReadBy Fn) (n : Nat) (what : Fin 3)
  /-- Q_CREATE (R227): The Q_CREATE command creates a queue from a descriptor, or ends with a code. -/
  | qCreate (f : Fn) (n : Nat)
  /-- Q_DESTROY (R230): The Q_DESTROY command frees an OFF queue, or an idle stub, and raises QGEN. -/
  | qDestroy (f : Fn) (n : Nat)
  /-- CQ_CREATE (R227): The CQ_CREATE command creates a CQ from a descriptor, or ends with a code. -/
  | cqCreate (f : Fn) (n : Nat)
  /-- CQ_RESET (R233): The CQ_RESET command returns an OVERFLOW CQ to READY when nothing waits. -/
  | cqReset (f : Fn) (n : Nat)
  /-- CQ_DESTROY (R233): The CQ_DESTROY command frees an unbound CQ. -/
  | cqDestroy (f : Fn) (n : Nat)
  /-- Q_ENABLE (R230): Setting ENABLE in HIF_Q_CTRL moves an OFF queue with ready CQs to ACTIVE. -/
  | qEnable (f : Fn) (n : Nat)
  /-- Q_DISABLE (R232): Clearing ENABLE moves a queue to STOPPING, or to OFF when idle. -/
  | qDisable (f : Fn) (n : Nat)
  /-- HIF_SQ_DB (R241): A work doorbell updates DB, is stale, or puts the queue into ERROR with DB_RANGE. -/
  | hifSqDb (f : Fn) (n value : Nat)
  /-- HIF_CQ_DB (R242): A CQ doorbell updates CI, arms the CQ and writes waiting completions. -/
  | hifCqDb (f : Fn) (n value : Nat)
  /-- HIF_EQ_DB (R253): An event ring doorbell updates CI, re-arms the ring and writes held events. -/
  | hifEqDb (f : Fn) (e value : Nat)
  /-- PUSH_WRITE (R244): Bytes written to a push window collect in their half, and a complete entry is pushed. -/
  | pushWrite (f : Fn) (n off : Nat) (data : Bytes)
  /-- PUSH_HALF_EXPIRE (R244): A half still incomplete at the second boundary after its first byte is cleared. -/
  | pushHalfExpire (g : Nat) (k : Fin 2)
  /-- RING_READ_DONE (R243): A read of work ring slots completes and the slots become available for taking. -/
  | ringReadDone (g : Nat) (a : Ans)
  /-- DATA_READ_DONE (R224): A read of local data, an operand or a fragment table from host memory completes. -/
  | dataReadDone (k : Nat) (a : Ans)
  /-- NOP_ENTRY (R235): A NOP work entry is taken and completes with no other effect. -/
  | nopEntry
  /-- CQ_OVERFLOW (R233): A CQ FULL for CQ_FULL_BEATS enters OVERFLOW, and its bound queues enter ERROR. -/
  | cqOverflow (g : Nat)
  /-- MOD_TIME_EXPIRE (R253): MOD_TIME passes since the oldest unread event, and the ring sends its MSI-X message. -/
  | modTimeExpire (f : Fn) (e : Nat)
  /-- MSIX_UNMASK (R253): Unmasking a vector with its PBA bit set sends the pending message. -/
  | msixUnmask (f : Fn) (v : Nat)
  /-- HOST_LINK_DOWN (R254): An attachment link goes down without reset; queues enter ERROR and CQs OVERFLOW. -/
  | hostLinkDown (pf : Fin 4)
  /-- FLR (R254): A function level reset frees the function's queues, CQs and Pegs and discards its completions. -/
  | flr (f : Fn)
  /-- PERST_L (R419): PERST_L retrains the host port, resets its functions as by FLR and drops its export's directory entries. -/
  | perstL (h : Fin 2) (low : Bool)
  /-- LTR_UPDATE (R390): Host software writes LTR values, changing the effective tolerance. -/
  | ltrUpdate (pf : Fin 4) (enable : Bool) (snoop nosnoop : Nat)
  /-- REG_ENABLE (R258): The REG_ENABLE command reads a region descriptor, validates it and returns a key. -/
  | regEnable (f : Fn) (idx : Nat)
  /-- REG_DISABLE (R259): The REG_DISABLE command sets the entry CLOSING and waits for its users. -/
  | regDisable (f : Fn) (idx : Nat)
  /-- REG_DISABLE_COMPLETE (R259): The last user of a CLOSING region ends, GEN rises and the entry becomes FREE. -/
  | regDisableComplete (f : Fn)
  /-- RMA_QINFO (R262): A read of RMA_QINFO fetches an uncached context and returns its connection fields. -/
  | rmaQinfo (f : ReadBy Fn)
  /-- PUT_ENTRY (R265): A PUT work entry is checked and cut into PUT packets within the window. -/
  | putEntry
  /-- PUT_IMM_ENTRY (R265): A PUT_IMM work entry sends its data packets and one PUT_IMM packet. -/
  | putImmEntry
  /-- GET_ENTRY (R267): A GET work entry checks its landing and sends GET_REQ packets. -/
  | getEntry
  /-- ATOMIC_ENTRY (R264): An ATOMIC work entry sends one ATOMIC_REQ. -/
  | atomicEntry
  /-- PUT (R272): A PUT packet at its target is checked against the ledger and key, settled and placed. -/
  | put
  /-- PUT_IMM (R273): A PUT_IMM packet at its target takes an immediate hold and settles. -/
  | putImm
  /-- GET_REQ (R274): A GET_REQ at its target is checked, settled and served with one GET_RESP. -/
  | getReq
  /-- ATOMIC_REQ (R274): An ATOMIC_REQ at its target runs on an atomics engine or as a host AtomicOp, with a record kept. -/
  | atomicReq
  /-- ATOMIC_COMPLETE (R274): An atomic operation finishes, and ATOMIC_RESP is sent with the old value. -/
  | atomicComplete (k : Nat) (a : Ans)
  /-- ACK_DELAY (R272): ACK_DELAY cycles after the first settling, one ACK is sent for the connection. -/
  | ackDelay (g : Nat)
  /-- ACK (R278): An ACK at the requester answers covered PSNs, advances UNA_PSN and retires entries. -/
  | ack
  /-- NAK_PACKET (R280): An RMA NAK at the requester is final, or schedules a resend after back-off or at once. -/
  | nakPacket
  /-- GET_RESP (R278): A GET_RESP writes its data to the landing and answers its PSN. -/
  | getResp
  /-- ATOMIC_RESP (R278): An ATOMIC_RESP writes the old value to the landing and answers its PSN. -/
  | atomicResp
  /-- RTO_EXPIRE (R279): The connection timer expires; unanswered PSNs are sent again, or the connection gives up. -/
  | rtoExpire (g : Nat)
  /-- BACKOFF_EXPIRE (R280): A busy back-off ends and the PSN is sent again. -/
  | backoffExpire (g psn : Nat)
  /-- ATOMIC_RECORD_EXPIRE (R274): An atomic record older than 128 × RTO_BEATS Beats is freed. -/
  | atomicRecordExpire (g psn : Nat)
  /-- ML_CREATE (R285): The ML_CREATE command takes the lowest FREE ML and reads its descriptor. -/
  | mlCreate (f : Fn)
  /-- ML_DESTROY (R287): The ML_DESTROY command completes posted receives with ML_RESET and frees an unbound ML. -/
  | mlDestroy (f : Fn) (m : Nat)
  /-- SEND_ENTRY (R291): A SEND work entry takes the next MSN and sends MSG_EAGER or MSG_RTS. -/
  | sendEntry
  /-- RECV_ENTRY (R293): A RECV work entry is checked and passed to its ML's engine as an event. -/
  | recvEntry
  /-- CANCEL_ENTRY (R294): A CANCEL work entry removes the oldest posted receive with its USER. -/
  | cancelEntry
  /-- MSG_EAGER (R297): An eager message header is checked for order and room, settled, and enters matching or is held. -/
  | msgEager
  /-- MSG_RTS (R297): A rendezvous header is checked for order and room, settled, and enters matching or is held. -/
  | msgRts
  /-- MSG_FIN (R304): A MSG_FIN settles the FIN condition of its rendezvous SEND, or is counted STALE. -/
  | msgFin
  /-- MATCH_EVENT (R299): The ML's engine processes the next header, RECV or CANCEL event. -/
  | matchEvent (m : Nat)
  /-- SPILL_READ_DONE (R302): A spill ring read completes and the waiting search continues. -/
  | spillReadDone (m : Nat) (a : Ans)
  /-- SPILL_REFILL (R302): An idle engine moves spilled entries onto the chip in order. -/
  | spillRefill (m : Nat) (a : Ans)
  /-- RENDEZVOUS_START (R304): A free tracker takes a rendezvous transfer, which issues GET_REQs on the queue. -/
  | rendezvousStart
  /-- RD_S (R331): A shared read request at the home opens a transaction, waits, or is answered RETRY. -/
  | rdS
  /-- RD_X (R331): An exclusive read request at the home invalidates sharers or forwards to the owner. -/
  | rdX
  /-- UPG (R331): An upgrade request at the home invalidates other sharers, or is handled as RD_X. -/
  | upg
  /-- ATOM (R339): An ATOM at the home gains the only copy and runs the atomic there. -/
  | atom
  /-- WB (R331): A writeback at the home is written to the host, or acknowledged STALE. -/
  | wb
  /-- EVICT (R331): An eviction notice at the home removes the sender from the sharers and is acknowledged. -/
  | evict
  /-- FWD_S (R332): A shared forward at an agent is served or answered FWD_ACK NODATA. -/
  | fwdS
  /-- FWD_X (R332): An exclusive forward at an agent is served, after BISnpInv of the host copy, or answered NODATA. -/
  | fwdX
  /-- INV (R332): An invalidation at an agent drops the line, with BISnpInv, and answers INV_ACK. -/
  | inv
  /-- DATA_S (R332): Shared data fills the line, serves the waiting read and is answered COMP. -/
  | dataS
  /-- DATA_X (R332): Exclusive data fills the line in M and is answered COMP. -/
  | dataX
  /-- GRANT_X (R332): An exclusive grant moves the line from SM_A to M and is answered COMP. -/
  | grantX
  /-- INV_ACK (R331): An invalidation acknowledgement is counted at the home. -/
  | invAck
  /-- FWD_ACK (R331): A forward acknowledgement is recorded, its data written to the host, or NODATA poisons the line. -/
  | fwdAck
  /-- COMP (R331): A completion acknowledgement ends the home transaction and the next waiting request starts. -/
  | comp
  /-- WB_ACK (R332): A writeback acknowledgement moves the agent line to I, or to MI_F when STALE. -/
  | wbAck
  /-- RETRY (R329): A RETRY makes the agent hold its request for a credit grant. -/
  | retry
  /-- CRD_GRANT (R329): A credit grant makes the agent resend its request with CREDITED set. -/
  | crdGrant
  /-- ATOM_RESP (R339): An atomic response returns the old value to the agent, or fails the atomic with poison. -/
  | atomResp
  /-- HOST_DATA_RETURN (R316): The home's CXL.cache read from its host returns data for the open transaction. -/
  | hostDataReturn (line : Nat) (data : Bytes) (poison : Bool)
  /-- HOST_SNOOP (R317): A CXL.cache snoop from the home's host recalls or downgrades the line. -/
  | hostSnoop (k : Fin 2) (addr : Nat) (inv : Bool)
  /-- MEMRD (R318): A CXL.mem read on a window is served from the window cache, or requests the line. -/
  | memrd (port : Fin 2) (tag hpa : Nat) (mv : Fin 3)
  /-- MEMWR (R318): A full-line CXL.mem write is served in M and clears POISON. -/
  | memwr (port : Fin 2) (tag hpa : Nat) (mv : Fin 3) (data : Bytes)
  /-- MEMWRPTL (R318): A partial CXL.mem write merges bytes into the line held in M. -/
  | memwrptl (port : Fin 2) (tag hpa : Nat) (mv : Fin 3) (data : Bytes) (mask : Nat)
  /-- BIRSP (R318): A host Back-Invalidate response lets a recorded forward or downgrade proceed. -/
  | birsp (port : Fin 2) (hpa : Nat) (shared : Bool)
  /-- HDM_DECODER_COMMIT (R315): The host commits an HDM decoder, which fails unless interleave ways is 1. -/
  | hdmDecoderCommit (port : Fin 2) (d base size ways : Nat)
  /-- TRANSACTION_TIMER_EXPIRE (R333): A home transaction exceeds FWD_BEATS, and the line is poisoned and resolved. -/
  | transactionTimerExpire (line : Nat)
  /-- REQUEST_TIMER_EXPIRE (R335): An agent request timer expires, and the request is resent RESENT or the agent gives up. -/
  | requestTimerExpire (k : Nat)
  /-- CREDIT_RESERVE_EXPIRE (R329): A reserved home entry unclaimed for FWD_BEATS Beats is freed. -/
  | creditReserveExpire (k : Nat)
  /-- DECLARE_DEAD (R336): The DECLARE_DEAD command marks a member DEAD and starts the directory walk. -/
  | declareDead (who : Who) (m : Nat)
  /-- DECLARE_DEAD_WALK_END (R336): The walk ends, and LINES and DEAD_LOST are reported. -/
  | declareDeadWalkEnd
  /-- FLUSH (R340): The FLUSH command writes back and drops every window cache line. -/
  | flush (who : Who)
  /-- FLUSH_END (R340): The flush ends, and LINES reports the lines written back. -/
  | flushEnd
  /-- REVIVE (R337): The REVIVE command clears DEAD for a member. -/
  | revive (who : Who) (m : Nat)
  /-- PEG_TAKE (R344): A read of PEG_TAKE grants the Peg, reports it held, or queues and stalls the reader. -/
  | pegTake (f : ReadBy Fn) (j : Nat)
  /-- PEG_TRY (R344): A read of PEG_TRY grants the Peg or returns without queueing. -/
  | pegTry (f : ReadBy Fn) (j : Nat)
  /-- PEG_RELEASE (R349): A release by the holder frees the Peg and grants it to the head waiter. -/
  | pegRelease (f : Fn) (j : Nat)
  /-- WATCH (R347): A WATCH write queues a watch, or grants at once by event. -/
  | watch (f : Fn) (j : Nat)
  /-- CANCEL (R347): A CANCEL write removes the function's watch. -/
  | cancel (f : Fn) (j : Nat)
  /-- FORCE_RELEASE (R351): A supervisor frees a Peg and sets its FORCED mark. -/
  | forceRelease (pf : Fin 4) (k : Nat)
  /-- FLUSH_WAITERS (R351): A supervisor removes every waiter of a Peg. -/
  | flushWaiters (pf : Fin 4) (k : Nat)
  /-- STALL_LIMIT (R345): A stalled take passes STALL_LIMIT and becomes a watch (PENDING) or returns TIMEOUT. -/
  | stallLimit (f : Fn) (j : Nat)
  /-- SCRUB_READ (R363): The scrubber reads the next code word in an idle or forced slot. -/
  | scrubRead (r : Fin 8) (dUp cUp : Nat) (o : Option EObj)
  /-- CORRECTED_WRITE_BACK (R361): In its next idle slot the array writes the corrected word back, unless it was written meanwhile. -/
  | correctedWriteBack (r : Fin 8) (w : Nat)
  /-- ECC_LAP_MISSED (R364): A scrub lap reaches its deadline, and forced slots begin. -/
  | eccLapMissed (r : Fin 8)
  /-- ECC_WIN_READ (R367): A read of ECC_WIN returns corrected or raw data and sets CE or UE. -/
  | eccWinRead (who : ReadBy Who) (k : Nat)
  /-- ECC_WIN_WRITE (R368): A write of ECC_WIN writes a code word, holds a Strong lower half, or is refused. -/
  | eccWinWrite (who : Who) (k value : Nat)
  /-- ECC_WIN_SEL (R367): A write of ECC_WIN_SEL selects the region and page and discards held halves. -/
  | eccWinSel (who : Who) (value : Nat)
  /-- FLT_FORCE (R381): A 1 in FLT_FORCE raises that source once as a forced occurrence. -/
  | fltForce (who : Who) (w : Fin 8) (value : Checked)
  /-- SPILL (R389): SPILL with key 0xA5 in FLT_CTRL enters the Spillway, or is refused. -/
  | spill (who : Who) (key : Nat)
  /-- ESC_WINDOW_RESTART (R376): Every ESC_WINDOW-th boundary the escalation window restarts and WIN_COUNT clears. -/
  | escWindowRestart
  /-- WAKE_CAUSE (R392): A wake cause in a gated power state starts the exit to P0. -/
  | wakeCause (bay : Option (Fin 16))
  /-- WAKE_COMPLETE (R393): The gated resources are usable again, and waiting packets and accesses proceed. -/
  | wakeComplete
  /-- PWR_VR_FAULT (R399): A regulator reports a fault or fails to acknowledge, and its island holds its last good value. -/
  | pwrVrFault (k : Fin 4)
  /-- GRAIN_SAMPLE (R403): Every 65,536th boundary Grain samples its inputs and updates the end-of-life predictions. -/
  | grainSample (rs : List (Option Nat)) (day : Bool)
  /-- BYPASS (R441): The JTAG BYPASS instruction is loaded. -/
  | bypass
  /-- IDCODE (R441): The JTAG IDCODE instruction shifts out the device identifier. -/
  | idcode
  /-- SAMPLE_PRELOAD (R441): The JTAG SAMPLE/PRELOAD instruction samples or preloads the boundary register. -/
  | samplePreload (pins preload : Nat)
  /-- EXTEST (R441): The JTAG EXTEST instruction drives the pins, accepted only in reset, otherwise acting as BYPASS. -/
  | extest
  /-- HIGHZ (R441): The JTAG HIGHZ instruction tri-states outputs, accepted only in reset. -/
  | highz
  /-- EXTEST_PULSE (R441): The IEEE 1149.6 EXTEST_PULSE instruction tests AC-coupled lanes, accepted only in reset. -/
  | extestPulse
  /-- EXTEST_TRAIN (R441): The IEEE 1149.6 EXTEST_TRAIN instruction tests AC-coupled lanes, accepted only in reset. -/
  | extestTrain
  /-- TRST_L (R441): TRST_L low holds the TAP in Test-Logic-Reset. -/
  | trstL (low : Bool)
  /-- HOST_LINK_UP (R218): A host attachment's link finishes training (after PERST_L release or a link loss), negotiates its protocols into HIF_PORT_STATUS, and lets completions and events that waited for the link be written. -/
  | hostLinkUp (pf : Fin 4) (rate width : Nat) (flit cxl cache mem : Bool)
  /-- BEAT_REF_LOCK (R37): A master with EXT_REF set locks its core PLL to the 10 MHz BEAT_REF input and sets REF_LOCK. -/
  | beatRefLock
  /-- SETDASA (R440): The I3C controller's SETDASA command gives the device a dynamic address taken from its static address 0x64 + SMB_ADDR. -/
  | setdasa (static dyn : Nat)
  /-- ENTDAA (R440): The I3C controller's ENTDAA procedure gives the device a dynamic address. -/
  | entdaa (dyn : Nat)
  /-- FLASH_ERASE_DONE (R424): A SPI NOR erase, which may take up to 1 s, completes, and its mailbox response is sent. -/
  | flashEraseDone
  deriving DecidableEq, Repr

end Sys2Proof
end

