-- ==== Sys2Proof/Machine/Wire.lean ====
section
/-! DEFINITION. The coding of a lane (03_lanes.md): bits, symbols, pseudo-random streams, the scrambler, the striping of a flit. -/

namespace Sys2Proof.Machine

/-! ### Bits and symbols (R81) -/

/-- The bits of bytes in the order in which they are sent: bit 0 of each byte first (R81; at S1 to S3 DEDUCED, log entry 111). -/
def bitsOf (b : Bytes) : List Bool := b.flatMap (fun x => (List.range 8).map (fun i => x.getLsbD i))

/-- The whole bytes that received bits make up. -/
def bytesOf : List Bool → Bytes
  | a :: b :: c :: d :: e :: f :: g :: h :: r =>
    BitVec.ofNat 8 (b2n a + 2 * b2n b + 4 * b2n c + 8 * b2n d + 16 * b2n e + 32 * b2n f + 64 * b2n g + 128 * b2n h) :: bytesOf r
  | _ => []

/-- The Gray-coded level of a pair of bits, the first of which is the less significant (R81). -/
def pamLevel (first second : Bool) : Level :=
  match second, first with
  | false, false => -3
  | false, true => -1
  | true, true => 1
  | true, false => 3

/-- Pairs of bits as PAM4 levels. -/
def pamLevels : List Bool → List Level
  | a :: b :: r => pamLevel a b :: pamLevels r
  | _ => []

/-- The symbols of bits at a step (R81, Table 3.1): NRZ at S0, where 0 is written -1 and 1 is written +1, else PAM4. -/
def levelsOf (step : Nat) (b : List Bool) : List Level := if step = 0 then b.map (fun x => if x then 1 else -1) else pamLevels b

/-- The symbols of bytes at a step. -/
def symbols (step : Nat) (b : Bytes) : List Level := levelsOf step (bitsOf b)

/-- The bits that received symbols stand for, on a lane whose pair is inverted or not (R84). -/
def levelBits (step : Nat) (inv : Bool) (l : List Level) : List Bool :=
  let l := if inv then l.map (fun x => -x) else l
  if step = 0 then l.map (fun x => decide (0 < x))
  else l.flatMap (fun x => if x < -1 then [false, false] else if x < 1 then [true, false] else if x < 2 then [true, true] else [false, true])

/-- The bytes that received symbols stand for. -/
def unsymbols (step : Nat) (inv : Bool) (l : List Level) : Bytes := bytesOf (levelBits step inv l)

/-- Line rates in bits per 100 µs (Table 3.1). -/
def lineRate (step : Nat) : Nat := [2578125, 5312500, 10625000, 21250000].getD step 0

/-! ### Pseudo-random streams (R88, R92, Table 3.10) -/

/-- A stream: the length of its register and the powers of its polynomial. -/
structure Poly where
  n : Nat
  taps : List Nat
  deriving DecidableEq, Repr

/-- The patterns of Table 3.10. -/
def pattern (k : Nat) : Poly :=
  match k with
  | 0 => ⟨7, [7, 6]⟩
  | 1 => ⟨9, [9, 5]⟩
  | 2 => ⟨13, [13, 12, 2, 1]⟩
  | 3 => ⟨15, [15, 14]⟩
  | 4 => ⟨23, [23, 18]⟩
  | _ => ⟨31, [31, 28]⟩

/-- The scrambler (R92). -/
def scrambler : Poly := ⟨31, [31, 28]⟩

/-- All ones in a register. -/
def Poly.ones (p : Poly) : Nat := 2 ^ p.n - 1

/-- The bit that follows the last `n` bits of the stream, the newest of which is bit 0 of the register. -/
def Poly.next (p : Poly) (st : Nat) : Bool := p.taps.foldl (fun a t => a ^^ bit st (t - 1)) false

/-- The register after a bit. -/
def Poly.push (p : Poly) (st : Nat) (b : Bool) : Nat := (2 * st + b2n b) % 2 ^ p.n

/-- `k` bits of the stream of a register, its most significant bit first (R114; for the scrambler DEDUCED, log entry 111), and the
register after them. -/
def Poly.run (p : Poly) : Nat → Nat → List Bool × Nat
  | 0, st => ([], st)
  | k + 1, st =>
    let r := p.run k (p.push st (p.next st))
    (bit st (p.n - 1) :: r.1, r.2)

/-- Data bits with the scrambler's stream added, and its state after them; the receiver does the same (R92). -/
def scramble (st : Nat) (b : List Bool) : List Bool × Nat :=
  let r := scrambler.run b.length st
  (List.zipWith (· ^^ ·) b r.1, r.2)

/-- The bits that differ from the stream whose register stands at `st` (R88). -/
def Poly.errors (p : Poly) (st : Nat) (b : List Bool) : Nat :=
  ((List.zipWith (· ^^ ·) b (p.run b.length st).1).filter id).length

/-! ### Striping (R93) -/

/-- The 8-byte words of a flit with an even, or an odd, index. -/
def evenWords {α : Type} : List α → List α × List α
  | [] => ([], [])
  | x :: r => let p := evenWords r; (x :: p.2, p.1)

/-- Runs of eight bytes. -/
def words8 : Bytes → List Bytes
  | a :: b :: c :: d :: e :: f :: g :: h :: r => [a, b, c, d, e, f, g, h] :: words8 r
  | _ => []

/-- A flit's bytes for the lane of the even words and for the other lane. -/
def stripe (f : Bytes) : Bytes × Bytes :=
  let p := evenWords (words8 f)
  (p.1.flatten, p.2.flatten)

/-- The words of two lanes in turn. -/
def weaveWords : List Bytes → List Bytes → List Bytes
  | a :: r, b :: t => a :: b :: weaveWords r t
  | r, [] => r
  | [], t => t

/-- A flit from the bytes of the lane of the even words and of the other lane. -/
def unstripe (a b : Bytes) : Bytes := (weaveWords (words8 a) (words8 b)).flatten

/-! ### Pattern checker (R114) -/

/-- A checker: bits that have seeded it, its register, consecutive correct bits, the places of the errors among the last 4,096
bits, bits since LOCK, whether it holds LOCK, and the bits and errors counted while it did. -/
structure Checker where
  seeded : Nat
  st : Nat
  good : Nat
  errs : List Nat
  pos : Nat
  lock : Bool
  counted : Nat
  wrong : Nat
  deriving DecidableEq, Repr

/-- A checker that has seen nothing. -/
def Checker.init : Checker := ⟨0, 0, 0, [], 0, false, 0, 0⟩

/-- One received bit at a checker of a pattern: it seeds itself, sets LOCK after 64 consecutive correct bits, counts while it holds
LOCK, and clears LOCK after 1,024 errors within 4,096 bits. -/
def Checker.step (p : Poly) (c : Checker) (b : Bool) : Checker :=
  let q := p.next c.st
  if c.lock then
    let errs := (c.errs.filter (fun x => decide (c.pos < x + 4096))) ++ (if q = b then [] else [c.pos])
    let c := { c with counted := c.counted + 1, wrong := c.wrong + b2n (q != b), pos := c.pos + 1, errs := errs, st := p.push c.st q }
    if 1024 ≤ errs.length then { c with lock := false, seeded := 0, good := 0, errs := [], pos := 0 } else c
  else if c.seeded < p.n then { c with seeded := c.seeded + 1, st := p.push c.st b }
  else
    let good := if q = b then c.good + 1 else 0
    { c with good := good, lock := decide (64 ≤ good), st := p.push c.st b, errs := [], pos := 0 }

end Sys2Proof.Machine
end

