-- ==== Sys2Proof/Machine/State.lean ====
section
/-! DEFINITION. The state of the device: its registers, the state its rules name beside them, what has left the device,
and the queue of waiting commands. -/

namespace Sys2Proof.Machine

/-- An occurrence of a fault source (R373) with what a capture slot would record (R380). -/
structure Occ where
  src : Nat
  inst : Nat
  addr : Nat
  info : Nat
  init : Nat
  remote : Bool
  access : Nat
  forced : Bool
  deriving DecidableEq, Repr

/-- What a candidate port's last exchange said of its peer (R40, Table 4.6). -/
structure Cand where
  prio : Nat
  distance : Nat
  masterId : Nat
  quiet : Nat
  deriving DecidableEq, Repr

/-- The Beat unit beside its registers (01_device_organization.md): the period in force, the change of length of the Beat
in progress in 1/16 core cycle, the kept offsets and the residue (1/16 core cycle, R39),
consecutive in-band exchanges, candidates by port, Beats since the last upstream exchange, the master-alive sequence and
the Beats since it was fresh, Beats since the image loaded and whether a master was heard, the late-commit mark (R36),
outstanding exchange identifiers by port, the time in HOLDOVER in 0.1 ns, whether a device that yielded as master may only
slew (Table 1.6), the Beats counted since reset and, by port, that count at the last request sent (R38), and the tasks of the
Beat in progress that will not have finished at its end (R28). -/
structure Bea where
  period : Nat
  slew : Int
  kept : List Int
  residue : Int
  inband : Nat
  cands : Tab Cand
  upQuiet : Nat
  aliveSeq : Option Nat
  aliveQuiet : Nat
  sinceLoad : Option Nat
  heard : Bool
  armLate : Bool
  xids : Tab Nat
  holdTime : Nat
  slewOnly : Bool
  ticks : Nat
  sentAt : Tab Nat
  late : List Nat
  deriving DecidableEq, Repr

/-- The Beat unit after device reset: the default period (R23). -/
def Bea.init : Bea := ⟨20, 0, [], 0, 0, [], 0, none, 0, none, false, false, [], 0, false, 0, [], []⟩

/-- A staged value of a B field (R18): the field, its instance and index, and the value. -/
structure Shade where
  fld : Fld
  inst : Nat
  idx : Nat
  val : Nat
  deriving DecidableEq, Repr

/-- A checked image, or the image in force: its header fields, its digest and its members by type. -/
structure Img where
  sec : Nat
  keySlot : Nat
  build : Nat
  digest : Bytes
  members : List (Nat × Bytes)
  deriving DecidableEq, Repr

/-- An open push (R425). -/
structure Push where
  hot : Bool
  len : Nat
  data : Bytes
  deriving DecidableEq, Repr

/-- A key slot of the fuses: its key hash and its REVOKED fuse (R70). -/
structure KeySlot where
  hash : Bytes
  revoked : Bool
  deriving DecidableEq, Repr

/-- The loader, the flash and the fuses (02_truss_image.md): the flash bytes, key slots and security floor, the image in
force, a held pushed full image, the one that the LOAD in progress tries first (R422), the staged hot image, the open
push. -/
structure Trs where
  flash : Tab Byte
  keys : Tab KeySlot
  floor : Nat
  img : Option Img
  pushed : Option Bytes
  cand : Option Bytes
  staged : Option Img
  push : Option Push
  deriving DecidableEq, Repr

/-- A mailbox request that waits: its requester, TAG and message (R414, R422), and whether what it works on is sound: fuses
that it blows read back right (R424), the collector that it accesses shows no parity error (R387). -/
structure Held where
  who : Mbx
  tag : Nat
  msg : Bytes
  blown : Bool
  deriving DecidableEq, Repr

/-- Input pins that the rules read (16_signals_package_electrical.md): PWROK high; WARM_RST_L asserted; PERST_L asserted by
host port; TRST_L low. -/
structure Pins where
  pwrok : Bool
  warm : Bool
  perst0 : Bool
  perst1 : Bool
  trstLow : Bool
  deriving DecidableEq, Repr

/-- Power off: PWROK low, no reset held but PERST_L, the pull-down holding TRST_L low (log entry 38). -/
def Pins.init : Pins := ⟨false, false, true, true, true⟩

/-- Boot, resets and the Foreman (15_reset_and_bringup.md, 16_signals_package_electrical.md): the variant; the straps as
sampled; a reset asked for by NOW that waits (R422); units contained (R374, R415); mailbox requests that a reset in progress absorbed; mailbox UNIT_RESETs
that wait for their units; mailbox requests that are not executed yet, and all outstanding ones by requester and TAG
(R424); an erase in progress; the Foreman's event log (0x100 and the source after FLT_SELF); the I3C dynamic address;
the JTAG instruction and the boundary register; Beats since the fuses were last read, up to 1,048,576 (R411). -/
structure Boot where
  variant : Nat
  hostBif : Nat
  smbAddr : Nat
  nowPending : Bool
  contained : Nat
  absorbed : List Held
  unitWait : List (Held × Nat)
  held : List Held
  outstanding : List (Mbx × Nat)
  flashBusy : Option Held
  foremanLog : List Nat
  i3cAddr : Option Nat
  jtag : Nat
  bsr : Nat
  fuseBeats : Nat
  deriving DecidableEq, Repr

/-- Nothing sampled, nothing waiting, the TAP at IDCODE; a TN-840 (log entry 38). -/
def Boot.init : Boot := ⟨0, 0, 0, false, 0, [], [], [], [], none, [], none, 1, 0, 0⟩

/-- A sequenced flit held for replay (R129): TYPE, WORDS and body. -/
structure Flit where
  ty : Nat
  words : Nat
  body : Bytes
  deriving DecidableEq, Repr

/-- The link of one port beside its registers (04_link_layer.md): the replay buffer from TX_OLDEST on, the place of a
replay in progress, the last accepted SEQ (none sends 0xFFF), good flits counted in INIT, a NAK to send, FENCE messages
to send with their REASON and the lane state after them, BEAT_XCHG and sequenced control messages to send, packet bytes
to send, flit slots since the last CTRL_S (up to 4; from the start 4), a CORRUPT request, the packet bytes received and not yet a whole packet,
Beats in the health window, and whether the buffer was full in this Beat. -/
structure Link where
  replay : List Flit
  rpos : Option Nat
  acked : Option Nat
  good : Nat
  nakDue : Bool
  fenceLeft : Nat
  fenceReason : Nat
  fenceDest : Nat
  xchg : List (Bool × Xchg)
  ctrlS : List (Nat × Bytes)
  tx : Bytes
  sinceS : Nat
  corrupt : Bool
  rx : Bytes
  winBeats : Nat
  fullBeat : Bool
  deriving DecidableEq, Repr

/-- A link at rest. -/
def Link.init : Link := ⟨[], none, none, 0, false, 0, 0, 0, [], [], [], 4, false, [], 0, false⟩

/-- A width request that a port has sent (R98): its SEQ, the new width, the lane it keeps, its Beat, and the Beat of a
refusal. -/
structure WidthReq where
  seq : Nat
  width : Nat
  lane : Nat
  atBeat : Nat
  refusedAt : Option Nat
  deriving DecidableEq, Repr

/-- The capability sets of one lane of a port (R83 to R87): consecutive valid sets received, those with ACK, sets sent with ACK (each
up to 8), the LANE_ID and the RX_PRESET heard, the COUNTDOWN of the next set while counting, and whether the set that carries 0 has
been sent. -/
structure CapLane where
  rxOk : Nat
  rxAck : Nat
  txAck : Nat
  id : Option Nat
  preset : Nat
  next : Option Nat
  counted : Bool
  deriving DecidableEq, Repr

/-- A lane that has heard and sent nothing. -/
def CapLane.init : CapLane := ⟨0, 0, 0, none, 0, none, false⟩

/-- The bring-up of one port (03_lanes.md): whether it calibrates and for which state, fallbacks taken, the sets of its two lanes, the
peer's offered width, the agreed step and width, the lanes
that train, whether TRAIN_US and then CHECK_US have ended, own PASS per lane, the width request outstanding, the agreed change of each
direction (Beat, width, lane; width, lane), the lanes that its receiver takes flits from, the lane being re-acquired, Beats since the
last re-acquisition started, the FFE values with which it did, the own PASS and the peer's PASS byte once known, the next SEQ, and
whether the peer has asked for two lanes (R394). -/
structure SerPort where
  calib : Option Nat
  attempt : Nat
  c0 : CapLane
  c1 : CapLane
  peerWidth : Nat
  agreedStep : Nat
  agreedWidth : Nat
  training : Nat
  trained : Bool
  checked : Bool
  ownPass : Nat
  widthReq : Option WidthReq
  txChange : Option (Nat × Nat × Nat)
  rxChange : Option (Nat × Nat)
  rxLanes : Nat
  reacq : Option Nat
  reacqBeats : Nat
  reacqFfe : Nat × Nat
  reacqOwn : Option Bool
  reacqPeer : Option Nat
  seq : Nat
  wide : Bool
  deriving DecidableEq, Repr

/-- A port's bring-up at rest. -/
def SerPort.init : SerPort :=
  ⟨none, 0, CapLane.init, CapLane.init, 0, 0, 0, 0, false, false, 0, none, none, none, 0, none, 0, (0, 0), none, none, 0, false⟩

/-- One lane beside its registers: visits left frozen (R109), the step last taken (fields and, for a request, its
deltas), the height at the visit before, HEIGHT_AVG's fraction (1/65,536), the SEQ of an outstanding FFE_REQ (R106), a
received FFE_REQ that waits for the boundary (SEQ, deltas), whether LIMIT was logged, whether HEIGHT_AVG was last found
below the limit of SER_EYE_LOW (from the start it has not fallen: R111), the bits checked short of a unit of BITS (R114), the errors of
the visit before by equalizer field (R396), the scramblers of both directions (R92), and the test generator's register with a bit to flip (R114) and
checker. -/
structure LaneSt where
  frozen : Nat
  undo : List (Nat × Nat)
  undoReq : Option (Int × Int)
  lastHeight : Option Nat
  frac : Nat
  reqSeq : Option Nat
  staged : Option (Nat × Int × Int)
  limitLogged : Bool
  eyeLogged : Bool
  prbsBits : Nat
  prevE : Tab Int
  txScr : Nat
  rxScr : Nat
  gen : Option Nat
  flip : Bool
  chk : Checker
  deriving DecidableEq, Repr

/-- A lane at rest. -/
def LaneSt.init : LaneSt := ⟨0, [], none, none, 0, none, none, false, true, 0, [], scrambler.ones, scrambler.ones, none, false, Checker.init⟩

/-- One hop that a held packet waits for: the output port (64 for ejection), and whether it lands in a detour channel. -/
structure Hop where
  port : Nat
  det : Bool
  deriving DecidableEq, Repr

/-- A packet held in a channel of the router: its bytes, its input (64 for the injection port), whether its channel is a
detour, whether its credits count at its input (they stop when the port dies), and the hops it waits for (several for a
multicast packet). -/
structure Pk where
  b : Bytes
  input : Nat
  det : Bool
  counted : Bool
  hops : List Hop
  deriving DecidableEq, Repr

/-- A source rate limiter (R175, R176): RATE, its bucket, an echo in this Beat, Beats at RATE_CAP. -/
structure Limiter where
  rate : Nat
  bucket : Int
  echoed : Bool
  capBeats : Nat
  deriving DecidableEq, Repr

/-- The round robin of one output (R172): the class in turn, the deficits in bytes, the last channel served by class. -/
structure Arb where
  cls : Nat
  deficit : List Nat
  last : List Nat
  deriving DecidableEq, Repr

/-- An output's round robin at rest. -/
def Arb.init : Arb := ⟨0, List.replicate 8 0, List.replicate 8 0⟩

/-- The router beside its registers (05_routing_and_flow_control.md): held packets in order of arrival, packets of the
device's own agents that wait at the injection port, LOST notices (R211), ejected packets that wait for their unit,
allocations of the input channels, credits held and in use by downstream channel, downstream channels that have had a
CREDIT word (R177), ports whose reserve grants are given, the four LFSRs, limiters, a RTE_LIMITER_FULL in this Beat, nodes
that an echo is owed to, arbitration by output, marks by port in this Beat, and the Beat's adaptive injections and those that went non-minimal (R397). -/
structure Rte where
  held : List Pk
  agent : List Bytes
  notices : List Bytes
  ejected : List Bytes
  alloc : Tab Nat
  cred : Tab Nat
  used : Tab Nat
  seen : List Nat
  granted : Nat
  lfsr : List Nat
  limits : Tab Limiter
  fullLogged : Bool
  owed : List Nat
  arb : Tab Arb
  marks : Tab Nat
  injected : Nat
  nonmin : Nat
  deriving DecidableEq, Repr

/-- The router at rest. -/
def Rte.init : Rte := ⟨[], [], [], [], [], [], [], [], 0, [0, 0, 0, 0], [], false, [], [], [], 0, 0⟩

/-- How a work entry ended: HSTATUS, STATUS, LENGTH, AUX and PEER of its completion (Table 7.14). -/
structure Fin' where
  hst : Nat
  st : Nat
  len : Nat
  aux : Nat
  peer : Nat
  deriving DecidableEq, Repr

/-- A work entry that is taken and not retired (R239): its index, slots and bytes, whether its checks are done, whether it
has begun, its end, whether its completion is produced, the local data it read, its fragments (key, offset, length), the
regions whose key check it passed (R259), its MSN and whether it awaits MSG_FIN, and the bytes that the FIN reported. -/
structure Ent where
  idx : Nat
  slots : Nat
  b : Bytes
  ready : Bool
  begun : Bool
  fin : Option Fin'
  posted : Bool
  data : Option Bytes
  frags : List (Nat × Nat × Nat)
  regs : List Nat
  msn : Option Nat
  taken : Option Nat
  rtsDone : Bool
  deriving DecidableEq, Repr

/-- A request packet that a queue sends under its window (R266): KIND, the entry or the rendezvous transfer it belongs
to, its header bytes 19 to 31, its payload, and the landing of its answer (key, offset, length). -/
structure Todo where
  kind : Nat
  ent : Option Nat
  rdv : Option Nat
  hdr : Bytes
  payload : Bytes
  land : Option (Nat × Nat × Nat)
  deriving DecidableEq, Repr

/-- A request packet that was sent: its PSN, whether it is answered, the Beat of a resend after BUSY (R280), and the ADIST
with which it left (R279). -/
structure Unans where
  psn : Nat
  req : Todo
  done : Bool
  resendAt : Option Nat
  adist : Nat
  deriving DecidableEq, Repr

/-- The context of a queue and CQ number: its QCT entry (256 bytes, Table 7.4), whether it is cached, whether it is a stub
(R229), its last use; the work ring slots read and not taken, the index up to which they are asked for, AGE and whether
it was served in this Beat (R247); entries taken; packets to send and the requester state of R263 (answers, retry and busy
counts, the Beat from which the timer runs); and whether an ACK is due (R272). -/
structure Ctx where
  b : Bytes
  cached : Bool
  stub : Bool
  lastUse : Nat
  slots : Tab Bytes
  asked : Nat
  age : Nat
  served : Bool
  ents : List Ent
  todo : List Todo
  win : List Unans
  retry : Nat
  busy : Nat
  timer : Nat
  ackDue : Bool
  deriving DecidableEq, Repr

/-- A context with nothing in hand. -/
def Ctx.of (b : Bytes) : Ctx := ⟨b, true, false, 0, [], leAt b 36 4, 0, false, [], [], [], 0, 0, 0, false⟩

/-- A completion entry (Table 7.14) that is produced and not written: the fields, and the queue and entry it belongs to
when it is an own completion. -/
structure Cqe where
  cq : Nat
  wrid : Nat
  queue : Nat
  status : Nat
  opcode : Nat
  remote : Bool
  len : Nat
  peer : Nat
  aux : Nat
  indexLo : Nat
  hst : Nat
  own : Option (Nat × Nat)
  deriving DecidableEq, Repr

/-- An event that is held for a full event ring (R252): the ring's PF and its PF-local number (R219), and the entry's fields. -/
structure Ev where
  inst : Nat
  ring : Nat
  ty : Nat
  detail : Nat
  obj : Nat
  beat : Nat
  info : Nat
  deriving DecidableEq, Repr

/-- A queue command in progress (HIF_QUEUE_CMD): function, command, its number, the global number, and whether its
descriptor is being read. -/
structure QCmd where
  fn : Fn
  cmd : Nat
  num : Nat
  g : Nat
  desc : Bool
  deriving DecidableEq, Repr

/-- What waits for a context that is not cached (R228, R242): a work or CQ doorbell with its value; a write of ENABLE; the queue's
entry into ERROR (reason, index); the CQ's entry into OVERFLOW; a Beat in FULL; the number's return to FREE. -/
inductive CtxOp where
  | door (sq : Bool) (v : Nat)
  | ctrl (g : Nat) (on : Bool)
  | error (reason idx : Nat)
  | overflow
  | fullBeat
  | free
  deriving DecidableEq, Repr

/-- What an outstanding read of host memory is for: a fragment table, an entry's data, a GET that is served, an eager slot, a chunk, an
entry of a region's page list, or what is gone since. -/
inductive Job where
  | frag (q idx : Nat)
  | data (q idx : Nat)
  | serve (q psn : Nat)
  | slot (ml : Nat)
  | chunk (tree seq c : Nat)
  | page (reg p : Nat)
  | gone
  deriving DecidableEq, Repr

/-- An outstanding read of host memory. -/
structure Rd where
  job : Job
  fn : Fn
  len : Nat
  deriving DecidableEq, Repr

/-- One half of a push window (R244): its bytes by offset, and the boundaries since its first byte. -/
structure Half where
  bytes : Tab Byte
  beats : Nat
  deriving DecidableEq, Repr

/-- What a read that waits for a context returns (R228, Table 8.23): 0 HIF_Q_STATUS, 1 HIF_Q_STATE, 2 HIF_CQ_STATUS, 3
RMA_QINFO. -/
structure StatusRead where
  who : Who
  what : Nat
  g : Nat
  deriving DecidableEq, Repr

/-- The host interface beside its registers (07_host_interface_and_queues.md): contexts by global number, context
fetches, what waits for them in the order of arrival, reads and commands that wait for them, ring reads (queue, first index, slots; no
slot where the read serves nothing any more), reads of local data, completions produced and not written in order of production, those
behind a target-side completion that found no place in the park (R250, log entry 116), held events oldest first, push windows, the
MSI-X tables (address, data, mask) and pending bits, and the scheduler's round robin. -/
structure Hif where
  ctx : Tab Ctx
  fetch : List Nat
  pend : List (Nat × CtxOp)
  status : List StatusRead
  cmds : List QCmd
  rings : List (Nat × Nat × Nat)
  reads : List Rd
  wait : List Cqe
  late : List Cqe
  held : List Ev
  push : Tab Half
  msix : Tab (Nat × Nat × Bool)
  pba : List Nat
  arb : Arb
  turn : List Nat
  clock : Nat
  deriving DecidableEq, Repr

def Hif.init : Hif := ⟨[], [], [], [], [], [], [], [], [], [], [], [], [], Arb.init, List.replicate 8 0, 0⟩

/-- A region whose descriptor the device owns: the descriptor (Table 8.1), what the host answers for each entry of its
page list as it was read last (none where it is unusable), the page entries that the region cache holds (R260), and whether its
descriptor is unusable. -/
structure Region where
  d : Bytes
  pages : Tab (Option Nat)
  known : List Nat
  bad : Bool
  deriving DecidableEq, Repr

/-- A region command in progress: function, command, PF entry (PF in bits 23 and 22), and whether it waits for its users. -/
structure RegCmd where
  fn : Fn
  cmd : Nat
  idx : Nat
  deriving DecidableEq, Repr

/-- An atomic in progress at its target (R274): queue, PSN, AOP, size, operands, region, translated address, host mode,
whether it is coherent, and whether its engine has begun it. -/
structure Atomic where
  q : Nat
  psn : Nat
  aop : Nat
  size : Nat
  op0 : Nat
  op1 : Nat
  reg : Nat
  addr : Nat
  hostMode : Bool
  coh : Bool
  begun : Bool
  deriving DecidableEq, Repr

/-- A record of an atomic that ran (R274). -/
structure ARec where
  q : Nat
  psn : Nat
  size : Nat
  old : Nat
  beat : Nat
  deriving DecidableEq, Repr

/-- A GET_REQ that is being served (R274): queue, PSN, region. -/
structure Serve where
  q : Nat
  psn : Nat
  len : Nat
  reg : Nat
  deriving DecidableEq, Repr

/-- Remote memory access beside its registers (08_remote_memory_access.md): regions by PF entry (PF in bits 23 and 22),
commands in progress, headers parked in the VN1 miss queue with whether a long payload was discarded, atomics in progress,
their records, GETs being served, and the once-a-Beat faults of this Beat. -/
structure Rma where
  regions : Tab Region
  cmds : List RegCmd
  parked : List (Nat × Bytes)
  atoms : List Atomic
  recs : List ARec
  serves : List Serve
  missLogged : Bool
  atomLogged : Bool
  deriving DecidableEq, Repr

def Rma.init : Rma := ⟨[], [], [], [], [], [], false, false⟩

/-- A list entry of matching (Table 9.9). -/
structure LEnt where
  kind : Nat
  anySrc : Bool
  lost : Bool
  slot : Option Nat
  rank : Nat
  tag : Nat
  ign : Nat
  len : Nat
  key : Nat
  off : Nat
  user : Nat
  msn : Nat
  peer : Nat
  postq : Nat
  consumed : Bool
  deriving DecidableEq, Repr

/-- An event for an ML's engine (R299): a header that enters matching, with the data of an in-order MSG_EAGER still at
ejection; a RECV or a CANCEL of a queue's entry. -/
inductive MEv where
  | header (e : LEnt) (data : Option Bytes)
  | recv (q idx : Nat)
  | cancel (q idx : Nat)
  deriving DecidableEq, Repr

/-- A match list (R284 to R287): its owner and descriptor, its engine, the on-chip and spilled parts of both lists oldest
first, held headers with their queue, used slots, events in order, the spilled entry from which the first one waits for a read of
its ring, the ring index of the head of each spill ring, a
delivery from a slot that waits for its data (the posted entry and the message), and whether the first event, its search ended,
waits for a ring place or for room for its completion (R250, R302). -/
structure Ml where
  fn : Fn
  d : Bytes
  engine : Nat
  broken : Bool
  posted : List LEnt
  postedSpill : List LEnt
  unexp : List LEnt
  unexpSpill : List LEnt
  held : List LEnt
  slots : List Nat
  events : List MEv
  reading : Option Nat
  pHead : Nat
  uHead : Nat
  fromSlot : List (LEnt × LEnt)
  waits : Bool
  deriving DecidableEq, Repr

/-- A rendezvous transfer (R304): the ML, the queue on which its RTS arrived, the receive and the RTS, TAKEN, the status of
the receive, whether a tracker holds it, the pieces left to answer, whether it is over, whether its MSG_FIN was sent, and the
rendezvous engine of its tracker (R398). -/
structure Rdv where
  id : Nat
  ml : Nat
  q : Nat
  post : LEnt
  rts : LEnt
  taken : Nat
  st : Nat
  started : Bool
  left : Nat
  over' : Bool
  sent : Bool
  engine : Nat
  deriving DecidableEq, Repr

/-- An ML command in progress (MAT_ML_CMD). -/
structure MlCmd where
  fn : Fn
  ml : Nat
  deriving DecidableEq, Repr

/-- Message matching beside its registers (09_message_matching.md): MLs that are not FREE, commands whose descriptor is
being read, rendezvous transfers in order, the next identifier, MAT_LIST_FULL in this Beat, RECVs and CANCELs in the order in which
the device took them (R299), and descriptors whose key checks wait for page entries (R260), by ML. -/
structure Mat where
  mls : Tab Ml
  cmds : List MlCmd
  rdvs : List Rdv
  nextRdv : Nat
  fullLogged : Bool
  taken : List (Nat × Nat)
  checking : List (Nat × Bytes)
  deriving DecidableEq, Repr

def Mat.init : Mat := ⟨[], [], [], 0, false, [], []⟩

/-- A chunk held from a child or from the parent (R206): direction, child, OP_SEQ, chunk index, and what the packet says
of its operation. -/
structure Chunk where
  up : Bool
  child : Nat
  seq : Nat
  c : Nat
  opcode : Nat
  typeop : Nat
  exact' : Bool
  count : Nat
  b : Bytes
  deriving DecidableEq, Repr

/-- An open collective operation (R202, R204): its entry, OP_SEQ and operation block; own chunks read and the next to read;
chunks combined (for a BARRIER the children that arrived), combined chunks that wait to be sent up, and chunks sent up; at
the root the elements rounded from records and the result chunks; the result chunks written (received, where nothing is
written), the (chunk, child) pairs passed on; and whether its entry has ended with CF_DOWNs still to send. -/
structure COp where
  q : Nat
  idx : Nat
  seq : Nat
  blk : Bytes
  own : Tab Bytes
  nextRead : Nat
  comb : List Nat
  acc : Tab Bytes
  sent : List Nat
  elems : Tab Nat
  res : Tab Bytes
  done : List Nat
  passed : List (Nat × Nat)
  ended : Bool
  deriving DecidableEq, Repr

/-- A tree that is loaded (R195): its descriptor, UP credits, DOWN credits by child, the OP_SEQs of the DOWN chunks not yet
credited by child, open operations oldest first, held chunks, Beats without progress (R210) and whether there was progress in
this Beat, whether an abort was forwarded in this epoch (R201), the next OP_SEQ, and the credits freed and not yet returned by
neighbour (R198). -/
structure Tree where
  d : Bytes
  upCred : Nat
  downCred : Tab Nat
  outDown : Tab (List Nat)
  ops : List COp
  chunks : List Chunk
  quiet : Nat
  moved : Bool
  aborted : Bool
  nextSeq : Nat
  freed : Tab Nat
  deriving DecidableEq, Repr

/-- Delta multicast and Confluence beside their registers (06_multicast_and_confluence.md): loaded trees, the tree
command whose descriptor is being read, and the root's MC_PUT bucket (R189). -/
structure Mct where
  trees : Tab Tree
  cmd : Option (Fn × Nat)
  bucket : Int
  deriving DecidableEq, Repr

def Mct.init : Mct := ⟨[], none, 0⟩

/-- A coherence request at its home (R325): sender, TXID with TXGEN, kind (0 RD_S, 1 RD_X, 2 UPG, 3 ATOM), AOP byte and
operands, RESENT, and its home entry. -/
structure CReq where
  mid : Nat
  txid : Nat
  kind : Nat
  aop : Nat
  ops : Bytes
  resent : Bool
  htx : Nat
  deriving DecidableEq, Repr

/-- An open transaction of a line (Table 10.5): state (0 ACK_W, 1 FWD_W, 2 CMP_W, 3 REC), its request (kinds 0 to 3 as a
request; recalls: 4 SnpInv, 5 SnpData or SnpCur, 7 directory victim), members whose INV_ACK is awaited, whether FWD_ACK of
the owner, COMP and the host read are awaited, data at hand with its poison, KEPT, whether the forward was FWD_X, whether
the grant is GRANT_X, the Beat of opening, members that leave the pending sharer vector by EVICT or DECLARE_DEAD, and whether it
fails and only the host copy for its requester is awaited (R333). -/
structure HTx where
  st : Nat
  mid : Nat
  txid : Nat
  htx : Nat
  kind : Nat
  aop : Nat
  ops : Bytes
  invs : List Nat
  owner : Nat
  fwd : Bool
  comp : Bool
  read : Bool
  data : Option (Bytes × Bool)
  kept : Bool
  fwdX : Bool
  grantX : Bool
  opened : Nat
  left : List Nat
  doomed : Bool
  deriving DecidableEq, Repr

/-- A line at its home (R319, R327): sharers, owner, whether it takes a way of the directory cache, its last use, its open
transaction, waiting snoops of the host (4 SnpInv, 5 other) and waiting requests. -/
structure Dir where
  sharers : List Nat
  owner : Option Nat
  way : Bool
  lastUse : Nat
  tx : Option HTx
  snoops : List Nat
  waiting : List CReq
  deriving DecidableEq, Repr

def Dir.unc : Dir := ⟨[], none, false, 0, none, [], []⟩

/-- A host request on a window (Table 10.1): its line, port, tag and host address; kind 0 MemRd, 1 MemWr, 2 MemWrPtl;
MetaValue 0 Invalid, 1 Shared, 2 Any; its data and, for MemWrPtl, the mask of its bytes. -/
structure WReq where
  line : Nat
  port : Nat
  tag : Nat
  hpa : Nat
  kind : Nat
  meta' : Nat
  data : Bytes
  mask : Nat
  deriving DecidableEq, Repr

/-- A forward or invalidation recorded at an agent's line (R326): 0 FWD_S, 1 FWD_X, 2 INV; REQ_MID, TXID, HTX, HOMEREQ. -/
structure CFwd where
  kind : Nat
  mid : Nat
  txid : Nat
  htx : Nat
  homereq : Bool
  deriving DecidableEq, Repr

/-- Agent line states (Table 10.2). -/
inductive LState | i | s | m | isd | imd | sma | mia | mif | ia
  deriving DecidableEq, Repr

/-- A line of the window cache (R318): state, data, POISON, HOST (0 none, 1 shared, 2 any), the port and host address of
its host, its open TXID, a recorded forward, whether a BISnp is outstanding or was answered for it, INV_SEEN, whether it is a victim, whether it is
dropped for a dead home, its last use. -/
structure CLine where
  st : LState
  data : Bytes
  poison : Bool
  host : Nat
  port : Nat
  hpa : Nat
  tx : Option Nat
  fwd : Option CFwd
  snp : Bool
  snooped : Bool
  invSeen : Bool
  vict : Bool
  dead : Bool
  lastUse : Nat
  deriving DecidableEq, Repr

/-- A TXID in use (R323): its line, kind (0 RD_S, 1 RD_X, 2 UPG, 3 ATOM, 4 WB, 5 EVICT), TXGEN, the Beat from which its timer
runs, resends, whether it is held after a RETRY, and the RMA atomic it carries (queue, PSN). -/
structure ATx where
  line : Nat
  kind : Nat
  gen : Nat
  timer : Nat
  resends : Nat
  held : Bool
  atom : Option (Nat × Nat)
  deriving DecidableEq, Repr

/-- A home entry reserved for a granted credit (R329): its line, request and Beat. -/
structure Credit where
  line : Nat
  mid : Nat
  txid : Nat
  htx : Nat
  beat : Nat
  deriving DecidableEq, Repr

/-- Coherence beside its registers (10_coherent_domains.md): directory lines by DA/64, the retry list (member, TXID, line),
credits, window cache lines by DA/64, TXIDs in use and the TXGEN of each, host requests that wait, committed HDM decoders
by 8 × port + decoder (base, size), the DECLARE_DEAD walk (member, lines poisoned, commander), the lines written back by a FLUSH in
progress, and what was logged in this Beat (COH_PROTO for windows, COH_NOT_MEMBER by node). -/
structure Coh where
  dir : Tab Dir
  retry : List (Nat × Nat × Nat)
  credits : List Credit
  lines : Tab CLine
  txs : Tab ATx
  gens : Tab Nat
  wait : List WReq
  hdm : Tab (Nat × Nat)
  walk : Option (Nat × Nat × Nat)
  flush : Option Nat
  protoLogged : Bool
  notLogged : List Nat
  clock : Nat
  deriving DecidableEq, Repr

def Coh.init : Coh := ⟨[], [], [], [], [], [], [], [], none, none, false, [], 0⟩

/-- A Peg (R344, R352): its holder's OWNER, GRANTS, the marks that await delivery, and its waiters in order, each with
whether it is a stalled read (otherwise a watch). -/
structure PegSt where
  holder : Option Nat
  grants : Nat
  abandoned : Bool
  forced : Bool
  waiters : List (Fn × Bool)
  deriving DecidableEq, Repr

def PegSt.init : PegSt := ⟨none, 0, false, false, []⟩

/-- A code word of an SRAM region (R357): its data as written, the data and check bits that differ from what was written,
whether it is poisoned (R360), whether a corrected write-back waits (R361), and what it holds. -/
structure EWord where
  data : Nat
  dflip : Nat
  cflip : Nat
  poison : Bool
  wb : Bool
  obj : Option EObj
  deriving DecidableEq, Repr

/-- Stored data protection beside its registers (12_stored_data_protection.md): words that are known, by region × 2^23 +
index; the scrubber's next word and the Beats of the lap by region; held window halves (requester, unit, data); regions
whose descriptor is fetched again (Table 12.3); and, by bit, the SRAM regions that units may have written since BIST (R415). -/
structure Ecc where
  words : Tab EWord
  pos : Tab Nat
  beats : Tab Nat
  halves : List (Who × Nat × Nat)
  refetch : List Nat
  used : Nat
  deriving DecidableEq, Repr

def Ecc.init : Ecc := ⟨[], [], [], [], [], 0⟩

/-- A host access that waits for a wake (R393): a write to a BAR, bytes for a push window, reads of a register, of a status register of a
doorbell page (R228), of RMA_QINFO and of a Peg (PEG_TRY or PEG_TAKE), a CXL.mem request and a CXL.cache snoop. -/
inductive Asleep where
  | write (f : Fn) (bar : Bar) (a size w : Nat)
  | push (f : Fn) (n o : Nat) (b : Bytes)
  | read (f : Fn) (r : Reg) (i cycle sub : Nat) (whole : Bool)
  | status (f : Fn) (n what : Nat) (whole : Bool)
  | qinfo (f : Fn) (whole : Bool)
  | peg (f : Fn) (j : Nat) (try' whole : Bool)
  | mem (port tag hpa kind mv : Nat) (data : Bytes) (mask : Nat)
  | snoop (k addr : Nat) (inv : Bool)
  deriving DecidableEq, Repr

/-- The attachment through which it came; CXL traffic of a host port is its lower attachment's. -/
def Asleep.pf : Asleep → Nat
  | .write f .. | .push f .. | .read f .. | .status f .. | .qinfo f .. | .peg f .. => match f with
    | .pf p => p.val
    | .vf p _ => p.val
  | .mem port .. => 2 * port
  | .snoop k .. => 2 * k

/-- Power beside its registers (14_power_thermal_wear.md): boundaries for which the idle conditions of P2, P3 and P4 have
held, bays with an event in the last Beat and bays clock-gated, the tolerance last judged, LTR of each PF (enable, snoop and
no-snoop latency in ns), the error before of each loop (AVS islands 0 to 3, engine 4, Eddy 5, bias 6, estimator 7), the
queue average before (R397), P_FILT in W, the voltage last sent to each regulator, each island's own and the last one at which its regulator is known to have settled (R399), islands whose PWR_AVS_LIMIT is logged, quiet Beats of
auto ports, the moves that the placement loop has decided and that have not committed (function, object, engine), a P_FILT
that has not committed (R27), whether P_FILT has reached ENV_EFF and not fallen 10 W below it since (R401), the attachments
in L1, bit by bit (Table 14.1), the busy shares that the placement loop computed last (function of R65, engine, share; R398), and the
host accesses that wait for a wake, in order (R393). -/
structure Pwr where
  idle2 : Nat
  idle3 : Nat
  idle4 : Nat
  bays : Nat
  gated : Nat
  tol : Nat
  ltr : Tab (Bool × Nat × Nat)
  prev : Tab Int
  qPrev : Nat
  filt : Rat
  volt : Tab Nat
  isl : Tab Nat
  good : Tab Nat
  limitLogged : Nat
  quiet : Tab Nat
  moves : List (Nat × Nat × Nat)
  filtNext : Option Rat
  barred : Bool
  l1 : Nat
  busy : List (Nat × Nat × Nat)
  waits : List Asleep
  deriving DecidableEq, Repr

def Pwr.init : Pwr := ⟨0, 0, 0, 0, 0, 0, [], [], 0, 0, [], [], [], 0, [], [], none, false, 0, [], []⟩

/-- One input of the Grain monitor (R403): its daily means, oldest first, the sum and number of samples of the day, and
whether GRN_MONITOR_ERR is logged for it. -/
structure GrnIn where
  points : List Rat
  sum : Nat
  n : Nat
  bad : Bool
  deriving DecidableEq, Repr

def GrnIn.init : GrnIn := ⟨[], 0, 0, false⟩

/-- The Grain monitor beside its registers: boundaries since the last sample, its inputs, whether GRN_EOL_WARN and
GRN_SPARES_LOW are logged, and the spare elements that the last BIST used (R415). -/
structure Grn where
  since : Nat
  ins : Tab GrnIn
  warned : Bool
  spares : Bool
  repairs : Nat
  deriving DecidableEq, Repr

def Grn.init : Grn := ⟨0, [], false, false, 0⟩

/-- What leaves the device, in the order in which it leaves. From a TAP instruction on that takes the output pins (R441), `scanPins` tells
what they show: a boundary register, or nothing where they are tri-stated. A lane of a port sends symbols, so many times over, or PRBS13 from a
register of all ones for a number of bits at a step (R88). -/
inductive Out where
  | mbxResp (dst : Mbx) (msg : Bytes)
  | mctpResp (dst : Nat) (cc : Nat) (data : List Nat)
  | regValue (dst : Who) (v : Nat)
  | pegValue (fn : Fn) (peg v : Nat)
  | aer (host : Nat)
  | jtag (instr dr : Nat)
  | scanPins (drive : Option Nat)
  | wire (port lane times : Nat) (l : List Level)
  | prbs13 (port lane step bits : Nat)
  | hostRead (fn : Fn) (addr len : Nat)
  | hostWrite (fn : Fn) (addr : Nat) (b : Bytes)
  | hostAtomic (fn : Fn) (addr aop size op0 op1 : Nat)
  | msix (fn : Fn) (vector addr data : Nat)
  | cacheReq (port op addr : Nat) (b : Bytes) (poison : Bool)
  | snpRsp (port addr rsp : Nat) (b : Bytes)
  | biSnp (port addr : Nat) (inv : Bool)
  | memData (port tag : Nat) (b : Bytes) (poison : Bool)
  | memCmp (port tag : Nat)
  | hdmCommit (port d : Nat) (ok : Bool)
  | avsBus (island volt : Nat)
  deriving DecidableEq, Repr

/-- Work that an occurrence or a unit hands to another unit, carried out before the command ends. -/
inductive Act where
  | occ (o : Occ)
  | contain (scope inst src : Nat)
  | notify (pf detail inst : Nat)
  | spillway
  | deviceReset
  | portDead (port : Nat)
  | linkUp (port : Nat)
  | credit (port : Nat) (b : Bytes)
  | laneMgmt (port : Nat) (b : Bytes)
  | xchg (port : Nat) (resp : Bool) (m : Xchg) (stamp : Nat)
  | run (q : Nat)
  | queueError (q : Nat)
  | queueFreed (q : Nat)
  | ctxReady (q : Nat)
  | rdvAnswer (id : Nat)
  deriving DecidableEq, Repr

/-- The whole state: the values in effect of the registers by field, function instance and index (a field that is not listed
holds its reset value), the shadow, work of the command in progress, what has left the device, the count of free values
used, the Beat unit, the loader, the pins, boot, links, bring-up and lanes by number, ports held off by a Contain (R144),
whole packets at input staging, the router, the units of the later chapters, engines out of service, the boundaries of the
escalation window (R376), and the commands that wait. -/
structure State where
  regs : Tab Nat
  shadow : Tab Shade
  acts : List Act
  out : List Out
  free : Nat
  bea : Bea
  trs : Trs
  pins : Pins
  boot : Boot
  lnk : Tab Link
  ser : Tab SerPort
  lane : Tab LaneSt
  portOff : Nat
  arrived : List (Nat × Bytes)
  rte : Rte
  hif : Hif
  rma : Rma
  mat : Mat
  mct : Mct
  coh : Coh
  peg : Tab PegSt
  ecc : Ecc
  pwr : Pwr
  grn : Grn
  enginesDown : List Nat
  escBeats : Nat
  pending : List Instr
  deriving DecidableEq, Repr

/-- The loader with flash erased and no fuse blown (log entry 38). -/
def Trs.init : Trs := ⟨[], [], 0, none, none, none, none, none⟩

/-- The device without power good: PWROK low, a cold reset in progress (R407, R422), every register at its reset value. -/
def State.reset : State :=
  { regs := [], shadow := [], acts := [], out := [], free := 0, bea := Bea.init, trs := Trs.init, pins := Pins.init, boot := Boot.init, lnk := []
    ser := [], lane := [], portOff := 0, arrived := [], rte := Rte.init, hif := Hif.init, rma := Rma.init, mat := Mat.init
    mct := Mct.init, coh := Coh.init, peg := [], ecc := Ecc.init, pwr := Pwr.init, grn := Grn.init, enginesDown := []
    escBeats := 0, pending := [] }

/-- Why a step stops with a fault: no rule of the spec stops the block, so no meaning raises one. -/
inductive Fault
  deriving DecidableEq, Repr

/-- Why a command is refused by the model. -/
inductive Refusal
  /-- Raised by the arm of a command that has no meaning yet; safe. -/
  | notModelled (mnemonic : String)
  deriving DecidableEq, Repr

end Sys2Proof.Machine
end

