-- ==== Sys2Proof/Machine/Ops.lean ====
section
/-! DEFINITION. The named operations over registers, shadows, free values and outputs. -/

namespace Sys2Proof.Machine

/-- The number of a register, in the order of the map. -/
def Reg.code (r : Reg) : Nat := r.ctorIdx

/-- The key of one field of one instance: register, lowest bit, function instance, index. -/
def fkey (F : Fld) (inst i : Nat) : Nat := Nat.pair (Nat.pair F.reg.code F.lo) (Nat.pair inst i)

/-- Default gains of the Scribe loops (Table 14.3): GAIN_P, GAIN_I, STEP_LIMIT of loop `k`. -/
def gainDefault (k : Nat) : Nat × Nat × Nat :=
  [(0x40, 0x20, 4), (0x10, 0x08, 1), (0x08, 0x04, 4), (0x80, 0x40, 16), (0x100, 0x40, 32), (0x100, 0, 1), (0x100, 0x20, 8)].getD k
    (0, 0, 0)

/-- V_NOM, V_MIN and V_MAX of a voltage island (Table 14.4). -/
def island (i : Nat) : Nat × Nat × Nat := [(300, 260, 340), (300, 260, 340), (320, 288, 352), (300, 272, 328)].getD i (0, 0, 0)

/-- The limits of the Grain inputs (Table 14.7), as far as they are constants (log entry 34). -/
def grainLimit (i : Nat) : Nat := [60000, 40, 48, 1000, 20000].getD i 0

/-- The reset value of a field (its register table, or the table that the entry names). -/
def rstOf (F : Fld) (i : Nat) : Nat :=
  match F.reg with
  | .FLT_RICH_ASSIGN => richDefault i
  | .FLT_SEV =>
    if F.lo = 62 then b2n (srcIntegrity i)
    else if F.lo = 58 then srcScope i
    else if F.lo = 56 then srcDefault i
    else if F.lo = 48 then b2n (srcAssigned i)
    else if F.lo = 32 then srcDefault i
    else F.rst
  | .PWR_LOOP_GAIN =>
    if F.lo = 0 then (gainDefault i).1
    else if F.lo = 16 then (gainDefault i).2.1
    else if F.lo = 32 then (gainDefault i).2.2
    else F.rst
  | .PWR_AVS =>
    if F.lo = 32 then (island i).2.2 else if F.lo = 16 then (island i).2.1 else if F.lo = 0 then (island i).1 else F.rst
  | .PWR_AVS_OVERRIDE => if F.lo = 0 then (island i).1 else F.rst
  | .GRN_INPUT => if F.lo = 20 then grainLimit i else F.rst
  | _ => F.rst

/-- The value in effect of field `F`, function instance `inst`, index `i`. -/
def State.rdI (s : State) (F : Fld) (inst i : Nat) : Nat := tabGetD s.regs (fkey F inst i) (rstOf F i)

/-- Set the value in effect of a field; the value keeps the field's width. -/
def State.wrI (s : State) (F : Fld) (inst i v : Nat) : State :=
  { s with regs := tabSet s.regs (fkey F inst i) (rstOf F i) (v % 2 ^ F.w) }

/-- The value in effect of a field of a shared register, index `i`. -/
def State.rd (s : State) (F : Fld) (i : Nat := 0) : Nat := s.rdI F 0 i

/-- Set the value in effect of a field of a shared register. -/
def State.wr (s : State) (F : Fld) (v : Nat) (i : Nat := 0) : State := s.wrI F 0 i v

/-- A one-bit field as a flag. -/
def State.on (s : State) (F : Fld) (i : Nat := 0) : Bool := s.rd F i == 1

/-- Count one more in a saturating field. -/
def State.inc (s : State) (F : Fld) (i : Nat := 0) (k : Nat := 1) : State := s.wr F (satAdd F.w (s.rd F i) k) i

/-- Count one more in a saturating field of a function instance. -/
def State.incI (s : State) (F : Fld) (inst i : Nat) (k : Nat := 1) : State :=
  s.wrI F inst i (satAdd F.w (s.rdI F inst i) k)

/-- The shadow value of a field: the staged one, or the one in effect (R32, R447). -/
def State.shadowI (s : State) (F : Fld) (inst i : Nat) : Nat :=
  match tabGet s.shadow (fkey F inst i) with
  | some e => e.val
  | none => s.rdI F inst i

/-- The shadow value of a field of a shared register. -/
def State.shadowOf (s : State) (F : Fld) (i : Nat := 0) : Nat := s.shadowI F 0 i

/-- Stage a value of a B field (R18). -/
def State.stageI (s : State) (F : Fld) (inst i v : Nat) : State :=
  { s with shadow := tabPut s.shadow (fkey F inst i) ⟨F, inst, i, v % 2 ^ F.w⟩ }

/-- Stage a value of a B field of a shared register (R18). -/
def State.stage (s : State) (F : Fld) (v : Nat) (i : Nat := 0) : State := s.stageI F 0 i v

/-- Set the value in effect of a field of a shared register, whatever is staged for it. -/
def State.wrNow (s : State) (F : Fld) (v : Nat) (i : Nat := 0) : State :=
  { s.wr F v i with shadow := tabDel s.shadow (fkey F 0 i) }

/-- Stage a value that a per-Beat task computed, when it differs from the shadow value (R27). -/
def State.drive (s : State) (F : Fld) (v : Nat) (i : Nat := 0) : State :=
  if s.shadowOf F i = v % 2 ^ F.w then s else s.stage F v i

/-- The commit group of a field: the window index of its block. -/
def Fld.group (F : Fld) : Nat := F.reg.place.blk

/-- The staged values of commit group `g`. -/
def State.shades (s : State) (g : Nat) : List Shade :=
  (s.shadow.map (·.2)).filter (fun e => e.fld.group == g)

/-- The groups that have shadow writes of B fields, as the bits of BEA_COMMIT_PENDING; task results of read-only fields that wait
for the boundary (R27) are no writes. -/
def State.pendingGroups (s : State) : Nat :=
  (List.range 17).foldl (fun a g => if (s.shades g).any (fun e => e.fld.cls == .B) then a + 2 ^ g else a) 0

/-- Discard the shadow of a group (R34). -/
def State.dropShadow (s : State) (g : Nat) : State :=
  { s with shadow := s.shadow.filter (fun e => e.2.fld.group != g) }

/-- Take every field of a register, in all its instances, back to reset. -/
def State.resetReg (s : State) (r : Reg) : State :=
  { s with regs := s.regs.filter (fun e => (Nat.unpair (Nat.unpair e.1).1).1 != r.code) }

/-- Take one index of a register (function instance `inst`) back to reset. -/
def State.resetIdx (s : State) (r : Reg) (inst i : Nat) : State :=
  r.fields.foldl (fun s F => s.wrI F inst i (rstOf F i)) s

/-- The value of a whole register from its fields; reserved bits read zero (R14). -/
def State.word (s : State) (r : Reg) (inst i : Nat) : Nat :=
  r.fields.foldl (fun a F => a + s.rdI F inst i * 2 ^ F.lo) 0

/-- Emit something that leaves the device. -/
def State.emit (s : State) (o : Out) : State := { s with out := s.out ++ [o] }

/-- Post work for another unit. -/
def State.post (s : State) (a : Act) : State := { s with acts := s.acts ++ [a] }

/-- A free value below `n` (`n` positive) of the spec's open points, and the counter moved on (log entry 3). -/
def State.pick (s : State) (n : Nat) : Nat × State :=
  (Config.freeValue s.free % n, { s with free := s.free + 1 })

/-- An occurrence of a source on an instance. -/
def occ (src : Src) (inst : Nat := 0) : Occ := ⟨src.num, inst % 2 ^ 27, 0, 0, 0, false, 0, false⟩

/-- Raise an occurrence: the collector handles it before the command ends, in source order (R378). -/
def State.raiseOcc (s : State) (o : Occ) : State := s.post (.occ o)

/-- Raise a source on an instance. -/
def State.raise (s : State) (src : Src) (inst : Nat := 0) : State := s.raiseOcc (occ src inst)

/-- The device is in the Spillway state (R384). -/
def State.spill (s : State) : Bool := s.on F.FLT_STATUS.SPILLWAY

/-- The present Beat count. -/
def State.beat (s : State) : Nat := s.rd F.BEA_COUNT.COUNT

/-- Boot phases of Table 15.2. -/
abbrev phReset : Nat := 0
abbrev phRom : Nat := 1
abbrev phFirmware : Nat := 2
abbrev phBist : Nat := 3
abbrev phLoad : Nat := 4
abbrev phRunning : Nat := 5

/-- The boot phase in force. -/
def State.phase (s : State) : Nat := s.rd F.GLB_BOOT_STATUS.PHASE

/-- The device runs: PWROK high, phase RUNNING and not in the Spillway. -/
def State.live (s : State) : Bool := s.pins.pwrok && s.phase == phRunning && !s.spill

/-- GLB_FITTED of the variant (Table 0.6). -/
def fittedWord (variant : Nat) : Nat :=
  match variant with
  | 0 => 0x000000FFFF07FFFF
  | 1 => 0x00000000FF07EF7F
  | _ => 0x000000000007C07F

/-- Unit, host port or bay bit `u` of GLB_FITTED is set (R7). -/
def State.fitted (s : State) (u : Nat) : Bool := bit (fittedWord s.boot.variant) u

/-- The unit bits of GLB_FITTED (Table 0.5). -/
abbrev uGLB : Nat := 0
abbrev uTRS : Nat := 1
abbrev uBEA : Nat := 2
abbrev uSER : Nat := 3
abbrev uLNK : Nat := 4
abbrev uRTE : Nat := 5
abbrev uMCT : Nat := 6
abbrev uCONF : Nat := 7
abbrev uHIF : Nat := 8
abbrev uRMA : Nat := 10
abbrev uMAT : Nat := 11
abbrev uCOH : Nat := 12
abbrev uPEG : Nat := 13
abbrev uECC : Nat := 14
abbrev uFLT : Nat := 15
abbrev uPWR : Nat := 16
abbrev uGRN : Nat := 17
abbrev uFMN : Nat := 18

/-- The ENABLE field of a unit, where its chapter gives it one. -/
def enableFld (u : Nat) : Option Fld :=
  match u with
  | 3 => some F.SER_CTRL.ENABLE
  | 4 => some F.LNK_CTRL.ENABLE
  | 5 => some F.RTE_CTRL.ENABLE
  | 6 => some F.MCT_CTRL.ENABLE
  | 8 => some F.HIF_CTRL.ENABLE
  | 10 => some F.RMA_CTRL.ENABLE
  | 11 => some F.MAT_CTRL.ENABLE
  | 12 => some F.COH_CTRL.ENABLE
  | 13 => some F.PEG_CTRL.ENABLE
  | 14 => some F.ECC_CTRL.ENABLE
  | 16 => some F.PWR_CTRL.ENABLE
  | 17 => some F.GRN_CTRL.ENABLE
  | _ => none

/-- The unit bit of a commit group: MCT takes bit 6 and HIF bit 8 (R374). -/
def unitOfGroup (g : Nat) : Nat :=
  [0, 1, 2, 3, 4, 5, 6, 8, 10, 11, 12, 13, 14, 15, 16, 17, 18].getD g 0

/-- The unit named by bit 7 is that of bit 6, and by bit 9 that of bit 8 (R374, Table 15.11). -/
def unitNorm (u : Nat) : Nat := if u = 7 then 6 else if u = 9 then 8 else u

/-- The commit group of a unit bit. -/
def groupOfUnit (u : Nat) : Nat :=
  [0, 1, 2, 3, 4, 5, 6, 6, 7, 7, 8, 9, 10, 11, 12, 13, 14, 15, 16].getD u 0

/-- The unit's ENABLE is set. -/
def State.en (s : State) (u : Nat) : Bool :=
  match enableFld u with
  | some f => s.on f
  | none => true

/-- The unit is contained (R374, R415). -/
def State.isContained (s : State) (u : Nat) : Bool := bit s.boot.contained u

/-- The image in force, or no image, enables unit, host port or bay `u` (TRS_ENABLE). -/
def State.imageEnables (s : State) (u : Nat) : Bool := bit (s.rd F.TRS_ENABLE.ENABLE) u

/-- The body of a member of the image in force. -/
def State.member (s : State) (ty : Nat) : Option Bytes :=
  match s.trs.img with
  | some i => (i.members.find? (fun m => m.1 == ty)).map (·.2)
  | none => none

/-- The PORTS entry of a port (Table 2.6); zero with no image (R50). -/
def State.portEntry (s : State) (p : Nat) : Nat :=
  match s.member 0x8003 with
  | some b => leAt b (2 * p) 2
  | none => 0

/-- ROLE of a port: 0 unused, 1 local, 2 global, 3 host-facing. -/
def State.portRole (s : State) (p : Nat) : Nat := bits (s.portEntry p) 0 2
def State.portMaxWidth (s : State) (p : Nat) : Nat := bits (s.portEntry p) 2 2
def State.portMaxStep (s : State) (p : Nat) : Nat := bits (s.portEntry p) 4 2

/-- The node ID of the image in force (Table 2.5). -/
def State.nodeId (s : State) : Nat :=
  match s.member 0x8001 with
  | some b => bits (leAt b 0 4) 0 17
  | none => 0

/-- The number of groups of the machine (Table 2.5); 1 with no image. -/
def State.groups (s : State) : Nat :=
  match s.member 0x8001 with
  | some b => leAt b 4 2
  | none => 1

end Sys2Proof.Machine
end

