-- ==== Sys2Proof/Machine/Flags.lean ====
section
/-! DEFINITION. The fault collector (13_faults_and_spillway.md): sticky bits, counts, applied severity, escalation, rich
capture, notification, the FAULT_L output. -/

namespace Sys2Proof.Machine

/-- The sticky bit of a source. -/
def State.sticky (s : State) (n : Nat) : Bool := bit (s.rd F.FLT_STICKY.STICKY (n / 64)) (n % 64)

/-- The severity in effect of a source (R373): the fixed Halt of an integrity source, else SEV. -/
def State.baseSev (s : State) (n : Nat) : Nat :=
  if srcIntegrity n then sevHalt else s.rd F.FLT_SEV.SEV n

/-- The slot that a source holds in effect (R379). -/
def State.slotOf (s : State) (n : Nat) : Option Nat :=
  (List.range 16).find? (fun k => s.rd F.FLT_RICH_ASSIGN.SOURCE k == n)

/-- Fill a free slot, or mark a valid one MULTI (R380). A forced occurrence has ADDR and INFO zero (R381). -/
def State.capture (s : State) (o : Occ) (sev : Nat) : State :=
  match s.slotOf o.src with
  | none => s
  | some k =>
    if s.on F.FLT_RICH_META.VALID k then s.wr F.FLT_RICH_META.MULTI 1 k
    else
      let s := s.wr F.FLT_RICH_META.VALID 1 k
      let s := s.wr F.FLT_RICH_META.FORCED (b2n o.forced) k
      let s := s.wr F.FLT_RICH_META.STATE (s.rd F.BEA_STATUS.STATE) k
      let s := s.wr F.FLT_RICH_META.SEV sev k
      let s := s.wr F.FLT_RICH_META.ACCESS o.access k
      let s := s.wr F.FLT_RICH_META.REMOTE (b2n o.remote) k
      let s := s.wr F.FLT_RICH_META.INITIATOR o.init k
      let s := s.wr F.FLT_RICH_META.SOURCE o.src k
      let s := s.wr F.FLT_RICH_META.INSTANCE o.inst k
      let s := s.wr F.FLT_RICH_ADDR.ADDR (if o.forced then 0 else o.addr) k
      let s := s.wr F.FLT_RICH_INFO.INFO (if o.forced then 0 else o.info) k
      s.wr F.FLT_RICH_BEAT.BEAT s.beat k

/-- Free a slot: VALID and MULTI clear (Table 13.16). -/
def State.freeSlot (s : State) (k : Nat) : State :=
  (s.wr F.FLT_RICH_META.VALID 0 k).wr F.FLT_RICH_META.MULTI 0 k

/-- Clear a slot that is reassigned (R379). -/
def State.clearSlot (s : State) (k : Nat) : State :=
  (((s.resetIdx .FLT_RICH_META 0 k).resetIdx .FLT_RICH_ADDR 0 k).resetIdx .FLT_RICH_INFO 0 k).resetIdx .FLT_RICH_BEAT 0 k

/-- Whether an occurrence escalates, where it is not replaced by the Spillway (R376): one that would be handled at
Mend, on a source whose ESC_DIS is clear and whose scope is not none, with WIN_COUNT at or above ESC_COUNT. -/
def State.mayEscalate (s : State) (n : Nat) : Bool :=
  s.baseSev n == sevMend && !s.on F.FLT_SEV.ESC_DIS n && srcScope n != 0

/-- Record one occurrence (R373, R376, R377, R380, R382). Where the loader rejects an image it discards it there (R79); only a forced
occurrence has the image still to contain. `stopped` holds when the Spillway, or a Halt of the same
cycle, replaces every other action (R378). -/
def State.record (s : State) (stopped : Bool) (o : Occ) : State :=
  let n := o.src
  if !srcAssigned n then s else
  let handling := s.sticky n
  let s := if handling then s.wr F.FLT_SEV.MULTI 1 n else s
  let s := s.wr F.FLT_STICKY.STICKY (setBit (s.rd F.FLT_STICKY.STICKY (n / 64)) (n % 64)) (n / 64)
  let s := s.inc F.FLT_SEV.COUNT n
  let esc := !stopped && s.mayEscalate n
  let escal := esc && decide (s.rd F.FLT_THRESH.ESC_COUNT ≤ s.rd F.FLT_SEV.WIN_COUNT n)
  let sev := if escal then sevContain else s.baseSev n
  let s := if escal then s.inc F.FLT_STATUS.ESCALATIONS
           else if esc then s.inc F.FLT_SEV.WIN_COUNT n else s
  let s := s.wr F.FLT_SEV.LAST_SEV sev n
  let s := if n = Src.FLT_SELF.num then s else s.capture o sev
  if stopped then s else
  let det := n + 512 * sev + 2048 * b2n handling + 4096 * b2n escal + 8192 * b2n o.forced
  let s := foldS [0, 1, 2, 3] s (fun s p =>
    if s.rdI F.FLT_NOTIFY.VALID p 0 = 1 ∧ s.rdI F.FLT_NOTIFY.MIN_SEV p 0 ≤ sev then s.post (.notify p det o.inst) else s)
  if sev = sevContain ∧ srcScope n ≠ 0 ∧ (srcScope n ≠ 7 ∨ o.forced) then s.post (.contain (srcScope n) o.inst n) else s

/-- Enter the Spillway (R384, R389): FLT_STATUS, then the work of Table 13.5. -/
def State.enterSpill (s : State) (source : Nat) (sw self : Bool) : State :=
  if s.spill then s else
  let s := s.wr F.FLT_STATUS.SPILLWAY 1
  let s := s.wr F.FLT_STATUS.SPILL_SOURCE source
  let s := s.wr F.FLT_STATUS.SW_SPILL (b2n sw)
  let s := s.wr F.FLT_STATUS.SELF (b2n self)
  s.post .spillway

/-- Insert an occurrence in source order. -/
def insertOcc (o : Occ) : List Occ → List Occ
  | [] => [o]
  | x :: r => if o.src < x.src then o :: x :: r else x :: insertOcc o r

/-- The collector's work on the occurrences of one command, in ascending source order (R378); a Halt among them enters
the Spillway with the lowest such source (Table 13.9). -/
def State.collect (s : State) (os : List Occ) : State :=
  let os := os.foldl (fun l o => insertOcc o l) []
  let halts := os.filter (fun o => s.baseSev o.src == sevHalt && srcAssigned o.src)
  let others := s.spill || !halts.isEmpty
  let s := foldS os s (fun s o => s.record (others && !(halts.any (fun h => h.src == o.src) && !s.spill)) o)
  match halts with
  | [] => s
  | h :: _ => s.enterSpill h.src false (h.src == Src.FLT_SELF.num)

/-- The occurrences that wait for the collector are handled before what follows in the same command: each takes the
severity and the slots in effect in its own cycle (R373). -/
def State.collectNow (s : State) : State :=
  let os := s.acts.filterMap (fun a => match a with | .occ o => some o | _ => none)
  State.collect { s with acts := s.acts.filter (fun a => match a with | .occ _ => false | _ => true) } os

/-- FAULT_L is asserted (R383): in the Spillway, or while a source whose sticky bit is set has a LAST_SEV at or above
PIN_LEVEL. It is released with PWROK low (R407); the collector holds no occurrence before one is raised (R433). HIGHZ releases it, and
the other instructions that take the pins drive it from the boundary register (R441). -/
def State.faultL (s : State) : Bool :=
  s.pins.pwrok && decide (s.boot.jtag < 3) && (s.spill || (List.range 480).any (fun n =>
    s.sticky n && decide (s.rd F.FLT_CTRL.PIN_LEVEL ≤ s.rd F.FLT_SEV.LAST_SEV n)))

/-- A new escalation window: every WIN_COUNT clears (R376). -/
def State.clearWindows (s : State) : State :=
  foldS (List.range 480) s (fun s n => if s.rd F.FLT_SEV.WIN_COUNT n = 0 then s else s.wr F.FLT_SEV.WIN_COUNT 0 n)

end Sys2Proof.Machine
end

