-- ==== Sys2Proof/Machine/Packet.lean ====
section
/-! DEFINITION. Packets as runs of bytes: framing, the routing word and the frame word (Tables 5.2 and 5.3), lengths and
the trailer CRC (R152 to R155). -/

namespace Sys2Proof.Machine

/-- The routing word (header bytes 0 to 7) and the frame word (bytes 8 to 11). -/
def pkRoute (b : Bytes) : Nat := leAt b 0 8
def pkFrame (b : Bytes) : Nat := leAt b 8 4

def pkDst (b : Bytes) : Nat := bits (pkRoute b) 0 17
def pkSrc (b : Bytes) : Nat := bits (pkRoute b) 17 17
def pkVn (b : Bytes) : Nat := bits (pkRoute b) 34 3
def pkHc (b : Bytes) : Nat := bits (pkRoute b) 37 2
def pkIng (b : Bytes) : Nat := bits (pkRoute b) 39 9
def pkPh (b : Bytes) : Nat := bits (pkRoute b) 48 2
def pkMark (b : Bytes) : Bool := bit (pkRoute b) 50
def pkEcho (b : Bytes) : Bool := bit (pkRoute b) 51
def pkTc (b : Bytes) : Nat := bits (pkRoute b) 52 3
def pkLong (b : Bytes) : Bool := bit (pkRoute b) 55
def pkMcast (b : Bytes) : Bool := bit (pkRoute b) 56
def pkAge (b : Bytes) : Nat := bits (pkRoute b) 57 5
def pkKind (b : Bytes) : Nat := bits (pkFrame b) 0 8
def pkPwords (b : Bytes) : Nat := bits (pkFrame b) 8 10

/-- Replace bits `lo + w - 1` to `lo` of a number. -/
def putBits (x lo w v : Nat) : Nat := x - bits x lo w * 2 ^ lo + (v % 2 ^ w) * 2 ^ lo

/-- Replace a field of the routing word. -/
def pkSet (b : Bytes) (lo w v : Nat) : Bytes := putBytes b 0 (leBytes 8 (putBits (pkRoute b) lo w v))

/-- The length of the packet whose header stands at the front: none while the frame word has not arrived; zero when
LONG and PWORDS give no length of R153 (R154). -/
def pkLength (b : Bytes) : Option Nat :=
  if b.length < 12 then none
  else if pkLong b then (if 8 ≤ pkPwords b ∧ pkPwords b ≤ 512 then some (40 + 8 * pkPwords b) else some 0)
  else if pkPwords b ≤ 4 then some 64 else some 0

/-- The payload of a whole packet. -/
def pkPayload (b : Bytes) : Bytes := (b.drop 32).take (8 * pkPwords b)

/-- The trailer CRC of a long packet holds (R153). -/
def pkCrcOk (b : Bytes) : Bool :=
  !pkLong b || leAt b (32 + 8 * pkPwords b) 4 == crc32 ((b.drop 8).take (24 + 8 * pkPwords b))

/-- A packet of the device's own: routing fields, frame word bits 31 to 18 (`hi`), header bytes 12 to 31 and payload.
It is short when its payload fits 32 bytes and `long` does not ask for a long one. -/
def mkPacket (dst src vn tc : Nat) (kind hi : Nat) (hdr : Bytes) (payload : Bytes) (long : Bool := false)
    (mcast : Bool := false) : Bytes :=
  let pw := (payload.length + 7) / 8
  let lg := long || decide (4 < pw)
  let route := dst % 2 ^ 17 + (src % 2 ^ 17) * 2 ^ 17 + vn * 2 ^ 34 + tc * 2 ^ 52 + b2n lg * 2 ^ 55 + b2n mcast * 2 ^ 56
  let h := leBytes 8 route ++ leBytes 4 (kind + pw * 256 + hi * 2 ^ 18) ++ (hdr ++ List.replicate 20 0).take 20
  let body := payload ++ List.replicate (8 * pw - payload.length) 0
  if lg then h ++ body ++ leBytes 4 (crc32 (h.drop 8 ++ body)) ++ leBytes 4 0
  else h ++ (body ++ List.replicate 32 0).take 32

/-- Cut whole packets off the front of a byte stream: packets, the rest, and whether a header broke R154. -/
def cutPackets : Nat → Bytes → List Bytes × Bytes × Bool
  | 0, b => ([], b, true)
  | n + 1, b =>
    match pkLength b with
    | none => ([], b, true)
    | some 0 => ([], b, false)
    | some l => if b.length < l then ([], b, true) else
      match cutPackets n (b.drop l) with
      | (ps, r, ok) => (b.take l :: ps, r, ok)

end Sys2Proof.Machine
end

