-- ==== Sys2Proof/Machine/Link.lean ====
section
/-! DEFINITION. Lane states and the link layer (03_lanes.md Table 3.4, 04_link_layer.md): fencing, sequencing,
acknowledgement, replay, transmit order, receive decisions. -/

namespace Sys2Proof.Machine

/-- SER_PORT_STATUS.STATE codes. -/
abbrev serOff : Nat := 0
abbrev serDetect : Nat := 1
abbrev serCaps : Nat := 2
abbrev serTrain : Nat := 3
abbrev serActive : Nat := 4
abbrev serWait : Nat := 5
abbrev serTest : Nat := 6

/-- LNK_PORT_STATUS.STATE codes. -/
abbrev lnkDown : Nat := 0
abbrev lnkInit : Nat := 1
abbrev lnkUp : Nat := 2
abbrev lnkFencing : Nat := 3

/-- LAST_REASON codes (Table 4.11). -/
abbrev rsUncorr : Nat := 1
abbrev rsReplay : Nat := 2
abbrev rsNoprog : Nat := 3
abbrev rsInit : Nat := 4
abbrev rsProto : Nat := 5
abbrev rsLanes : Nat := 6
abbrev rsPeerFence : Nat := 7
abbrev rsLocalFence : Nat := 8

/-- FENCE reasons (Table 4.8). -/
abbrev fnRestart : Nat := 1
abbrev fnStep : Nat := 2
abbrev fnTest : Nat := 3
abbrev fnPowerDown : Nat := 4
abbrev fnPortReset : Nat := 5
abbrev fnSerOff : Nat := 6
abbrev fnLnkOff : Nat := 7
abbrev fnRteReset : Nat := 8
abbrev fnDeviceReset : Nat := 9
abbrev fnSpillway : Nat := 10
abbrev fnContain : Nat := 11

def State.link (s : State) (p : Nat) : Link := tabGetD s.lnk p Link.init
def State.setLink (s : State) (p : Nat) (l : Link) : State := { s with lnk := tabSet s.lnk p Link.init l }
def State.modLink (s : State) (p : Nat) (f : Link → Link) : State := s.setLink p (f (s.link p))
def State.sp (s : State) (p : Nat) : SerPort := tabGetD s.ser p SerPort.init
def State.setSp (s : State) (p : Nat) (x : SerPort) : State := { s with ser := tabSet s.ser p SerPort.init x }
def State.modSp (s : State) (p : Nat) (f : SerPort → SerPort) : State := s.setSp p (f (s.sp p))
def State.laneSt (s : State) (l : Nat) : LaneSt := tabGetD s.lane l LaneSt.init
def State.setLane (s : State) (l : Nat) (x : LaneSt) : State := { s with lane := tabSet s.lane l LaneSt.init x }
def State.modLane (s : State) (l : Nat) (f : LaneSt → LaneSt) : State := s.setLane l (f (s.laneSt l))

def State.serState (s : State) (p : Nat) : Nat := s.rd F.SER_PORT_STATUS.STATE p
def State.lnkState (s : State) (p : Nat) : Nat := s.rd F.LNK_PORT_STATUS.STATE p

/-- The PLL of the port's chiplet is locked (R80). -/
def State.pllLocked (s : State) (p : Nat) : Bool := bit (s.rd F.SER_PLL_STATUS.LOCK) (p / 16)

/-- Port enabled (Table 3.4): SER enabled, ROLE not unused, POWER_DOWN clear; not held off by a Contain (R144) and the
device running. -/
def State.portOn (s : State) (p : Nat) : Bool :=
  s.live && s.en uSER && s.portRole p != 0 && !s.on F.SER_PORT_CTRL.POWER_DOWN p && !bit s.portOff p

/-- A lane's sets start anew; what it heard of its peer stays in CAPS. -/
def CapLane.again (c : CapLane) (caps : Bool) : CapLane :=
  { CapLane.init with id := if caps then c.id else none, preset := c.preset }

/-- The transmit presets: PRE, POST, MAIN (Table 3.3). -/
def presetRow (k : Nat) : Nat × Nat × Nat :=
  match k with
  | 0 => (0, 0, 63)
  | 1 => (0, 4, 59)
  | 2 => (0, 8, 55)
  | 3 => (2, 6, 55)
  | 4 => (2, 10, 51)
  | 5 => (4, 12, 47)
  | 6 => (4, 16, 43)
  | _ => (6, 20, 37)

/-- An equalizer register of a lane is held at its present values: by FREEZE, or by its override (R110). -/
def State.eqHeld (s : State) (l : Nat) (r : Reg) : Bool :=
  s.on F.SER_EQ_OVERRIDE.FREEZE l ||
  (match r with
   | .SER_FFE => s.on F.SER_EQ_OVERRIDE.FFE_OVR l
   | .SER_CTLE => s.on F.SER_EQ_OVERRIDE.CTLE_OVR l
   | _ => s.on F.SER_EQ_OVERRIDE.DFE_OVR l)

/-- PRE and POST of a lane take values, with MAIN following (R104), unless they are held. -/
def State.putFfe (s : State) (l pre post : Nat) : State :=
  if s.eqHeld l .SER_FFE then s
  else ((s.wr F.SER_FFE.PRE pre l).wr F.SER_FFE.POST post l).wr F.SER_FFE.MAIN (63 - pre - post) l

/-- Load a transmit preset into a lane's FFE (R87, R112). -/
def State.loadPreset (s : State) (l k : Nat) : State := s.putFfe l (presetRow k).1 (presetRow k).2.1

/-- A lane in TEST runs with the preset of SER_TEST (R112). -/
def State.testPreset (s : State) (l : Nat) : State := s.loadPreset l (s.rd F.SER_TEST.PRESET l)

/-- Take a port's lanes to a state of Table 3.4. Outside ACTIVE no lane is in use; a new bring-up starts from no sets
received; OFF powers the lanes down. -/
def State.serTo (s : State) (p st : Nat) : State :=
  let s := s.wr F.SER_PORT_STATUS.STATE st p
  let s := if st = serActive then s else (s.wr F.SER_PORT_STATUS.WIDTH 0 p).wr F.SER_PORT_STATUS.LANES 0 p
  let s := if st = serDetect ∨ st = serCaps then
      (s.wr F.SER_PORT_STATUS.STEP 0 p).modSp p (fun x =>
        { SerPort.init with seq := x.seq, c0 := x.c0.again (st == serCaps), c1 := x.c1.again (st == serCaps), peerWidth := x.peerWidth })
    else s
  let s := if st = serTest then s.testPreset (2 * p) |>.testPreset (2 * p + 1) else s
  if st = serOff then
    foldS [2 * p, 2 * p + 1] (s.modSp p (fun x => { SerPort.init with seq := x.seq })) (fun s l =>
      (((s.wr F.SER_LANE_STATUS.POWERED 0 l).wr F.SER_LANE_STATUS.CDR_LOCK 0 l).wr F.SER_LANE_STATUS.SIG_DET 0 l).wr
        F.SER_LANE_STATUS.CAL_OK 0 l)
  else s

/-- A lane still to calibrate: neither calibrated nor FAILED (R94). -/
def State.needsCal (s : State) (l : Nat) : Bool := !s.on F.SER_LANE_STATUS.CAL_OK l && !s.on F.SER_LANE_STATUS.FAILED l

/-- Calibrate what is still to calibrate, then go to a state; at once where nothing is (R94). -/
def State.calibrate (s : State) (p st : Nat) : State :=
  if s.needsCal (2 * p) || s.needsCal (2 * p + 1) then s.modSp p (fun x => { x with calib := some st }) else s.serTo p st

/-- Where a port goes when it leaves OFF or WAIT: to DETECT, or to TEST when its MODE reads TEST (R116). -/
def State.modeState (s : State) (p : Nat) : Nat := if s.on F.SER_PORT_CTRL.MODE p then serTest else serDetect

/-- A port in OFF that is enabled leaves it (Table 3.4, R94, R95): lanes powered, then calibration towards DETECT or
TEST, or WAIT at once when the chiplet PLL is not locked. -/
def State.portEnable (s : State) (p : Nat) : State :=
  if s.serState p = serOff && s.portOn p && (s.sp p).calib.isNone then
    let s := (s.wr F.SER_LANE_STATUS.POWERED 1 (2 * p)).wr F.SER_LANE_STATUS.POWERED 1 (2 * p + 1)
    if s.pllLocked p then s.calibrate p (s.modeState p) else s.serTo p serWait
  else s

/-- Lanes in ACTIVE with LNK enabled start the link (R130, Table 4.7). -/
def State.linkStart (s : State) (p : Nat) : State :=
  if s.lnkState p = lnkDown && s.en uLNK && s.serState p = serActive then
    let s := s.resetIdx .LNK_REPLAY_STATUS 0 p
    let s := s.modLink p (fun l => { Link.init with corrupt := l.corrupt, fullBeat := l.fullBeat })
    let s := (s.modLane (2 * p) (fun x => { x with reqSeq := none })).modLane (2 * p + 1) (fun x => { x with reqSeq := none })
    s.wr F.LNK_PORT_STATUS.STATE lnkInit p
  else s

/-- Fence a port in one cycle (R142): the router learns that it is dead; the replay buffer, the packet partly sent and
the packet partly received are discarded; Beat exchange stops. -/
def State.fence (s : State) (p : Nat) : State :=
  let s := s.modLink p (fun l => { l with replay := [], rpos := none, tx := [], rx := [], xchg := [], ctrlS := [], nakDue := false })
  let s := s.wr F.LNK_REPLAY_STATUS.OUTSTANDING 0 p
  let s := s.wr F.LNK_REPLAY_STATUS.FULL 0 p
  let s := s.wr F.LNK_REPLAY_STATUS.REPLAYING 0 p
  let s := s.wr F.LNK_REPLAY_STATUS.NAK_OUT 0 p
  s.post (.portDead p)

/-- Enter DOWN with a reason (R141): the count, LAST_REASON and the fault with its capture. -/
def State.linkDown (s : State) (p reason : Nat) : State :=
  let s := s.wr F.LNK_PORT_STATUS.STATE lnkDown p
  let s := s.inc F.LNK_PORT_STATUS.DOWNS p
  let s := s.wr F.LNK_PORT_STATUS.LAST_REASON reason p
  if reason = rsPeerFence ∨ reason = rsLocalFence then s.raise .LNK_FENCE p
  else s.raiseOcc { occ .LNK_DOWN p with
    info := reason + s.rd F.LNK_ERR_COUNT.UNCORR_WIN p * 2 ^ 16 + s.rd F.LNK_ERR_COUNT.REPLAY_WIN p * 2 ^ 32 }

/-- Declare the link down from INIT or UP (R141): fence without FENCE flits; the lanes leave ACTIVE for DETECT unless
they have left already. -/
def State.declare (s : State) (p reason : Nat) : State :=
  if s.lnkState p = lnkInit ∨ s.lnkState p = lnkUp then
    let s := (s.fence p).linkDown p reason
    if reason ≠ rsLanes ∧ s.serState p = serActive then s.serTo p serDetect else s
  else s

/-- After its lanes have settled in a state, a port that is enabled leaves OFF again. -/
def State.settlePort (s : State) (p st : Nat) : State := if st = serOff then s.portEnable p else s

/-- Lanes of an ACTIVE port leave it: with the link in INIT or UP, an orderly fence of four FENCE flits with its REASON
comes first (R142, R143); a fence under way takes the new lane state, and of causes in one cycle the highest REASON; otherwise the
lanes go at once. -/
def State.leave (s : State) (p reason dest : Nat) : State :=
  let st := s.lnkState p
  if st = lnkInit ∨ st = lnkUp then
    let s := (s.fence p).wr F.LNK_PORT_STATUS.STATE lnkFencing p
    s.modLink p (fun l => { l with fenceLeft := 4, fenceReason := reason, fenceDest := dest })
  else if st = lnkFencing then
    let now := s.acts.contains (.portDead p)
    s.modLink p (fun l => { l with fenceDest := if l.fenceDest = serOff then serOff else dest,
                                   fenceReason := if now then max l.fenceReason reason else l.fenceReason })
  else (s.serTo p dest).settlePort p dest

/-- Where the lanes of a fencing port go: OFF stands, since an enabled port leaves it again; else MODE decides between TEST
and the state that the cause names. -/
def State.fenceTo (s : State) (p : Nat) : Nat :=
  let d := (s.link p).fenceDest
  if d = serOff then serOff else if s.on F.SER_PORT_CTRL.MODE p then serTest else if d = serTest then serDetect else d

/-- Lanes leave ACTIVE unannounced (Table 4.7): reason LANES, or LOCAL_FENCE from FENCING. -/
def State.lanesLost (s : State) (p : Nat) : State :=
  if s.lnkState p = lnkFencing then (s.modLink p (fun l => { l with fenceLeft := 0 })).linkDown p rsLocalFence
  else s.declare p rsLanes

/-- After the fourth FENCE the link enters DOWN and the lanes go where the cause says (R142). -/
def State.fenceDone (s : State) (p : Nat) : State :=
  if s.lnkState p = lnkFencing ∧ (s.link p).fenceLeft = 0 then
    let d := s.fenceTo p
    ((s.linkDown p rsLocalFence).serTo p d).settlePort p d
  else s

/-- Take an ACK of `a` (R126). -/
def State.takeAck (s : State) (p a : Nat) : State :=
  let old := s.rd F.LNK_REPLAY_STATUS.TX_OLDEST p
  let out := s.rd F.LNK_REPLAY_STATUS.OUTSTANDING p
  let k := (a + 4096 - old + 1) % 4096
  if 1 ≤ k ∧ k ≤ out then
    let s := s.wr F.LNK_REPLAY_STATUS.TX_OLDEST ((old + k) % 4096) p
    let s := s.wr F.LNK_REPLAY_STATUS.OUTSTANDING (out - k) p
    let s := s.wr F.LNK_REPLAY_STATUS.FULL (b2n (out - k == 512)) p
    s.modLink p (fun l => { l with replay := l.replay.drop k })
  else if k = 0 ∨ k = 4095 then s
  else s.raise .LNK_ACK_BAD p

/-- Start a replay from number `x` (R127, R128, R129); REPLAY_WIN above its limit declares the link down (R137). -/
def State.startReplay (s : State) (p x : Nat) : State :=
  let s := s.wr F.LNK_REPLAY_STATUS.REPLAYING 1 p
  let s := s.modLink p (fun l => { l with rpos := some x })
  let s := (s.inc F.LNK_ERR_COUNT.REPLAY_TOTAL p).inc F.LNK_ERR_COUNT.REPLAY_WIN p
  if s.rd F.LNK_HEALTH.REPLAY_MAX < s.rd F.LNK_ERR_COUNT.REPLAY_WIN p then s.declare p rsReplay else s

/-- A received NAK(x) (R127). -/
def State.takeNak (s : State) (p x : Nat) : State :=
  let k := (x + 4096 - s.rd F.LNK_REPLAY_STATUS.TX_OLDEST p) % 4096
  let out := s.rd F.LNK_REPLAY_STATUS.OUTSTANDING p
  if out < k then s.raise .LNK_ACK_BAD p
  else
    let s := if k = 0 then s else s.takeAck p ((x + 4095) % 4096)
    if k = out then s else s.startReplay p x

/-- A received FENCE (R143). -/
def State.takeFence (s : State) (p reason : Nat) : State :=
  if s.lnkState p = lnkInit ∨ s.lnkState p = lnkUp then
    (s.wr F.LNK_PORT_STATUS.PEER_REASON (min reason 15) p).declare p rsPeerFence
  else s

/-- Ask for E and remember it, unless it has been asked for (Table 4.3); a link that has just gone down asks no more. -/
def State.askNak (s : State) (p : Nat) : State :=
  if s.on F.LNK_REPLAY_STATUS.NAK_OUT p ∨ s.lnkState p ≠ lnkUp then s
  else (s.wr F.LNK_REPLAY_STATUS.NAK_OUT 1 p).modLink p (fun l => { l with nakDue := true })

/-- The message of a BEAT_XCHG payload (Table 4.6). -/
def xchgOf (b : Bytes) : Xchg :=
  ⟨leAt b 1 1, leAt b 2 1, leAt b 3 1, leAt b 4 1, bits (leAt b 8 4) 0 17, leAt b 12 4, leAt b 16 8, leAt b 24 8,
   leAt b 32 8, leAt b 40 8⟩

/-- The payload of a BEAT_XCHG message (Table 4.6). -/
def xchgBytes (resp : Bool) (m : Xchg) : Bytes :=
  leBytes 1 (b2n resp) ++ leBytes 1 m.xid ++ leBytes 1 m.prio ++ leBytes 1 m.distance ++ leBytes 1 m.period ++ leBytes 3 0 ++
  leBytes 4 m.masterId ++ leBytes 4 m.alive ++ leBytes 8 m.count ++ leBytes 8 m.t1 ++ leBytes 8 m.t2 ++ leBytes 8 m.t3

/-- The flit type and the payload lengths of each known message kind (Table 4.5): sequenced, unsequenced, length holds. -/
def ctrlRow (kind len : Nat) : Option (Bool × Bool × Bool) :=
  match kind with
  | 0x00 => some (true, true, len == 0)
  | 0x01 => some (false, true, len == 1)
  | 0x02 => some (false, true, len == 12)
  | 0x03 => some (false, true, len == 1)
  | 0x10 => some (true, false, len == 4)
  | 0x11 => some (true, false, decide (1 ≤ len ∧ len ≤ 16))
  | _ => none

/-- Act on one control message. Of the OP of a BEAT_XCHG bit 0 alone counts (DESIGN CHOICE, log entry 139). -/
def State.ctrlMsg (s : State) (p kind : Nat) (pay : Bytes) (stamp : Nat) : State :=
  match kind with
  | 0x01 => s.takeNak p (bits (leAt pay 0 4) 0 12)
  | 0x02 => if s.lnkState p = lnkUp then s.post (.xchg p (bit (leAt pay 0 1) 0) (xchgOf pay) stamp) else s
  | 0x03 => s.takeFence p (leAt pay 0 1)
  | 0x10 => s.post (.laneMgmt p pay)
  | 0x11 => s.post (.credit p pay)
  | _ => s

/-- Act on the control messages of a body of `w` words (R134), as long as none of them takes the link down. -/
def State.ctrlBody (p : Nat) (seqd : Bool) (stamp : Nat) : Nat → Bytes → State → State
  | 0, _, s => s
  | n + 1, b, s =>
    if b.length < 4 ∨ (s.lnkState p ≠ lnkInit ∧ s.lnkState p ≠ lnkUp) then s else
    let kind := leAt b 0 1
    let len := leAt b 1 1
    let rest := b.drop (4 + 4 * len)
    match ctrlRow kind len with
    | some (cs, cu, ok) =>
      if !ok || !(if seqd then cs else cu) || decide (b.length < 4 + 4 * len) then s.declare p rsProto
      else State.ctrlBody p seqd stamp n rest (s.ctrlMsg p kind ((b.drop 4).take (4 * len)) stamp)
    | none => State.ctrlBody p seqd stamp n rest (s.raise .LNK_CTRL_UNKNOWN p)

/-- The body of an accepted DATA flit (R121): packet bytes; whole packets go to input staging, none of a flit that
breaks the rule (DESIGN CHOICE, log entry 140). -/
def State.dataBody (s : State) (p words : Nat) (body : Bytes) : State :=
  match cutPackets 64 ((s.link p).rx ++ body.take (4 * words)) with
  | (ps, rest, ok) =>
    if !ok || (words < 59 && !rest.isEmpty) then s.declare p rsProto
    else { s.modLink p (fun l => { l with rx := rest }) with arrived := s.arrived ++ ps.map (fun b => (p, b)) }

/-- A sequenced flit in order is accepted (Table 4.3): E advances, NAK_OUT clears, its content acts. -/
def State.accept (s : State) (p ty words seq : Nat) (body : Bytes) (stamp : Nat) : State :=
  let s := s.wr F.LNK_REPLAY_STATUS.RX_EXPECT ((seq + 1) % 4096) p
  let s := s.wr F.LNK_REPLAY_STATUS.NAK_OUT 0 p
  let s := s.modLink p (fun l => { l with acked := some seq, nakDue := false })
  if ty = 1 then s.dataBody p words body else State.ctrlBody p true stamp 60 (body.take (4 * words)) s

/-- A flit that passes FEC and CRC, in UP (Table 4.3). -/
def State.goodUp (s : State) (p : Nat) (g : Bytes) (stamp : Nat) : State :=
  let h := leAt g 0 4
  let ty := bits h 30 2
  let words := bits h 24 6
  let body := (g.drop 4).take 236
  let d := (bits h 0 12 + 4096 - s.rd F.LNK_REPLAY_STATUS.RX_EXPECT p) % 4096
  let s := s.takeAck p (bits h 12 12)
  if ty = 1 ∨ ty = 2 then
    if d = 0 then s.accept p ty words (bits h 0 12) body stamp
    else if d ≤ 2047 then s.askNak p else s
  else if 2048 ≤ d then s.declare p rsProto
  else
    let s := if ty = 3 then State.ctrlBody p false stamp 60 (body.take (4 * words)) s else s
    if d = 0 then s else s.askNak p

/-- A flit that passes FEC and CRC, in INIT (R140): its ACK is taken, sequenced flits are discarded, and the sixteenth in
a row brings the link UP, where its health window starts (R137). -/
def State.goodInit (s : State) (p : Nat) (g : Bytes) (stamp : Nat) : State :=
  let h := leAt g 0 4
  let s := s.takeAck p (bits h 12 12)
  let s := if bits h 30 2 = 3 then State.ctrlBody p false stamp 60 (((g.drop 4).take 236).take (4 * bits h 24 6)) s else s
  if s.lnkState p ≠ lnkInit then s else
  if (s.link p).good + 1 < 16 then s.modLink p (fun l => { l with good := l.good + 1 })
  else
    let s := s.wr F.LNK_PORT_STATUS.STATE lnkUp p
    let s := (s.wr F.LNK_ERR_COUNT.UNCORR_WIN 0 p).wr F.LNK_ERR_COUNT.REPLAY_WIN 0 p
    (s.modLink p (fun l => { l with good := 16, winBeats := 0 })).post (.linkUp p)

/-- An uncorrectable flit (R120, R137, Tables 4.3 and 4.7). -/
def State.badFlit (s : State) (p : Nat) : State :=
  let s := s.inc F.LNK_ERR_COUNT.UNCORR_TOTAL p
  if s.lnkState p = lnkInit then s.modLink p (fun l => { l with good := 0 })
  else
    let s := s.inc F.LNK_ERR_COUNT.UNCORR_WIN p
    if s.rd F.LNK_HEALTH.UNCORR_MAX < s.rd F.LNK_ERR_COUNT.UNCORR_WIN p then s.declare p rsUncorr else s.askNak p

/-- R118 holds of a header: WORDS at most 59, zero for IDLE and not zero for the others. -/
def flitOk (h : Nat) : Bool :=
  decide (bits h 24 6 ≤ 59) && (if bits h 30 2 = 0 then bits h 24 6 == 0 else bits h 24 6 != 0)

/-- The 256 bytes of a flit at the receiver, with the time-stamp of its arrival. -/
def State.flitBytes (s : State) (p : Nat) (f : Bytes) (stamp : Nat) : State :=
  match flitDecode f with
  | none => s.badFlit p
  | some (g, k) =>
    let s := if k = 0 then s else (s.inc F.LNK_FEC_COUNT.CORR_BYTES p k).inc F.LNK_FEC_COUNT.CORR_FLITS p
    if !flitOk (leAt g 0 4) then s.declare p rsProto
    else if s.lnkState p = lnkInit then s.goodInit p g stamp else s.goodUp p g stamp

/-- The bytes that a lane delivers of a flit, its polarity corrected (R84) and its scrambling taken off (R92). -/
def State.laneBytes (s : State) (p k : Nat) (l : List Level) : Bytes :=
  bytesOf (scramble (s.laneSt (2 * p + k)).rxScr
    (levelBits (s.rd F.SER_PORT_STATUS.STEP p) (bit (s.rd F.SER_PORT_STATUS.POL_INV p) k) l)).1

/-- A lane's descrambler goes on over a number of bytes. -/
def State.rxAdvance (s : State) (l n : Nat) : State :=
  s.modLane l (fun x => { x with rxScr := (scrambler.run (8 * n) x.rxScr).2 })

/-- A physical lane delivers its whole share of a flit: it holds its lock, and all of the bits have come (R120). -/
def State.laneWhole (s : State) (p k share : Nat) (l : List Level) : Bool :=
  s.on F.SER_LANE_STATUS.CDR_LOCK (2 * p + k) && (s.laneBytes p k l).length == share

/-- The lane whose stream carries the even words: of two, the one that hears the lower LANE_ID (R93). -/
def State.evenLane (s : State) (p : Nat) : Nat :=
  match (s.sp p).c0.id, (s.sp p).c1.id with
  | some a, some b => if b < a then 1 else 0
  | _, _ => 0

/-- A flit slot at the receiver, with what physical lanes 0 and 1 deliver in it. A flit that is cut short on every used lane is not a
received flit; one that is cut short on one lane of two is uncorrectable (R102, R120). -/
def State.flitReceive (s : State) (p : Nat) (r0 r1 : List Level) (stamp : Nat) : State :=
  if s.lnkState p ≠ lnkInit ∧ s.lnkState p ≠ lnkUp then s else
  let used := bitsSet 2 (s.sp p).rxLanes
  let share := 256 / used.length
  let rx (k : Nat) : List Level := if k = 0 then r0 else r1
  let t := foldS used s (fun s k => s.rxAdvance (2 * p + k) share)
  let whole := used.filter (fun k => s.laneWhole p k share (rx k))
  if whole.isEmpty then t
  else if whole.length < used.length then t.badFlit p
  else
    match used with
    | [k] => t.flitBytes p (s.laneBytes p k (rx k)) stamp
    | _ =>
      let e := s.evenLane p
      t.flitBytes p (unstripe (s.laneBytes p e (rx e)) (s.laneBytes p (1 - e) (rx (1 - e)))) stamp

/-- The header of a flit sent now. -/
def State.flitHdr (s : State) (p ty words seq : Nat) : Nat :=
  let a := match (s.link p).acked with | some v => v | none => 0xFFF
  ty * 2 ^ 30 + words * 2 ^ 24 + a * 2 ^ 12 + seq

/-- A lane sends data, scrambled (R92). -/
def State.laneSend (s : State) (p k : Nat) (b : Bytes) : State :=
  let l := 2 * p + k
  let r := scramble (s.laneSt l).txScr (bitsOf b)
  (s.modLane l (fun x => { x with txScr := r.2 })).emit (.wire p k 1 (levelsOf (s.rd F.SER_PORT_STATUS.STEP p) r.1))

/-- A flit's 256 bytes on the port's used lanes (R93, R117): even words on the lower-numbered used lane. -/
def State.wireFlit (s : State) (p : Nat) (b : Bytes) : State :=
  match bitsSet 2 (s.rd F.SER_PORT_STATUS.LANES p) with
  | [a, c] => (s.laneSend p a (stripe b).1).laneSend p c (stripe b).2
  | [a] => s.laneSend p a b
  | _ => s

/-- Put a flit on the wire. -/
def State.sendFlit (s : State) (p ty words seq : Nat) (body : Bytes) (bad : Bool) : State :=
  s.wireFlit p (flitEncode (s.flitHdr p ty words seq) body bad)

/-- The word that heads a control message (R134). -/
def ctrlHead (kind len : Nat) : Bytes := leBytes 4 (kind + len * 256)

/-- Send a new sequenced flit: it takes TX_NEXT and is held (R126, R131, R146). -/
def State.sendSeq (s : State) (p ty : Nat) (body : Bytes) : State :=
  let n := s.rd F.LNK_REPLAY_STATUS.TX_NEXT p
  let out := s.rd F.LNK_REPLAY_STATUS.OUTSTANDING p + 1
  let words := body.length / 4
  let bad := (s.link p).corrupt
  let s := s.sendFlit p ty words n body bad
  let s := s.wr F.LNK_REPLAY_STATUS.TX_NEXT ((n + 1) % 4096) p
  let s := s.wr F.LNK_REPLAY_STATUS.OUTSTANDING out p
  let s := s.wr F.LNK_REPLAY_STATUS.FULL (b2n (out == 512)) p
  s.modLink p (fun l => { l with replay := l.replay ++ [⟨ty, words, body⟩], corrupt := false,
                                 fullBeat := l.fullBeat || out == 512 })

/-- The next flit of a replay in progress, where one is left (R127). -/
def State.replayFlit (s : State) (p x : Nat) : Option State :=
  let old := s.rd F.LNK_REPLAY_STATUS.TX_OLDEST p
  let out := s.rd F.LNK_REPLAY_STATUS.OUTSTANDING p
  let i := (x + 4096 - old) % 4096
  let i := if i < out then i else if 2048 ≤ i then 0 else out
  match (s.link p).replay[i]? with
  | none => none
  | some f =>
    let s := s.sendFlit p f.ty f.words ((old + i) % 4096) f.body false
    if i + 1 < out then some (s.modLink p (fun l => { l with rpos := some ((old + i + 1) % 4096) }))
    else some ((s.wr F.LNK_REPLAY_STATUS.REPLAYING 0 p).modLink p (fun l => { l with rpos := none }))

/-- New flits of steps 3 to 6 of R132. -/
def State.newFlit (s : State) (p stamp : Nat) : State :=
  let l := s.link p
  let n := s.rd F.LNK_REPLAY_STATUS.TX_NEXT p
  let room := decide (s.rd F.LNK_REPLAY_STATUS.OUTSTANDING p < 512)
  let up := s.lnkState p = lnkUp
  match l.xchg with
  | (r, m) :: rest =>
    let m := { m with count := s.beat, t1 := if r then m.t1 else stamp, t3 := if r then stamp else m.t3 }
    (s.sendFlit p 3 13 n (ctrlHead 2 12 ++ xchgBytes r m) false).setLink p { l with xchg := rest }
  | [] =>
    match l.ctrlS with
    | (k, pay) :: rest =>
      if up && room && (l.tx.isEmpty || 4 ≤ l.sinceS) then
        (s.setLink p { l with ctrlS := rest, sinceS := 0 }).sendSeq p 2 (ctrlHead k (pay.length / 4) ++ pay)
      else if up && room && !l.tx.isEmpty then (s.setLink p { l with tx := l.tx.drop 236 }).sendSeq p 1 (l.tx.take 236)
      else s.sendFlit p 0 0 n [] false
    | [] =>
      if up && room && !l.tx.isEmpty then (s.setLink p { l with tx := l.tx.drop 236 }).sendSeq p 1 (l.tx.take 236)
      else s.sendFlit p 0 0 n [] false

/-- What a flit slot sends (R132), with the time-stamp of its launch. -/
def State.flitSlot (s : State) (p stamp : Nat) : State :=
  let l := s.link p
  let st := s.lnkState p
  let n := s.rd F.LNK_REPLAY_STATUS.TX_NEXT p
  if st = lnkFencing then
    if l.fenceLeft = 0 then s
    else (s.sendFlit p 3 2 n (ctrlHead 3 1 ++ leBytes 4 l.fenceReason) false).setLink p { l with fenceLeft := l.fenceLeft - 1 }
  else if st = lnkDown then s
  else if l.nakDue then
    (s.sendFlit p 3 2 n (ctrlHead 1 1 ++ leBytes 4 (s.rd F.LNK_REPLAY_STATUS.RX_EXPECT p)) false).setLink p { l with nakDue := false }
  else
    match l.rpos with
    | some x =>
      match s.replayFlit p x with
      | some s => s
      | none => ((s.wr F.LNK_REPLAY_STATUS.REPLAYING 0 p).setLink p { l with rpos := none }).newFlit p stamp
    | none => s.newFlit p stamp

/-- One flit slot of the transmitter (R132). It counts toward the one CTRL_S flit in four. -/
def State.flitTransmit (s : State) (p stamp : Nat) : State :=
  (s.modLink p (fun l => { l with sinceS := min 4 (l.sinceS + 1) })).flitSlot p stamp

/-- NAK_RETRY passes with NAK_OUT set (R125). -/
def State.nakRetry (s : State) (p : Nat) : State :=
  if s.on F.LNK_REPLAY_STATUS.NAK_OUT p ∧ s.lnkState p = lnkUp then s.modLink p (fun l => { l with nakDue := true }) else s

/-- ACK_TIMEOUT passes (R128). -/
def State.ackTimeout (s : State) (p : Nat) : State :=
  if s.lnkState p = lnkUp ∧ 0 < s.rd F.LNK_REPLAY_STATUS.OUTSTANDING p then
    s.startReplay p (s.rd F.LNK_REPLAY_STATUS.TX_OLDEST p)
  else s

/-- Start a health window (R137). -/
def State.healthStart (s : State) (p : Nat) : State :=
  ((s.wr F.LNK_ERR_COUNT.UNCORR_WIN 0 p).wr F.LNK_ERR_COUNT.REPLAY_WIN 0 p).modLink p (fun l => { l with winBeats := 0 })

/-- NOPROG_US passes (R138): TX_OLDEST has not advanced with flits outstanding, or no good flit came. -/
def State.noProgress (s : State) (p : Nat) (noFlit : Bool) : State :=
  if s.lnkState p = lnkUp ∧ (noFlit ∨ 0 < s.rd F.LNK_REPLAY_STATUS.OUTSTANDING p) then s.declare p rsNoprog else s

/-- INIT_TIMEOUT passes (R139). -/
def State.initTimeout (s : State) (p : Nat) : State := if s.lnkState p = lnkInit then s.declare p rsInit else s

/-- A port reset's part in SER and LNK (R421): FAILED marks, counts and the link delay clear; a Contain ends; the lanes
leave by an orderly fence for OFF, and bring-up restarts when the port is enabled. -/
def State.portReset (s : State) (p : Nat) : State :=
  if s.portRole p = 0 then s else
  let s := (s.wr F.SER_LANE_STATUS.FAILED 0 (2 * p)).wr F.SER_LANE_STATUS.FAILED 0 (2 * p + 1)
  let s := s.wr F.SER_PORT_STATUS.FAILS 0 p
  let s := ((s.wr F.LNK_PORT_STATUS.DOWNS 0 p).wr F.LNK_PORT_STATUS.LAST_REASON 0 p).wr F.LNK_PORT_STATUS.PEER_REASON 0 p
  let s := s.wr F.LNK_PORT_STATUS.STALL_BEATS 0 p
  let s := (s.wr F.LNK_ERR_COUNT.UNCORR_TOTAL 0 p).wr F.LNK_ERR_COUNT.REPLAY_TOTAL 0 p
  let s := (s.resetIdx .LNK_FEC_COUNT 0 p).resetIdx .BEA_LINK_DELAY 0 p
  let s := { s with portOff := clrBit s.portOff p }
  s.leave p fnPortReset serOff

/-- The port action of a Contain (R144): the lanes go to OFF until a port reset. -/
def State.containPort (s : State) (p : Nat) : State :=
  let s := { s with portOff := setBit s.portOff p }
  s.leave p fnContain serOff

end Sys2Proof.Machine
end

