-- ==== Sys2Proof/Machine/Lanes.lean ====
section
/-! DEFINITION. Lane bring-up, width and step changes, lane management, test (03_lanes.md). -/

namespace Sys2Proof.Machine

/-- The preset that the device asks for, from the CTLE peaking settled at S0 (Table 3.3). -/
def askPreset (peak : Nat) : Nat :=
  if peak ≤ 1 then 1 else if peak ≤ 3 then 2 else if peak ≤ 5 then 3 else if peak ≤ 7 then 4
  else if peak ≤ 10 then 5 else if peak ≤ 13 then 6 else 7

/-- The offer of a port (R85). After a fallback R85's formula holds, also where the peer's offer was the lower one (DESIGN CHOICE, log
entry 134). -/
def State.offerStep (s : State) (p : Nat) : Nat :=
  min (s.rd F.SER_PORT_CTRL.TARGET_STEP p) (s.portMaxStep p) - (s.sp p).attempt
def State.offerWidth (s : State) (p : Nat) : Nat := min (s.rd F.SER_PORT_CTRL.TARGET_WIDTH p) (s.portMaxWidth p)

/-- The peer's ROUTER flag fits the port's ROLE (R86). -/
def State.roleFits (s : State) (p : Nat) : Bool :=
  if s.portRole p = 3 then !s.on F.SER_PORT_STATUS.PEER_ROUTER p else s.on F.SER_PORT_STATUS.PEER_ROUTER p

/-- The sets of physical lane `k` of a port. -/
def SerPort.cap (x : SerPort) (k : Nat) : CapLane := if k = 0 then x.c0 else x.c1
def SerPort.modCap (x : SerPort) (k : Nat) (f : CapLane → CapLane) : SerPort :=
  if k = 0 then { x with c0 := f x.c0 } else { x with c1 := f x.c1 }

/-- The LANE_ID that physical lane `k` of a port hears. -/
def SerPort.idOf (x : SerPort) (k : Nat) : Option Nat := (x.cap k).id

/-- The physical lane that hears a LANE_ID. -/
def SerPort.hears (x : SerPort) (id : Nat) : Nat := if x.idOf 0 = some id then 0 else if x.idOf 1 = some id then 1 else id

/-- The capability set that a lane sends (Table 3.2). -/
def State.capSet (s : State) (p k : Nat) : Bytes :=
  let x := s.sp p
  let c := x.cap k
  let b := leBytes 4 0x3CA55AC3 ++ leBytes 1 k ++ leBytes 1 (b2n (decide (8 ≤ c.rxOk)) + 2 + 4 * b2n (s.portRole p != 3)) ++
    leBytes 1 (s.offerStep p) ++ leBytes 1 (s.offerWidth p) ++ leBytes 4 s.nodeId ++ leBytes 1 p ++
    leBytes 1 (askPreset (s.rd F.SER_CTLE.PEAK (2 * p + k))) ++ leBytes 1 (c.next.getD 0xFF) ++ leBytes 1 x.attempt ++ leBytes 12 0
  b ++ leBytes 4 (crc32 b)

/-- What a lane has after it sends a set (R85): sets with ACK are counted, and the countdown goes on, or ends with the set of 0. -/
def CapLane.sent (c : CapLane) : CapLane :=
  { c with txAck := if 8 ≤ c.rxOk then min 8 (c.txAck + 1) else c.txAck
           next := c.next.map (fun n => n - 1), counted := c.counted || c.next == some 0 }

/-- A lane that has 8 sets with ACK received and 8 sent starts its countdown, where the peer's ROUTER flag fits (R85, R86). -/
def CapLane.start (c : CapLane) (fits : Bool) : CapLane :=
  if fits && decide (8 ≤ c.rxAck) && decide (8 ≤ c.txAck) && c.next.isNone then { c with next := some 15 } else c

/-- The lane's countdown runs, or has ended. -/
def CapLane.counting (c : CapLane) : Bool := c.next.isSome || c.counted

/-- A lane in DETECT or CAPS sends its next capability set at S0, unscrambled (R83). -/
def State.sendCapSet (s : State) (p k : Nat) : State :=
  let s := s.modSp p (fun x => x.modCap k (fun c => c.start (s.roleFits p && s.serState p == serCaps)))
  (s.emit (.wire p k 1 (symbols 0 (s.capSet p k)))).modSp p (fun x => x.modCap k CapLane.sent)

/-- A block's bytes, and whether its lane turns out inverted: SYNC is its complement (R84). -/
def polarity (inv : Bool) (sync : Nat) (l : List Level) : Bytes × Bool :=
  let d := unsymbols 0 inv l
  if leAt d 0 4 = 0xFFFFFFFF - sync then (unsymbols 0 (!inv) l, !inv) else (d, inv)

/-- A valid capability set (R83). -/
def capSetOk (d : Bytes) : Bool :=
  leAt d 0 4 == 0x3CA55AC3 && leAt d 28 4 == crc32 (d.take 28) && decide (leAt d 4 1 < 2) && decide (leAt d 5 1 < 8) &&
  leAt d 16 12 == 0

/-- Count consecutive valid sets of a lane, and those with ACK (Table 3.2, R85); another set starts the count again. -/
def CapLane.count (c : CapLane) (valid ack : Bool) : CapLane :=
  { c with rxOk := if valid then min 8 (c.rxOk + 1) else 0, rxAck := if ack then min 8 (c.rxAck + 1) else 0 }

/-- Signal detection on a lane (Table 16.11): SIG_DET asserted above 80 mV at the receiver, cleared below 40 mV. -/
def State.sigDetect (s : State) (l mv : Nat) : State :=
  if 80 < mv then s.wr F.SER_LANE_STATUS.SIG_DET 1 l else if mv < 40 then s.wr F.SER_LANE_STATUS.SIG_DET 0 l else s

/-- What a valid capability set tells on physical lane `k`, with the CTLE peaking settled there (R84 to R87). -/
def State.hearSet (s : State) (p k : Nat) (d : Bytes) (inv : Bool) (peak : Nat) : State :=
  let l := 2 * p + k
  let pol := s.rd F.SER_PORT_STATUS.POL_INV p
  let s := s.wr F.SER_PORT_STATUS.POL_INV (if inv then setBit pol k else clrBit pol k) p
  let s := s.wr F.SER_LANE_STATUS.CDR_LOCK 1 l
  let s := if s.eqHeld l .SER_CTLE then s else s.wr F.SER_CTLE.PEAK peak l
  let fl := leAt d 5 1
  let s := s.wr F.SER_PORT_STATUS.PEER_NODE (bits (leAt d 8 4) 0 17) p
  let s := s.wr F.SER_PORT_STATUS.PEER_PORT (leAt d 12 1) p
  let s := s.wr F.SER_PORT_STATUS.PEER_ROUTER (b2n (bit fl 1)) p
  let s := s.wr F.SER_PORT_STATUS.PEER_BEAT (b2n (bit fl 2)) p
  let s := s.wr F.SER_PORT_STATUS.PEER_STEP (leAt d 6 1) p
  let id := leAt d 4 1
  let old := (s.sp p).idOf k
  let s := s.modSp p (fun x => { x.modCap k (fun c => { c.count true (bit fl 0) with id := some id, preset := leAt d 13 1 % 8 }) with
    peerWidth := leAt d 7 1 })
  let x := s.sp p
  let s := s.wr F.SER_PORT_STATUS.SWAPPED (b2n (x.idOf 1 == some 0 && x.idOf 0 != some 0)) p
  let s := if (x.idOf 0).isSome && x.idOf 0 == x.idOf 1 && old != some id then s.raise .SER_PEER_MISMATCH p else s
  if s.serState p = serDetect then s.wr F.SER_PORT_STATUS.STATE serCaps p else s

/-- The time of one capability set on physical lane `k` in DETECT or CAPS: what was received in it is valid or discarded, and the lane
sends its own next set (R83 to R87). -/
def State.capabilitySet (s : State) (p k : Nat) (raw : Heard) (peak : Nat) : State :=
  if (s.serState p ≠ serDetect ∧ s.serState p ≠ serCaps) ∨ s.on F.SER_LANE_STATUS.FAILED (2 * p + k) ∨ ((s.sp p).cap k).counted then s else
  let r := polarity (bit (s.rd F.SER_PORT_STATUS.POL_INV p) k) 0x3CA55AC3 raw.levels
  let s := s.sigDetect (2 * p + k) raw.mv
  let s := if capSetOk r.1 then s.hearSet p k r.1 r.2 peak else s.modSp p (fun x => x.modCap k (fun c => c.count false false))
  s.sendCapSet p k

/-- A lane sends PRBS13 from all ones at a step for a number of µs (R88, R100, Table 3.1). -/
def State.sendPrbs (s : State) (p k step us : Nat) : State := s.emit (.prbs13 p k step (us * lineRate step / 100))

/-- A lane begins to train (R87, R88): it loads the preset that its peer asked for and sends PRBS13 for TRAIN_US and CHECK_US. -/
def State.trainLane (s : State) (p k step : Nat) : State :=
  (s.loadPreset (2 * p + k) ((s.sp p).cap k).preset).sendPrbs p k step (s.rd F.SER_BRINGUP_CFG.TRAIN_US + s.rd F.SER_BRINGUP_CFG.CHECK_US)

/-- The countdown ends: a lane has sent the set that carries 0 (R85). Every lane in CAPS switches to the agreed step and trains; where
both hear the same LANE_ID only physical lane 0 does (R84). -/
def State.countdownEnd (s : State) (p : Nat) : State :=
  let x := s.sp p
  if s.serState p = serCaps ∧ (x.c0.counted ∨ x.c1.counted) then
    let dup := (x.idOf 0).isSome && x.idOf 0 == x.idOf 1
    let mask := b2n (x.idOf 0).isSome + (if (x.idOf 1).isSome && !dup then 2 else 0)
    let step := min (s.offerStep p) (s.rd F.SER_PORT_STATUS.PEER_STEP p)
    let s := (s.wr F.SER_PORT_STATUS.STATE serTrain p).wr F.SER_PORT_STATUS.STEP step p
    let s := s.setSp p { x with training := mask, agreedStep := step, agreedWidth := min (s.offerWidth p) x.peerWidth,
                                trained := false, checked := false, ownPass := 0 }
    foldS (bitsSet 2 mask) s (fun s k => s.trainLane p k step)
  else s

/-- A bring-up fails at S0 or in CAPS (R86, R91). -/
def State.bringupFail (s : State) (p : Nat) : State :=
  ((s.inc F.SER_PORT_STATUS.FAILS p).raise .SER_BRINGUP_FAIL p).serTo p serWait

/-- CAPS_TIMEOUT expires without a countdown (R86). -/
def State.capsTimeout (s : State) (p : Nat) : State :=
  if s.serState p ≠ serCaps ∨ (s.sp p).c0.counting ∨ (s.sp p).c1.counting then s
  else if s.roleFits p then s.bringupFail p
  else (s.raise .SER_PEER_MISMATCH p).serTo p serWait

/-- Put trained values into a lane's equalizer (R108), but into what is held (R110). -/
def State.putEq (s : State) (l : Nat) (e : EqVals) : State :=
  let s := if s.eqHeld l .SER_CTLE then s else (s.wr F.SER_CTLE.PEAK e.peak l).wr F.SER_CTLE.DC_GAIN e.dcGain l
  if s.eqHeld l .SER_DFE_TAPS then s
  else foldS (List.zip Reg.SER_DFE_TAPS.fields e.taps) s (fun s t => s.wr t.1 (ofSigned 5 t.2) l)

/-- TRAIN_US ends: the trained coefficients replace what software committed meanwhile (R108), and are held for the check (R88). -/
def State.trainEnd (s : State) (p : Nat) (e0 e1 : EqVals) : State :=
  if s.serState p = serTrain ∧ !(s.sp p).trained then
    let s := foldS (bitsSet 2 (s.sp p).training) s (fun s k =>
      (s.loadPreset (2 * p + k) ((s.sp p).cap k).preset).putEq (2 * p + k) (if k = 0 then e0 else e1))
    s.modSp p (fun x => { x with trained := true })
  else s

/-- The lane is in its check, in which its coefficients are held (R88). -/
def State.inCheck (s : State) (l : Nat) : Bool :=
  s.serState (l / 2) == serTrain && (s.sp (l / 2)).trained && bit (s.sp (l / 2)).training (l % 2)

/-- The result block that a lane sends (R89). -/
def resultBlockBytes (k pass step : Nat) : Bytes :=
  let b := leBytes 4 0x5AC33CA5 ++ leBytes 1 k ++ leBytes 1 pass ++ leBytes 1 step ++ leBytes 21 0
  b ++ leBytes 4 (crc32 b)

/-- A lane sends 64 result blocks at a step, unscrambled (R89). -/
def State.sendResult (s : State) (p k pass step : Nat) : State := s.emit (.wire p k 64 (symbols step (resultBlockBytes k pass step)))

/-- Bit errors of a check against PRBS13 at a step (R88), on a lane that is received inverted or not. -/
def prbsErrors (step : Nat) (inv : Bool) (r : PrbsRx) : Nat := (pattern 2).errors r.start (levelBits step inv r.syms)

/-- CHECK_US ends (R88, R89): each training lane passes with at most ERR_MAX errors and its lock kept; result blocks go
out with PASS by the LANE_ID that the passing lane hears. -/
def State.checkEnd (s : State) (p : Nat) (r0 r1 : PrbsRx) : State :=
  let x := s.sp p
  if s.serState p = serTrain ∧ !x.checked then
    let ok := fun k =>
      decide (prbsErrors x.agreedStep (bit (s.rd F.SER_PORT_STATUS.POL_INV p) k) (if k = 0 then r0 else r1) ≤ s.rd F.SER_BRINGUP_CFG.ERR_MAX) &&
      s.on F.SER_LANE_STATUS.CDR_LOCK (2 * p + k)
    let passed := (bitsSet 2 x.training).filter ok
    let own := passed.foldl (fun a k => a + 2 ^ k) 0
    let pass := passed.foldl (fun a k => setBit a ((x.idOf k).getD 0)) 0
    let s := s.setSp p { x with checked := true, ownPass := own }
    foldS (bitsSet 2 x.training) s (fun s k => s.sendResult p k pass x.agreedStep)
  else s

/-- The lanes used when both results are in (R90). -/
def State.lanesUsed (s : State) (p peerPass : Nat) : Nat :=
  let x := s.sp p
  let both := (bitsSet 2 x.ownPass).filter (fun k => bit peerPass k)
  if x.agreedWidth = 2 ∨ both.length ≤ 1 then both.foldl (fun a k => a + 2 ^ k) 0
  else
    let me := (s.nodeId, p)
    let peer := (s.rd F.SER_PORT_STATUS.PEER_NODE p, s.rd F.SER_PORT_STATUS.PEER_PORT p)
    if peer.1 < me.1 ∨ (peer.1 = me.1 ∧ peer.2 < me.2) then 2 ^ x.hears 0 else 1

/-- A used lane sends its start marker, unscrambled, and data begins in both directions with the scramblers at all ones (R92). -/
def State.startData (s : State) (p k step : Nat) : State :=
  (s.modLane (2 * p + k) (fun x => { x with txScr := scrambler.ones, rxScr := scrambler.ones })).emit
    (.wire p k 1 (symbols step (leBytes 8 0xF00FF00FF00FF00F)))

/-- Both results are in (R90, R91): the port enters ACTIVE, falls back one step, or fails at S0. -/
def State.decideLanes (s : State) (p peerPass : Nat) : State :=
  let x := s.sp p
  let used := s.lanesUsed p peerPass
  let n := popcount 2 used
  if n = 0 then
    if x.agreedStep = 0 then s.bringupFail p
    else ((s.serTo p serCaps).modSp p (fun y => { y with
      attempt := x.attempt + 1, c0 := { y.c0 with id := none }, c1 := { y.c1 with id := none } })).raise .SER_STEP_FALLBACK p
  else
    let s := s.wr F.SER_PORT_STATUS.STATE serActive p
    let s := (s.wr F.SER_PORT_STATUS.LANES used p).wr F.SER_PORT_STATUS.WIDTH n p
    let s := s.setSp p { x with rxLanes := used, reacqBeats := 0, reacq := none, reacqOwn := none, reacqPeer := none }
    let s := if n < x.agreedWidth then s.raise .SER_NARROWED p else s
    (foldS (bitsSet 2 used) s (fun s k => s.startData p k x.agreedStep)).linkStart p

/-- The PASS byte of a valid result block (R89). -/
def resultPass (d : Bytes) : Option Nat :=
  if leAt d 0 4 = 0x5AC33CA5 ∧ leAt d 28 4 = crc32 (d.take 28) ∧ leAt d 4 1 < 2 ∧ leAt d 7 21 = 0 then some (leAt d 5 1) else none

/-- The lowest used lane of a port, which a narrowing by TARGET_WIDTH keeps (DESIGN CHOICE, log entry 113). -/
def State.keptLane (s : State) (p : Nat) : Nat := if bit (s.rd F.SER_PORT_STATUS.LANES p) 0 then 0 else 1

/-- Post a lane management payload (Table 3.6) to the peer. -/
def State.sendLaneMsg (s : State) (p kind lane seq status a4 a5 a6 a7 atBeat : Nat) : State :=
  s.modLink p (fun l => { l with ctrlS := l.ctrlS ++ [(0x10,
    leBytes 1 kind ++ leBytes 1 lane ++ leBytes 1 seq ++ leBytes 1 status ++ leBytes 1 a4 ++ leBytes 1 a5 ++ leBytes 1 a6 ++
    leBytes 1 a7 ++ leBytes 4 atBeat ++ leBytes 4 0)] })

/-- Send a WIDTH_REQ `ahead` Beats before its change (R98, R102). -/
def State.sendWidthReq (s : State) (p width lane ahead : Nat) : State :=
  let x := s.sp p
  let at' := (s.beat + ahead) % 2 ^ 32
  let s := s.setSp p { x with widthReq := some ⟨x.seq, width, lane, s.beat + ahead, none⟩, seq := (x.seq + 1) % 256 }
  s.sendLaneMsg p 2 lane x.seq 0 width 0 0 0 at'

/-- Re-acquisition of a lane starts (R100): PRBS13 at the port's step for 100 µs, from the lane's last coefficients. -/
def State.reacqStart (s : State) (p k : Nat) : State :=
  let l := 2 * p + k
  (s.modSp p (fun x => { x with reacq := some k, reacqOwn := none, reacqPeer := none,
                                reacqFfe := (s.rd F.SER_FFE.PRE l, s.rd F.SER_FFE.POST l) })).sendPrbs p k
    (s.rd F.SER_PORT_STATUS.STEP p) 100

/-- Re-acquisition is decided once both results are in (R100, R103): the lane passes both ways, and the port asks to widen,
16 Beats ahead as to narrow (DESIGN CHOICE, log entry 135). -/
def State.reacqDecide (s : State) (p : Nat) : State :=
  let x := s.sp p
  match x.reacq, x.reacqOwn, x.reacqPeer with
  | some k, some own, some peer =>
    let s := s.modSp p (fun x => { x with reacq := none, reacqOwn := none, reacqPeer := none })
    if own && bit peer k then (s.wr F.SER_LANE_STATUS.CDR_LOCK 1 (2 * p + k)).sendWidthReq p 2 k 16 else s
  | _, _, _ => s

/-- A received result block on physical lane `k` (R89, R100). -/
def State.resultBlock (s : State) (p k : Nat) (raw : List Level) : State :=
  match resultPass (unsymbols (s.rd F.SER_PORT_STATUS.STEP p) (bit (s.rd F.SER_PORT_STATUS.POL_INV p) k) raw) with
  | none => s
  | some pass =>
    if s.serState p = serTrain ∧ (s.sp p).checked then s.decideLanes p pass
    else if s.serState p = serActive ∧ (s.sp p).reacq = some k then (s.modSp p (fun x => { x with reacqPeer := some pass })).reacqDecide p
    else s

/-- 50 µs pass without a result block, which counts as PASS 0 (R89). -/
def State.resultWaitEnd (s : State) (p : Nat) : State :=
  if s.serState p = serTrain ∧ (s.sp p).checked then s.decideLanes p 0
  else if s.serState p = serActive ∧ (s.sp p).reacqOwn.isSome then (s.modSp p (fun x => { x with reacqPeer := some 0 })).reacqDecide p
  else s

/-- Lane calibration ends (R94). -/
def State.calibrationDone (s : State) (p : Nat) (ok0 ok1 : Bool) : State :=
  match (s.sp p).calib with
  | none => s
  | some st =>
    let s := foldS [0, 1] s (fun s k =>
      let l := 2 * p + k
      if !s.needsCal l then s
      else if (if k = 0 then ok0 else ok1) then s.wr F.SER_LANE_STATUS.CAL_OK 1 l
      else (s.wr F.SER_LANE_STATUS.FAILED 1 l).raise .SER_CAL_FAIL l)
    let s := s.modSp p (fun x => { x with calib := none })
    s.serTo p (if s.pllLocked p then st else serWait)

/-- The WAIT time expires (Table 3.4, R95). -/
def State.retryMs (s : State) (p : Nat) : State :=
  if s.serState p = serWait ∧ s.pllLocked p ∧ (s.sp p).calib.isNone then s.calibrate p (s.modeState p) else s

/-- A committed TARGET_WIDTH (R98): below WIDTH it asks to narrow; at 2 on a narrowed port it re-acquires first. -/
def State.widthCommitted (s : State) (p : Nat) : State :=
  if s.serState p ≠ serActive then s else
  let w := s.rd F.SER_PORT_STATUS.WIDTH p
  let t := min (s.rd F.SER_PORT_CTRL.TARGET_WIDTH p) (s.portMaxWidth p)
  if t < w then (if (s.sp p).widthReq.isSome then s else s.sendWidthReq p 1 (s.keptLane p) 16)
  else if w < t ∧ (s.sp p).reacq.isNone ∧ !s.on F.SER_LANE_STATUS.FAILED (2 * p + 1 - s.keptLane p) then
    s.reacqStart p (1 - s.keptLane p)
  else s

/-- A lane loses lock (Table 3.4, R102), at the amplitude that its receiver still finds. In CAPS every lane is used but physical lane 1
where both hear one LANE_ID (R84); in TRAIN those are that train. -/
def State.laneLockLost (s : State) (p k mv : Nat) : State :=
  let st := s.serState p
  let s := (s.sigDetect (2 * p + k) mv).wr F.SER_LANE_STATUS.CDR_LOCK 0 (2 * p + k)
  let lost := fun (j : Nat) => !s.on F.SER_LANE_STATUS.CDR_LOCK (2 * p + j)
  let x := s.sp p
  if st = serCaps then (if lost 0 && (lost 1 || ((x.idOf 0).isSome && x.idOf 0 == x.idOf 1)) then s.serTo p serDetect else s)
  else if st = serTrain then (if (bitsSet 2 x.training).all lost then s.serTo p serDetect else s)
  else if st = serActive then
    let used := bitsSet 2 (s.rd F.SER_PORT_STATUS.LANES p)
    if !used.contains k then s
    else if used.all lost then
      let d := if s.lnkState p = lnkFencing then s.fenceTo p else serDetect
      ((s.lanesLost p).serTo p d).settlePort p d
    else ((s.sendWidthReq p 1 (1 - k) 4).raise .SER_NARROWED p)
  else s

/-- A chiplet PLL loses lock (R95, Table 3.4). -/
def State.pllUnlock (s : State) (c : Nat) : State :=
  if !bit (s.rd F.SER_PLL_STATUS.LOCK) c then s else
  let s := (s.wr F.SER_PLL_STATUS.LOCK (clrBit (s.rd F.SER_PLL_STATUS.LOCK) c)).raise .SER_PLL_UNLOCK c
  foldS ((List.range 16).map (fun i => 16 * c + i)) s (fun s p =>
    let st := s.serState p
    if st = serOff ∨ st = serWait then s
    else if st = serActive then
      let d := if s.lnkState p = lnkFencing ∧ s.fenceTo p = serOff then serOff else serWait
      ((s.lanesLost p).serTo p d).settlePort p d
    else if st = serTest then (s.wr F.SER_PORT_CTRL.MODE 0 p).serTo p serWait
    else s.serTo p serWait)

/-- A chiplet PLL locks (R95); its ports may leave WAIT from now on. -/
def State.pllLock (s : State) (c : Nat) : State :=
  s.wr F.SER_PLL_STATUS.LOCK (setBit (s.rd F.SER_PLL_STATUS.LOCK) c)

/-- RESTART written (Table 3.4). -/
def State.restart (s : State) (p : Nat) : State :=
  let st := s.serState p
  if st = serOff ∨ st = serTest then s
  else if st = serActive then s.leave p fnRestart serDetect
  else if st = serWait then (if s.pllLocked p then s.calibrate p (s.modeState p) else s)
  else s.serTo p serDetect

/-- A calibration under way ends where MODE now says (Table 3.4, R116). -/
def State.calibToward (s : State) (p : Nat) : State :=
  if (s.sp p).calib.isSome then s.modSp p (fun x => { x with calib := some (s.modeState p) }) else s

/-- MODE set to TEST (Table 3.4); a port in WAIT waits there while its PLL is not locked (R95). -/
def State.modeTest (s : State) (p : Nat) : State :=
  let s := (s.wr F.SER_PORT_CTRL.MODE 1 p).calibToward p
  let st := s.serState p
  if st = serOff then s.portEnable p
  else if st = serActive then s.leave p fnTest serTest
  else if st = serTest then s
  else if st = serWait then (if s.pllLocked p then s.calibrate p serTest else s)
  else s.serTo p serTest

/-- MODE set to OPERATE (Table 3.4). -/
def State.modeOperate (s : State) (p : Nat) : State :=
  let s := (s.wr F.SER_PORT_CTRL.MODE 0 p).calibToward p
  if s.serState p = serTest then s.serTo p serDetect else s.portEnable p

/-- Lanes to OFF for a cause (Table 3.4): by an orderly fence from ACTIVE, at once otherwise. -/
def State.lanesOff (s : State) (p reason : Nat) : State :=
  if s.serState p = serActive then s.leave p reason serOff else s.serTo p serOff

/-- POWER_DOWN set (R115). -/
def State.powerDown (s : State) (p : Nat) : State := (s.wr F.SER_PORT_CTRL.POWER_DOWN 1 p).lanesOff p fnPowerDown

/-- POWER_DOWN cleared: an enabled port leaves OFF. -/
def State.powerUp (s : State) (p : Nat) : State := (s.wr F.SER_PORT_CTRL.POWER_DOWN 0 p).portEnable p

/-- The equalization loop is enabled: TASK_EN bit 19. -/
def State.eqLoop (s : State) : Bool := bit (s.rd F.BEA_CONFIG.TASK_EN) 3

/-- A malformed payload is answered with STATUS 4 (R97). -/
def State.badLaneMsg (s : State) (p kind lane seq : Nat) : State :=
  let s := s.raise .SER_LANE_MSG_BAD p
  if kind ≤ 3 then s.sendLaneMsg p (kind / 2 * 2 + 1) lane seq 4 0 0 0 0 0
  else
    match s.pick 256 with
    | (k, s) => s.sendLaneMsg p k lane seq 4 0 0 0 0 0

/-- A received FFE_REQ for transmitter lane `lane` (R97, R106, R107): overridden, also while FREEZE holds the fields (R110; DEDUCED, log
entry 114), or staged for the next boundary. -/
def State.ffeReq (s : State) (p lane seq : Nat) (dpre dpost : Int) : State :=
  if 1 < lane ∨ dpre < -1 ∨ 1 < dpre ∨ dpost < -1 ∨ 1 < dpost then s.badLaneMsg p 0 lane seq else
  let l := 2 * p + lane
  if !s.eqLoop || s.eqHeld l .SER_FFE then
    s.sendLaneMsg p 1 lane seq 2 0 0 (s.rd F.SER_FFE.PRE l) (s.rd F.SER_FFE.POST l) 0
  else
    let pre : Int := (s.shadowOf F.SER_FFE.PRE l : Int) + dpre
    let post : Int := (s.shadowOf F.SER_FFE.POST l : Int) + dpost
    let a := (max 0 (min 12 pre)).toNat
    let b := (max 0 (min 20 post)).toNat
    let s := ((s.stage F.SER_FFE.PRE a l).stage F.SER_FFE.POST b l).stage F.SER_FFE.MAIN (63 - a - b) l
    s.modLane l (fun x => { x with staged := some (seq, if (a : Int) = pre then 0 else 1, if (b : Int) = post then 0 else 1) })

/-- The answers to the FFE requests whose values have just committed (R106). -/
def State.ffeAnswers (s : State) : State :=
  foldS s.lane s (fun s e =>
    match (s.laneSt e.1).staged with
    | some (seq, a, b) =>
      (s.modLane e.1 (fun x => { x with staged := none })).sendLaneMsg (e.1 / 2) 1 (e.1 % 2) seq (if a + b = 0 then 0 else 1) 0 0
        (s.rd F.SER_FFE.PRE e.1) (s.rd F.SER_FFE.POST e.1) 0
    | none => s)

/-- Send an FFE_REQ for the peer's transmitter that a lane hears (R97, R106), over a link that is up: in TEST none is
exchanged (R112). -/
def State.sendFfeReq (s : State) (l : Nat) (pre post : Int) : State :=
  let p := l / 2
  if s.lnkState p ≠ lnkUp then s else
  let x := s.sp p
  let id := (x.idOf (l % 2)).getD (l % 2)
  let s := (s.setSp p { x with seq := (x.seq + 1) % 256 }).modLane l (fun y => { y with reqSeq := some x.seq })
  s.sendLaneMsg p 0 id x.seq 0 (ofSigned 8 pre) (ofSigned 8 post) 0 0 0

/-- The inverse of a lane's last request goes out (R109). -/
def State.unask (s : State) (l : Nat) : State :=
  match (s.laneSt l).undoReq with
  | some (a, b) => (s.modLane l (fun y => { y with undoReq := none })).sendFfeReq l (-a) (-b)
  | none => s

/-- A received FFE_ACK ends the outstanding request of the lane that hears LANE_ID `lane` (R106); an undo
that waited for it follows (R109). -/
def State.ffeAck (s : State) (p lane seq : Nat) : State :=
  if 1 < lane then s.badLaneMsg p 1 lane seq else
  let l := 2 * p + (s.sp p).hears lane
  if (s.laneSt l).reqSeq = some seq then
    let s := s.modLane l (fun x => { x with reqSeq := none })
    if 0 < (s.laneSt l).frozen then s.unask l else s
  else s

/-- A Beat count of 32 bits is ahead of the device's own (R98). -/
def State.beatAhead (s : State) (at' : Nat) : Bool :=
  let d := (at' + 2 ^ 32 - s.beat % 2 ^ 32) % 2 ^ 32
  decide (0 < d ∧ d < 2 ^ 31)

/-- The Beat count that a 32-bit Beat ahead of the device's own names. -/
def State.beatOf (s : State) (at' : Nat) : Nat := s.beat + (at' + 2 ^ 32 - s.beat % 2 ^ 32) % 2 ^ 32

/-- A received WIDTH_REQ (R97, R98): answered done, and the change agreed, or refused. A NEW_WIDTH other than 1 or 2 is malformed
(DESIGN CHOICE, log entry 113). -/
def State.widthReqMsg (s : State) (p lane seq width at' : Nat) : State :=
  if 1 < lane ∨ (width ≠ 1 ∧ width ≠ 2) then s.badLaneMsg p 2 lane seq else
  if s.beatAhead at' ∧ (width = 1 ∨ s.rd F.SER_PORT_CTRL.TARGET_WIDTH p = 2) then
    let keep := (s.sp p).hears lane
    let s := s.modSp p (fun x => { x with txChange := some (s.beatOf at', width, keep), rxChange := some (width, keep) })
    s.sendLaneMsg p 3 lane seq 0 0 0 0 0 0
  else (s.modSp p (fun x => { x with wide := x.wide || width == 2 })).sendLaneMsg p 3 lane seq 3 0 0 0 0 0

/-- A received WIDTH_ACK (R98): the change is agreed, or the request is to be repeated. -/
def State.widthAckMsg (s : State) (p lane seq status : Nat) : State :=
  if 1 < lane then s.badLaneMsg p 3 lane seq else
  match (s.sp p).widthReq with
  | some r =>
    if r.seq ≠ seq then s
    else if status = 0 then
      s.modSp p (fun x => { x with widthReq := none, txChange := some (r.atBeat, r.width, r.lane), rxChange := some (r.width, r.lane) })
    else s.modSp p (fun x => { x with widthReq := some { r with refusedAt := some s.beat } })
  | none => s

/-- A used lane of a two-lane port has lost its lock (R102). -/
def State.laneGone (s : State) (p : Nat) : Bool :=
  s.rd F.SER_PORT_STATUS.WIDTH p == 2 && (!s.on F.SER_LANE_STATUS.CDR_LOCK (2 * p) || !s.on F.SER_LANE_STATUS.CDR_LOCK (2 * p + 1))

/-- 64 Beats after a refusal the request is repeated while the target still differs (R98). -/
def State.widthReqRepeat (s : State) (p : Nat) : State :=
  match (s.sp p).widthReq with
  | some r =>
    match r.refusedAt with
    | some b =>
      if b + 64 ≤ s.beat then
        if s.serState p = serActive ∧ s.laneGone p ∧ r.width = 1 then s.sendWidthReq p 1 r.lane 4
        else if s.serState p = serActive ∧ s.offerWidth p ≠ s.rd F.SER_PORT_STATUS.WIDTH p then s.sendWidthReq p r.width r.lane 16
        else s.modSp p (fun x => { x with widthReq := none })
      else s
    | none => s
  | none => s

/-- The lanes in use at a width (R99). -/
def lanesAt (width keep : Nat) : Nat := if width = 2 then 3 else 2 ^ keep

/-- The width marker on a lane: 16 bytes of 0xE1, unscrambled, without advancing the scrambler (R99). -/
def State.sendWidthMarker (s : State) (p k : Nat) : State :=
  s.emit (.wire p k 1 (symbols (s.rd F.SER_PORT_STATUS.STEP p) (List.replicate 16 0xE1)))

/-- At the boundary of AT_BEAT the transmitter sends the width marker on its old width and goes on at the new (R99); a lane that joins
starts its scrambler anew (R92; DEDUCED, log entry 111). -/
def State.widthChange (s : State) (p : Nat) : State :=
  match (s.sp p).txChange with
  | some (at', w, keep) =>
    if at' ≤ s.beat ∧ s.serState p = serActive then
      let old := s.rd F.SER_PORT_STATUS.LANES p
      let s := foldS (bitsSet 2 old) s (fun s k => s.sendWidthMarker p k)
      let s := foldS ((bitsSet 2 (lanesAt w keep)).filter (fun k => !bit old k)) s (fun s k =>
        s.modLane (2 * p + k) (fun x => { x with txScr := scrambler.ones }))
      let s := (s.wr F.SER_PORT_STATUS.WIDTH w p).wr F.SER_PORT_STATUS.LANES (lanesAt w keep) p
      s.modSp p (fun x => { x with txChange := none, reacqBeats := 0 })
    else s
  | none => s

/-- The receiver finds the width marker and switches width (R99). -/
def State.widthMarkerSeen (s : State) (p : Nat) : State :=
  match (s.sp p).rxChange with
  | some (w, keep) =>
    let s := foldS ((bitsSet 2 (lanesAt w keep)).filter (fun k => !bit (s.sp p).rxLanes k)) s (fun s k =>
      s.modLane (2 * p + k) (fun x => { x with rxScr := scrambler.ones }))
    s.modSp p (fun x => { x with rxChange := none, rxLanes := lanesAt w keep })
  | none => s

/-- Re-acquisition of the unused lane starts, once every 1,024 Beats while narrowed (R103). -/
def State.reacquisition (s : State) (p : Nat) : State :=
  let k := 1 - s.keptLane p
  if s.serState p = serActive ∧ s.rd F.SER_PORT_STATUS.WIDTH p < s.offerWidth p ∧ 1024 ≤ (s.sp p).reacqBeats ∧
     !s.on F.SER_LANE_STATUS.FAILED (2 * p + k) then
    (s.modSp p (fun x => { x with reacqBeats := 0 })).reacqStart p k
  else s

/-- The 100 µs of a re-acquisition end (R100, R108): the lane's values are written, with the FFE values that it ran with, and it passes
with at most ERR_MAX errors over the last 20 µs; its result blocks go out. -/
def State.reacquisitionEnd (s : State) (p : Nat) (r : PrbsRx) (e : EqVals) : State :=
  match (s.sp p).reacq with
  | none => s
  | some k =>
    let x := s.sp p
    if s.serState p ≠ serActive then s.modSp p (fun x => { x with reacq := none, reacqOwn := none, reacqPeer := none }) else
    let l := 2 * p + k
    let step := s.rd F.SER_PORT_STATUS.STEP p
    let ok := decide (prbsErrors step (bit (s.rd F.SER_PORT_STATUS.POL_INV p) k) r ≤ s.rd F.SER_BRINGUP_CFG.ERR_MAX)
    let s := (s.putFfe l x.reacqFfe.1 x.reacqFfe.2).putEq l e
    let s := s.sendResult p k (if ok then 2 ^ ((x.idOf k).getD k) else 0) step
    (s.modSp p (fun x => { x with reacqOwn := some ok })).reacqDecide p

/-- 64 visits after a revert the lane resumes adaptation (R109). -/
def State.eqFreezeEnd (s : State) (l : Nat) : State :=
  if (s.laneSt l).frozen = 0 ∧ !s.on F.SER_EQ_OVERRIDE.FREEZE l then s.wrNow F.SER_LANE_STATUS.FROZEN 0 l else s

/-- A lane's port is in TEST (R112). -/
def State.laneInTest (s : State) (l : Nat) : Bool := s.serState (l / 2) == serTest

/-- The step at which a lane runs: that of SER_TEST in TEST (R112). -/
def State.laneStep (s : State) (l : Nat) : Nat := if s.laneInTest l then s.rd F.SER_TEST.STEP l else s.rd F.SER_PORT_STATUS.STEP (l / 2)

/-- INJECT flips the next bit that the generator sends (R114); outside TEST the write is refused (R112). In far-end loop the generator
is ignored (R113). -/
def State.injectBit (s : State) (l : Nat) : State :=
  if !s.laneInTest l then s.raise .CFG_REJECT
  else if s.on F.SER_TEST.GEN_EN l ∧ s.rd F.SER_TEST.LOOP l ≠ 3 then s.modLane l (fun x => { x with flip := true }) else s

/-- CLEAR (R114); outside TEST the write is refused (R112). -/
def State.clearPrbs (s : State) (l : Nat) : State :=
  if !s.laneInTest l then s.raise .CFG_REJECT else
  (((s.wr F.SER_PRBS_COUNT.BITS 0 l).wr F.SER_PRBS_COUNT.ERRORS 0 l).wr F.SER_PRBS_COUNT.SAT 0 l).modLane l
    (fun x => { x with prbsBits := 0 })

/-- Bits, in units of 2^24, and errors that a checker counted (R114, Table 3.23). -/
def State.prbsCount (s : State) (l n errs : Nat) : State :=
  let total := (s.laneSt l).prbsBits + n
  let b := s.rd F.SER_PRBS_COUNT.BITS l + total / 2 ^ 24
  let e := s.rd F.SER_PRBS_COUNT.ERRORS l + errs
  let s := (s.wr F.SER_PRBS_COUNT.BITS (min b (2 ^ 22 - 1)) l).wr F.SER_PRBS_COUNT.ERRORS (min e (2 ^ 40 - 1)) l
  let s := s.modLane l (fun x => { x with prbsBits := total % 2 ^ 24 })
  if 2 ^ 22 ≤ b ∨ 2 ^ 40 ≤ e then s.wr F.SER_PRBS_COUNT.SAT 1 l else s

/-- The pattern of a lane's generator and checker. -/
def State.testPattern (s : State) (l : Nat) : Poly := pattern (s.rd F.SER_TEST.PATTERN l)

/-- The next `n` bits of a lane's generator, inverted when INVERT is set, with a bit to inject flipped (R114). The register with which a
generator starts is open (log entry 112). -/
def State.generate (s : State) (l n : Nat) : List Bool × State :=
  let p := s.testPattern l
  let (st, s) := match (s.laneSt l).gen with
    | some st => (st, s)
    | none => let r := s.pick p.ones; (r.1 + 1, r.2)
  let r := p.run n st
  let inv := s.on F.SER_TEST.INVERT l
  let b := r.1.map (fun x => x ^^ inv)
  let b := if (s.laneSt l).flip then (match b with | x :: t => (!x) :: t | [] => []) else b
  (b, s.modLane l (fun x => { x with gen := some r.2, flip := x.flip && n == 0 }))

/-- The checker of a lane takes received bits (R114). -/
def State.check (s : State) (l : Nat) (b : List Bool) : State :=
  if !s.on F.SER_TEST.CHK_EN l then s else
  let inv := s.on F.SER_TEST.INVERT l
  let c := b.foldl (fun c x => c.step (s.testPattern l) (x ^^ inv)) { (s.laneSt l).chk with counted := 0, wrong := 0 }
  ((s.modLane l (fun x => { x with chk := c })).prbsCount l c.counted c.wrong).wr F.SER_PRBS_COUNT.LOCK (b2n c.lock) l

/-- The symbols that a lane in TEST has received since it was last told, and those it has sent in the same time (Table 3.9, R113,
R114): the generator's, or in far-end loop what it received. In near-end parallel loop what it receives is what it generates. -/
def State.laneTest (s : State) (l : Nat) (rx : List Level) : State :=
  if !s.laneInTest l then s else
  let step := s.laneStep l
  let inv := bit (s.rd F.SER_PORT_STATUS.POL_INV (l / 2)) (l % 2)
  let send (s : State) (x : List Level) : State := s.emit (.wire (l / 2) (l % 2) 1 x)
  let got := levelBits step inv rx
  let gen := s.on F.SER_TEST.GEN_EN l
  match s.rd F.SER_TEST.LOOP l with
  | 0 => if gen then (let r := s.generate l got.length; (send r.2 (levelsOf step r.1)).check l got) else s.check l got
  | 1 => if gen then (s.generate l got.length).2.check l got else s.check l got
  | 2 => if gen then (let r := s.generate l got.length; r.2.check l r.1) else s
  | _ => (send s rx).check l got

/-- The payload of a LANE_MGMT message that has arrived (Table 3.6). The STATUS of a request is not looked at (DESIGN CHOICE, log
entry 113); what a KIND does not use counts as reserved (DESIGN CHOICE, log entry 136). -/
def State.laneMgmtMsg (s : State) (p : Nat) (b : Bytes) : State :=
  let kind := leAt b 0 1
  let lane := leAt b 1 1
  let seq := leAt b 2 1
  let used4 := kind == 0 || kind == 2
  let res := (used4 || leAt b 4 1 == 0) && (kind == 0 || leAt b 5 1 == 0) && (kind == 1 || leAt b 6 2 == 0) &&
    (kind == 2 || leAt b 8 4 == 0) && leAt b 12 4 == 0
  if 3 < kind ∨ res = false then s.badLaneMsg p kind lane seq
  else if kind = 0 then s.ffeReq p lane seq (toSigned 8 (leAt b 4 1)) (toSigned 8 (leAt b 5 1))
  else if kind = 1 then s.ffeAck p lane seq
  else if kind = 2 then s.widthReqMsg p lane seq (leAt b 4 1) (leAt b 8 4)
  else s.widthAckMsg p lane seq (leAt b 3 1)

/-- Clearing SER's ENABLE, or its unit reset (R116): every port to OFF, with an orderly fence where the link is up. -/
def State.serOffAll (s : State) : State := foldS (List.range 64) s (fun s p => s.lanesOff p fnSerOff)

/-- Setting SER's ENABLE: every enabled port leaves OFF (Table 3.4). -/
def State.serOnAll (s : State) : State := foldS (List.range 64) s (fun s p => s.portEnable p)

/-- Clearing LNK's ENABLE, or its unit reset (R145); also an RTE unit reset with its own REASON (R142). -/
def State.fenceAll (s : State) (reason dest : Nat) : State :=
  foldS (List.range 64) s (fun s p =>
    if s.lnkState p = lnkInit ∨ s.lnkState p = lnkUp ∨ s.lnkState p = lnkFencing then s.leave p reason dest else s)

end Sys2Proof.Machine
end

