-- ==== Sys2Proof/Machine/Eq.lean ====
section
/-! DEFINITION. The equalization loop at a visit of a lane, and the loop step of R396 (03_lanes.md, 14_power_thermal_wear.md). -/

namespace Sys2Proof.Machine

/-- The step of a Scribe loop (R396): gains in 1/256, the floor toward −∞, then the step limit. -/
def loopStep (gp gi limit : Nat) (e prev : Int) : Int :=
  max (-(limit : Int)) (min (limit : Int) (((gp : Int) * (e - prev) + (gi : Int) * e) / 256))

/-- The step of loop `k` with the gains in effect. -/
def State.loopStep (s : State) (k : Nat) (e prev : Int) (cap : Nat := 2047) : Int :=
  Machine.loopStep (s.rd F.PWR_LOOP_GAIN.GAIN_P k) (s.rd F.PWR_LOOP_GAIN.GAIN_I k) (min cap (s.rd F.PWR_LOOP_GAIN.STEP_LIMIT k)) e prev

/-- The fields that the equalization loop moves, with their ranges (Table 3.7). -/
def eqFields : List (Fld × Int × Int) :=
  (F.SER_CTLE.PEAK, 0, 15) :: (F.SER_CTLE.DC_GAIN, 0, 7) :: (Reg.SER_DFE_TAPS.fields.map (fun f => (f, -16, 15)))

/-- The number that a field stands for: taps are signed. -/
def eqVal (f : Fld) (v : Nat) : Int := if f.reg = .SER_DFE_TAPS then toSigned 5 v else v

/-- One field of a visit: the step, or a field at its limit (R105, R109). -/
def State.eqMove (s : State) (l i : Nat) (f : Fld × Int × Int) (e prev : Int) : State × Option (Nat × Nat) × Bool :=
  if s.eqHeld l f.1.reg then (s, none, false)
  else
    let cur := s.shadowOf f.1 l
    let new := eqVal f.1 cur + s.loopStep 2 e prev 4
    if new < f.2.1 ∨ f.2.2 < new then (s, none, true)
    else if new = eqVal f.1 cur then (s, none, false)
    else (s.drive f.1 (ofSigned f.1.w new) l, some (i, cur), false)

/-- Move every field of a lane at a visit. -/
def State.eqMoves (s : State) (l : Nat) (errs : List Int) (prev : Tab Int) : List ((Fld × Int × Int) × Nat) → State × List (Nat × Nat) × Bool
  | [] => (s, [], false)
  | (f, i) :: r =>
    let e := errs.getD i 0
    let (s, m, lim) := s.eqMove l i f e (tabGetD prev i e)
    let (s, ms, lims) := State.eqMoves s l errs prev r
    (s, (match m with | some x => x :: ms | none => ms), lim || lims)

/-- The errors that the next visit takes as those before: of the fields that no override holds (R396). -/
def State.eqErrs (s : State) (l : Nat) (errs : List Int) : Tab Int :=
  (eqFields.zipIdx.filter (fun f => !s.eqHeld l f.1.1.reg)).map (fun f => (f.2, errs.getD f.2 0))

/-- The errors before are forgotten of the fields of a lane that an override holds now, and of all where the loop is off (R396). -/
def State.eqForget (s : State) (l : Nat) : State :=
  s.modLane l (fun y => { y with prevE := y.prevE.filter (fun e => s.eqLoop && !(eqFields[e.1]?).any (fun f => s.eqHeld l f.1.reg)) })

/-- The eye report of a visit (R111); it commits at the next boundary (R27). -/
def State.eyeReport (s : State) (v : EyeVisit) : State :=
  let l := v.lane.val
  let s := (s.drive F.SER_LANE_STATUS.HEIGHT v.height l).drive F.SER_LANE_STATUS.WIDTH v.width l
  let s := s.drive F.SER_LANE_STATUS.WORST_EYE (if s.laneStep l = 0 then 0 else v.worst) l
  let a := s.shadowOf F.SER_LANE_STATUS.HEIGHT_AVG l * 65536 + (s.laneSt l).frac
  let a := a + v.height % 65536 - a / 65536
  let s := (s.drive F.SER_LANE_STATUS.HEIGHT_AVG (a / 65536) l).modLane l (fun x => { x with frac := a % 65536 })
  let lim := 2 * s.rd F.SER_BRINGUP_CFG.EYE_FLOOR
  let low := decide (a / 65536 < lim)
  if low = (s.laneSt l).eyeLogged ∨ a / 65536 = lim then s
  else
    let s := s.modLane l (fun x => { x with eyeLogged := low })
    if low then s.raise .SER_EYE_LOW l else s

/-- The last step of a lane is undone (R109). -/
def State.eqRevert (s : State) (l : Nat) : State :=
  let x := s.laneSt l
  let s := foldS x.undo s (fun s u => match eqFields[u.1]? with
    | some f => s.drive f.1 u.2 l
    | none => s)
  let s := s.modLane l (fun y => { y with frozen := 64, undo := [], prevE := [] })
  let s := if x.reqSeq.isNone then s.unask l else s
  ((s.drive F.SER_LANE_STATUS.FROZEN 1 l).drive F.SER_LANE_STATUS.REVERTED 1 l).raise .SER_EQ_REVERT l

/-- A visit of a lane by the equalization loop (R105, R106, R109, R110), after its report. Where it both moves fields and sends an
FFE_REQ, the request is the last step (DESIGN CHOICE, log entry 137). -/
def State.eqAdapt (s : State) (v : EyeVisit) : State :=
  let l := v.lane.val
  let x := s.laneSt l
  let worse := match x.lastHeight with
    | some h => decide (v.height < s.rd F.SER_BRINGUP_CFG.EYE_FLOOR) && decide (v.height < h)
    | none => false
  let s := s.modLane l (fun y => { y with lastHeight := some v.height })
  if 0 < x.frozen then s.modLane l (fun y => { y with frozen := y.frozen - 1 })
  else if s.on F.SER_LANE_STATUS.FROZEN l then s
  else if worse then s.eqRevert l
  else
    let (s, ms, lim) := s.eqMoves l v.errs x.prevE eqFields.zipIdx
    let s := s.modLane l (fun y => { y with
      undo := if ms.isEmpty then y.undo else ms, undoReq := if ms.isEmpty then y.undoReq else none, prevE := s.eqErrs l v.errs, limitLogged := lim })
    let s := s.drive F.SER_LANE_STATUS.LIMIT (b2n lim) l
    let s := if lim ∧ !x.limitLogged then s.raise .SER_EQ_LIMIT l else s
    match v.ffe with
    | some (a, b) =>
      if x.reqSeq.isNone ∧ s.lnkState (l / 2) = lnkUp ∧ -1 ≤ a ∧ a ≤ 1 ∧ -1 ≤ b ∧ b ≤ 1 then
        (s.sendFfeReq l a b).modLane l (fun y => { y with undo := [], undoReq := some (a, b) })
      else s
    | none => s

/-- One visit (R105, R111): lanes 16k to 16k + 15 in a Beat whose count modulo 8 is k, on a port that runs or is in TEST;
FREEZE stops the visits. -/
def State.eqVisit (s : State) (v : EyeVisit) : State :=
  let l := v.lane.val
  let st := s.serState (l / 2)
  if s.beat % 8 ≠ l / 16 ∨ (st ≠ serActive ∧ st ≠ serTest) ∨ s.on F.SER_EQ_OVERRIDE.FREEZE l then s
  else
    let s := s.eyeReport v
    if s.eqLoop then s.eqAdapt v else s

/-- Put committed override values in effect (R110), also where FREEZE is set (DESIGN CHOICE, log entry 138). -/
def State.eqOverride (s : State) (l : Nat) : State :=
  let s := if s.on F.SER_EQ_OVERRIDE.FFE_OVR l then
      let a := s.rd F.SER_EQ_OVERRIDE.PRE l
      let b := s.rd F.SER_EQ_OVERRIDE.POST l
      ((s.wr F.SER_FFE.PRE a l).wr F.SER_FFE.POST b l).wr F.SER_FFE.MAIN (63 - a - b) l
    else s
  let s := if s.on F.SER_EQ_OVERRIDE.CTLE_OVR l then
      (s.wr F.SER_CTLE.PEAK (s.rd F.SER_EQ_OVERRIDE.PEAK l) l).wr F.SER_CTLE.DC_GAIN (s.rd F.SER_EQ_OVERRIDE.DC_GAIN l) l
    else s
  let s := if s.on F.SER_EQ_OVERRIDE.DFE_OVR l then
      foldS (List.zip Reg.SER_DFE_TAPS.fields Reg.SER_DFE_OVERRIDE.fields) s (fun s f => s.wr f.1 (s.rd f.2 l) l)
    else s
  let s := s.eqForget l
  if s.on F.SER_EQ_OVERRIDE.FREEZE l then s.wrNow F.SER_LANE_STATUS.FROZEN 1 l else s

/-- MAIN follows a commit of PRE and POST (R104). -/
def State.ffeMain (s : State) (l : Nat) : State :=
  s.wr F.SER_FFE.MAIN (63 - s.rd F.SER_FFE.PRE l - s.rd F.SER_FFE.POST l) l

end Sys2Proof.Machine
end

