-- ==== Sys2Proof/Machine/Router.lean ====
section
/-! DEFINITION. The router (05_routing_and_flow_control.md): port kinds, route choice, channels and credits, arbitration,
marks, limiters, dead ports, multicast branches (R190). -/

namespace Sys2Proof.Machine

/-- Port kinds of RTE_PORT_STATUS.KIND (Table 5.1). -/
abbrev kUnused : Nat := 0
abbrev kRow : Nat := 1
abbrev kCol : Nat := 2
abbrev kGlobal : Nat := 3
abbrev kHost : Nat := 4
abbrev kMisplaced : Nat := 5

/-- The injection port and the ejection output come after port 63. -/
abbrev ownPort : Nat := 64

def State.modRte (s : State) (f : Rte → Rte) : State := { s with rte := f s.rte }

def State.kind (s : State) (p : Nat) : Nat := if p < 64 then s.rd F.RTE_PORT_STATUS.KIND p else kHost
def State.dead (s : State) (p : Nat) : Bool := s.rd F.RTE_PORT_STATUS.DEAD p != 0
def State.peerGroup (s : State) (p : Nat) : Nat := s.rd F.RTE_PORT_STATUS.PEER_GROUP p
def State.peerPos (s : State) (p : Nat) : Nat := s.rd F.RTE_PORT_STATUS.PEER_POS p

/-- The router's own group and position (R147). -/
def State.ownGroup (s : State) : Nat := s.nodeId / 256
def State.ownPos (s : State) : Nat := s.nodeId % 256

/-- Credits of a packet: 64-byte units (R165). -/
def pkCredits (b : Bytes) : Nat := (b.length + 63) / 64

/-- The key of a channel of a port: VN, hop class, detour. -/
def chKey (p vn hc : Nat) (det : Bool) : Nat := ((p * 8 + vn) * 4 + hc) * 2 + b2n det

/-- The port of a channel key. -/
def chPort (k : Nat) : Nat := k / 64

/-- The VCBUF entry of a virtual network (Table 2.7); zero with no image. -/
def State.vcMin (s : State) (vn : Nat) : Nat := match s.member 0x8004 with | some b => leAt b (8 * vn) 2 | none => 0
def State.vcShare (s : State) (vn : Nat) : Nat := match s.member 0x8004 with | some b => leAt b (8 * vn + 2) 2 | none => 0

/-- The reserve of a channel (R165). -/
def State.reserve (s : State) (vn : Nat) (det : Bool) : Nat := if det then 68 else 4 * s.vcMin vn

/-- The channels that a port holds: every VN and hop class, main, and detour on a row or column port (R177). -/
def channels (kind : Nat) : List (Nat × Nat × Bool) :=
  (List.range 5).flatMap (fun v => (List.range 3).flatMap (fun h =>
    (v, h, false) :: (if kind = kRow ∨ kind = kCol then [(v, h, true)] else [])))

/-- One draw of LFSR `k` (R160): a step of the right-shifting Galois form, and the new value (log entry 9). -/
def State.draw (s : State) (k : Nat) : Nat × State :=
  let v := s.rte.lfsr.getD k 0
  let v := if v % 2 = 1 then (v / 2) ^^^ 0xD800000000000000 else v / 2
  (v, s.modRte (fun r => { r with lfsr := r.lfsr.set k v }))

abbrev lfNonmin : Nat := 0
abbrev lfTie : Nat := 1
abbrev lfEddy : Nat := 2
abbrev lfFallback : Nat := 3

/-- The cheapest of the candidates (cost first); equal costs are settled by LFSR `k`. -/
def State.cheapest {α : Type} (s : State) (k : Nat) (cs : List (Nat × α)) : Option (Nat × α) × State :=
  match cs with
  | [] => (none, s)
  | c :: r =>
    let low := r.foldl (fun a x => min a x.1) c.1
    let best := cs.filter (fun x => x.1 == low)
    if best.length ≤ 1 then (best.head?, s)
    else
      let (v, s) := s.draw k
      (best[Config.lfsrChoice v best.length % best.length]?, s)

/-- Whether a held packet waits for output `p`. -/
def Pk.waits (k : Pk) (p : Nat) : Bool := k.hops.any (fun h => h.port == p)

/-- Bytes queued for a port and VN, in 64-byte units (R159, R173; log entry 10). -/
def State.queued (s : State) (p vn : Nat) : Nat :=
  s.rte.held.foldl (fun a k => if k.waits p && pkVn k.b == vn then a + pkCredits k.b else a) 0

/-- Bytes queued for a port, in 64-byte units (Table 5.27). -/
def State.queuedAll (s : State) (p : Nat) : Nat :=
  s.rte.held.foldl (fun a k => if k.waits p then a + pkCredits k.b else a) 0

/-- The congestion estimate Q of a port for a VN: bytes queued and downstream credits in use (R159). -/
def State.cong (s : State) (p vn hc : Nat) (det : Bool) : Nat :=
  let hc := if s.kind p = kGlobal then hc + 1 else hc
  s.queued p vn + tabGetD s.rte.used (chKey p vn hc det) 0

/-- The valid alias entry that names a position (R150). -/
def State.aliasAt (s : State) (pos : Nat) : Option Nat :=
  (List.range 16).find? (fun i => s.on F.RTE_ALIAS.VALID i && s.rd F.RTE_ALIAS.POS i == pos)

/-- The local target in the DST group: the position, or SERVE_POS of an alias. -/
def State.dstTarget (s : State) (dst : Nat) : Nat :=
  match s.aliasAt (dst % 256) with
  | some i => s.rd F.RTE_ALIAS.SERVE_POS i
  | none => dst % 256

/-- A packet leaves the group by a global hop: its DST lies in another group, or it is in PH 1 and has taken no global hop yet (R158,
Table 5.5). -/
def State.leaves (s : State) (b : Bytes) : Bool := pkDst b / 256 != s.ownGroup || (pkPh b == 1 && pkHc b == 0)

/-- The local target of a packet that travels inside the group (dimension order): the gateway, which in PH 1 is the router that its one
local hop reaches, or DST. -/
def State.target (s : State) (b : Bytes) : Nat :=
  if !s.leaves b then s.dstTarget (pkDst b)
  else if pkPh b = 1 then s.ownPos
  else pkIng b % 256

/-- Rank of a packet's channel in its hop class (Table 5.7). -/
def State.rank (s : State) (k : Pk) : Nat :=
  if k.input = ownPort then 1
  else if s.kind k.input = kHost then 1
  else if s.kind k.input = kGlobal then 2
  else if s.kind k.input = kRow then (if k.det then 3 else 4)
  else (if k.det then 5 else 6)

/-- The ports of a dimension that lead to a position's coordinate. -/
def State.hopPorts (s : State) (row : Bool) (pos : Nat) : List Nat :=
  (List.range 64).filter (fun p =>
    if row then s.kind p == kRow && s.peerPos p % 16 == pos % 16 else s.kind p == kCol && s.peerPos p / 16 == pos / 16)

/-- The routable port of a dimension towards a position: the lowest-numbered one (Table 5.1, R178). -/
def State.hopPort (s : State) (row : Bool) (pos : Nat) : Option Nat :=
  (s.hopPorts row pos).find? (fun p => !s.dead p)

/-- Whether the next hop towards a position is an x hop (R156). -/
def State.xFirst (s : State) (pos : Nat) : Bool := pos % 16 != s.ownPos % 16

/-- A port of a row, or of a column, leads past the coordinate of a position: a hop on it is a detour's first (R178). -/
def State.detours (s : State) (row : Bool) (pos q : Nat) : Bool :=
  if row then s.peerPos q % 16 != pos % 16 else s.peerPos q / 16 != pos / 16

/-- Whether R163 lets a channel of rank `rk` take an x or y hop, on its way or as a detour's first (R179). -/
def hopAllowed (row det : Bool) (rk : Nat) : Bool :=
  match row, det with
  | true, false => decide (rk ≤ 3)
  | true, true => decide (rk ≤ 2)
  | false, false => [1, 2, 4, 5].contains rk
  | false, true => [1, 2, 4].contains rk

/-- The local hop towards a position from a channel of rank `rk`: the routable port, or the detour of R178, as far as R163
allows (R179). `died` is the port that the packet waited for and that is dead now: the port parallel to it, else its
RTE_PORT_FALLBACK. -/
def State.localHop (s : State) (rk pos vn hc : Nat) (died : Option Nat := none) : Option Hop × State :=
  let row := s.xFirst pos
  let kd := if row then kRow else kCol
  let died := died.filter (fun d => s.kind d == kd)
  let towards := match died with | some d => s.peerPos d | none => pos
  let hop (q : Nat) : Option Hop :=
    let det := s.detours row pos q
    if hopAllowed row det rk then some ⟨q, det⟩ else none
  match s.hopPort row towards with
  | some p => (hop p, s)
  | none =>
    match died.or (s.hopPorts row pos).head? with
    | none => (none, s)
    | some p =>
      if !hopAllowed row true rk then (none, s)
      else
        let qs := (List.range 64).filter (fun q =>
          bit (s.rd F.RTE_PORT_FALLBACK.MASK p) q && s.kind q == kd && !s.dead q)
        match s.cheapest lfFallback (qs.map (fun q => (s.cong q vn hc (s.detours row pos q), q))) with
        | (some (_, q), s) => (hop q, s)
        | (none, s) => (none, s)

/-- A gateway candidate (R157): its first port, the local links to it, its position, and its own port if it has one. -/
structure Gate where
  first : Nat
  links : Nat
  pos : Nat
  own : Option Nat

/-- The usable gateways of RTE_GROUP_TABLE towards a group, in order; near ones alone for PH 1 (R157). -/
def State.gates (s : State) (g : Nat) (near : Bool) : List Gate :=
  [F.RTE_GROUP_TABLE.GW0, F.RTE_GROUP_TABLE.GW1, F.RTE_GROUP_TABLE.GW2, F.RTE_GROUP_TABLE.GW3].filterMap (fun f =>
    let e := s.rd f g
    let v := e % 256
    if !bit e 15 then none
    else if !bit e 14 then
      if v < 64 && s.kind v == kGlobal && !s.dead v && s.peerGroup v == g then some ⟨v, 0, s.ownPos, some v⟩ else none
    else if v = s.ownPos then none
    else if near && v / 16 != s.ownPos / 16 then none
    else
      match s.hopPort (s.xFirst v) v with
      | some p => some ⟨p, b2n (v % 16 != s.ownPos % 16) + b2n (v / 16 != s.ownPos / 16), v, none⟩
      | none => none)

/-- VN `v` is adaptive; VN0 never is (R159). -/
def State.adaptive (s : State) (v : Nat) : Bool := v != 0 && bit (s.rd F.RTE_CTRL.ADAPT_VN) v

/-- The bias in effect (Tables 5.16 and 5.17). -/
def State.bias (s : State) : Nat :=
  if s.on F.RTE_ADAPT_OVERRIDE.OVR then s.rd F.RTE_ADAPT_OVERRIDE.BIAS else s.rd F.RTE_ADAPT.BIAS

/-- The marking threshold in effect (Tables 5.18 and 5.19). -/
def State.thresh (s : State) : Nat :=
  if s.on F.RTE_EDDY_OVERRIDE.OVR then s.rd F.RTE_EDDY_OVERRIDE.THRESH else s.rd F.RTE_EDDY.THRESH

/-- Write PH and ING of a packet. -/
def setPath (b : Bytes) (ph ing : Nat) : Bytes := pkSet (pkSet b 48 2 ph) 39 9 ing

/-- A route: the packet with its PH and ING, and its hop; none discards it (R180). -/
abbrev Route := Option (Bytes × Hop)

/-- A minimal candidate as a route. -/
def gateRoute (b : Bytes) (ph ing : Nat) (g : Gate) : Bytes × Hop := (setPath b ph ing, ⟨g.first, false⟩)

/-- One draw of an intermediate group: at most one candidate, through its cheapest near gateway (R159). -/
def State.drawNonmin (s : State) (b : Bytes) : List (Nat × (Bytes × Hop)) × State :=
  if s.groups = 0 then ([], s) else
  let (v, s) := s.draw lfNonmin
  let g := v % s.groups
  if g = s.ownGroup ∨ g = pkDst b / 256 then ([], s) else
  let cs := (s.gates g true).map (fun x => (s.cong x.first (pkVn b) (pkHc b) false * (x.links + 6), x))
  match s.cheapest lfTie cs with
  | (some (c, x), s) => ([(c, gateRoute b 1 g x)], s)
  | (none, s) => ([], s)

/-- The minimal candidates at injection, with their costs (R159). -/
def State.minimal (s : State) (rk : Nat) (b : Bytes) : List (Nat × (Bytes × Hop)) × State :=
  let vn := pkVn b
  let hc := pkHc b
  if pkDst b / 256 = s.ownGroup then
    let t := s.dstTarget (pkDst b)
    let links := b2n (t % 16 != s.ownPos % 16) + b2n (t / 16 != s.ownPos / 16)
    match s.localHop rk t vn hc with
    | (some h, s) => ([(s.cong h.port vn hc h.det * (links + b2n h.det), (setPath b 0 0, h))], s)
    | (none, s) => ([], s)
  else ((s.gates (pkDst b / 256) false).map (fun x => (s.cong x.first vn hc false * (x.links + 3), gateRoute b 0 x.pos x)), s)

/-- The hop out of the router at the local target of the DST group: ejection, or the alias port (R156, R164). -/
def State.leaveHop (s : State) (rk : Nat) (dst : Nat) : Option Hop :=
  if dst = s.nodeId then (if rk = 3 ∨ rk = 5 then none else some ⟨ownPort, false⟩)
  else match s.aliasAt (dst % 256) with
    | some i =>
      let p := s.rd F.RTE_ALIAS.PORT i
      if s.rd F.RTE_ALIAS.SERVE_POS i = s.ownPos ∧ s.kind p = kHost ∧ !s.dead p then some ⟨p, false⟩ else none
    | none => none

/-- The choice at injection (Table 5.5, R159). -/
def State.chooseInject (s : State) (rk : Nat) (b : Bytes) : Route × State :=
  if pkDst b / 256 = s.ownGroup ∧ s.dstTarget (pkDst b) = s.ownPos then
    ((s.leaveHop rk (pkDst b)).map (fun h => (setPath b 0 0, h)), s)
  else
    let (ms, s) := s.minimal rk b
    if !s.adaptive (pkVn b) then (ms.head?.map (·.2), s)
    else
      let (n1, s) := if s.on F.RTE_CTRL.NONMIN_EN then s.drawNonmin b else ([], s)
      let (n2, s) := if s.on F.RTE_CTRL.NONMIN_EN then s.drawNonmin b else ([], s)
      let (bm, s) := s.cheapest lfTie ms
      let (bn, s) := s.cheapest lfTie (n1 ++ n2)
      match bm, bn with
      | some m, some n => (some (if n.1 + s.bias < m.1 then n.2 else m.2), s)
      | some m, none => (some m.2, s)
      | none, some n => (some n.2, s)
      | none, none => (none, s)

/-- The global hop of R158, with the fallback of R179; `died` is the port that the packet waited for and that is dead
now; where it waited for none, the lowest own port gives the fallback set (DESIGN CHOICE, log entry 145). -/
def State.globalHop (s : State) (rk : Nat) (b : Bytes) (died : Option Nat := none) : Route × State :=
  let vn := pkVn b
  let hc := pkHc b
  let need := if pkPh b = 1 then pkIng b else pkDst b / 256
  let own := (List.range 64).filter (fun p => s.kind p == kGlobal && s.peerGroup p == need)
  if 2 ≤ hc ∨ rk = 3 ∨ rk = 5 then (none, s) else
  let fits (q : Nat) : Bool := match died with | some d => bit (s.rd F.RTE_PORT_FALLBACK.MASK d) q | none => true
  match s.cheapest (if died.isSome then lfFallback else lfTie)
      ((own.filter (fun p => !s.dead p && fits p)).map (fun p => (s.cong p vn hc false, p))) with
  | (some (_, p), s) => (some (b, ⟨p, false⟩), s)
  | (none, s) =>
    match own with
    | [] => (none, s)
    | p :: _ =>
      let p := died.getD p
      let set := (List.range 64).filter (fun q => bit (s.rd F.RTE_PORT_FALLBACK.MASK p) q && s.kind q == kGlobal && !s.dead q)
      let toDst := set.filter (fun q => s.peerGroup q == pkDst b / 256)
      if hc ≠ 0 then (none, s)
      else if !toDst.isEmpty then
        match s.cheapest lfFallback (toDst.map (fun q => (s.cong q vn hc false, q))) with
        | (some (_, q), s) => (some (setPath b 0 s.ownPos, ⟨q, false⟩), s)
        | (none, s) => (none, s)
      else
        match s.cheapest lfFallback (set.map (fun q => (s.cong q vn hc false, q))) with
        | (some (_, q), s) => (some (setPath b 1 (s.peerGroup q), ⟨q, false⟩), s)
        | (none, s) => (none, s)

/-- The choice at the first router that a global hop reaches outside the DST group (Table 5.5, R159). -/
def State.chooseTransit (s : State) (b : Bytes) : Route × State :=
  if 2 ≤ pkHc b then (none, s) else
  let gs := s.gates (pkDst b / 256) false
  if s.adaptive (pkVn b) then
    match s.cheapest lfTie (gs.map (fun x => (s.cong x.first (pkVn b) (pkHc b) false * (x.links + 3), x))) with
    | (some (_, x), s) => (some (gateRoute b 2 x.pos x), s)
    | (none, s) => (none, s)
  else (gs.head?.map (fun x => gateRoute b 2 x.pos x), s)

/-- The route of a unicast packet held in a channel (R156 to R159, R163, Table 5.5). -/
def State.route (s : State) (k : Pk) (died : Option Nat := none) : Route × State :=
  let rk := s.rank k
  let kd := s.kind k.input
  if rk = 1 then s.chooseInject rk k.b
  else if kd = kGlobal ∧ pkDst k.b / 256 ≠ s.ownGroup then s.chooseTransit k.b
  else
    let b := if kd = kGlobal then pkSet k.b 39 9 0 else k.b
    let t := s.target b
    if kd = kCol ∧ s.xFirst t then (none, s)
    else if t ≠ s.ownPos then
      match s.localHop rk t (pkVn b) (pkHc b) died with
      | (some h, s) => (some (b, h), s)
      | (none, s) => (none, s)
    else if !s.leaves b then ((s.leaveHop rk (pkDst b)).map (fun h => (b, h)), s)
    else s.globalHop rk b died

/-- Queue a CREDIT message of one word (R167). -/
def State.sendCredit (s : State) (p vn hc : Nat) (det : Bool) (n : Nat) : State :=
  if n = 0 then s
  else s.modLink p (fun l => { l with ctrlS := l.ctrlS ++ [(0x11, leBytes 4 (vn + hc * 8 + b2n det * 32 + n * 256))] })

/-- Allocation and resident credits of an input channel. -/
def State.allocOf (s : State) (key : Nat) : Nat := tabGetD s.rte.alloc key 0
def State.resident (s : State) (key : Nat) : Nat :=
  s.rte.held.foldl (fun a k => if k.counted && chKey k.input (pkVn k.b) (pkHc k.b) k.det == key then a + pkCredits k.b else a) 0

/-- The shared use of a VN: main allocations beyond their reserves (R168). -/
def State.sharedUse (s : State) (vn : Nat) : Nat :=
  s.rte.alloc.foldl (fun a e => if e.1 / 8 % 8 = vn ∧ e.1 % 2 = 0 then a + (e.2 - s.reserve vn false) else a) 0

/-- Lend a main channel 16 credits at a time while R168 allows. -/
def State.lend (s : State) (p vn hc : Nat) : Nat → State
  | 0 => s
  | n + 1 =>
    let key := chKey p vn hc false
    let a := s.allocOf key
    if a < 2 * s.resident key ∧ s.sharedUse vn + 16 ≤ 1024 * s.vcShare vn ∧ a + 16 ≤ 4095 then
      State.lend ((s.modRte (fun r => { r with alloc := tabPut r.alloc key (a + 16) })).sendCredit p vn hc false 16) p vn hc n
    else s

/-- The loans that R168 calls for now, in the order of the channels' keys (DESIGN CHOICE, log entry 107). -/
def State.lendAll (s : State) : State :=
  if !s.en uRTE then s
  else foldS ((s.rte.alloc.map (·.1)).filter (fun k => k % 2 == 0)) s (fun s k => s.lend (chPort k) (k / 8 % 8) (k / 2 % 4) 256)

/-- Credits of a packet that left its channel, or was discarded, go back (R166, R168). -/
def State.freeCredits (s : State) (p vn hc : Nat) (det : Bool) (n : Nat) : State :=
  let key := chKey p vn hc det
  let a := s.allocOf key
  let back := if !det && decide (3 * 1024 * s.vcShare vn < 4 * s.sharedUse vn) then min n (a - s.reserve vn false) else 0
  let s := if back = 0 then s else s.modRte (fun r => { r with alloc := tabPut r.alloc key (a - back) })
  s.sendCredit p vn hc det (n - back)

/-- A held packet gave up its channel. -/
def State.freePk (s : State) (k : Pk) : State :=
  if k.counted then s.freeCredits k.input (pkVn k.b) (pkHc k.b) k.det (pkCredits k.b) else s

/-- The CF_ABORT that reports a discarded CF_UP or CF_DOWN (R211). -/
def lostNotice (node : Nat) (b : Bytes) : Bytes :=
  mkPacket (pkDst b) node 4 (pkTc b) 0x8B 0
    ((b.drop 12).take 4 ++ leBytes 4 0 ++ (b.drop 20).take 2 ++ leBytes 1 (if pkKind b = 0x88 then leAt b 22 1 else 0) ++
     leBytes 5 0 ++ leBytes 1 2) []

/-- Send the LOST notice of a discarded whole CF_UP or CF_DOWN (R211). -/
def State.notice (s : State) (b : Bytes) : State :=
  if pkVn b = 4 ∧ (pkKind b = 0x88 ∨ pkKind b = 0x89) then
    if s.rte.notices.length < 16 then s.modRte (fun r => { r with notices := r.notices ++ [lostNotice s.nodeId b] })
    else (s.inc F.MCT_COUNT.NOTICE_DROP).raise .MCT_NOTICE_DROP
  else s

/-- R180: discard, count, log, notice. -/
def State.unroutable (s : State) (b : Bytes) : State :=
  ((s.inc F.RTE_DROP_COUNT.UNROUTABLE).raise .RTE_UNROUTABLE).notice b

/-- R155: discard, count, log. -/
def State.malformed (s : State) : State := (s.inc F.RTE_DROP_COUNT.MALFORMED).raise .RTE_MALFORMED

/-- A multicast branch, or packet, is skipped (R190). -/
def State.mcSkip (s : State) : State := (s.inc F.MCT_COUNT.MC_SKIPPED).raise .MCT_BRANCH_SKIPPED

/-- The branches of a multicast packet (R190): the hops, and how many mask bits are skipped; none where the entry is not
VALID or MCT is disabled. -/
def State.mcHops (s : State) (k : Pk) : Option (List Hop × Nat) :=
  let g := pkDst k.b % 2 ^ 14
  if !s.on F.MCT_MC_CTL.VALID g || !s.en uMCT then none
  else
    let ok (q : Nat) : Bool :=
      q != k.input && !s.dead q &&
        (s.kind q == kHost || (s.kind q == kRow && s.rank k ≤ 2) || (s.kind q == kCol && s.rank k ≤ 4) ||
         (s.kind q == kGlobal && pkHc k.b < 2))
    let ps := bitsSet 64 (s.rd F.MCT_MC_MASK.MASK g)
    some ((ps.filter ok).map (fun q => ⟨q, false⟩) ++ (if s.on F.MCT_MC_CTL.EJECT g then [⟨ownPort, false⟩] else []),
      (ps.filter (fun q => !ok q)).length)

/-- The injections of the Beat that chose among candidates of an adaptive VN, and those of them that went non-minimal (R397). -/
def State.countInject (s : State) (k : Pk) (b : Bytes) : State :=
  if s.rank k = 1 ∧ s.adaptive (pkVn b) then
    s.modRte (fun r => { r with injected := r.injected + 1, nonmin := r.nonmin + b2n (pkPh b == 1) })
  else s

/-- A unicast packet with its next hop; a packet without continuation is discarded. -/
def State.withHop (s : State) (k : Pk) (died : Option Nat := none) : Option Pk × State :=
  match s.route k died with
  | (some (b, h), s) => (some { k with b := b, hops := [h] }, s)
  | (none, s) => (none, (s.freePk k).unroutable k.b)

/-- Give a packet its hops and hold it; a packet without continuation is discarded. -/
def State.letIn (s : State) (k : Pk) : State :=
  let hold (k : Pk) (s : State) : State := s.modRte (fun r => { r with held := r.held ++ [k] })
  if pkMcast k.b then
    match s.mcHops k with
    | none => (s.freePk k).mcSkip
    | some (hs, n) =>
      let s := foldS (List.range n) s (fun s _ => s.mcSkip)
      if hs.isEmpty then s.freePk k else hold { k with hops := hs } s
  else
    match s.withHop k with
    | (some k', s) => hold k' (s.countInject k k'.b)
    | (none, s) => s

/-- The checks of R155 and R186 made at every hop. -/
def badRoute (b : Bytes) : Bool :=
  decide (5 ≤ pkVn b) || pkHc b == 3 || pkPh b == 3 || (pkVn b == 0 && pkLong b) || (pkMcast b && pkVn b != 1)

/-- R151: a packet on a host-facing port with a SRC that is not served here on this port, or with routing fields. -/
def State.srcBad (s : State) (p : Nat) (b : Bytes) : Bool :=
  !(pkSrc b / 256 == s.ownGroup && (match s.aliasAt (pkSrc b % 256) with
    | some i => s.rd F.RTE_ALIAS.SERVE_POS i == s.ownPos && s.rd F.RTE_ALIAS.PORT i == p
    | none => false)) ||
  pkHc b != 0 || pkPh b != 0 || pkIng b != 0 || pkAge b != 0

/-- Credits of a refused packet go back, where they count. -/
def State.refund (s : State) (counted : Bool) (p vn hc : Nat) (det : Bool) (b : Bytes) : State :=
  if counted then s.freeCredits p vn hc det (pkCredits b) else s

/-- A packet leaves input staging and arrives at its input (R151, R155, R162, R169). A packet that was staged before its port
was fenced is forwarded normally and its credits count no longer (R142, R166). -/
def State.packetArrive (s : State) (p : Nat) (b : Bytes) (counted : Bool) : State :=
  let kd := s.kind p
  let vn := pkVn b
  let hc := pkHc b
  let t := s.target b
  let det := !pkMcast b && ((kd == kRow && s.xFirst t) || (kd == kCol && t / 16 != s.ownPos / 16))
  let real := decide (vn ≤ 4) && decide (hc ≤ 2)
  if kd = kHost ∧ s.srcBad p b then
    let s := if real then s.refund counted p vn hc false b else s
    (s.inc F.RTE_DROP_COUNT.SRC_BAD).raise .RTE_SRC_BAD p
  else if !real then s.malformed
  else
    let key := chKey p vn hc det
    if counted ∧ s.allocOf key < s.resident key + pkCredits b then
      (s.raiseOcc { occ .RTE_CREDIT_OVERRUN p with
        info := vn + hc * 8 + b2n det * 32 + s.allocOf key % 4096 * 2 ^ 16 + pkCredits b % 4096 * 2 ^ 32,
        init := s.rd F.SER_PORT_STATUS.PEER_NODE p, remote := true }).declare p rsProto
    else if badRoute b then (s.refund counted p vn hc det b).malformed
    else
      s.letIn ⟨b, p, det, counted, []⟩

/-- PACKET_ARRIVE: the oldest whole packet staged at a port; held back while RTE is disabled (R184). -/
def State.arriveNext (s : State) (p : Nat) : State :=
  if !s.en uRTE then s else
  match s.arrived.find? (fun e => e.1 == p) with
  | none => s
  | some e => { s with arrived := s.arrived.eraseP (fun x => x.1 == p) }.packetArrive p e.2 (s.lnkState p == lnkUp)

/-- The KIND of a packet is an assigned one, on the VN that its table gives (R155, R186, R268, R296, R321; log entry 115). -/
def kindOk (b : Bytes) : Bool :=
  let k := pkKind b
  let v := pkVn b
  if 1 ≤ k ∧ k ≤ 3 then v == 0
  else if k = 4 then v == 2
  else if 0x10 ≤ k ∧ k ≤ 0x13 then v == 1
  else if 0x20 ≤ k ∧ k ≤ 0x23 then v == 2
  else if 0x40 ≤ k ∧ k ≤ 0x42 then v == 1
  else if 0x60 ≤ k ∧ k ≤ 0x65 then v == 1
  else if 0x68 ≤ k ∧ k ≤ 0x6A then v == 3
  else if 0x70 ≤ k ∧ k ≤ 0x79 then v == 2
  else if k = 0x80 then v == 1 && pkMcast b
  else if 0x88 ≤ k ∧ k ≤ 0x8B then v == 4 && !pkMcast b
  else false

/-- Eject a packet: KIND and the trailer CRC (R155), then it waits for its unit. -/
def State.eject (s : State) (b : Bytes) : State :=
  if !kindOk b || (pkMcast b && pkKind b != 0x80) then s.malformed
  else if !pkCrcOk b then (s.inc F.RTE_DROP_COUNT.E2E_CRC).raise .RTE_E2E_CRC
  else s.modRte (fun r => { r with ejected := r.ejected ++ [b] })

/-- A limiter for a node, created by its first echo; with 4,096 in use it replaces one (R175, R176). Its bucket starts at RATE_CAP
(DESIGN CHOICE, log entry 144). -/
def State.echoAgainst (s : State) (node : Nat) : State :=
  let cap := s.rd F.RTE_LIMITER_STATUS.RATE_CAP
  match tabGet s.rte.limits node with
  | some l => s.modRte (fun r => { r with limits := tabPut r.limits node { l with echoed := true } })
  | none =>
    let s :=
      if s.rte.limits.length < 4096 then s
      else
        let top := s.rte.limits.foldl (fun a e => max a e.2.rate) 0
        let s := match s.rte.limits.find? (fun e => e.2.rate == top) with
          | some e => s.modRte (fun r => { r with limits := tabDel r.limits e.1 })
          | none => s
        let s := s.inc F.RTE_LIMITER_STATUS.REPLACED
        if s.rte.fullLogged then s
        else (s.modRte (fun r => { r with fullLogged := true })).raise .RTE_LIMITER_FULL
    let s := s.modRte (fun r => { r with limits := tabPut r.limits node ⟨cap, cap, true, 0⟩ })
    s.wr F.RTE_LIMITER_STATUS.IN_USE s.rte.limits.length

/-- What an endpoint does with the marks of a packet that it consumes (R174). -/
def State.consumed (s : State) (b : Bytes) : State :=
  if pkVn b = 1 ∨ pkVn b = 3 then
    if pkMark b && !s.rte.owed.contains (pkSrc b) then s.modRte (fun r => { r with owed := r.owed ++ [pkSrc b] }) else s
  else if pkVn b = 2 ∧ (pkMark b || pkEcho b) then s.echoAgainst (pkSrc b)
  else s

/-- A unit takes the oldest ejected packet of a KIND that `ok` accepts. -/
def State.take (s : State) (ok : Bytes → Bool) : Option (Bytes × State) :=
  match s.rte.ejected.find? ok with
  | none => none
  | some b => some (b, (s.modRte (fun r => { r with ejected := r.ejected.eraseP ok })).consumed b)

/-- A unit takes the oldest ejected packet of a KIND. -/
def State.takeKind (s : State) (k : Nat) : Option (Bytes × State) := s.take (fun b => pkKind b == k)

/-- An agent hands a packet to the injection port (with AGE, HC, PH and ING zero). -/
def State.send (s : State) (b : Bytes) : State := s.modRte (fun r => { r with agent := r.agent ++ [b] })

/-- The bucket of a node's limiter is not above zero (R176). -/
def State.limitedTo (s : State) (node : Nat) : Bool :=
  match tabGet s.rte.limits node with
  | some l => decide (l.bucket ≤ 0)
  | none => false

/-- A VN1 unicast packet waits while its node is limited (R176, R189). -/
def State.limited (s : State) (b : Bytes) : Bool := pkVn b == 1 && !pkMcast b && s.limitedTo (pkDst b)

/-- Inject a packet: the limiter's bucket, an echo owed to its node (R174), the route choice. -/
def State.injectPk (s : State) (b : Bytes) : State :=
  let s := if pkVn b = 1 ∧ !pkMcast b then
      s.modRte (fun r => { r with limits := tabMod r.limits (pkDst b) (fun l => { l with bucket := l.bucket - pkCredits b }) })
    else s
  let owed := pkVn b == 2 && s.rte.owed.contains (pkDst b)
  let s := if owed then s.modRte (fun r => { r with owed := r.owed.erase (pkDst b) }) else s
  let b := if owed then pkSet b 51 1 1 else b
  s.letIn ⟨b, ownPort, false, false, []⟩

/-- PACKET_INJECT: packet `i` of those that wait at the injection port (agents first, then LOST notices). -/
def State.inject (s : State) (i : Nat) : State :=
  if !s.en uRTE then s else
  match s.rte.agent[i]? with
  | some b =>
    if s.limited b then s else (s.modRte (fun r => { r with agent := r.agent.eraseIdx i })).injectPk b
  | none =>
    let j := i - s.rte.agent.length
    match s.rte.notices[j]? with
    | some b => (s.modRte (fun r => { r with notices := r.notices.eraseIdx j })).injectPk b
    | none => s

/-- The downstream channel that a hop of a packet enters: its key (R162, R164, R165). -/
def State.downKey (s : State) (b : Bytes) (h : Hop) : Nat :=
  chKey h.port (pkVn b) (if s.kind h.port = kGlobal then pkHc b + 1 else pkHc b) h.det

/-- A held packet holds credits for an output and the output can start it. -/
def State.eligible (s : State) (k : Pk) (h : Hop) : Bool :=
  if h.port = ownPort then true
  else !s.dead h.port && s.lnkState h.port == lnkUp && decide ((s.link h.port).tx.length < 236) &&
    decide (pkCredits k.b ≤ tabGetD s.rte.cred (s.downKey k.b h) 0)

/-- The input channel of a held packet. -/
def Pk.chan (k : Pk) : Nat := chKey k.input (pkVn k.b) (pkHc k.b) k.det

/-- Two multicast packets of one group in one input channel: each branch sends them in the order of arrival (R191). -/
def Pk.sameGroup (a b : Pk) : Bool := pkMcast a.b && pkMcast b.b && pkDst a.b == pkDst b.b && a.chan == b.chan

/-- The candidates for an output: the packets that wait for it and hold credits for it, oldest first, with their places among
the held packets (R172), but for those behind another of their group (R191). -/
def State.candidates (s : State) (out : Nat) : List (Nat × Pk) :=
  let all := (s.rte.held.zipIdx.map (fun e => (e.2, e.1))).filter (fun e => e.2.waits out)
  all.filter (fun e => e.2.hops.any (fun h => h.port == out && s.eligible e.2 h) &&
    !all.any (fun x => decide (x.1 < e.1) && x.2.sameGroup e.2))

/-- WEIGHT of a class. -/
def State.weight (s : State) (t : Nat) : Nat :=
  s.rd (([F.RTE_TC_WEIGHT.WEIGHT_0, F.RTE_TC_WEIGHT.WEIGHT_1, F.RTE_TC_WEIGHT.WEIGHT_2, F.RTE_TC_WEIGHT.WEIGHT_3,
    F.RTE_TC_WEIGHT.WEIGHT_4, F.RTE_TC_WEIGHT.WEIGHT_5, F.RTE_TC_WEIGHT.WEIGHT_6, F.RTE_TC_WEIGHT.WEIGHT_7]).getD t
    F.RTE_TC_WEIGHT.WEIGHT_0)

/-- The next channel in the round robin of a class: the lowest above the last one served, else the lowest. -/
def nextChan (last : Nat) (cs : List (Nat × Pk)) : Option (Nat × Pk) :=
  let pick (l : List (Nat × Pk)) : Option (Nat × Pk) :=
    match l with
    | [] => none
    | c :: r => some (r.foldl (fun a x => if x.2.chan < a.2.chan then x else a) c)
  match pick (cs.filter (fun x => last < x.2.chan)) with
  | some x => some x
  | none => pick cs

/-- Deficit round robin over the classes (R172; log entry 11). -/
def State.drr (s : State) (cs : List (Nat × Pk)) : Nat → Arb → Option (Nat × Pk) × Arb
  | 0, a => (none, a)
  | n + 1, a =>
    match nextChan (a.last.getD a.cls 0) (cs.filter (fun x => pkTc x.2.b == a.cls)) with
    | some x =>
      if x.2.b.length ≤ a.deficit.getD a.cls 0 then
        (some x, { a with deficit := a.deficit.set a.cls (a.deficit.getD a.cls 0 - x.2.b.length),
                          last := a.last.set a.cls x.2.chan })
      else
        let c := (a.cls + 1) % 8
        State.drr s cs n { a with cls := c, deficit := a.deficit.set c (a.deficit.getD c 0 + 64 * s.weight c) }
    | none =>
      let c := (a.cls + 1) % 8
      let d := a.deficit.set a.cls 0
      State.drr s cs n { a with cls := c, deficit := d.set c (d.getD c 0 + 64 * s.weight c) }

/-- The order of R172: VN0, then promoted packets, then the round robin. -/
def State.arbitrate (s : State) (out : Nat) : Option (Nat × Pk) × State :=
  let cs := s.candidates out
  match cs.find? (fun x => pkVn x.2.b == 0) with
  | some x => (some x, s)
  | none =>
    let ps := cs.filter (fun x => s.rd F.RTE_ARB.AGE_PROMOTE ≤ pkAge x.2.b)
    match ps with
    | c :: r =>
      (some (r.foldl (fun a x => if pkAge a.2.b < pkAge x.2.b ∨ (pkAge a.2.b = pkAge x.2.b ∧ x.2.input < a.2.input) then x
        else a) c), s)
    | [] =>
      if cs.isEmpty then (none, s) else
      let (x, a) := s.drr cs 1200 (tabGetD s.rte.arb out Arb.init)
      (x, s.modRte (fun r => { r with arb := tabSet r.arb out Arb.init a }))

/-- Whether a departing packet is marked (R173; log entry 10). -/
def State.eddy (s : State) (p : Nat) (b : Bytes) : Bool × State :=
  let vn := pkVn b
  if vn = 0 ∨ vn = 4 then (false, s) else
  let q := s.queued p vn
  let th := s.thresh
  if 2 * th ≤ q then (true, s)
  else if th ≤ q then
    let (v, s) := s.draw lfEddy
    (decide (Config.lfsrChoice v th % th < q - th), s)
  else (false, s)

/-- Take the hop to an output off held packet `i`; the packet leaves with its last hop. -/
def State.hopTaken (s : State) (i out : Nat) (k : Pk) : State :=
  let hs := k.hops.filter (fun h => h.port != out)
  if hs.isEmpty then (s.modRte (fun r => { r with held := r.held.eraseIdx i })).freePk k
  else s.modRte (fun r => { r with held := r.held.set i { k with hops := hs } })

/-- Start a packet on a link: mark, HC, credits (R158, R165, R173). -/
def State.startOn (s : State) (k : Pk) (h : Hop) : State :=
  let (m, s) := s.eddy h.port k.b
  let s := if m && !pkMark k.b then
      s.modRte (fun r => { r with marks := tabSet r.marks h.port 0 (tabGetD r.marks h.port 0 + 1) }) else s
  let b := if m then pkSet k.b 50 1 1 else k.b
  let b := if s.kind h.port = kGlobal then pkSet b 37 2 (pkHc b + 1) else b
  let key := s.downKey k.b h
  let n := pkCredits k.b
  let s := s.modRte (fun r => { r with cred := tabSet r.cred key 0 (tabGetD r.cred key 0 - n),
                                       used := tabSet r.used key 0 (tabGetD r.used key 0 + n) })
  s.modLink h.port (fun l => { l with tx := l.tx ++ b })

/-- PACKET_FORWARD: one packet leaves by an output (64 ejects). `lost` says that a word of the packet was found
uncorrectable as it was read (Table 12.3): the packet is discarded. -/
def State.forward (s : State) (out : Nat) (lost : Bool) : State :=
  if !s.en uRTE then s else
  match s.arbitrate out with
  | (none, s) => s
  | (some (i, k), s) =>
    if lost then (s.modRte (fun r => { r with held := r.held.eraseIdx i })).freePk k |>.notice k.b
    else
      match k.hops.find? (fun h => h.port == out) with
      | none => s
      | some h =>
        let s := if out = ownPort then s.eject k.b else s.startOn k h
        s.hopTaken i out k

/-- Classify a port that enters UP (R148). -/
def State.classify (s : State) (p : Nat) : Nat :=
  let role := s.portRole p
  let n := s.rd F.SER_PORT_STATUS.PEER_NODE p
  let g := n / 256
  let pos := n % 256
  if role = 0 then kUnused
  else if role = 3 then kHost
  else if role = 1 then
    if g = s.ownGroup ∧ pos / 16 = s.ownPos / 16 ∧ pos % 16 ≠ s.ownPos % 16 then kRow
    else if g = s.ownGroup ∧ pos % 16 = s.ownPos % 16 ∧ pos / 16 ≠ s.ownPos / 16 then kCol
    else kMisplaced
  else if g ≠ s.ownGroup then kGlobal else kMisplaced

/-- Grant every channel of a port its reserve, once, when allowed (R166, R184, R417). -/
def State.grantPort (s : State) (p : Nat) : State :=
  let kd := s.kind p
  if s.lnkState p = lnkUp ∧ s.en uRTE ∧ s.on F.GLB_BOOT_CTRL.ROUTES_READY ∧ !bit s.rte.granted p ∧ 1 ≤ kd ∧ kd ≤ 4 then
    let s := s.modRte (fun r => { r with granted := setBit r.granted p })
    foldS (channels kd) s (fun s c =>
      let n := s.reserve c.1 c.2.2
      (s.modRte (fun r => { r with alloc := tabSet r.alloc (chKey p c.1 c.2.1 c.2.2) 0 n })).sendCredit p c.1 c.2.1 c.2.2 n)
  else s

/-- Grant on every port that waits for its grants (R417). -/
def State.grantAll (s : State) : State := foldS (List.range 64) s (fun s p => s.grantPort p)

/-- Forget the credits of a port in both directions (R166). -/
def State.zeroCredits (s : State) (p : Nat) : State :=
  s.modRte (fun r => { r with
    alloc := r.alloc.filter (fun e => chPort e.1 != p), cred := r.cred.filter (fun e => chPort e.1 != p),
    used := r.used.filter (fun e => chPort e.1 != p), seen := r.seen.filter (fun k => chPort k != p),
    granted := clrBit r.granted p, held := r.held.map (fun k => if k.input = p then { k with counted := false } else k) })

/-- A link enters UP (R148, R166): packets still staged are those of the link before. -/
def State.routerUp (s : State) (p : Nat) : State :=
  let old := s.arrived.filter (fun e => e.1 == p)
  let s := foldS old { s with arrived := s.arrived.filter (fun e => e.1 != p) } (fun s e => s.packetArrive p e.2 false)
  let s := s.zeroCredits p
  let n := s.rd F.SER_PORT_STATUS.PEER_NODE p
  let kd := s.classify p
  let s := s.wr F.RTE_PORT_STATUS.KIND kd p
  let s := (s.wr F.RTE_PORT_STATUS.PEER_GROUP (n / 256) p).wr F.RTE_PORT_STATUS.PEER_POS (n % 256) p
  let s := if kd = kMisplaced then s.raise .RTE_PEER_MISPLACED p else s
  s.grantPort p

/-- The hops on which held packet `k` goes on when it waits for a dead port: routed again (R178), its multicast branches on dead
ports skipped (R192); with no hop left it is discarded. -/
def State.hopsAgain (s : State) (k : Pk) : List Hop × Bytes × State :=
  match k.hops.find? (fun h => s.dead h.port) with
  | none => (k.hops, k.b, s)
  | some d =>
    if pkMcast k.b then
      let hs := k.hops.filter (fun h => !s.dead h.port)
      let s := foldS (List.range (k.hops.length - hs.length)) s (fun s _ => s.mcSkip)
      (hs, k.b, if hs.isEmpty then s.freePk k else s)
    else match s.withHop { k with hops := [] } (some d.port) with
      | (some k, s) => (k.hops, k.b, s)
      | (none, s) => ([], k.b, s)

/-- Every held packet that waits for a dead port goes on by another hop, the oldest first, with all the others queued; while RTE
is disabled it stays held (R178, R184). -/
def State.reroute (s : State) : State :=
  if !s.en uRTE then s else
  let s := foldS (List.range s.rte.held.length) s (fun s i =>
    match s.rte.held[i]? with
    | none => s
    | some k =>
      let (hs, b, s) := s.hopsAgain k
      s.modRte (fun r => { r with held := r.held.set i { k with b := b, hops := hs } }))
  s.modRte (fun r => { r with held := r.held.filter (fun k => !k.hops.isEmpty) })

/-- A port dies (R178). -/
def State.routerDead (s : State) (p : Nat) : State := ((s.wr F.RTE_PORT_STATUS.DEAD 1 p).zeroCredits p).reroute

/-- RTE is enabled: packets held for ports that died meanwhile go on, ports that entered UP meanwhile get their grants (R184). -/
def State.routerOn (s : State) : State := s.reroute.grantAll

/-- A port becomes routable at a Beat boundary (R177). -/
def State.routable (s : State) (p : Nat) : State :=
  let kd := s.kind p
  if s.dead p ∧ s.lnkState p = lnkUp ∧ 1 ≤ kd ∧ kd ≤ 4 ∧
      (channels kd).all (fun c => s.rte.seen.contains (chKey p c.1 c.2.1 c.2.2)) then s.wr F.RTE_PORT_STATUS.DEAD 0 p
  else s

/-- One word of a CREDIT message (R167); none is a protocol violation. Every word lowers the count of credits in use (R159; DESIGN
CHOICE, log entry 142). -/
def State.creditWord (s : State) (p w : Nat) : Option State :=
  let vn := bits w 0 3
  let hc := bits w 3 2
  let det := bit w 5
  let n := bits w 8 12
  let kd := s.kind p
  if bits w 6 2 ≠ 0 ∨ bits w 20 12 ≠ 0 ∨ n = 0 ∨ 4 < vn ∨ hc = 3 ∨ (det ∧ kd ≠ kRow ∧ kd ≠ kCol) then none
  else
    let key := chKey p vn hc det
    if 4095 < tabGetD s.rte.cred key 0 + n then none
    else some (s.modRte (fun r => { r with
      cred := tabPut r.cred key (tabGetD r.cred key 0 + n),
      used := tabSet r.used key 0 (tabGetD r.used key 0 - n),
      seen := if r.seen.contains key then r.seen else r.seen ++ [key] }))

/-- A CREDIT message (R167). -/
def State.creditMsg (s : State) (p : Nat) : Nat → Bytes → State
  | 0, _ => s
  | n + 1, b =>
    if b.length < 4 then s else
    match s.creditWord p (leAt b 0 4) with
    | some s => State.creditMsg s p n (b.drop 4)
    | none => s.declare p rsProto

/-- AGE rises by one in every held packet (R171). -/
def State.ageAll (s : State) : State :=
  s.modRte (fun r => { r with held := r.held.map (fun k => { k with b := pkSet k.b 57 5 (min 31 (pkAge k.b + 1)) }) })

/-- The limiter update of one Beat (R175, R176). -/
def limiterBeat (min' md ai cap : Nat) (l : Limiter) : Limiter :=
  let r := if l.echoed then max min' (l.rate - l.rate * md / 256) else min cap (l.rate + ai)
  ⟨r, r, false, if r = cap ∧ l.rate = cap then l.capBeats + 1 else 0⟩

/-- The source rate limiter task (R175). -/
def State.limiterTask (s : State) : State :=
  let mn := s.rd F.RTE_LIMITER_CFG.RATE_MIN
  let md := s.rd F.RTE_LIMITER_CFG.MD
  let ai := s.rd F.RTE_LIMITER_CFG.AI
  let cap := s.rd F.RTE_LIMITER_STATUS.RATE_CAP
  s.modRte (fun r => { r with limits := r.limits.map (fun e => (e.1, limiterBeat mn md ai cap e.2)), fullLogged := false })

/-- LIMITER_FREE: a limiter that has stood at RATE_CAP for FREE_BEATS Beats (R175). -/
def State.limiterFree (s : State) (node : Nat) : State :=
  match tabGet s.rte.limits node with
  | some l =>
    if s.rd F.RTE_LIMITER_CFG.FREE_BEATS ≤ l.capBeats then
      let s := s.modRte (fun r => { r with limits := tabDel r.limits node })
      s.wr F.RTE_LIMITER_STATUS.IN_USE s.rte.limits.length
    else s
  | none => s

/-- The short ECHO packets owed at a boundary (R174), in traffic class 0 (DESIGN CHOICE, log entry 143). -/
def State.echoTask (s : State) : State :=
  let os := s.rte.owed
  foldS os (s.modRte (fun r => { r with owed := [] }))
    (fun s n => s.send (pkSet (mkPacket n s.nodeId 2 0 0x04 0 [] []) 51 1 1))

/-- The congestion epoch results (Table 5.27), from the measured queue average and maximum of each port; they commit at the next
boundary (R27). -/
def State.epochTask (s : State) (m : List (Nat × Nat × Nat)) : State :=
  let s := foldS (List.range 64) s (fun s p =>
    let e := ((m.find? (fun e => e.1 == p)).map (·.2)).getD (0, 0)
    let s := s.drive F.RTE_CONG.MARKS (min 65535 (tabGetD s.rte.marks p 0)) p
    (s.drive F.RTE_CONG.EPOCH_AVG (min 65535 e.1) p).drive F.RTE_CONG.EPOCH_MAX (min 65535 e.2) p)
  s.modRte (fun r => { r with marks := [] })

/-- Load the LFSRs from the seeds (R160). -/
def State.loadSeeds (s : State) : State :=
  s.modRte (fun r => { r with lfsr := (List.range 4).map (fun i => s.rd F.RTE_SEED.SEED i) })

/-- The image's reset value of RTE_PORT_FALLBACK[p] (Table 5.26). -/
def State.fallbackReset (s : State) (p : Nat) : Nat :=
  let role := s.portRole p
  if role = 1 ∨ role = 2 then
    (List.range 64).foldl (fun a q => if q ≠ p ∧ s.portRole q = role then a + 2 ^ q else a) 0
  else 0

/-- A unit reset of RTE (R184): held packets and limiters go, and every port in INIT or UP is fenced. -/
def State.rteReset (s : State) : State :=
  let s := s.modRte (fun r => { r with held := [], notices := [], limits := [], arb := [], marks := [], fullLogged := false })
  let s := s.wr F.RTE_LIMITER_STATUS.IN_USE 0
  foldS (List.range 64) { s with arrived := [] } (fun s p =>
    if s.lnkState p = lnkInit ∨ s.lnkState p = lnkUp ∨ (s.lnkState p = lnkFencing ∧ s.acts.contains (.portDead p)) then
      s.leave p fnRteReset serDetect
    else s)

end Sys2Proof.Machine
end

