-- ==== Sys2Proof/Machine/Bea.lean ====
section
/-! DEFINITION. The Beat unit (01_device_organization.md): exchanges, offsets and slewing, alignment states, armed commits,
time captures. -/

namespace Sys2Proof.Machine

def State.modBea (s : State) (f : Bea → Bea) : State := { s with bea := f s.bea }

/-- Alignment states (Table 1.11). -/
abbrev baFree : Nat := 0
abbrev baAcquire : Nat := 1
abbrev baLocked : Nat := 2
abbrev baHoldover : Nat := 3
abbrev baMaster : Nat := 4

def State.ba (s : State) : Nat := s.rd F.BEA_STATUS.STATE
def State.role (s : State) : Nat := s.rd F.BEA_CONFIG.ROLE

/-- The Beat in 1/16 core cycle (R23). -/
def State.beatSub (s : State) : Nat := 1024 * s.rd F.BEA_CONFIG.PERIOD_UNITS

/-- A time-stamp (R135) in 1/16 core cycle: BEAT, CYCLE, SUB. -/
def stampTime (len : Nat) (t : Stamp) : Int := (bits t 18 46 * len + bits t 4 14 * 16 + bits t 0 4 : Nat)

/-- The difference of two time-stamps of one clock or of two, with the wrap of the 46-bit Beat count taken out. -/
def stampDiff (len : Nat) (a b : Stamp) : Int :=
  let m : Int := (2 ^ 46 * len : Nat)
  let d := (stampTime len a - stampTime len b) % m
  if d < m / 2 then d else d - m

/-- Delay and offset of one exchange (The two-way exchange), in 1/16 core cycle; half of an odd sum rounds toward minus infinity
(DESIGN CHOICE, log entry 102). -/
def xchgDelay (len : Nat) (t1 t2 t3 t4 : Stamp) : Int := (stampDiff len t4 t1 - stampDiff len t3 t2) / 2
def xchgOffset (len : Nat) (t1 t2 t3 t4 : Stamp) : Int := (stampDiff len t1 t2 + stampDiff len t4 t3) / 2

/-- The median of up to three offsets; of two, their mean (log entry 37). -/
def median : List Int → Int
  | [] => 0
  | [a] => a
  | [a, b] => (a + b) / 2
  | a :: b :: c :: _ => max (min a b) (min (max a b) c)

/-- The port carries Beat exchanges (R38, R136): a fabric port in UP whose peer is Beat-capable. -/
def State.beatPort (s : State) (p : Nat) : Bool :=
  (s.portRole p == 1 || s.portRole p == 2) && s.lnkState p == lnkUp && s.on F.SER_PORT_STATUS.PEER_BEAT p

/-- MASTER_PRIO that a device sends (Table 4.6, R44). -/
def State.ownPrio (s : State) : Nat :=
  if s.ba = baMaster then (if s.role = 1 then 0 else 1)
  else if s.on F.BEA_STATUS.UP_VALID then s.rd F.BEA_STATUS.MASTER_PRIO else 0xFF

/-- The fields of a message of the device beside the identifier and the time-stamps (Table 4.6). -/
def State.xchgOwn (s : State) (xid t1 t2 : Nat) : Xchg :=
  ⟨xid, s.ownPrio, s.rd F.BEA_STATUS.DISTANCE, s.rd F.BEA_CONFIG.PERIOD_UNITS, s.rd F.BEA_STATUS.MASTER_ID,
   (s.bea.aliveSeq.getD 0) % 2 ^ 32, s.beat, t1, t2, 0⟩

/-- Beats from one request to the next on a port (R38): 4 on the upstream, else 64. -/
def State.xchgEvery (s : State) (p : Nat) : Nat :=
  if s.on F.BEA_STATUS.UP_VALID && s.rd F.BEA_STATUS.UPSTREAM == p then 4 else 64

/-- A request is due on a port (R38): none was sent since its link came up, or the Beats between two have passed. -/
def State.xchgDue (s : State) (p : Nat) : Bool :=
  s.beatPort p && (match tabGet s.bea.sentAt p with
    | some n => decide (n + s.xchgEvery p ≤ s.bea.ticks)
    | none => true)

/-- BEAT_XCHG_SEND: a request on a port where one is due (R38); the identifier is the requester's choice. -/
def State.xchgSend (s : State) (p : Nat) : State :=
  if s.xchgDue p then
    let (x, s) := s.pick 256
    let s := s.modBea (fun b => { b with xids := tabPut b.xids p x, sentAt := tabPut b.sentAt p b.ticks })
    s.modLink p (fun l => { l with xchg := l.xchg ++ [(false, s.xchgOwn x 0 0)] })
  else s

/-- A port's candidate goes. -/
def State.candDrop (s : State) (p : Nat) : State := s.modBea (fun b => { b with cands := tabDel b.cands p })

/-- The best candidate (R40): highest priority, lowest distance, lowest port. A port stays a candidate, without an age limit, until
its link goes or a message of its peer disqualifies it (DESIGN CHOICE, log entry 104). -/
def State.bestCand (s : State) : Option (Nat × Cand) :=
  match s.bea.cands.filter (fun c => s.beatPort c.1) with
  | [] => none
  | c :: r => some (r.foldl (fun a x =>
      if x.2.prio < a.2.prio ∨ (x.2.prio = a.2.prio ∧ x.2.distance < a.2.distance) then x else a) c)

/-- Record what an upstream says. -/
def State.follow (s : State) (p : Nat) (c : Cand) : State :=
  let s := ((s.wr F.BEA_STATUS.UP_VALID 1).wr F.BEA_STATUS.UPSTREAM p).wr F.BEA_STATUS.DISTANCE (c.distance + 1)
  (s.wr F.BEA_STATUS.MASTER_ID c.masterId).wr F.BEA_STATUS.MASTER_PRIO c.prio

/-- Enter ACQUIRE on a candidate (Table 1.6). -/
def State.acquire (s : State) (p : Nat) (c : Cand) : State :=
  let s := (s.follow p c).wr F.BEA_STATUS.STATE baAcquire
  let s := (s.wr F.BEA_STATUS.REF_LOCK 0).wr F.BEA_OFFSET.HOLD_MS 0
  s.modBea (fun b => { b with kept := [], residue := 0, inband := 0, upQuiet := 0, aliveQuiet := 0, holdTime := 0, slewOnly := false })

/-- No upstream and no master. -/
def State.unfollow (s : State) (st : Nat) : State :=
  let s := (s.wr F.BEA_STATUS.STATE st).wr F.BEA_STATUS.UP_VALID 0
  let s := (s.wr F.BEA_STATUS.UPSTREAM 0).wr F.BEA_STATUS.DISTANCE 0xFF
  let s := (s.wr F.BEA_STATUS.MASTER_ID 0).wr F.BEA_STATUS.MASTER_PRIO 0
  s.modBea (fun b => { b with kept := [], residue := 0, inband := 0, upQuiet := 0, holdTime := 0 })

/-- The upstream is lost (Table 1.6). -/
def State.upLost (s : State) : State :=
  let st := s.ba
  if st = baAcquire ∨ st = baLocked then
    let s := s.candDrop (s.rd F.BEA_STATUS.UPSTREAM)
    match s.bestCand with
    | some (p, c) => s.acquire p c
    | none =>
      if st = baLocked ∨ s.on F.BEA_STATUS.EVER_LOCKED then (s.unfollow baHoldover).raise .BEA_HOLDOVER else s.unfollow baFree
  else s

/-- UPSTREAM_LOST: 16 Beats without an exchange (Table 1.6). -/
def State.upstreamLost (s : State) : State :=
  if 16 ≤ s.bea.upQuiet ∨ !s.beatPort (s.rd F.BEA_STATUS.UPSTREAM) then s.upLost else s

/-- The link of a port goes down: its delay is measured anew, its candidate goes, an upstream is lost. -/
def State.beaPortDown (s : State) (p : Nat) : State :=
  let s := (s.wr F.BEA_LINK_DELAY.VALID 0 p).candDrop p
  let s := s.modBea (fun b => { b with xids := tabDel b.xids p, sentAt := tabDel b.sentAt p })
  if s.on F.BEA_STATUS.UP_VALID ∧ s.rd F.BEA_STATUS.UPSTREAM = p then s.upLost else s

/-- Enter MASTER (R44): count and phase stay. -/
def State.enterMaster (s : State) : State :=
  let s := (s.unfollow baMaster).wr F.BEA_STATUS.DISTANCE 0
  let s := (s.wr F.BEA_STATUS.MASTER_ID s.nodeId).wr F.BEA_STATUS.MASTER_PRIO (if s.role = 1 then 0 else 1)
  (s.wr F.BEA_OFFSET.HOLD_MS 0).modBea (fun b => { b with aliveSeq := some (b.aliveSeq.getD 0) })

/-- The 64-bit count nearest to `c` whose low 46 bits are those of `x`. -/
def nearCount (c : Nat) (x : Int) : Nat :=
  let d := (x - (c : Int)) % (2 ^ 46 : Nat)
  let d := if d < (2 ^ 45 : Nat) then d else d - (2 ^ 46 : Nat)
  (((c : Int) + d) % (2 ^ 64 : Nat)).toNat

/-- A step (R39): the count and the phase move at once. The arrival time-stamp of the exchange names the present time, which gives
the low 46 bits of the master's count; the message's own Beat count gives the rest (Table 1.9, Table 4.6). -/
def State.step' (s : State) (t4 : Stamp) (r : Int) (count : Nat) : State :=
  let len := s.beatSub
  let d := (stampTime len t4 - r) / len - stampTime len t4 / len
  let s := s.wr F.BEA_COUNT.COUNT (nearCount count ((s.beat : Int) + d))
  s.modBea (fun b => { b with kept := b.kept.map (fun k => k - r), residue := 0 })

/-- An exchange on the upstream (R39, Table 1.6): the offset joins the last three, the residue is their median; in ACQUIRE
before the first lock the correction may be a step, which the spec leaves to the device (log entry 36). -/
def State.correct (s : State) (off : Int) (t4 : Stamp) (count : Nat) : State :=
  let kept := (off :: s.bea.kept).take 3
  let m := median kept
  let s := s.wr F.BEA_OFFSET.OFFSET (ofSigned 16 (max (-32768) (min 32767 m)))
  let near := decide (-40 ≤ m) && decide (m ≤ 40)
  let s := s.modBea (fun b => { b with kept := kept, residue := m, upQuiet := 0, inband := if near then min 4 (b.inband + 1) else 0 })
  if s.ba = baAcquire then
    if 4 ≤ s.bea.inband then (s.wr F.BEA_STATUS.STATE baLocked).wr F.BEA_STATUS.EVER_LOCKED 1
    else if s.on F.BEA_STATUS.EVER_LOCKED ∨ s.bea.slewOnly ∨ m = 0 then s
    else
      let (k, s) := s.pick 2
      if k = 0 then s else s.step' t4 m count
  else s

/-- A message of a port with another period is rejected (Table 1.6). -/
def State.periodBad (s : State) (p : Nat) : State :=
  let s := (s.candDrop p).raise .BEA_PERIOD_MISMATCH p
  if s.on F.BEA_STATUS.UP_VALID ∧ s.rd F.BEA_STATUS.UPSTREAM = p then s.upLost else s

/-- A master-alive sequence from the upstream, fresh when it differs from the last one (R43). -/
def State.alive (s : State) (q : Nat) : State :=
  if s.bea.aliveSeq = some q then s else s.modBea (fun b => { b with aliveSeq := some q, aliveQuiet := 0 })

/-- A master that hears one of higher priority, or of equal priority and lower node ID, yields: it follows, and only slews
(Table 1.6). -/
def State.yields (s : State) (m : Xchg) : Bool :=
  s.ba == baMaster && (decide (m.prio < s.ownPrio) || (m.prio == s.ownPrio && decide (m.masterId < s.nodeId)))
def State.yieldTo (s : State) (p : Nat) (c : Cand) : State :=
  ((s.raise .BEA_MASTER_YIELD).acquire p c).modBea (fun b => { b with slewOnly := true })

/-- What a message says of a port's peer as a candidate (R40). -/
def candOf (m : Xchg) : Option Cand := if 1 < m.prio ∨ 6 ≤ m.distance then none else some ⟨m.prio, m.distance, m.masterId, 0⟩

/-- What a received request says of its sender (Table 1.6): another period rejects the port; a master is heard, and a master of
higher priority makes this one yield. It carries no offset, so nothing is corrected by it (DEDUCED, log entry 105). -/
def State.xchgHeard (s : State) (p : Nat) (m : Xchg) : State :=
  if m.period ≠ s.rd F.BEA_CONFIG.PERIOD_UNITS then s.periodBad p
  else match candOf m with
    | none => s
    | some c =>
      let s := s.modBea (fun b => { b with heard := true })
      if s.yields m then ((s.modBea (fun b => { b with cands := tabPut b.cands p c })).yieldTo p c).alive m.alive else s

/-- A received request (R136): answered on its port. -/
def State.xchgRequest (s : State) (p : Nat) (m : Xchg) (t2 : Stamp) : State :=
  if !s.beatPort p then s
  else (s.xchgHeard p m).modLink p (fun l => { l with xchg := l.xchg ++ [(true, (s.xchgHeard p m).xchgOwn m.xid m.t1 t2)] })

/-- A valid exchange from a candidate (Table 1.6). -/
def State.xchgCand (s : State) (p : Nat) (c : Cand) (m : Xchg) (off : Int) (t4 : Stamp) : State :=
  let s := s.modBea (fun b => { b with cands := tabPut b.cands p c, heard := true })
  let st := s.ba
  if st = baFree then
    let listens := s.role == 1 && (match s.bea.sinceLoad with | some n => decide (n < 64) | none => false)
    let s := if listens then s.raise .BEA_MASTER_YIELD else s
    ((s.acquire p c).alive m.alive).correct off t4 m.count
  else if st = baHoldover then ((s.acquire p c).alive m.alive).correct off t4 m.count
  else if st = baMaster then
    if s.yields m then ((s.yieldTo p c).alive m.alive).correct off t4 m.count else s
  else if s.rd F.BEA_STATUS.UPSTREAM = p then ((s.follow p c).alive m.alive).correct off t4 m.count
  else s

/-- A received response (R136, R38, R39, R40, Table 1.6). A delay that does not fit BEA_LINK_DELAY, and an offset that does not fit
BEA_OFFSET, read as the nearest value that does (DESIGN CHOICE, log entry 103). -/
def State.xchgResponse (s : State) (p : Nat) (m : Xchg) (t4 : Stamp) : State :=
  if !s.beatPort p ∨ tabGet s.bea.xids p ≠ some m.xid then s
  else
    let s := s.modBea (fun b => { b with xids := tabDel b.xids p })
    if m.period ≠ s.rd F.BEA_CONFIG.PERIOD_UNITS then s.periodBad p
    else
      let len := s.beatSub
      let d := xchgDelay len m.t1 m.t2 m.t3 t4
      let s := (s.wr F.BEA_LINK_DELAY.VALID 1 p).wr F.BEA_LINK_DELAY.DELAY (max 0 (min 65535 d)).toNat p
      match candOf m with
      | none =>
        let s := s.candDrop p
        if s.on F.BEA_STATUS.UP_VALID ∧ s.rd F.BEA_STATUS.UPSTREAM = p then s.upLost else s
      | some c => s.xchgCand p c m (xchgOffset len m.t1 m.t2 m.t3 t4) t4

/-- HOLDOVER_LIMIT: LIMIT_S is reached (Table 1.6, R42). -/
def State.holdLimit (s : State) : State :=
  if s.ba = baHoldover ∧ s.rd F.BEA_HOLDOVER.LIMIT_S * 10000000000 ≤ s.bea.holdTime then (s.unfollow baFree).raise .BEA_UNALIGNED
  else s

/-- MASTER_ALIVE_MISSING: a backup takes over (Table 1.6, R43). -/
def State.aliveMissing (s : State) : State :=
  let due := match s.ba with
    | 0 => !s.bea.heard && (match s.bea.sinceLoad with | some n => decide (16 ≤ n) | none => false)
    | 4 => false
    | _ => decide (16 ≤ s.bea.aliveQuiet)
  if due && s.role == 2 then s.enterMaster.raise .BEA_MASTER_TAKEOVER else s

/-- LISTEN_WINDOW_END: a primary that heard no master becomes one (R43). -/
def State.listenEnd (s : State) : State :=
  if s.ba == baFree && s.role == 1 && !s.bea.heard && (match s.bea.sinceLoad with | some n => decide (64 ≤ n) | none => false) then s.enterMaster
  else s

/-- PPS_EDGE, with the phase of the edge and the milliseconds since the edge captured before (R37, R437). -/
def State.ppsEdge (s : State) (cycle sub ms : Nat) : State :=
  if s.on F.BEA_PPS_PHASE.VALID ∧ ms < 900 then s
  else
    let s := (s.wr F.BEA_PPS_COUNT.COUNT s.beat).wr F.BEA_PPS_PHASE.VALID 1
    (s.wr F.BEA_PPS_PHASE.CYCLE cycle).wr F.BEA_PPS_PHASE.SUB sub

/-- BEAT_REF_LOCK and BEAT_REF_LOST at a master with EXT_REF (R37). -/
def State.refLock (s : State) : State :=
  if s.ba = baMaster ∧ s.on F.BEA_CONFIG.EXT_REF then s.wr F.BEA_STATUS.REF_LOCK 1 else s
def State.refLost (s : State) : State :=
  if s.on F.BEA_STATUS.REF_LOCK then (s.wr F.BEA_STATUS.REF_LOCK 0).raise .BEA_REF_LOST else s

/-- The capture of a requester (R46): PF 0 to 3, the mailbox 4, entry i of RTE_MGMT_ALLOW 5 + i. -/
def phaseInst : Who → Nat
  | .fn (.pf p) => p.val
  | .fn (.vf p _) => p.val
  | .mailbox => 4
  | .mgmt i => 5 + i.val

/-- A read of BEA_COUNT at a phase of the Beat (R46). -/
def State.capturePhase (s : State) (who : Who) (cycle sub : Nat) : State :=
  (s.wrI F.BEA_PHASE.CYCLE (phaseInst who) 0 cycle).wrI F.BEA_PHASE.SUB (phaseInst who) 0 sub

/-! ### Holding and arming -/

/-- A write of HOLD (R31, R35): while ARM is set it does not clear the bit of a masked group. -/
def State.commitHold (s : State) (v : Nat) : State :=
  s.wr F.BEA_COMMIT_HOLD.HOLD
    (if s.on F.BEA_COMMIT_ARM.ARM then v ||| (s.rd F.BEA_COMMIT_ARM.MASK &&& s.rd F.BEA_COMMIT_HOLD.HOLD) else v)

/-- ARM is set, or the target written, for a Beat already reached or not (R36). -/
def State.lateCheck (s : State) : State :=
  if s.rd F.BEA_COMMIT_AT.TARGET ≤ s.beat then (s.modBea (fun b => { b with armLate := true })).raise .BEA_LATE_COMMIT
  else s.modBea (fun b => { b with armLate := false })

/-- A write of BEA_COMMIT_ARM (R35, R36). -/
def State.commitArm (s : State) (arm : Bool) (mask : Nat) : State :=
  if s.on F.BEA_COMMIT_ARM.ARM then
    if arm then (if mask = s.rd F.BEA_COMMIT_ARM.MASK then s else s.raise .CFG_REJECT)
    else ((s.wr F.BEA_COMMIT_ARM.ARM 0).wr F.BEA_COMMIT_ARM.MASK mask).modBea (fun b => { b with armLate := false })
  else
    let s := s.wr F.BEA_COMMIT_ARM.MASK mask
    if !arm then s
    else if s.ba = baFree ∨ s.ba = baAcquire then s.raise .CFG_REJECT
    else
      let s := (s.wr F.BEA_COMMIT_ARM.ARM 1).wr F.BEA_COMMIT_HOLD.HOLD (s.rd F.BEA_COMMIT_HOLD.HOLD ||| s.rd F.BEA_COMMIT_ARM.MASK)
      s.lateCheck

/-- A write of BEA_COMMIT_AT (R36). -/
def State.commitAt (s : State) (v : Nat) : State :=
  let s := s.wr F.BEA_COMMIT_AT.TARGET v
  if s.on F.BEA_COMMIT_ARM.ARM then s.lateCheck else s

/-- An armed commit is due at the present boundary (R35, R36). -/
def State.armDue (s : State) : Bool :=
  s.on F.BEA_COMMIT_ARM.ARM && (s.bea.armLate || decide (s.rd F.BEA_COMMIT_AT.TARGET ≤ s.beat))

/-- The armed groups are released: their HOLD bits and ARM clear. -/
def State.armRelease (s : State) : State :=
  let m := s.rd F.BEA_COMMIT_ARM.MASK
  let h := (List.range 17).foldl (fun a g => if bit m g then clrBit a g else a) (s.rd F.BEA_COMMIT_HOLD.HOLD)
  ((s.wr F.BEA_COMMIT_HOLD.HOLD h).wr F.BEA_COMMIT_ARM.ARM 0).modBea (fun b => { b with armLate := false })

/-! ### The boundary's own part -/

/-- Slew (R39): the boundary moves by at most one core cycle against the residue; the kept offsets follow. -/
def State.slewTask (s : State) : State :=
  let st := s.ba
  let r := s.bea.residue
  let d := if st = baAcquire ∨ st = baLocked then max (-16) (min 16 r) else 0
  s.modBea (fun b => { b with slew := d, residue := r - d, kept := b.kept.map (fun k => k - d) })

/-- The Beat's count, period, sequence and timers at a boundary (R23, R43, R45). -/
def State.beatTick (s : State) : State :=
  let s := s.wr F.BEA_COUNT.COUNT (s.beat + 1)
  let t := 512 * s.bea.period
  let s := s.modBea (fun b => { b with
    period := s.rd F.BEA_CONFIG.PERIOD_UNITS,
    aliveSeq := if s.ba = baMaster then some ((b.aliveSeq.getD 0 + 1) % 2 ^ 32) else b.aliveSeq,
    ticks := b.ticks + 1, aliveQuiet := min 16 (b.aliveQuiet + 1), upQuiet := min 16 (b.upQuiet + 1),
    sinceLoad := b.sinceLoad.map (fun n => min 64 (n + 1)),
    holdTime := if s.ba = baHoldover then b.holdTime + t else 0 })
  s.wr F.BEA_OFFSET.HOLD_MS (min 65535 (s.bea.holdTime / 10000000))

/-- The cycles that the tasks of a Beat took (Table 1.12). -/
def State.peak (s : State) (cycles : Nat) : State := s.wr F.BEA_BUDGET.PEAK (max (s.rd F.BEA_BUDGET.PEAK) (min 65535 cycles))

/-- The end of a Beat whose tasks did not all finish (R28): each of them counts once and is logged with its order in Table 1.4 as
the instance; the Beat counts with its whole length (Table 1.12). -/
def State.overruns (s : State) : State :=
  if s.bea.late.isEmpty then s
  else
    let s := s.peak (((1024 * s.bea.period : Nat) + s.bea.slew) / 16).toNat
    foldS s.bea.late s (fun s k => (s.inc F.BEA_STATUS.OVERRUNS).raise .BEA_OVERRUN k)

/-- An image applies its BEAT member: the listen window and the alive count start (R23, R43). -/
def State.beaLoaded (s : State) : State := s.modBea (fun b => { b with sinceLoad := some 0, heard := false })

end Sys2Proof.Machine
end

