-- ==== Sys2Proof/Machine/Combine.lean ====
section
/-! DEFINITION. Confluence arithmetic (06_multicast_and_confluence.md): the data types and operations of Table 6.8, rounding
(R203), partial records of exact mode (R208, R209), and the folds over chunks (R207). -/

namespace Sys2Proof.Machine

/-- The size of a DTYPE in bytes (Table 6.8). -/
def dtSize (dt : Nat) : Nat := match dt with | 0 => 4 | 1 => 4 | 2 => 8 | 3 => 8 | 4 => 2 | 5 => 2 | 6 => 4 | _ => 8

/-- A DTYPE is a floating-point type. -/
def dtFloat (dt : Nat) : Bool := decide (4 ≤ dt)

/-- Precision (with the hidden bit) and exponent width of a floating-point DTYPE. -/
def fpFmt (dt : Nat) : Nat × Nat := match dt with | 4 => (11, 5) | 5 => (8, 8) | 6 => (24, 8) | _ => (53, 11)

/-- A decoded floating-point value: not a number, an infinity, or ± mag × 2^exp. -/
inductive Fp where
  | nan
  | inf (neg : Bool)
  | fin (neg : Bool) (mag : Nat) (exp : Int)
  deriving DecidableEq, Repr

/-- The least exponent of a format: the weight of the last bit of its subnormals. -/
def fpMin (dt : Nat) : Int := let (p, ew) := fpFmt dt; 2 - (2 ^ (ew - 1) : Nat) - (p - 1 : Nat)

/-- Decode a value. -/
def fpDec (dt x : Nat) : Fp :=
  let (p, ew) := fpFmt dt
  let frac := x % 2 ^ (p - 1)
  let e := x / 2 ^ (p - 1) % 2 ^ ew
  let neg := bit x (p - 1 + ew)
  if e = 2 ^ ew - 1 then (if frac = 0 then .inf neg else .nan)
  else if e = 0 then .fin neg frac (fpMin dt)
  else .fin neg (frac + 2 ^ (p - 1)) (fpMin dt + (e - 1 : Nat))

/-- The canonical quiet NaN (R203), and an infinity. -/
def fpNan (dt : Nat) : Nat := let (p, ew) := fpFmt dt; (2 ^ ew - 1) * 2 ^ (p - 1) + 2 ^ (p - 2)
def fpInf (dt : Nat) (neg : Bool) : Nat :=
  let (p, ew) := fpFmt dt
  b2n neg * 2 ^ (p - 1 + ew) + (2 ^ ew - 1) * 2 ^ (p - 1)

/-- `m / 2^k` rounded to nearest, ties to even. -/
def rne (m k : Nat) : Nat :=
  let q := m / 2 ^ k
  let r := m % 2 ^ k
  if 2 ^ k < 2 * r ∨ (2 * r = 2 ^ k ∧ q % 2 = 1) then q + 1 else q

/-- Round ± mag × 2^exp into a type (R203): to nearest, ties to even, subnormals kept, overflow to infinity. -/
def fpRound (dt : Nat) (neg : Bool) (mag : Nat) (exp : Int) : Nat :=
  let (p, ew) := fpFmt dt
  let sgn := b2n neg * 2 ^ (p - 1 + ew)
  if mag = 0 then sgn
  else
    let q := max (exp + (Nat.log2 mag + 1 : Nat) - (p : Nat)) (fpMin dt)
    let n := if q ≤ exp then mag * 2 ^ (exp - q).toNat else rne mag (q - exp).toNat
    let b := (q - fpMin dt).toNat * 2 ^ (p - 1) + n
    if (2 ^ ew - 1) * 2 ^ (p - 1) ≤ b then fpInf dt neg else sgn + b

/-- A signed magnitude as a number, at exponent `e` (not above its own). -/
def fpAt (neg : Bool) (mag : Nat) (exp e : Int) : Int :=
  let m : Int := (mag * 2 ^ (exp - e).toNat : Nat)
  if neg then -m else m

/-- A floating-point sum (R203). -/
def fpSum (dt a b : Nat) : Nat :=
  match fpDec dt a, fpDec dt b with
  | .nan, _ => fpNan dt
  | _, .nan => fpNan dt
  | .inf x, .inf y => if x = y then fpInf dt x else fpNan dt
  | .inf x, _ => fpInf dt x
  | _, .inf y => fpInf dt y
  | .fin na ma ea, .fin nb mb eb =>
    let e := min ea eb
    let t := fpAt na ma ea e + fpAt nb mb eb e
    fpRound dt (if t = 0 then na && nb else decide (t < 0)) t.natAbs e

/-- A floating-point product (R203). -/
def fpProd (dt a b : Nat) : Nat :=
  match fpDec dt a, fpDec dt b with
  | .nan, _ => fpNan dt
  | _, .nan => fpNan dt
  | .inf x, .inf y => fpInf dt (x != y)
  | .inf x, .fin y m _ => if m = 0 then fpNan dt else fpInf dt (x != y)
  | .fin x m _, .inf y => if m = 0 then fpNan dt else fpInf dt (x != y)
  | .fin na ma ea, .fin nb mb eb => fpRound dt (na != nb) (ma * mb) (ea + eb)

/-- The order of floating-point values, −0 below +0 (R203). -/
def fpKey (dt x : Nat) : Int :=
  let w := 8 * dtSize dt
  if bit x (w - 1) then -((x % 2 ^ (w - 1) : Nat) : Int) - 1 else (x % 2 ^ w : Nat)

/-- The order of integer values. -/
def intKey (dt x : Nat) : Int := if dt = 0 ∨ dt = 2 then toSigned (8 * dtSize dt) x else (x : Int)

/-- OP of Table 6.8 on two elements (R203). -/
def elemOp (dt op a b : Nat) : Nat :=
  let m := 2 ^ (8 * dtSize dt)
  let isNan := dtFloat dt && (fpDec dt a == .nan || fpDec dt b == .nan)
  let key := if dtFloat dt then fpKey dt else intKey dt
  match op with
  | 0 => if dtFloat dt then fpSum dt a b else (a + b) % m
  | 1 => if dtFloat dt then fpProd dt a b else (a * b) % m
  | 2 => if isNan then fpNan dt else if key b < key a then b else a
  | 3 => if isNan then fpNan dt else if key a < key b then b else a
  | 4 => a &&& b
  | 5 => a ||| b
  | _ => a ^^^ b

/-- Element `i` of a chunk. -/
def elemAt (dt : Nat) (b : Bytes) (i : Nat) : Nat := leAt b (i * dtSize dt) (dtSize dt)

/-- The fold of one chunk of `n` elements in ordered mode (R207). -/
def foldChunk (dt op n : Nat) : List Bytes → Bytes
  | [] => List.replicate (n * dtSize dt) 0
  | x :: r => (List.range n).flatMap (fun i =>
      leBytes (dtSize dt) (r.foldl (fun a y => elemOp dt op a (elemAt dt y i)) (elemAt dt x i)))

/-- The partial record of a value (R208): its integer and flags. -/
def recordOf (dt x : Nat) : Int × Nat :=
  match fpDec dt x with
  | .nan => (0, 1)
  | .inf false => (0, 2)
  | .inf true => (0, 4)
  | .fin neg mag exp => (fpAt neg mag exp (-149), 0)

/-- The 48 bytes of a partial record, and the record in 48 bytes. -/
def recordBytes (r : Int × Nat) : Bytes := leBytes 40 (ofSigned 320 r.1) ++ leBytes 1 r.2 ++ leBytes 7 0
def recordAt (b : Bytes) (i : Nat) : Int × Nat := (toSigned 320 (leAt b (48 * i) 40), leAt b (48 * i + 40) 1)

/-- Add two partial records (R208). -/
def recordAdd (a b : Int × Nat) : Int × Nat := (a.1 + b.1, a.2 ||| b.2)

/-- The partial records of a native chunk (R208). -/
def toRecords (dt n : Nat) (b : Bytes) : Bytes := (List.range n).flatMap (fun i => recordBytes (recordOf dt (elemAt dt b i)))

/-- Add the records of one chunk of `n` elements (R208). -/
def foldRecords (n : Nat) (xs : List Bytes) : Bytes :=
  (List.range n).flatMap (fun i => recordBytes (xs.foldl (fun a x => recordAdd a (recordAt x i)) (0, 0)))

/-- Round a partial record into a DTYPE (R209). -/
def recordRound (dt : Nat) (r : Int × Nat) : Nat :=
  if bit r.2 0 ∨ (bit r.2 1 ∧ bit r.2 2) then fpNan dt
  else if bit r.2 1 then fpInf dt false
  else if bit r.2 2 then fpInf dt true
  else fpRound dt (decide (r.1 < 0)) r.1.natAbs (-149)

/-- Elements of a native chunk, and of a CF_UP chunk (R205). -/
def chunkElems (dt : Nat) : Nat := 4096 / dtSize dt
def upElems (dt : Nat) (exact' : Bool) : Nat := if exact' then 85 else chunkElems dt

/-- Chunks of an operation, and the elements of chunk `c`. -/
def chunksOf (count e : Nat) : Nat := (count + e - 1) / e
def inChunk (count e c : Nat) : Nat := min e (count - c * e)

end Sys2Proof.Machine
end

