-- ==== Sys2Proof/Machine/Hif.lean ====
section
/-! DEFINITION. The host interface (07_host_interface_and_queues.md): functions and numbering, contexts, work rings,
doorbells, push windows, scheduling, retirement, completions, events and MSI-X. -/

namespace Sys2Proof.Machine

/-- The host port of a PF, and whether it is bifurcated (Table 7.1). -/
def State.bifurcated (s : State) (pf : Nat) : Bool := bit s.boot.hostBif (pf / 2)

/-- A PF exists: its host port is fitted and the strap gives it an attachment (R215). -/
def State.pfExists (s : State) (pf : Nat) : Bool :=
  s.fitted (uHIF + pf / 2) && (pf % 2 == 0 || s.bifurcated pf)

def pfBase (pf : Nat) : Nat := pf * 262144
def State.pfShare (s : State) (pf : Nat) : Nat := if s.pfExists pf then (if s.bifurcated pf then 262144 else 524288) else 0
def State.pfEqs (s : State) (pf : Nat) : Nat := if s.pfExists pf then (if s.bifurcated pf then 1024 else 2048) else 0
def State.pfVfs (s : State) (pf : Nat) : Nat := if s.pfExists pf then (if s.bifurcated pf then 256 else 512) else 0

/-- The PF of a function. -/
def fnPf : Fn → Nat
  | .pf p => p.val
  | .vf p _ => p.val

/-- The instance number of a function's own registers. -/
def fnInst : Fn → Nat
  | .pf p => p.val
  | .vf p v => 4 + p.val * 512 + v.val

/-- The function of an instance number. -/
def fnOfInst (i : Nat) : Fn :=
  if i < 4 then .pf (Fin.ofNat 4 i) else .vf (Fin.ofNat 4 ((i - 4) / 512)) (Fin.ofNat 512 ((i - 4) % 512))

/-- The OWNER of a function (R341). -/
def fnOwner : Fn → Nat
  | .pf p => p.val * 1024
  | .vf p v => p.val * 1024 + 512 + v.val

/-- A field of HIF_VF_MAP of a VF. -/
def State.vfMap (s : State) (f : Fld) (pf v : Nat) : Nat := s.rdI f pf v

/-- Queue numbers and event rings of a function (R219). -/
def State.qCount (s : State) : Fn → Nat
  | .pf p => s.pfShare p.val
  | .vf p v => if v.val < s.pfVfs p.val then s.vfMap F.HIF_VF_MAP.QCOUNT p.val v.val else 0
def State.eqCount (s : State) : Fn → Nat
  | .pf p => s.pfEqs p.val
  | .vf p v => if v.val < s.pfVfs p.val then s.vfMap F.HIF_VF_MAP.EQCOUNT p.val v.val else 0

/-- The first global number of a function. -/
def State.qBase (s : State) : Fn → Nat
  | .pf p => pfBase p.val
  | .vf p v => pfBase p.val + s.vfMap F.HIF_VF_MAP.QBASE p.val v.val

/-- The global number of a function-local one (R219). -/
def State.gOf (s : State) (f : Fn) (n : Nat) : Option Nat := if n < s.qCount f then some (s.qBase f + n) else none

/-- The PF of a global number. -/
def State.pfOf (s : State) (g : Nat) : Nat :=
  let h := if g < 524288 then 0 else 2
  if s.bifurcated h && decide (262144 ≤ g % 524288) then h + 1 else h

/-- The function that owns a number: the VF whose range holds it, or the PF (R219). -/
def State.ownerOf (s : State) (g : Nat) : Fn :=
  let p := s.pfOf g
  let i := g - pfBase p
  match (List.range (s.pfVfs p)).find? (fun v =>
      let b := s.vfMap F.HIF_VF_MAP.QBASE p v
      decide (b ≤ i) && decide (i < b + s.vfMap F.HIF_VF_MAP.QCOUNT p v)) with
  | some v => .vf (Fin.ofNat 4 p) (Fin.ofNat 512 v)
  | none => .pf (Fin.ofNat 4 p)

/-- The event ring of a function's local number: its PF and PF-local number (R219). -/
def State.ringOf (s : State) (f : Fn) (e : Nat) : Nat × Nat :=
  match f with
  | .pf p => (p.val, e)
  | .vf p v => (p.val, s.vfMap F.HIF_VF_MAP.EQBASE p.val v.val + e)

/-- The function that owns an event ring: the VF whose range holds it, or the PF (R219). -/
def State.ringOwner (s : State) (p e : Nat) : Fn :=
  match (List.range (s.pfVfs p)).find? (fun v =>
      let b := s.vfMap F.HIF_VF_MAP.EQBASE p v
      decide (b ≤ e) && decide (e < b + s.vfMap F.HIF_VF_MAP.EQCOUNT p v)) with
  | some v => .vf (Fin.ofNat 4 p) (Fin.ofNat 512 v)
  | none => .pf (Fin.ofNat 4 p)

/-- The local number within a function. -/
def State.localOf (s : State) (f : Fn) (g : Nat) : Nat := g - s.qBase f

/-- The PCIe link of a PF's attachment is up. -/
def State.linkUpPf (s : State) (pf : Nat) : Bool := s.rdI F.HIF_PORT_STATUS.LINK_UP pf 0 == 1

/-- Fields of a QCT entry (Tables 7.5, 7.6, 8.3 and 9.3): offset and size. -/
abbrev Q.RING : Nat × Nat := (0, 8)
abbrev Q.LOG_SIZE : Nat × Nat := (8, 1)
abbrev Q.FLAGS : Nat × Nat := (9, 1)
abbrev Q.TC : Nat × Nat := (10, 1)
abbrev Q.WEIGHT : Nat × Nat := (11, 1)
abbrev Q.CQ : Nat × Nat := (12, 4)
abbrev Q.RCQ : Nat × Nat := (16, 4)
abbrev Q.PD : Nat × Nat := (20, 2)
abbrev Q.MAX_OUT : Nat × Nat := (22, 2)
abbrev Q.DB : Nat × Nat := (32, 4)
abbrev Q.TAKEN : Nat × Nat := (36, 4)
abbrev Q.RETIRED : Nat × Nat := (40, 4)
abbrev Q.STATE : Nat × Nat := (44, 1)
abbrev Q.REASON : Nat × Nat := (45, 1)
abbrev Q.ERR_INDEX : Nat × Nat := (48, 4)
abbrev Q.CQ_RING : Nat × Nat := (64, 8)
abbrev Q.CQ_LOG : Nat × Nat := (72, 1)
abbrev Q.EQ : Nat × Nat := (74, 2)
abbrev Q.PI : Nat × Nat := (80, 4)
abbrev Q.CI : Nat × Nat := (84, 4)
abbrev Q.CQ_STATE : Nat × Nat := (88, 1)
abbrev Q.CQ_FLAGS : Nat × Nat := (89, 1)
abbrev Q.FULL_BEATS : Nat × Nat := (90, 2)
abbrev Q.REMOTE_NODE : Nat × Nat := (128, 4)
abbrev Q.REMOTE_QP : Nat × Nat := (132, 3)
abbrev Q.REMOTE_QGEN : Nat × Nat := (135, 1)
abbrev Q.SQ_PSN : Nat × Nat := (136, 3)
abbrev Q.RIGHTS : Nat × Nat := (139, 1)
abbrev Q.RQ_PSN : Nat × Nat := (140, 3)
abbrev Q.LIMITS : Nat × Nat := (143, 1)
abbrev Q.NEXT_PSN : Nat × Nat := (144, 3)
abbrev Q.QGEN : Nat × Nat := (147, 1)
abbrev Q.UNA_PSN : Nat × Nat := (148, 3)
abbrev Q.CAUSE : Nat × Nat := (151, 1)
abbrev Q.CUM_PSN : Nat × Nat := (152, 3)
abbrev Q.HOLDS : Nat × Nat := (155, 1)
abbrev Q.LEDGER : Nat × Nat := (160, 32)
abbrev Q.ML : Nat × Nat := (224, 2)
abbrev Q.EAGER_MAX : Nat × Nat := (226, 2)
abbrev Q.SRC_RANK : Nat × Nat := (228, 4)
abbrev Q.SEND_MSN : Nat × Nat := (232, 3)
abbrev Q.SRDV : Nat × Nat := (235, 1)
abbrev Q.EXP_MSN : Nat × Nat := (236, 3)
abbrev Q.HELD : Nat × Nat := (239, 1)
abbrev Q.RRDV : Nat × Nat := (240, 1)

/-- Work queue states (Table 7.38) and CQ states (Table 7.39). -/
abbrev qFree : Nat := 0
abbrev qOff : Nat := 1
abbrev qActive : Nat := 2
abbrev qStopping : Nat := 3
abbrev qError : Nat := 4
abbrev cqFree : Nat := 0
abbrev cqReady : Nat := 1
abbrev cqFull : Nat := 2
abbrev cqOver : Nat := 3

/-- Queue error reasons (Table 7.11). -/
abbrev erHeader : Nat := 1
abbrev erOpcode : Nat := 2
abbrev erForm : Nat := 3
abbrev erBlock : Nat := 4
abbrev erFrag : Nat := 5
abbrev erDbRange : Nat := 6
abbrev erCqOver : Nat := 7
abbrev erFetch : Nat := 8
abbrev erTransport : Nat := 9
abbrev erHostLink : Nat := 10
abbrev erCtx : Nat := 11

/-- Event types (Table 7.17). -/
abbrev evNotify : Nat := 1
abbrev evPressure : Nat := 2
abbrev evOverflow : Nat := 3
abbrev evQueueError : Nat := 4
abbrev evQueueIdle : Nat := 5

def Ctx.f (c : Ctx) (q : Nat × Nat) : Nat := leAt c.b q.1 q.2
def Ctx.put (c : Ctx) (q : Nat × Nat) (v : Nat) : Ctx := { c with b := putBytes c.b q.1 (leBytes q.2 v) }

/-- The QCT entry of a number that was never created. -/
def Ctx.free : Ctx :=
  let c := Ctx.of (List.replicate 256 0)
  { c with cached := false }

def State.modHif (s : State) (f : Hif → Hif) : State := { s with hif := f s.hif }
def State.c (s : State) (g : Nat) : Ctx := tabGetD s.hif.ctx g Ctx.free
def State.q (s : State) (g : Nat) (f : Nat × Nat) : Nat := (s.c g).f f

/-- Change a context, which then has a new last use (R228). -/
def State.modCtx (s : State) (g : Nat) (f : Ctx → Ctx) : State :=
  s.modHif (fun h => { h with clock := h.clock + 1, ctx := tabPut h.ctx g { f (tabGetD h.ctx g Ctx.free) with lastUse := h.clock } })
def State.setQ (s : State) (g : Nat) (f : Nat × Nat) (v : Nat) : State := s.modCtx g (fun c => c.put f v)

/-- A doorbell, a command, a status read or a packet uses a context that is cached (R228). -/
def State.useCtx (s : State) (g : Nat) : State := if (s.c g).cached then s.modCtx g id else s

/-- Difference of free-running 32-bit indices. -/
def diff32 (a b : Nat) : Nat := (a + 2 ^ 32 - b) % 2 ^ 32
def add32 (a b : Nat) : Nat := (a + b) % 2 ^ 32

/-- The queues that are bound to a CQ (R233): not FREE, and naming it as CQ or RCQ. -/
def State.boundQueues (s : State) (cq : Nat) : List Nat :=
  (s.hif.ctx.filter (fun e =>
    e.2.f Q.STATE != qFree && (let b := s.qBase (s.ownerOf e.1); b + e.2.f Q.CQ == cq || b + e.2.f Q.RCQ == cq))).map (·.1)

/-- The global numbers of a queue's CQ and RCQ. -/
def State.cqOf (s : State) (g : Nat) : Nat := s.qBase (s.ownerOf g) + s.q g Q.CQ
def State.rcqOf (s : State) (g : Nat) : Nat := s.qBase (s.ownerOf g) + s.q g Q.RCQ

/-- A host read that the device makes; none in the Spillway (Table 13.5). -/
def State.readHost (s : State) (f : Fn) (addr len : Nat) : State := if s.spill then s else s.emit (.hostRead f addr len)

/-- The QCT covers a number (Table 7.22). -/
def State.qctCovers (s : State) (g : Nat) : Bool :=
  let p := s.pfOf g
  let l := s.rdI F.HIF_QCT_BASE.LOG_LIMIT p 0
  l != 0 && decide (g - pfBase p < 2 ^ l)

/-- The host address of a QCT entry (R225). -/
def State.qctAddr (s : State) (g : Nat) : Nat :=
  let p := s.pfOf g
  s.rdI F.HIF_QCT_BASE.BASE p 0 * 4096 + 256 * (g - pfBase p)

/-- Ask for a context that is not cached (R228). -/
def State.needCtx (s : State) (g : Nat) : State :=
  if (s.c g).cached || s.hif.fetch.contains g then s
  else (s.modHif (fun h => { h with fetch := h.fetch ++ [g] })).readHost (.pf (Fin.ofNat 4 (s.pfOf g))) (s.qctAddr g) 256

/-- A context that is not cached and can be fetched. -/
def State.away (s : State) (g : Nat) : Bool := !(s.c g).cached && s.qctCovers g

/-- What needs a context that is not cached waits for it, in the order of arrival (R228). -/
def State.await (s : State) (g : Nat) (op : CtxOp) : State :=
  (s.modHif (fun h => { h with pend := h.pend ++ [(g, op)] })).needCtx g

/-- The bytes of a QCT entry with its CTX_CRC (R225). -/
def qctBytes (b : Bytes) : Bytes := putBytes b 124 (leBytes 4 (crc32 (b.take 124 ++ b.drop 128)))

/-- An event about a number, as its queue or as its CQ, is held (Table 7.17). -/
def State.eventHeld (s : State) (g : Nat) : Bool :=
  let f := s.ownerOf g
  s.hif.held.any (fun e => decide (e.ty < 0x18) && s.ringOwner e.inst e.ring == f && e.obj == s.localOf f g)

/-- A context can be evicted (R228, R289). An ACK that is due stands for a packet inside the device (R272). -/
def State.evictable (s : State) (g : Nat) (c : Ctx) : Bool :=
  c.cached && !c.stub && !(c.f Q.STATE == qError && c.f Q.REASON == erCtx) && c.f Q.TAKEN == c.f Q.RETIRED && c.f Q.HELD == 0 && c.f Q.RRDV == 0 && c.todo.isEmpty && c.win.isEmpty &&
  !c.ackDue && !((s.hif.wait ++ s.hif.late).any (fun w => w.cq == g)) && !s.eventHeld g && !(s.hif.pend.any (fun e => e.1 == g)) &&
  !(s.rma.parked.any (fun e => e.1 == g)) && !(s.rma.atoms.any (fun a => a.q == g)) && !(s.rma.serves.any (fun a => a.q == g)) &&
  !(s.hif.cmds.any (fun k => k.g == g))

/-- The ring reads of a queue serve nothing any more: their answers are discarded. -/
def State.dropRings (s : State) (g : Nat) : State :=
  s.modHif (fun h => { h with rings := h.rings.map (fun r => if r.1 = g then (r.1, r.2.1, 0) else r) })

/-- Make room in a context cache of 32,768 entries: the least recently used entry that can be evicted is written back
(R228). None can: the fetch waits. -/
def State.evict (s : State) : Option State :=
  let inCache := s.hif.ctx.filter (fun e => e.2.cached)
  if inCache.length < 32768 then some s
  else
    match inCache.filter (fun e => s.evictable e.1 e.2) with
    | [] => none
    | e :: r =>
      let v := r.foldl (fun a x => if x.2.lastUse < a.2.lastUse then x else a) e
      let s := s.modHif (fun h => { h with ctx := tabPut h.ctx v.1 { v.2 with cached := false, slots := [], asked := v.2.f Q.TAKEN } })
      some ((s.dropRings v.1).emit (.hostWrite (.pf (Fin.ofNat 4 (s.pfOf v.1))) (s.qctAddr v.1) (qctBytes v.2.b)))

/-- The MSI-X table entry of a vector; masked until software writes it, as PCIe 6.0 defines. -/
def State.vec (s : State) (inst v : Nat) : Nat × Nat × Bool := tabGetD s.hif.msix (inst * 2048 + v) (0, 0, true)

/-- Send or hold pending the message of a ring's vector, which is one of the ring's function (R219, R253); none in the Spillway
(Table 13.6). -/
def State.sendMsi (s : State) (inst e : Nat) : State :=
  if s.spill then s else
  let s := s.wrI F.HIF_EQ_STATUS.ARMED inst e 0
  let v := s.rdI F.HIF_EQ_CFG.VECTOR inst e
  let f := s.ringOwner inst e
  let k := fnInst f * 2048 + v
  let x := s.vec (fnInst f) v
  if x.2.2 then (if s.hif.pba.contains k then s else s.modHif (fun h => { h with pba := h.pba ++ [k] }))
  else s.emit (.msix f v x.1 x.2.1)

/-- Unread events of a ring. -/
def State.unread (s : State) (inst e : Nat) : Nat :=
  diff32 (s.rdI F.HIF_EQ_STATUS.PI inst e) (s.rdI F.HIF_EQ_DB.CI inst e)

/-- The message of a ring is due by count, or at once with MOD_TIME 0 (R253). -/
def State.msiCheck (s : State) (inst e : Nat) : State :=
  let n := s.unread inst e
  if s.rdI F.HIF_EQ_CFG.ENABLE inst e = 1 ∧ s.rdI F.HIF_EQ_STATUS.ARMED inst e = 1 ∧ 1 ≤ n ∧
      (s.rdI F.HIF_EQ_CFG.MOD_TIME inst e = 0 ∨ s.rdI F.HIF_EQ_CFG.MOD_COUNT inst e ≤ n) then s.sendMsi inst e
  else s

/-- The bytes of an event entry (Table 7.16). -/
def evBytes (e : Ev) (phase : Bool) : Bytes :=
  leBytes 1 e.ty ++ leBytes 1 0 ++ leBytes 2 e.detail ++ leBytes 4 e.obj ++ leBytes 8 e.beat ++ leBytes 8 e.info ++
  leBytes 7 0 ++ leBytes 1 (128 * b2n phase)

/-- A ring can take an event now: enabled, with space, its link up. -/
def State.eqRoom (s : State) (inst e : Nat) : Bool :=
  s.rdI F.HIF_EQ_CFG.ENABLE inst e == 1 && s.linkUpPf inst &&
    decide (s.unread inst e < 2 ^ s.rdI F.HIF_EQ_BASE.LOG_SIZE inst e)

/-- Write an event to its ring (R251). -/
def State.writeEv (s : State) (e : Ev) : State :=
  let pi := s.rdI F.HIF_EQ_STATUS.PI e.inst e.ring
  let lg := s.rdI F.HIF_EQ_BASE.LOG_SIZE e.inst e.ring
  let s := s.emit (.hostWrite (s.ringOwner e.inst e.ring) (s.rdI F.HIF_EQ_BASE.BASE e.inst e.ring * 4096 + 32 * (pi % 2 ^ lg))
    (evBytes e (!bit pi lg)))
  (s.wrI F.HIF_EQ_STATUS.PI e.inst e.ring (add32 pi 1)).msiCheck e.inst e.ring

/-- Hold an event, or merge it into a held one of its TYPE and object (R252). -/
def State.holdEv (s : State) (e : Ev) : State :=
  let same (x : Ev) : Bool := x.inst == e.inst && x.ring == e.ring && x.ty == e.ty && x.obj == e.obj
  if s.hif.held.any same then
    (s.modHif (fun h => { h with held := h.held.map (fun x => if same x then { x with detail := e.detail, info := e.info } else x) })).incI
      F.HIF_EQ_STATUS.MERGED e.inst e.ring
  else
    let first := s.rdI F.HIF_EQ_STATUS.HELD e.inst e.ring == 0
    let s := (s.modHif (fun h => { h with held := h.held ++ [e] })).wrI F.HIF_EQ_STATUS.HELD e.inst e.ring 1
    if first then s.raise .HIF_EQ_HELD e.ring else s

/-- An event for a ring of a function (R251, R252), which may be written now or not. -/
def State.eventIf (s : State) (may : Bool) (f : Fn) (ring ty detail obj info : Nat) : State :=
  let r := s.ringOf f ring
  let e : Ev := ⟨r.1, r.2, ty, detail, obj, s.beat, info⟩
  if may && s.eqRoom r.1 r.2 && s.rdI F.HIF_EQ_STATUS.HELD r.1 r.2 == 0 then s.writeEv e else s.holdEv e

/-- An event for a ring of a function; none is written in the Spillway (Table 13.5). -/
def State.event (s : State) (f : Fn) (ring ty detail obj info : Nat) : State := s.eventIf (!s.spill) f ring ty detail obj info

/-- Write held events of a ring, oldest first, while there is space (R252). -/
def State.drainEv (s : State) (inst ring : Nat) : Nat → State
  | 0 => s
  | n + 1 =>
    match s.hif.held.find? (fun e => e.inst == inst && e.ring == ring) with
    | none => s.wrI F.HIF_EQ_STATUS.HELD inst ring 0
    | some e =>
      if s.eqRoom inst ring && !s.spill then
        State.drainEv ((s.modHif (fun h => { h with held := h.held.eraseP (fun x => x.inst == inst && x.ring == ring) })).writeEv e)
          inst ring n
      else s

/-- All held events of a ring that fit are written. -/
def State.flushEv (s : State) (inst ring : Nat) : State := s.drainEv inst ring (s.hif.held.length + 1)

/-- An event about a CQ, on its event ring; a stub names none (DESIGN CHOICE, log entry 108). -/
def State.cqEvent (s : State) (cq ty info : Nat) : State :=
  let f := s.ownerOf cq
  if (s.c cq).stub then s else s.event f (s.q cq Q.EQ) ty 0 (s.localOf f cq) info

/-- An event about a queue, on the event ring of its CQ; a stub names none (DESIGN CHOICE, log entry 108). -/
def State.qEvent (s : State) (g ty detail info : Nat) : State :=
  let f := s.ownerOf g
  if (s.c (s.cqOf g)).stub then s else s.event f (s.q (s.cqOf g) Q.EQ) ty detail (s.localOf f g) info

/-- A queue enters ERROR (R231): the first cause is latched, entries not begun are flushed; a context that is not cached is fetched
first (R228). -/
def State.queueError (s : State) (g reason index : Nat) : State :=
  let st := s.q g Q.STATE
  if st = qActive ∨ st = qStopping then
    if s.away g then s.await g (.error reason index) else
    let s := s.modCtx g (fun c =>
      let c := ((c.put Q.STATE qError).put Q.REASON reason).put Q.ERR_INDEX index
      { c with slots := [], asked := c.f Q.TAKEN,
               ents := c.ents.map (fun e => if !e.begun && e.fin.isNone then { e with fin := some ⟨1, 0, 0, 0, 0⟩ } else e) })
    let s := if reason = erCtx then s else s.raise .HIF_QUEUE_ERROR g
    let s := s.qEvent g evQueueError reason index
    (s.post (.queueError g)).post (.run g)
  else s

/-- A queue enters OFF (Table 7.7). -/
def State.queueOff (s : State) (g : Nat) : State :=
  let s := s.setQ g Q.STATE qOff
  s.qEvent g evQueueIdle (s.q g Q.REASON) (s.q g Q.TAKEN)

/-- A queue that has become idle (Table 7.7). -/
def State.idleCheck (s : State) (g : Nat) : State :=
  let c := s.c g
  if !c.ents.isEmpty then s
  else if c.f Q.STATE = qStopping then s.queueOff g
  else if c.f Q.STATE = qError ∧ s.rd F.HIF_Q_CTRL.ENABLE g = 0 then s.queueOff g
  else s

/-- Completions in a CQ's ring. -/
def Ctx.cqUsed (c : Ctx) : Nat := diff32 (c.f Q.PI) (c.f Q.CI)
def Ctx.cqSize (c : Ctx) : Nat := 2 ^ c.f Q.CQ_LOG

/-- The bytes of a completion entry (Table 7.14). -/
def cqeBytes (e : Cqe) (phase : Bool) : Bytes :=
  leBytes 8 e.wrid ++ leBytes 4 e.queue ++ leBytes 1 e.status ++ leBytes 1 e.opcode ++ leBytes 2 (b2n e.remote) ++ leBytes 4 e.len ++
  leBytes 4 e.peer ++ leBytes 4 e.aux ++ leBytes 2 e.indexLo ++ leBytes 1 e.hst ++ leBytes 1 (128 * b2n phase)

/-- Write a completion (R248, R249): the entry, PI, CQ_NOTIFY, and FULL when it took the last place. -/
def State.writeCqe (s : State) (e : Cqe) : State :=
  let c := s.c e.cq
  let pi := c.f Q.PI
  let lg := c.f Q.CQ_LOG
  let s := s.emit (.hostWrite (s.ownerOf e.cq) (c.f Q.CQ_RING + 32 * (pi % 2 ^ lg)) (cqeBytes e (!bit pi lg)))
  let s := s.setQ e.cq Q.PI (add32 pi 1)
  let s := if bit (c.f Q.CQ_FLAGS) 0 then
      (s.setQ e.cq Q.CQ_FLAGS (clrBit (c.f Q.CQ_FLAGS) 0)).cqEvent e.cq evNotify (add32 pi 1)
    else s
  let c := s.c e.cq
  let s := if c.f Q.CQ_STATE = cqReady ∧ c.cqUsed = c.cqSize then
      ((s.setQ e.cq Q.CQ_STATE cqFull).setQ e.cq Q.FULL_BEATS 0).cqEvent e.cq evPressure (c.f Q.PI)
    else s
  match e.own with
  | some (q, _) => s.post (.run q)
  | none => s

/-- Write the waiting completions of a CQ, in the order in which they were produced (R249, R250). -/
def State.drainCq (s : State) (cq : Nat) : Nat → State
  | 0 => s
  | n + 1 =>
    match s.hif.wait.find? (fun w => w.cq == cq) with
    | none => s
    | some e =>
      let c := s.c cq
      let gone := s.modHif (fun h => { h with wait := h.wait.eraseP (fun w => w.cq == cq) })
      if !c.cached then s.needCtx cq
      else if c.f Q.CQ_STATE = cqFree then State.drainCq gone cq n
      else if c.cqUsed < c.cqSize ∧ !c.stub ∧ s.linkUpPf (s.pfOf cq) ∧ !s.spill then State.drainCq (gone.writeCqe e) cq n
      else s

/-- All waiting completions of a CQ that fit are written. -/
def State.flushCq (s : State) (cq : Nat) : State := s.drainCq cq (s.hif.wait.length + 1)

/-- Target-side completions parked for a CQ, and in the device (R250). -/
def State.parkedFor (s : State) (cq : Nat) : Nat := (s.hif.wait.filter (fun w => w.remote && w.cq == cq)).length
def State.parkedAll (s : State) : Nat := (s.hif.wait.filter (fun w => w.remote)).length

/-- A completion can be written now, or wait in its own place: a queue's own in its retirement slot, a target-side one in the park
(R250). -/
def State.hasPlace (s : State) (e : Cqe) : Bool :=
  !e.remote || (s.q e.cq Q.CQ_STATE == cqReady && !(s.hif.wait.any (fun w => w.cq == e.cq))) ||
    (decide (s.parkedFor e.cq < 64) && decide (s.parkedAll < 4096))

/-- Produce a completion (Table 7.8). One that finds no place waits where it arose, and those of its CQ behind it (R249, log
entry 116). -/
def State.complete (s : State) (e : Cqe) : State :=
  if s.hasPlace e && !(s.hif.late.any (fun w => w.cq == e.cq)) then
    (s.modHif (fun h => { h with wait := h.wait ++ [e] })).flushCq e.cq
  else s.modHif (fun h => { h with late := h.late ++ [e] })

/-- Completions that waited where they arose take the places that are free now, in the order of their CQ (R249, R250). -/
def State.lateIn (s : State) : State :=
  foldS s.hif.late s (fun s e =>
    if (s.hif.late.find? (fun w => w.cq == e.cq)) = some e ∧ s.hasPlace e then
      (s.modHif (fun h => { h with late := h.late.erase e, wait := h.wait ++ [e] })).flushCq e.cq
    else s)

/-- Deliveries out of eager slots whose receive completions, on a CQ, have a place in the park ahead of them (log entry 116). -/
def State.promisedFor (s : State) (cq : Nat) : Nat :=
  ((s.mat.mls.filter (fun m => s.qBase m.2.fn + leAt m.2.d 4 4 == cq)).map (fun m => m.2.fromSlot.length)).sum
def State.promisedAll (s : State) : Nat := (s.mat.mls.map (fun m => m.2.fromSlot.length)).sum

/-- Completions parked for the CQs of a function (Table 7.27). -/
def State.parkedOf (s : State) (f : Fn) : Nat := (s.hif.wait.filter (fun w => w.remote && s.ownerOf w.cq == f)).length

/-- A target-side completion can be written or parked (R250); a CQ in OVERFLOW takes none. -/
def State.parkRoom (s : State) (cq : Nat) : Bool :=
  s.q cq Q.CQ_STATE != cqOver &&
  ((s.q cq Q.CQ_STATE == cqReady && s.parkedFor cq + s.promisedFor cq == 0) ||
    (decide (s.parkedFor cq + s.promisedFor cq < 64) && decide (s.parkedAll + s.promisedAll < 4096)))

/-- The own completion of an entry. -/
def State.ownCqe (s : State) (g : Nat) (e : Ent) (f : Fin') : Cqe :=
  ⟨s.cqOf g, leAt e.b 8 8, s.localOf (s.ownerOf g) g, f.st, leAt e.b 0 1, false, f.len, f.peer, f.aux, e.idx % 65536, f.hst, some (g, e.idx)⟩

/-- An ended entry writes a completion (R231, R239, R295). -/
def needsCqe (c : Ctx) (e : Ent) (f : Fin') : Bool :=
  f.hst != 0 || f.st != 0 || bit (leAt e.b 1 1) 0 || bit (c.f Q.FLAGS) 1 || c.f Q.STATE == qError

/-- Produce the completions of the entries that have ended, in index order. -/
def State.produce (s : State) (g : Nat) : Nat → State
  | 0 => s
  | n + 1 =>
    let c := s.c g
    match c.ents.find? (fun e => !e.posted) with
    | none => s
    | some e =>
      match e.fin with
      | none => s
      | some f =>
        let s := s.modCtx g (fun c => { c with ents := c.ents.map (fun x => if x.idx = e.idx then { x with posted := true } else x) })
        State.produce (if needsCqe c e f then s.complete (s.ownCqe g e f) else s) g n

/-- Retire the entries whose completion is written, or that write none (R239). -/
def State.popRetired (s : State) (g : Nat) : Nat → State
  | 0 => s
  | n + 1 =>
    match (s.c g).ents with
    | [] => s
    | e :: _ =>
      if e.posted && !((s.hif.wait ++ s.hif.late).any (fun w => w.own == some (g, e.idx))) then
        State.popRetired (s.modCtx g (fun c => { c.put Q.RETIRED (add32 (c.f Q.RETIRED) e.slots) with ents := c.ents.drop 1 })) g n
      else s

/-- Retirement of a queue (R239, Table 7.7). -/
def State.retire (s : State) (g : Nat) : State :=
  let n := (s.c g).ents.length + 1
  let s := (s.produce g n).popRetired g n
  s.idleCheck g

/-- End an entry. -/
def State.endEnt (s : State) (g idx : Nat) (f : Fin') : State :=
  s.modCtx g (fun c => { c with ents := c.ents.map (fun e => if e.idx = idx ∧ e.fin.isNone then { e with fin := some f } else e) })

/-- Change an entry. -/
def State.modEnt (s : State) (g idx : Nat) (f : Ent → Ent) : State :=
  s.modCtx g (fun c => { c with ents := c.ents.map (fun e => if e.idx = idx then f e else e) })

def State.ent (s : State) (g idx : Nat) : Option Ent := (s.c g).ents.find? (fun e => e.idx == idx)

/-- Ask for work ring slots (R243). -/
def State.ringFetch (s : State) (g : Nat) : State :=
  let c := s.c g
  let n := min (s.rdI F.HIF_SCHED.PREFETCH (s.pfOf g) 0) (diff32 (c.f Q.DB) c.asked)
  if c.f Q.STATE ≠ qActive ∨ n = 0 ∨ s.hif.rings.any (fun r => r.1 == g && r.2.2 != 0) then s
  else
    let sz := 2 ^ c.f Q.LOG_SIZE
    let i := c.asked % sz
    let n1 := min n (sz - i)
    let f := s.ownerOf g
    let s := s.readHost f (c.f Q.RING + 64 * i) (64 * n1)
    let s := if n1 < n then s.readHost f (c.f Q.RING) (64 * (n - n1)) else s
    let s := s.modHif (fun h => { h with rings := h.rings ++ [(g, c.asked, n)] })
    s.modCtx g (fun c => { c with asked := add32 c.asked n })

/-- Cut slots of 64 bytes. -/
def cutSlots : Nat → Nat → Bytes → List (Nat × Bytes)
  | 0, _, _ => []
  | n + 1, i, b => (i, b.take 64) :: cutSlots n (add32 i 1) (b.drop 64)

/-- A ring read completes (R243, reason FETCH_ERR). -/
def State.ringDone (s : State) (g : Nat) (a : Ans) : State :=
  match s.hif.rings.find? (fun r => r.1 == g) with
  | none => s
  | some r =>
    let s := s.modHif (fun h => { h with rings := h.rings.eraseP (fun x => x.1 == g) })
    if r.2.2 = 0 then s
    else if s.q g Q.STATE ≠ qActive then s
    else match a with
      | .ok b =>
        let s := s.modCtx g (fun c => { c with slots := (cutSlots r.2.2 r.2.1 b).foldl (fun t e =>
          if (tabGet t e.1).isSome then t else tabPut t e.1 e.2) c.slots })
        s.ringFetch g
      | _ => (s.raise .HIF_DMA_ERR g).queueError g erFetch r.2.1

/-- A doorbell that is ignored (R241, R242, Table 7.7). -/
def State.dbBad (s : State) (f : Fn) (g : Nat) : State := (s.incI F.HIF_COUNT.DB_BAD (fnInst f) 0).raise .HIF_DB_BAD g

/-- A work doorbell of a cached context (R241). -/
def State.sqDoor (s : State) (g v : Nat) : State :=
  let c := s.c g
  let t := c.f Q.TAKEN
  let st := c.f Q.STATE
  if st = qFree then s.dbBad (s.ownerOf g) g
  else if diff32 v t ≤ diff32 (c.f Q.DB) t then s
  else if diff32 v t ≤ 2 ^ c.f Q.LOG_SIZE then (s.setQ g Q.DB v).ringFetch g
  else if st = qActive then s.queueError g erDbRange (c.f Q.DB)
  else s.dbBad (s.ownerOf g) g

/-- A CQ doorbell of a cached context (R242, Table 7.8). -/
def State.cqDoor (s : State) (g v : Nat) : State :=
  let c := s.c g
  let ci := v % 2 ^ 32
  if c.f Q.CQ_STATE = cqFree ∨ diff32 (c.f Q.PI) (c.f Q.CI) < diff32 ci (c.f Q.CI) then s.dbBad (s.ownerOf g) g
  else
    let s := s.setQ g Q.CI ci
    let s := if bit v 32 then s.setQ g Q.CQ_FLAGS (setBit (s.q g Q.CQ_FLAGS) 0) else s
    let s := s.flushCq g
    let c := s.c g
    if c.f Q.CQ_STATE = cqFull ∧ c.cqUsed < c.cqSize then s.setQ g Q.CQ_STATE cqReady else s

/-- A doorbell: at once when the context is cached, else it waits for the fetch (R242). -/
def State.door (s : State) (sq : Bool) (f : Fn) (n v : Nat) : State :=
  match s.gOf f n with
  | none => s.raise .REG_ACCESS
  | some g =>
    if !s.qctCovers g then s.dbBad f g
    else if (s.c g).cached then (let s := s.useCtx g; if sq then s.sqDoor g (v % 2 ^ 32) else s.cqDoor g v)
    else s.await g (.door sq v)

/-- Posted-request credit is given while the store of waiting doorbells is not full (R242). -/
def State.postedCredit (s : State) : Bool :=
  decide ((s.hif.pend.filter (fun e => match e.2 with | .door _ _ => true | _ => false)).length < 4096)

/-- An event ring doorbell (R253, Table 7.33). -/
def State.eqDoor (s : State) (f : Fn) (n v : Nat) : State :=
  let (i, e) := s.ringOf f n
  let ci := v % 2 ^ 32
  if s.eqCount f ≤ n then s
  else if s.unread i e < diff32 ci (s.rdI F.HIF_EQ_DB.CI i e) then (s.incI F.HIF_COUNT.DB_BAD (fnInst f) 0).raise .HIF_DB_BAD e
  else
    let s := s.wrI F.HIF_EQ_DB.CI i e ci
    let s := if bit v 32 then s.wrI F.HIF_EQ_STATUS.ARMED i e 1 else s
    (s.flushEv i e).msiCheck i e

/-- MOD_TIME passed since the oldest unread event (R253). -/
def State.modTime (s : State) (f : Fn) (n : Nat) : State :=
  let (i, e) := s.ringOf f n
  if s.rdI F.HIF_EQ_CFG.ENABLE i e = 1 ∧ s.rdI F.HIF_EQ_STATUS.ARMED i e = 1 ∧ 1 ≤ s.unread i e ∧
      s.rdI F.HIF_EQ_CFG.MOD_TIME i e ≠ 0 then s.sendMsi i e
  else s

/-- A vector is unmasked (R253). -/
def State.unmask (s : State) (f : Fn) (v : Nat) : State :=
  let i := fnInst f
  let x := s.vec i v
  let s := s.modHif (fun h => { h with msix := tabPut h.msix (i * 2048 + v) (x.1, x.2.1, false) })
  if s.hif.pba.contains (i * 2048 + v) && !s.spill then
    (s.modHif (fun h => { h with pba := h.pba.erase (i * 2048 + v) })).emit (.msix f v x.1 x.2.1)
  else s

/-- A bound CQ is FULL (Table 7.7). -/
def State.cqHold (s : State) (g : Nat) : Bool := s.q (s.cqOf g) Q.CQ_STATE == cqFull || s.q (s.rcqOf g) Q.CQ_STATE == cqFull

/-- SLOTS of an entry as far as it takes slots of the ring: a malformed count takes one. -/
def entSlots (b : Bytes) : Nat := let n := leAt b 2 1; if n = 0 ∨ 4 < n then 1 else n

/-- The next entry of a queue, when all its slots are read and covered by DB. -/
def Ctx.nextEnt (c : Ctx) : Option (Nat × Bytes) :=
  let t := c.f Q.TAKEN
  match tabGet c.slots t with
  | none => none
  | some b =>
    let n := entSlots b
    if diff32 (c.f Q.DB) t < n then none
    else
      let ss := (List.range n).filterMap (fun i => tabGet c.slots (add32 t i))
      if ss.length = n then some (n, ss.flatten) else none

/-- A push is dropped or cleared (R244, R245). -/
def State.pushDrop (s : State) (g : Nat) : State := s.incI F.HIF_COUNT.PUSH_DROP (fnInst (s.ownerOf g)) 0

def State.half (s : State) (g k : Nat) : Half := tabGetD s.hif.push (2 * g + k) ⟨[], 0⟩
def State.setHalf (s : State) (g k : Nat) (x : Half) : State :=
  s.modHif (fun h => { h with push := tabSet h.push (2 * g + k) ⟨[], 0⟩ x })
def Half.full (x : Half) : Bool := x.bytes.length == 64

/-- Accept or drop a complete push (R245). -/
def State.pushDone (s : State) (g : Nat) : State :=
  let b0 := (s.half g 0).bytes.map (·.2)
  let b1 := (s.half g 1).bytes.map (·.2)
  let n := leAt b0 2 1
  let c := s.c g
  let db := c.f Q.DB
  let s := (s.setHalf g 0 ⟨[], 0⟩).setHalf g 1 ⟨[], 0⟩
  if c.cached ∧ c.f Q.STATE = qActive ∧ bit (c.f Q.FLAGS) 0 ∧ (n = 1 ∨ n = 2) ∧ leAt b0 4 2 = db % 65536 ∧
      diff32 (add32 db n) (c.f Q.TAKEN) ≤ 2 ^ c.f Q.LOG_SIZE then
    s.modCtx g (fun c => { c.put Q.DB (add32 db n) with
      asked := if c.asked = db then add32 db n else c.asked,
      slots := if n = 2 then tabPut (tabPut c.slots db b0) (add32 db 1) b1 else tabPut c.slots db b0 })
  else s.pushDrop g

/-- Half 0 is complete, and half 1 where its SLOTS needs it (R244). -/
def State.pushCheck (s : State) (g : Nat) : State :=
  if (s.half g 0).full ∧ (leAt ((s.half g 0).bytes.map (·.2)) 2 1 ≠ 2 ∨ (s.half g 1).full) then s.pushDone g else s

/-- Bytes written to half `k` of a push window (R244). A byte that the half holds already discards what it holds, and
collection restarts with the new write. A complete half of an entry that waits keeps its bytes. -/
def State.pushHalf (s : State) (g k : Nat) (bs : List (Nat × Byte)) : State :=
  let x := s.half g k
  if bs.isEmpty ∨ x.full then s
  else if bs.any (fun b => (tabGet x.bytes b.1).isSome) then
    ((s.pushDrop g).setHalf g k ⟨bs.foldl (fun t b => tabPut t b.1 b.2) [], 0⟩).pushCheck g
  else (s.setHalf g k { x with bytes := bs.foldl (fun t b => tabPut t b.1 b.2) x.bytes }).pushCheck g

/-- A write to a push window. -/
def State.pushWrite (s : State) (f : Fn) (n o : Nat) (b : Bytes) : State :=
  match s.gOf f n with
  | none => s
  | some g =>
    let bs := (b.zipIdx).map (fun e => (o + e.2, e.1))
    let part (k : Nat) : List (Nat × Byte) := (bs.filter (fun e => e.1 / 64 == k)).map (fun e => (e.1 % 64, e.2))
    (s.pushHalf g 0 (part 0)).pushHalf g 1 (part 1)

/-- A half still incomplete at its second boundary is cleared (R244). -/
def State.pushExpire (s : State) (g k : Nat) : State :=
  let x := s.half g k
  if !x.bytes.isEmpty ∧ !x.full ∧ 2 ≤ x.beats then (s.pushDrop g).setHalf g k ⟨[], 0⟩ else s

/-- A bound queue sees its CQ overflow (Table 7.7). -/
def State.overflowBound (s : State) (cq : Nat) : State :=
  let s := foldS (s.boundQueues cq) s (fun s g => s.queueError g erCqOver (s.q g Q.TAKEN))
  foldS (List.range 256) s (fun s i =>
    if s.rd F.MCT_MC_LAND.VALID i = 1 ∧ s.rd F.MCT_MC_LAND.CQ i = cq then s.wr F.MCT_MC_LAND.VALID 0 i else s)

/-- A CQ enters OVERFLOW (Table 7.8); a context that is not cached is fetched first (R228). -/
def State.cqOverflow (s : State) (cq : Nat) : State :=
  if s.away cq then s.await cq .overflow else
  let s := s.setQ cq Q.CQ_STATE cqOver
  let s := (s.cqEvent cq evOverflow (s.q cq Q.PI)).raise .HIF_CQ_OVERFLOW cq
  s.overflowBound cq

/-- CQ_FULL_BEATS passed in FULL (Table 7.8). -/
def State.cqFullExpire (s : State) (cq : Nat) : State :=
  if s.q cq Q.CQ_STATE = cqFull ∧ s.rdI F.HIF_SCHED.CQ_FULL_BEATS (s.pfOf cq) 0 ≤ s.q cq Q.FULL_BEATS then s.cqOverflow cq else s

/-- Setting ENABLE of a queue (Table 7.7); none refuses. A ring read of before serves nothing any more (R243). -/
def State.queueEnable (s : State) (g : Nat) : Option State :=
  let c := s.c g
  let st := c.f Q.STATE
  if st = qActive then some s
  else if st = qOff then
    let ok (x : Nat) : Bool := s.q x Q.CQ_STATE == cqReady || s.q x Q.CQ_STATE == cqFull
    if ok (s.cqOf g) && ok (s.rcqOf g) then
      let s := (s.wr F.HIF_Q_CTRL.ENABLE 1 g).dropRings g
      let s := s.modCtx g (fun c =>
        let c := ((c.put Q.STATE qActive).put Q.REASON 0).put Q.ERR_INDEX 0
        { c with asked := c.f Q.TAKEN, slots := [] })
      some ((s.ringFetch g).post (.run g))
    else none
  else none

/-- Clearing ENABLE of a queue (Table 7.7). -/
def State.queueDisable (s : State) (g : Nat) : State :=
  let c := s.c g
  let s := s.wr F.HIF_Q_CTRL.ENABLE 0 g
  let st := c.f Q.STATE
  if st = qActive then
    if c.ents.isEmpty then (s.modCtx g (fun c => { c with slots := [], asked := c.f Q.TAKEN })).queueOff g
    else s.modCtx g (fun c => { c.put Q.STATE qStopping with slots := [], asked := c.f Q.TAKEN })
  else if st = qError ∧ c.ents.isEmpty then s.queueOff g
  else s

/-- The stub of a number whose QCT read failed (R229). -/
def stubCtx : Ctx :=
  let c := (((Ctx.of (List.replicate 256 0)).put Q.STATE qError).put Q.REASON erCtx).put Q.CQ_STATE cqOver
  { c with stub := true }

/-- A queue's number is freed: none of its reads serves anything any more, and no packet of its connection is sent or answered (R243,
R263, R272). -/
def State.queueGone (s : State) (g : Nat) : State :=
  let mine (r : Rd) : Bool := match r.job with | .frag q _ => q == g | .data q _ => q == g | .serve q _ => q == g | _ => false
  ((s.dropRings g).modHif (fun h => { h with reads := h.reads.map (fun r => if mine r then { r with job := .gone } else r) })).modCtx g
    (fun c => { c with todo := [], win := [], retry := 0, busy := 0, ackDue := false, slots := [], asked := c.f Q.TAKEN })

/-- A stub in the place of a context; the QGEN that the entry held is not known (log entry 24). -/
def State.putStub (s : State) (g : Nat) : State :=
  let (n, s) := s.pick 256
  s.modHif (fun h => { h with ctx := tabPut h.ctx g (stubCtx.put Q.QGEN n) })

/-- Make a number a stub. Its CQ thereby enters OVERFLOW, with what Table 7.8 gives that (log entry 108). -/
def State.makeStub (s : State) (g : Nat) : State := ((s.putStub g).raise .HIF_CQ_OVERFLOW g).overflowBound g

/-- Setting ENABLE: a number whose context the decision needs, of the queue and of its CQs, and that is away. -/
def State.ctrlNeeds (s : State) (g : Nat) (on : Bool) : Option Nat :=
  if s.away g then some g
  else if on && s.q g Q.STATE == qOff then [s.cqOf g, s.rcqOf g].find? s.away
  else none

/-- ENABLE of HIF_Q_CTRL is written (Table 7.7), once the contexts are there: a set that the queue's state does not allow is refused,
where ENABLE does not read 1 already (R447). -/
def State.queueCtrl (s : State) (g : Nat) (on : Bool) : State :=
  match s.ctrlNeeds g on with
  | some x => s.await x (.ctrl g on)
  | none =>
    if on && s.on F.HIF_Q_CTRL.ENABLE g then s
    else if on then (match s.queueEnable g with | some t => t | none => s.raise .CFG_REJECT)
    else s.queueDisable g

/-- A number returns to FREE: its queue and its CQ (R254). -/
def Ctx.freed (c : Ctx) : Ctx :=
  let f := ((Ctx.of c.b).put Q.STATE qFree).put Q.CQ_STATE cqFree
  { f with lastUse := c.lastUse, cached := c.cached }

/-- What waited for a context goes on. -/
def State.ctxOp (s : State) (g : Nat) : CtxOp → State
  | .door true v => s.sqDoor g (v % 2 ^ 32)
  | .door false v => s.cqDoor g v
  | .ctrl q on => s.queueCtrl q on
  | .error reason idx => s.queueError g reason idx
  | .overflow => if s.q g Q.CQ_STATE = cqReady ∨ s.q g Q.CQ_STATE = cqFull then s.cqOverflow g else s
  | .fullBeat => if s.q g Q.CQ_STATE = cqFull then s.setQ g Q.FULL_BEATS (min 65535 (s.q g Q.FULL_BEATS + 1)) else s
  | .free => s.modCtx g Ctx.freed

/-- All that waited for a context goes on, in the order of arrival. -/
def State.replay (s : State) (g : Nat) : State :=
  let ops := s.hif.pend.filter (fun e => e.1 == g)
  foldS ops (s.modHif (fun h => { h with pend := h.pend.filter (fun e => e.1 != g) })) (fun s e => s.ctxOp g e.2)

/-- A QCT entry read completes (R228, R229): cached, or a stub; everything that waited for it goes on. An error and poisoned data are
also HIF_DMA_ERR (Table 7.40). -/
def State.ctxFetched (s : State) (g : Nat) (a : Ans) : State :=
  if !s.hif.fetch.contains g then s else
  match s.evict with
  | none => s
  | some s =>
    let s := s.modHif (fun h => { h with fetch := h.fetch.erase g })
    let bad (s : State) (code : Nat) : State :=
      (s.makeStub g).raiseOcc { occ .HIF_CTX_ERR g with
        addr := s.qctAddr g, info := code, init := fnOwner (.pf (Fin.ofNat 4 (s.pfOf g))) }
    let s := match a with
      | .ok b =>
        if leAt b 124 4 = crc32 ((b.take 256).take 124 ++ (b.take 256).drop 128) ∧ 256 ≤ b.length then
          s.modHif (fun h => { h with ctx := tabPut h.ctx g { Ctx.of (b.take 256) with lastUse := h.clock }, clock := h.clock + 1 })
        else bad s 2
      | .err => bad (s.raise .HIF_DMA_ERR g) 0
      | .poison => bad (s.raise .HIF_DMA_ERR g) 1
    (((s.replay g).flushCq g).ringFetch g).post (.ctxReady g)

/-- The value of HIF_Q_STATUS, HIF_Q_STATE, HIF_CQ_STATUS and RMA_QINFO of a context. -/
def State.statusWord (s : State) (what g : Nat) : Nat :=
  let c := s.c g
  match what with
  | 0 => c.f Q.DB * 2 ^ 32 + c.f Q.TAKEN
  | 1 =>
    let st := c.f Q.STATE
    let idle := c.ents.isEmpty && decide (qActive ≤ st)
    c.f Q.ERR_INDEX * 2 ^ 32 + c.f Q.REASON * 256 + b2n (st == qActive && s.cqHold g) * 32 + b2n idle * 16 + st
  | 2 => c.f Q.PI * 2 ^ 32 + c.f Q.FULL_BEATS * 65536 + min 255 (s.parkedFor g) * 256 + bits (c.f Q.CQ_FLAGS) 0 1 * 8 + c.f Q.CQ_STATE
  | _ => c.f Q.QGEN * 2 ^ 56 + c.f Q.NEXT_PSN * 2 ^ 32 + c.f Q.CUM_PSN * 256 + c.f Q.CAUSE

/-- A read of a status register: at once, or after the context fetch (R228). -/
def State.statusRead (s : State) (who : Who) (what g : Nat) : State :=
  if (s.c g).cached || !s.qctCovers g then (s.useCtx g).emit (.regValue who (s.statusWord what g))
  else (s.modHif (fun h => { h with status := h.status ++ [⟨who, what, g⟩] })).needCtx g

/-- Answer the status reads that waited for a context. -/
def State.answerStatus (s : State) (g : Nat) : State :=
  let rs := s.hif.status.filter (fun r => r.g == g)
  foldS rs (s.modHif (fun h => { h with status := h.status.filter (fun r => r.g != g) }))
    (fun s r => s.emit (.regValue r.who (s.statusWord r.what g)))

/-- The queues and CQs of a function, of a PF with all its VFs (R254). -/
def State.numbersOf (s : State) (f : Fn) : List Nat :=
  (s.hif.ctx.map (·.1)).filter (fun g => match f with
    | .pf p => s.pfOf g == p.val
    | .vf _ _ => fnInst (s.ownerOf g) == fnInst f)

/-- Free the number of a reset function: its queue and its CQ (R254). Reads made for it serve nothing any more. An entry that is not in
the cache is fetched to be freed, where the QCT stays. -/
def State.freeNumber (s : State) (g : Nat) (stays : Bool) : State :=
  let s := s.wr F.HIF_Q_CTRL.ENABLE 0 g
  let away := s.away g
  let s := s.modHif (fun h => { h with
    ctx := tabMod h.ctx g Ctx.freed,
    wait := h.wait.filter (fun w => w.cq != g && (match w.own with | some o => o.1 != g | none => true)),
    late := h.late.filter (fun w => w.cq != g && (match w.own with | some o => o.1 != g | none => true)),
    reads := h.reads.filter (fun r => match r.job with | .frag q _ => q != g | .data q _ => q != g | .serve q _ => q != g | _ => true),
    rings := h.rings.filter (fun r => r.1 != g), pend := h.pend.filter (fun e => e.1 != g && e.2 != .ctrl g true && e.2 != .ctrl g false) })
  let s := if !away then s else if stays then s.await g .free
    else s.modHif (fun h => { h with fetch := h.fetch.filter (fun x => x != g) })
  s.post (.queueFreed g)

/-- The function instances that a reset of a function covers. -/
def fnCovers (f : Fn) (i : Nat) : Bool :=
  match f with
  | .pf p => fnPf (fnOfInst i) == p.val
  | .vf _ _ => i == fnInst f

/-- The numbers of a function that a reset frees: those with a context, and those whose entry is being fetched. -/
def State.resetNumbers (s : State) (f : Fn) : List Nat :=
  s.numbersOf f ++ (s.hif.fetch.filter (fun g => (tabGet s.hif.ctx g).isNone && (match f with
    | .pf p => s.pfOf g == p.val
    | .vf _ _ => s.ownerOf g == f)))

/-- The part of the host interface in the reset of a function (R254): an FLR, or a HIF unit reset, after which the QCT stays. A status
read that waits for an entry that is fetched no longer returns zero. -/
def State.hifFlr (s : State) (f : Fn) (stays : Bool) : State :=
  let s := foldS (s.resetNumbers f) s (fun s g => s.freeNumber g stays)
  let lost := s.hif.status.filter (fun r => !s.hif.fetch.contains r.g)
  let s := foldS lost (s.modHif (fun h => { h with status := h.status.filter (fun r => h.fetch.contains r.g) }))
    (fun s r => s.emit (.regValue r.who 0))
  let covers (e : Ev) : Bool := fnCovers f (fnInst (s.ringOwner e.inst e.ring))
  let s := s.modHif (fun h => { h with
    held := h.held.filter (fun e => !covers e), cmds := h.cmds.filter (fun k => !fnCovers f (fnInst k.fn)),
    push := h.push.filter (fun e => !fnCovers f (fnInst (s.ownerOf (e.1 / 2)))), pba := h.pba.filter (fun k => !fnCovers f (k / 2048)), msix := h.msix.filter (fun e => !fnCovers f (e.1 / 2048)) })
  let (p, lo, n) := match f with
    | .pf p => (p.val, 0, 2048)
    | .vf p v => (p.val, s.vfMap F.HIF_VF_MAP.EQBASE p.val v.val, s.vfMap F.HIF_VF_MAP.EQCOUNT p.val v.val)
  { s with regs := s.regs.filter (fun e =>
      let r := (Nat.unpair (Nat.unpair e.1).1).1
      let k := Nat.unpair (Nat.unpair e.1).2
      !((r == Reg.HIF_EQ_CFG.code || r == Reg.HIF_EQ_BASE.code || r == Reg.HIF_EQ_STATUS.code || r == Reg.HIF_EQ_DB.code) &&
          k.1 == p && decide (lo ≤ k.2) && decide (k.2 < lo + n)) &&
        !((r == Reg.HIF_QUEUE_RESULT.code || r == Reg.HIF_QUEUE_ADDR.code) && fnCovers f k.1)) }

/-- The link of an attachment goes down without a reset (Table 7.7, Table 7.8). -/
def State.hostLinkDown (s : State) (pf : Nat) : State :=
  if !s.linkUpPf pf then s else
  let s := (s.wrI F.HIF_PORT_STATUS.LINK_UP pf 0 0).raise .HIF_LINK_DOWN
  let ns := s.numbersOf (.pf (Fin.ofNat 4 pf))
  let s := foldS ns s (fun s g => s.queueError g erHostLink (s.q g Q.TAKEN))
  foldS ns s (fun s g =>
    let st := s.q g Q.CQ_STATE
    if st = cqReady ∨ st = cqFull then s.cqOverflow g else s)

/-- The link of an attachment comes up (R218): waiting completions and events are written. -/
def State.hostLinkUp (s : State) (pf rate width : Nat) (flit cxl cache mem : Bool) : State :=
  if !s.pfExists pf then s else
  let low := pf % 2 == 0 && s.imageEnables uCOH
  let s := s.wrI F.HIF_PORT_STATUS.LINK_UP pf 0 1
  let s := s.wrI F.HIF_PORT_STATUS.FLIT pf 0 (b2n flit)
  let s := s.wrI F.HIF_PORT_STATUS.CXL pf 0 (b2n cxl)
  let s := s.wrI F.HIF_PORT_STATUS.CACHE pf 0 (b2n (cxl && cache && low))
  let s := s.wrI F.HIF_PORT_STATUS.MEM pf 0 (b2n (cxl && mem && low))
  let s := (s.wrI F.HIF_PORT_STATUS.RATE pf 0 rate).wrI F.HIF_PORT_STATUS.WIDTH pf 0 width
  let s := foldS (s.numbersOf (.pf (Fin.ofNat 4 pf))) s (fun s g => s.flushCq g)
  let rs := (s.hif.held.map (fun e => (e.inst, e.ring))).filter (fun e => e.1 == pf)
  foldS rs s (fun s e => s.flushEv e.1 e.2)

end Sys2Proof.Machine
end

