-- ==== Sys2Proof/Machine/EccWord.lean ====
section
/-! DEFINITION. Code words of the SRAM regions (12_stored_data_protection.md): codes, errors and poison, reads with what they find,
writes of units whole and narrow, and the flip mask. Which word holds what is not given by the spec: a command that meets an error
names it, and which of an object's words an access touches is open (log entry 32). -/

namespace Sys2Proof.Machine

def State.modEcc (s : State) (f : Ecc → Ecc) : State := { s with ecc := f s.ecc }

/-- Size of a region in bytes (Table 12.2). -/
def eccSize (r : Nat) : Nat :=
  [33554432, 8388608, 8388608, 4194304, 33554432, 8388608, 67108864, 4194304].getD r 0

/-- The code of a region (ECC_CODES). -/
def State.eccCode (s : State) (r : Nat) : Nat :=
  s.rd ([F.ECC_CODES.CODE_0, F.ECC_CODES.CODE_1, F.ECC_CODES.CODE_2, F.ECC_CODES.CODE_3, F.ECC_CODES.CODE_4, F.ECC_CODES.CODE_5,
    F.ECC_CODES.CODE_6].getD r F.ECC_CODES.CODE_7)

/-- Bytes of a code word, and check bits of a code (Table 12.1). -/
def codeBytes (c : Nat) : Nat := if c = 2 then 16 else 8
def codeChecks (c : Nat) : Nat := if c = 2 then 17 else 8

/-- Code words of a region. -/
def State.eccWords (s : State) (r : Nat) : Nat := eccSize r / codeBytes (s.eccCode r)

def wkey (r w : Nat) : Nat := r * 2 ^ 23 + w

/-- Check bits of a data word (Table 12.1): Light has one even parity bit for each byte; the matrices of the others are open. -/
def checkBits (c d : Nat) : Nat :=
  if c = 0 then ((List.range 8).map (fun i => popcount 8 (d / 2 ^ (8 * i)) % 2 * 2 ^ i)).sum else Config.checkBits c d % 2 ^ codeChecks c

/-- The reserved check bits of a poisoned word: those of an all-zero word, every bit inverted (R360). -/
def poisonChecks (c : Nat) : Nat := 2 ^ codeChecks c - 1 - checkBits c 0

/-- What a read of a word finds (R357, R360): 0 no error, or none that Light detects, 1 correctable, 2 uncorrectable, 3 poison, 4 an
error beyond what the code detects. -/
def EWord.look (x : EWord) (code : Nat) : Nat :=
  if x.poison then 3
  else
    let n := popcount 128 x.dflip + popcount 17 x.cflip
    if n = 0 then 0
    else match code with
      | 0 => if (List.range 8).any (fun i => (popcount 8 (x.dflip / 2 ^ (8 * i)) + (if bit x.cflip i then 1 else 0)) % 2 == 1) then 2 else 0
      | 1 => if n = 1 then 1 else if n = 2 then 2 else 4
      | _ => if n ≤ 2 then 1 else if n = 3 then 2 else 4

/-- The word at an index. -/
def State.eccWord (s : State) (r w : Nat) : Option EWord := tabGet s.ecc.words (wkey r w)

def State.setWord (s : State) (r w : Nat) (x : EWord) : State := s.modEcc (fun e => { e with words := tabPut e.words (wkey r w) x })

/-- The word at an index; where nothing is known of it, zero since BIST (R415), or open once a unit may have written it. -/
def State.eccKnow (s : State) (r w : Nat) : EWord × State :=
  match s.eccWord r w with
  | some x => (x, s)
  | none =>
    let (d, s) := if bit s.ecc.used r then s.pick (2 ^ (8 * codeBytes (s.eccCode r))) else (0, s)
    let x : EWord := ⟨d, 0, 0, false, false, none⟩
    (x, s.setWord r w x)

/-- The armed flip takes a write of a word (R369). -/
def State.flipTakes (s : State) (r w : Nat) : Bool :=
  s.on F.ECC_FLIP_CTRL.ARM && s.rd F.ECC_FLIP_CTRL.REGION == r && (!s.on F.ECC_FLIP_CTRL.MATCH || s.rd F.ECC_FLIP_CTRL.WORD == w)

/-- A write of a whole code word (R360, R369): check bits over the whole word, then the armed flip. -/
def State.eccStore (s : State) (r w data : Nat) (obj : Option EObj) : State :=
  if s.flipTakes r w then
    let m := s.rd F.ECC_FLIP_DATA.MASK
    let m := if s.eccCode r = 2 ∧ s.on F.ECC_FLIP_CTRL.HALF then m * 2 ^ 64 else m
    let s := s.setWord r w ⟨data, m, s.rd F.ECC_FLIP_CTRL.CHECK_MASK, false, false, obj⟩
    let s := (s.wr F.ECC_FLIP_CTRL.ARM 0).wr F.ECC_FLIP_STATUS.DONE 1
    (s.wr F.ECC_FLIP_STATUS.REGION r).wr F.ECC_FLIP_STATUS.WORD w
  else s.setWord r w ⟨data, 0, 0, false, false, obj⟩

/-- Write a word poisoned (R360, R362). -/
def State.eccPoison (s : State) (r w : Nat) (obj : Option EObj) : State := s.setWord r w ⟨0, 0, 0, true, false, obj⟩

/-- The engine of a word of the local stores: 256 KiB each. -/
def State.wordEngine (s : State) (w : Nat) : Nat := w * codeBytes (s.eccCode 6) / 262144

/-- The fault of a region, with the capture content of Table 13.3. -/
def State.eccFault (s : State) (r w : Nat) (o : Option EObj) : State :=
  match r, o with
  | 0, _ => s.raise .ECC_UE_PKT
  | 1, some (.replay p) => s.raise .ECC_UE_REPLAY p
  | 1, _ => s.raise .ECC_UE_REPLAY
  | 2, some (.ctx g) => s.raiseOcc { occ .ECC_UE_CTX g with addr := w }
  | 2, _ => s.raiseOcc { occ .ECC_UE_CTX with addr := w }
  | 3, some (.region k) => s.raiseOcc { occ .ECC_UE_REGION k with addr := w }
  | 3, _ => s.raiseOcc { occ .ECC_UE_REGION with addr := w }
  | 4, some (.line a) => s.raiseOcc { occ .ECC_UE_WINDOW with addr := a * 64, info := w }
  | 4, _ => s.raiseOcc { occ .ECC_UE_WINDOW with info := w }
  | 5, some (.dir a) => s.raiseOcc { occ .ECC_UE_DIR with addr := a * 64, info := w }
  | 5, _ => s.raiseOcc { occ .ECC_UE_DIR with info := w }
  | 6, _ => s.raiseOcc { occ .ECC_UE_ENGINE (s.wordEngine w) with addr := w * codeBytes (s.eccCode 6) % 262144 }
  | _, _ => s.raise .ECC_UE_TABLE

/-- The action of Table 12.3 on a word: region, word, what it holds, and whether the scrubber found it. -/
abbrev EccAct := State → Nat → Nat → Option EObj → Bool → State

/-- A word is found uncorrectable (R362): counted and logged once, then the action; regions that the action rewrites hold
a new word, the others a poisoned one. -/
def State.eccUe (s : State) (act : EccAct) (r w : Nat) (o : Option EObj) (scrub : Bool) : State :=
  let s := s.inc F.ECC_REGION_STATUS.UE_COUNT r
  let s := (s.wr F.ECC_LAST_UE.VALID 1).wr F.ECC_LAST_UE.REGION r
  let s := (s.wr F.ECC_LAST_UE.BY_SCRUB (b2n scrub)).wr F.ECC_LAST_UE.WORD w
  let s := s.eccFault r w o
  let s := if r = 2 ∨ r = 3 ∨ r = 5 then s.modEcc (fun e => { e with words := tabDel e.words (wkey r w) }) else s.eccPoison r w o
  act s r w o scrub

/-- A correctable error (R361): counted, logged, and a write-back waits. -/
def State.eccCe (s : State) (r w : Nat) : State :=
  let (x, s) := s.eccKnow r w
  ((s.setWord r w { x with wb := true }).inc F.ECC_REGION_STATUS.CE_COUNT r).raise .ECC_CE

/-- An owner or the scrubber reads a word that is known. What a code does with errors beyond those it detects is open. -/
def State.eccRead (s : State) (act : EccAct) (r w : Nat) (scrub : Bool) : State :=
  match s.eccWord r w with
  | none => s
  | some x =>
    let (look, s) := if x.look (s.eccCode r) = 4 then s.pick 3 else (x.look (s.eccCode r), s)
    match look with
    | 0 => s
    | 1 => s.eccCe r w
    | 2 => s.eccUe act r w x.obj scrub
    | _ => if scrub then s else act s r w x.obj false

/-- The known words of an object in a region. -/
def State.wordsOf (s : State) (r : Nat) (o : EObj) : List Nat :=
  (s.ecc.words.filter (fun e => e.1 / 2 ^ 23 == r && e.2.obj == some o)).map (fun e => e.1 % 2 ^ 23)

/-- An owner reads what it holds for an object: every known word of it. -/
def State.eccUse (s : State) (act : EccAct) (o : EObj) : State :=
  foldS (s.ecc.words.filter (fun e => e.2.obj == some o)) s (fun s e => s.eccRead act (e.1 / 2 ^ 23) (e.1 % 2 ^ 23) false)

/-- A word of an object cannot be read: it is uncorrectable or poisoned. -/
def State.eccLost (s : State) (o : EObj) : Bool :=
  s.ecc.words.any (fun e => e.2.obj == some o && (e.2.look (s.eccCode (e.1 / 2 ^ 23)) == 2 || e.2.poison))

/-- The bits of `v` under `mask`, the bits of `d` elsewhere. -/
def mergeBits (d v mask : Nat) : Nat := (v &&& mask) ||| (d ^^^ (d &&& mask))

/-- A unit's write narrower than the code word (R359): the word is read and corrected, the unit's bits are merged and the word is
rewritten; where the read finds it uncorrectable or poisoned, the merged word is written poisoned. -/
def State.eccNarrow (s : State) (act : EccAct) (r w v mask : Nat) : State :=
  let (x, s) := s.eccKnow r w
  let s := s.eccRead act r w false
  match s.eccWord r w with
  | none => s.eccPoison r w x.obj
  | some y =>
    if y.poison then s
    else s.eccStore r w (mergeBits (if y.wb then y.data else y.data ^^^ y.dflip) v mask) y.obj

/-- A unit writes a whole code word of an object; its data is open. -/
def State.eccUnitWord (s : State) (r w : Nat) (o : EObj) : State :=
  if s.flipTakes r w then
    let (d, s) := s.pick (2 ^ (8 * codeBytes (s.eccCode r)))
    s.eccStore r w d (some o)
  else s.modEcc (fun e => { e with words := tabDel e.words (wkey r w) })

/-- An armed flip takes a unit's write of a word of which nothing is known; which word that is, and so whether it is WORD, is open. -/
def State.eccFlip (s : State) (r : Nat) (o : EObj) : State :=
  if s.on F.ECC_FLIP_CTRL.ARM ∧ s.rd F.ECC_FLIP_CTRL.REGION = r then
    if s.on F.ECC_FLIP_CTRL.MATCH then
      let (k, s) := s.pick 2
      if k = 0 then s else s.eccUnitWord r (s.rd F.ECC_FLIP_CTRL.WORD) o
    else
      let (w, s) := s.pick (s.eccWords r)
      s.eccUnitWord r w o
  else s

/-- A unit writes all that it holds for an object (R360, R366, R369): its words are new. -/
def State.eccUnitWrite (s : State) (r : Nat) (o : EObj) : State :=
  (foldS (s.wordsOf r o) s (fun s w => s.eccUnitWord r w o)).eccFlip r o

/-- A unit writes part of what it holds for an object: which of its words it leaves, replaces or writes in part is open (R359). -/
def State.eccPartWrite (s : State) (act : EccAct) (r : Nat) (o : EObj) : State :=
  let s := foldS (s.wordsOf r o) s (fun s w =>
    let (k, s) := s.pick 3
    match k with
    | 0 => s
    | 1 => s.eccUnitWord r w o
    | _ =>
      let (v, s) := s.pick (2 ^ (8 * codeBytes (s.eccCode r)))
      let (m, s) := s.pick (2 ^ (8 * codeBytes (s.eccCode r)))
      s.eccNarrow act r w v m)
  let (k, s) := if s.on F.ECC_FLIP_CTRL.ARM then s.pick 2 else (0, s)
  if k = 0 then s else s.eccFlip r o

/-- The words that held an object hold nothing any more. -/
def State.eccEmpty (s : State) (o : EObj) : State :=
  s.modEcc (fun e => { e with words := e.words.map (fun x => (x.1, if x.2.obj = some o then { x.2 with obj := none } else x.2)) })

end Sys2Proof.Machine
end

