-- ==== Sys2Proof/Machine/Rma.lean ====
section
/-! DEFINITION. Remote memory access (08_remote_memory_access.md): regions and key checks, connections, the target's Landing
ledger, the requester's window and timers. -/

namespace Sys2Proof.Machine

def State.modRma (s : State) (f : Rma → Rma) : State := { s with rma := f s.rma }

/-- Fields of a region descriptor (Table 8.1): offset and size. -/
abbrev RG.ADDR : Nat × Nat := (0, 8)
abbrev RG.LENGTH : Nat × Nat := (8, 8)
abbrev RG.FIRST : Nat × Nat := (16, 4)
abbrev RG.PD : Nat × Nat := (20, 2)
abbrev RG.ACCESS : Nat × Nat := (22, 1)
abbrev RG.SHIFT : Nat × Nat := (23, 1)
abbrev RG.OWNER : Nat × Nat := (24, 2)
abbrev RG.GEN : Nat × Nat := (26, 1)
abbrev RG.STATE : Nat × Nat := (27, 1)

def Region.f (r : Region) (q : Nat × Nat) : Nat := leAt r.d q.1 q.2

/-- A descriptor with a field set and its DESC_CRC made good (R257). -/
def descPut (d : Bytes) (q : Nat × Nat) (v : Nat) : Bytes :=
  let d := putBytes d q.1 (leBytes q.2 v)
  putBytes d 60 (leBytes 4 (crc32 (d.take 60)))

/-- The function that owns a region (R256, Table 8.1). -/
def regionFn (idx : Nat) (r : Region) : Fn :=
  let p := Fin.ofNat 4 (idx / 2 ^ 22)
  if r.f RG.OWNER = 0 then .pf p else .vf p (Fin.ofNat 512 (r.f RG.OWNER - 1))

/-- The host address of a region descriptor (R257). -/
def State.descAddr (s : State) (idx : Nat) : Nat :=
  s.rdI F.RMA_RT_BASE.BASE (idx / 2 ^ 22) 0 * 4096 + 64 * (idx % 2 ^ 22)

/-- An uncorrectable word of the region cache: the entry goes, and is fetched again from the Region Table (Table 12.3). -/
def regionAct : EccAct := fun s _ _ o _ =>
  match o with
  | some (.region k) =>
    if s.ecc.refetch.contains k ∨ (tabGet s.rma.regions k).isNone then s
    else
      let s := s.modRma (fun r => { r with regions := tabMod r.regions k (fun x => { x with known := [] }) })
      (s.modEcc (fun e => { e with refetch := e.refetch ++ [k] })).readHost (.pf (Fin.ofNat 4 (k / 2 ^ 22))) (s.descAddr k) 64
  | _ => s

/-- The region cache is read for a key (R361, R362); whether the entry is there, or is being fetched again, for which the access
waits. -/
def State.regionRead (s : State) (key : Nat) : Bool × State :=
  let k := key / 256 % 2 ^ 24
  let s := if s.ecc.words.isEmpty then s else s.eccUse regionAct (.region k)
  (!s.ecc.refetch.contains k, s)

/-- Kinds of use of a region (R261). -/
inductive Use | lread | lwrite | rwrite | rread | ratomic | mcland
  deriving DecidableEq, Repr

/-- What a key check needs beside the key: the queue's PD, function and RIGHTS, the atomic's size and AOP. -/
structure KeyCtx where
  pd : Nat
  fn : Fn
  rights : Nat
  asize : Nat
  aop : Nat

/-- The entries of the page list that an access touches (R260): none of a contiguous region, none of no bytes. -/
def Region.touched (r : Region) (off len : Nat) : List Nat :=
  let sh := r.f RG.SHIFT
  let p0 := (r.f RG.FIRST + off) / 2 ^ sh
  let p1 := (r.f RG.FIRST + off + (len - 1)) / 2 ^ sh
  if bit (r.f RG.ACCESS) 5 || len == 0 then [] else (List.range (p1 - p0 + 1)).map (p0 + ·)

/-- The page entries that an access touches are usable (R260). -/
def Region.pagesOk (r : Region) (off len : Nat) : Bool :=
  (r.touched off len).all (fun p => r.known.contains p && match tabGet r.pages p with
    | some (some e) => e % 2 ^ r.f RG.SHIFT == 0
    | _ => false)

/-- The host physical address of a byte of a region (R260). -/
def Region.addr (r : Region) (o : Nat) : Nat :=
  if bit (r.f RG.ACCESS) 5 then (r.f RG.ADDR + o) % 2 ^ 64
  else
    let sh := r.f RG.SHIFT
    let p := r.f RG.FIRST + o
    match tabGet r.pages (p / 2 ^ sh) with
    | some (some e) => e + p % 2 ^ sh
    | _ => 0

/-- The key check of Table 8.2 up to its last row: the region entry, or the cause of the first row that fails. -/
def State.keyRows (s : State) (u : Use) (key off len : Nat) (k : KeyCtx) : Except Nat Nat :=
  let idx := key / 256 % 2 ^ 24
  let pf := idx / 2 ^ 22
  let i := idx % 2 ^ 22
  let lg := s.rdI F.RMA_RT_BASE.LOG_LIMIT pf 0
  match tabGet s.rma.regions idx with
  | none => .error 1
  | some r =>
    let acc := r.f RG.ACCESS
    let isLocal := u == .lread || u == .lwrite
    if lg = 0 ∨ 2 ^ lg ≤ i ∨ i = 0 then .error 1
    else if r.f RG.STATE ≠ 1 ∨ r.f RG.GEN ≠ key % 256 then .error 2
    else if u ≠ .mcland ∧ (r.f RG.PD ≠ k.pd ∨ (isLocal ∧ fnInst (regionFn idx r) ≠ fnInst k.fn)) then .error 3
    else if (u = .lwrite ∧ !bit acc 0) ∨ ((u = .rwrite ∨ u = .mcland) ∧ !bit acc 1) ∨ (u = .rread ∧ !bit acc 2) ∨
        (u = .ratomic ∧ !bit acc 3) then .error 4
    else if (u = .rwrite ∧ !bit k.rights 0) ∨ (u = .rread ∧ !bit k.rights 1) ∨ (u = .ratomic ∧ !bit k.rights 2) then .error 5
    else if r.f RG.LENGTH < off + len ∨ 2 ^ 64 ≤ off + len then .error 6
    else if k.asize ≠ 0 ∧ (if bit acc 5 then r.f RG.ADDR + off else r.f RG.FIRST + off) % k.asize ≠ 0 then .error 7
    else if u = .ratomic ∧ bit acc 4 ∧ 2 < k.aop then .error 8
    else .ok idx

/-- The region of an entry number. -/
def State.region (s : State) (idx : Nat) : Region := tabGetD s.rma.regions idx ⟨List.replicate 64 0, [], [], false⟩

/-- The key check of Table 8.2: the region entry, or the cause of the first row that fails. -/
def State.keyCheck (s : State) (u : Use) (key off len : Nat) (k : KeyCtx) : Except Nat Nat :=
  match s.keyRows u key off len k with
  | .ok idx => if (s.region idx).bad ∨ !(s.region idx).pagesOk off len then .error 9 else .ok idx
  | .error c => .error c

/-- The pieces of an access, split at page boundaries: address and length (R260). -/
def Region.pieces (r : Region) : Nat → Nat → Nat → List (Nat × Nat)
  | 0, _, _ => []
  | n + 1, off, len =>
    if len = 0 then []
    else if bit (r.f RG.ACCESS) 5 then [(r.addr off, len)]
    else
      let pg := 2 ^ r.f RG.SHIFT
      let k := min len (pg - (r.f RG.FIRST + off) % pg)
      (r.addr off, k) :: Region.pieces r n (off + k) (len - k)

def Region.split (r : Region) (off len : Nat) : List (Nat × Nat) := r.pieces (len / 4096 + 2) off len

/-- Write bytes into a region by posted writes of its owner. -/
def State.place (s : State) (idx off : Nat) (b : Bytes) : State :=
  let r := s.region idx
  ((r.split off b.length).foldl (fun (a : State × Bytes) p =>
    (a.1.emit (.hostWrite (regionFn idx r) p.1 (a.2.take p.2)), a.2.drop p.2)) (s, b)).1

/-- Read bytes of a region. -/
def State.fetch (s : State) (idx off len : Nat) : State :=
  let r := s.region idx
  foldS (r.split off len) s (fun s p => s.readHost (regionFn idx r) p.1 p.2)

/-- The key context of a queue. -/
def State.keyCtx (s : State) (g : Nat) : KeyCtx := ⟨s.q g Q.PD, s.ownerOf g, s.q g Q.RIGHTS, 0, 0⟩

/-- The page entries that the last row of an access's key check needs and the region cache does not hold (R260), by region. -/
def State.pagesDue (s : State) (u : Use) (key off len : Nat) (k : KeyCtx) : List (Nat × Nat) :=
  match s.keyRows u key off len k with
  | .ok idx =>
    let r := s.region idx
    if r.bad then [] else ((r.touched off len).filter (fun p => !r.known.contains p)).map (fun p => (idx, p))
  | .error _ => []

/-- A page entry is being read. -/
def State.pageAsked (s : State) (x : Nat × Nat) : Bool := s.hif.reads.any (fun r => r.job == .page x.1 x.2)

/-- Page entries are read with the owner's requester ID (R260); one that is being read is not asked for again. -/
def State.pagesAsk (s : State) (ps : List (Nat × Nat)) : State :=
  foldS ps s (fun s x =>
    if s.pageAsked x then s
    else
      let r := s.region x.1
      (s.modHif (fun h => { h with reads := h.reads ++ [⟨.page x.1 x.2, regionFn x.1 r, 8⟩] })).readHost (regionFn x.1 r)
        ((r.f RG.ADDR + 8 * x.2) % 2 ^ 64) 8)

/-- A page entry was read: the region cache keeps it, unusable where the host gives an error or poisoned data (R260). -/
def State.pageRead (s : State) (idx p : Nat) (a : Ans) : State :=
  let e : Option Nat := match a with | .ok b => some (leAt b 0 8) | _ => none
  s.modRma (fun x => { x with regions := tabMod x.regions idx (fun r => { r with pages := tabPut r.pages p e, known := r.known ++ [p] }) })

/-- A use of a region: its key check, and RMA_REGION_ERR where its descriptor or a page entry is unusable (R260, R261). -/
def State.keyUse (s : State) (u : Use) (key off len : Nat) (k : KeyCtx) : Except Nat Nat × State :=
  match s.keyCheck u key off len k with
  | .ok idx => (.ok idx, s)
  | .error 9 => (.error 9, s.raise .RMA_REGION_ERR (key / 256))
  | .error c => (.error c, s)

/-- The local access of an entry makes its check (R261), part by part, each of a key, a length and an offset, up to the first
that fails; whether all pass. -/
def State.partsUse (s : State) (u : Use) (k : KeyCtx) : List (Nat × Nat × Nat) → Bool × State
  | [] => (true, s)
  | p :: ps =>
    if p.2.1 = 0 then s.partsUse u k ps
    else match s.keyUse u p.1 p.2.2 p.2.1 k with
      | (.ok _, s) => s.partsUse u k ps
      | (.error _, s) => (false, s)

/-- The page entries that the key checks of parts need and the region cache does not hold (R260). -/
def State.partsDue (s : State) (u : Use) (k : KeyCtx) (ps : List (Nat × Nat × Nat)) : List (Nat × Nat) :=
  ps.flatMap (fun p => if p.2.1 = 0 then [] else s.pagesDue u p.1 p.2.2 p.2.1 k)

/-- PSN arithmetic modulo 2^24. -/
def diff24 (a b : Nat) : Nat := (a + 2 ^ 24 - b) % 2 ^ 24
def add24 (a b : Nat) : Nat := (a + b) % 2 ^ 24

/-- Cut a message of `l` bytes into data packets: offset and length of each (R265). -/
def cutMsg (l : Nat) : List (Nat × Nat) :=
  if l ≤ 32 then [(0, l)]
  else if l ≤ 63 then [(0, 32), (32, l - 32)]
  else
    let n := (l + 4095) / 4096
    let r := l - 4096 * (n - 1)
    if 33 ≤ r ∧ r ≤ 63 then
      (List.range (n - 2)).map (fun i => (4096 * i, 4096)) ++ [(4096 * (n - 2), 4032), (4096 * (n - 2) + 4032, r + 64)]
    else (List.range (n - 1)).map (fun i => (4096 * i, 4096)) ++ [(4096 * (n - 1), r)]

/-- The DQP word of packets to a queue's peer (Table 8.9). -/
def Ctx.peerDqp (c : Ctx) : Nat := c.f Q.REMOTE_QP % 2 ^ 20 + c.f Q.REMOTE_QGEN * 2 ^ 24

/-- Send an answer on VN2 (Table 8.9). -/
def State.answer (s : State) (g kind psn mod' detail : Nat) (payload : Bytes) : State :=
  let c := s.c g
  s.send (mkPacket (c.f Q.REMOTE_NODE) s.nodeId 2 (c.f Q.TC) kind 0
    (leBytes 4 c.peerDqp ++ leBytes 3 psn ++ leBytes 1 mod' ++ leBytes 4 detail ++ leBytes 8 0) payload)

/-- NAK statuses and BUSY details (Table 8.10, R296). -/
abbrev nkAccess : Nat := 1
abbrev nkConn : Nat := 2
abbrev nkBusy : Nat := 3
abbrev nkResend : Nat := 4
abbrev nkCq : Nat := 5

def State.nak (s : State) (g psn st detail : Nat) : State :=
  let s := s.answer g 0x21 psn st detail []
  if st = nkBusy ∧ detail ≤ 4 then s.inc F.RMA_STATUS.BUSY_SENT
  else if st = nkResend then s.inc F.RMA_STATUS.RESEND_SENT else s

/-- Send an ACK at once (R271, R272). -/
def State.ackNow (s : State) (g : Nat) : State :=
  let c := s.c g
  (s.answer g 0x20 (c.f Q.CUM_PSN) 0 0 (leBytes 32 (c.f Q.LEDGER))).modCtx g (fun c => { c with ackDue := false })

/-- A packet is discarded as stale. -/
def State.rmaStale (s : State) : State := s.inc F.RMA_COUNT.STALE

/-- Fields of the transport words of a packet (Table 8.9). -/
def pkDqp (b : Bytes) : Nat := leAt b 12 4
def pkDq (b : Bytes) : Nat := pkDqp b % 2 ^ 20
def pkDqgen (b : Bytes) : Nat := pkDqp b / 2 ^ 24
def pkPsn (b : Bytes) : Nat := leAt b 16 3
def pkMod (b : Bytes) : Nat := leAt b 19 1
def pkKey (b : Bytes) : Nat := leAt b 20 4
def pkOff (b : Bytes) : Nat := leAt b 24 8
def pkAdist (b : Bytes) : Nat := bits (pkFrame b) 18 8

/-- Data bytes of a PUT or GET_RESP. -/
def pkData (b : Bytes) : Bytes := (pkPayload b).take (8 * pkPwords b - pkMod b % 8)

/-- A whole, unparked long packet, or a short one. -/
def pkWhole (b : Bytes) : Bool := match pkLength b with | some l => decide (l ≤ b.length) | none => false

/-- The size in bytes of a size code. -/
def sizeOf' (code : Nat) : Nat := 4 * 2 ^ code

/-- A packet of this chapter breaks R268. -/
def rmaBad (b : Bytes) : Bool :=
  let k := pkKind b
  let m := pkMod b
  let pw := pkPwords b
  let vn1 := k < 0x20
  bits (pkFrame b) 26 6 != 0 || bits (pkDqp b) 20 4 != 0 || (!vn1 && (pkAdist b != 0 || pkOff b != 0)) ||
  (match k with
  | 0x10 => bits m 4 4 != 0 || (pw == 0 && m % 8 != 0)
  | 0x11 => m != 0 || pw != 2 || pkLong b || pkKey b != 0 || pkOff b != 0 || leAt (pkPayload b) 12 4 != 0
  | 0x12 => m != 0 || pw != 1 || leAt (pkPayload b) 0 4 == 0 || 4096 < leAt (pkPayload b) 0 4 || leAt (pkPayload b) 4 4 != 0
  | 0x13 => bits m 6 2 != 0 || 9 < bits m 0 4 || 2 < bits m 4 2 || pkLong b || pw != 1 * 2 ^ bits m 4 2
  | 0x20 => m != 0 || pw != 4 || pkLong b || pkKey b != 0
  | 0x21 => pw != 0 || pkLong b
  | 0x22 => bits m 3 5 != 0 || pw == 0 || pkKey b != 0
  | 0x23 => bits m 0 4 != 0 || bits m 6 2 != 0 || 2 < bits m 4 2 || pw != (if bits m 4 2 = 2 then 2 else 1) || pkLong b || pkKey b != 0
  | _ => true)

/-- Free the records that a request's ADIST leaves behind (R274). -/
def State.freeRecs (s : State) (g psn adist : Nat) : State :=
  let una := (psn + 2 ^ 24 - adist) % 2 ^ 24
  let s := s.modRma (fun r => { r with recs := r.recs.filter (fun x =>
    !(x.q == g && decide (1 ≤ diff24 una x.psn) && decide (diff24 una x.psn < 2 ^ 23))) })
  s.wr F.RMA_STATUS.ATOMIC_RECORDS s.rma.recs.length

/-- How a request packet stands after steps 1 to 5 of Table 8.11: ended, a duplicate, or new with its distance. -/
inductive Pre where
  | stop (s : State)
  | dup (s : State) (g : Nat)
  | new (s : State) (g d : Nat)

/-- A NAK BUSY, MISS_FULL: the device holds no context, so what DQP it carries is open (log entry 13). -/
def State.missFull (s : State) (b : Bytes) : State :=
  let (x, s) := s.pick (2 ^ 20)
  let (y, s) := s.pick 256
  let s := s.send (mkPacket (pkSrc b) s.nodeId 2 (pkTc b) 0x21 0
    (leBytes 4 (x + y * 2 ^ 24) ++ leBytes 3 (pkPsn b) ++ leBytes 1 nkBusy ++ leBytes 4 1 ++ leBytes 8 0) [])
  let s := s.inc F.RMA_STATUS.BUSY_SENT
  if s.rma.missLogged then s else (s.modRma (fun r => { r with missLogged := true })).raise .RMA_MISS_FULL

/-- Park a packet's header in the VN1 miss queue; a long packet loses its payload (R276). -/
def State.park (s : State) (b : Bytes) : State :=
  if s.rma.parked.length < 2048 then
    let s := s.modRma (fun r => { r with parked := r.parked ++ [(pkDq b, if pkLong b then b.take 32 else b)] })
    (s.wr F.RMA_STATUS.MISS_OCC s.rma.parked.length).needCtx (pkDq b)
  else s.missFull b

/-- How a PSN at distance `d` from CUM_PSN stands (R270): a duplicate, or new. -/
def Ctx.isDup (c : Ctx) (d : Nat) : Bool := d == 0 || decide (2 ^ 23 ≤ d) || (decide (d ≤ 256) && bit (c.f Q.LEDGER) (d - 1))
def Ctx.isNew (c : Ctx) (d : Nat) : Bool := decide (1 ≤ d) && decide (d ≤ 256) && !bit (c.f Q.LEDGER) (d - 1)

/-- A packet passes steps 1 to 4 of Table 8.11: its context is cached, is of its generation and node, and takes packets. -/
def State.passes4 (s : State) (b : Bytes) : Bool :=
  let c := s.c (pkDq b)
  s.qctCovers (pkDq b) && c.cached && pkDqgen b == c.f Q.QGEN && pkSrc b == c.f Q.REMOTE_NODE &&
    (c.f Q.STATE == qActive || c.f Q.STATE == qStopping)

/-- The page entries that step 7 of Table 8.11 needs of a request and the region cache does not hold (R260): for it the packet waits
at ejection. A PUT that is a duplicate or parked makes no key check. -/
def State.packetPages (s : State) (b : Bytes) : List (Nat × Nat) :=
  let g := pkDq b
  let c := s.c g
  let d := diff24 (pkPsn b) (c.f Q.CUM_PSN)
  let due (u : Use) (n : Nat) (k : KeyCtx) : List (Nat × Nat) := s.pagesDue u (pkKey b) (pkOff b) n k
  if rmaBad b || !s.en uRMA || !s.passes4 b then []
  else match pkKind b with
    | 0x10 => if c.isNew d && pkWhole b then due .rwrite (pkData b).length (s.keyCtx g) else []
    | 0x12 => if c.isNew d || c.isDup d then due .rread (leAt (pkPayload b) 0 4) (s.keyCtx g) else []
    | 0x13 =>
      let size := sizeOf' (bits (pkMod b) 4 2)
      if c.isNew d then due .ratomic size { s.keyCtx g with asize := size, aop := bits (pkMod b) 0 4 } else []
    | _ => []

/-- Steps 1 to 5 of Table 8.11 (R269, R270). -/
def State.targetPre (s : State) (b : Bytes) : Pre :=
  let g := pkDq b
  let psn := pkPsn b
  let c := s.c g
  if !s.qctCovers g then .stop s.rmaStale
  else if !c.cached then .stop (s.park b)
  else if pkDqgen b ≠ c.f Q.QGEN ∨ c.f Q.STATE = qFree then .stop s.rmaStale
  else if pkSrc b ≠ c.f Q.REMOTE_NODE then .stop (s.raise .RMA_CONN_MISMATCH g)
  else if c.f Q.STATE = qOff then .stop (s.nak g psn nkBusy 2)
  else if c.f Q.STATE = qError then .stop (s.nak g psn nkConn 0)
  else
    let s := (s.useCtx g).freeRecs g psn (pkAdist b)
    let d := diff24 psn (c.f Q.CUM_PSN)
    if c.isDup d then .dup (s.inc F.RMA_COUNT.DUPLICATES) g
    else if 257 ≤ d then .stop (s.raise .RMA_HORIZON g)
    else .new s g d

/-- Advance CUM_PSN while the next PSN is settled (R270). -/
def ledgerUp : Nat → Nat → Nat → Nat × Nat
  | 0, cum, l => (cum, l)
  | n + 1, cum, l => if l % 2 = 1 then ledgerUp n (add24 cum 1) (l / 2) else (cum, l)

/-- The hold `k` of a context: PSN, VALID, LENGTH, IMM (Table 8.4). -/
def Ctx.hold (c : Ctx) (k : Nat) : Nat × Bool × Nat × Nat :=
  (leAt c.b (192 + 16 * k) 3, bit (leAt c.b (195 + 16 * k) 1) 0, leAt c.b (196 + 16 * k) 4, leAt c.b (200 + 16 * k) 8)

/-- A hold whose PSN is reached produces its completion (R273). -/
def State.holdDue (s : State) (g k : Nat) : State :=
  let c := s.c g
  let (psn, v, len, imm) := c.hold k
  if v && decide (diff24 (c.f Q.CUM_PSN) psn < 2 ^ 23) then
    let s := s.modCtx g (fun c =>
      let b := putBytes c.b (192 + 16 * k) (leBytes 16 0)
      { c with b := putBytes b 155 (leBytes 1 (clrBit (leAt b 155 1) k)) })
    s.complete ⟨s.rcqOf g, imm, s.localOf (s.ownerOf g) g, 0, 0x02, true, len, c.f Q.REMOTE_NODE, psn, 0, 0, none⟩
  else s

/-- Settle a PSN at distance `d` (R270), and produce the holds that fall due, lower PSN first. -/
def State.settlePsn (s : State) (g d : Nat) : State :=
  let s := s.modCtx g (fun c =>
    let (cum, l) := ledgerUp 257 (c.f Q.CUM_PSN) (setBit (c.f Q.LEDGER) (d - 1))
    (c.put Q.CUM_PSN cum).put Q.LEDGER l)
  let c := s.c g
  if diff24 ((c.hold 1).1) ((c.hold 0).1) < 2 ^ 23 then (s.holdDue g 0).holdDue g 1 else (s.holdDue g 1).holdDue g 0

/-- A packet whose settling makes a hold due waits at ejection while its completion can be neither written nor parked,
unless the RCQ is in OVERFLOW (R250, R273). -/
def State.holdWaits (s : State) (b : Bytes) : Bool :=
  let g := pkDq b
  let c := s.c g
  let k := pkKind b
  let d := diff24 (pkPsn b) (c.f Q.CUM_PSN)
  let cq := s.rcqOf g
  ((decide (0x10 ≤ k) && decide (k ≤ 0x13)) || (decide (0x40 ≤ k) && decide (k ≤ 0x42))) && s.passes4 b && c.isNew d &&
  s.q cq Q.CQ_STATE != cqOver && !s.parkRoom cq &&
  (let cum := (ledgerUp 257 (c.f Q.CUM_PSN) (setBit (c.f Q.LEDGER) (d - 1))).1
   let due (psn : Nat) : Bool := decide (diff24 cum psn < 2 ^ 23)
   (k == 0x11 && due (pkPsn b)) || [0, 1].any (fun i => (c.hold i).2.1 && due (c.hold i).1))

/-- An ACK is due within ACK_DELAY (R272). -/
def State.ackLater (s : State) (g : Nat) : State := s.modCtx g (fun c => { c with ackDue := true })

/-- The access type of a request for a capture. -/
def pkAccess (b : Bytes) : Nat := match pkKind b with | 0x12 => 1 | 0x13 => 3 | _ => 2

/-- A remote access that fails its key check (R275). -/
def State.violation (s : State) (g d cause : Nat) (b : Bytes) : State :=
  let s := (s.settlePsn g d).inc F.RMA_COUNT.VIOLATIONS
  let s := s.nak g (pkPsn b) nkAccess cause
  let s := s.setQ g Q.CAUSE 1
  let s := s.raiseOcc { occ .RMA_ACCESS_VIOLATION g with
    addr := pkOff b, info := pkKey b + pkPsn b * 2 ^ 32 + cause * 2 ^ 56, init := pkSrc b, remote := true, access := pkAccess b }
  let s := s.queueError g erTransport (s.q g Q.TAKEN)
  s.qEvent g 0x10 cause (pkPsn b + pkKey b * 2 ^ 24)

/-- Handle a PUT (steps 5 to 8). -/
def State.onPut (s : State) (b : Bytes) : State :=
  match s.targetPre b with
  | .stop s => s
  | .dup s g => s.ackNow g
  | .new s g d =>
    if !pkWhole b then s.nak g (pkPsn b) nkResend 0
    else
      let x := pkData b
      match s.keyUse .rwrite (pkKey b) (pkOff b) x.length (s.keyCtx g) with
      | (.error c, s) => s.violation g d c b
      | (.ok idx, s) => ((s.place idx (pkOff b) x).settlePsn g d).ackLater g

/-- Handle a PUT_IMM (R273, Table 8.11 step 6). -/
def State.onPutImm (s : State) (b : Bytes) : State :=
  match s.targetPre b with
  | .stop s => s
  | .dup s g => s.ackNow g
  | .new s g d =>
    let c := s.c g
    if s.q (s.rcqOf g) Q.CQ_STATE = cqOver then s.nak g (pkPsn b) nkCq 0
    else
      match [0, 1].find? (fun k => !(c.hold k).2.1) with
      | none => s.nak g (pkPsn b) nkBusy 3
      | some k =>
        let p := pkPayload b
        let s := s.modCtx g (fun c =>
          let x := putBytes c.b (192 + 16 * k) (leBytes 3 (pkPsn b) ++ leBytes 1 1 ++ leBytes 4 (leAt p 8 4) ++ leBytes 8 (leAt p 0 8))
          { c with b := putBytes x 155 (leBytes 1 (setBit (leAt x 155 1) k)) })
        (s.settlePsn g d).ackLater g

/-- Start serving a GET (R274). -/
def State.serveGet (s : State) (g idx : Nat) (b : Bytes) : State :=
  let len := leAt (pkPayload b) 0 4
  let s := s.modRma (fun r => { r with serves := r.serves ++ [⟨g, pkPsn b, len, idx⟩] })
  let s := s.modHif (fun h => { h with reads := h.reads ++ [⟨.serve g (pkPsn b), regionFn idx (s.region idx), len⟩] })
  s.fetch idx (pkOff b) len

/-- Handle a GET_REQ (Tables 8.11 and 8.12). A duplicate's key check raises no fault (R271). -/
def State.onGetReq (s : State) (b : Bytes) : State :=
  let len := leAt (pkPayload b) 0 4
  match s.targetPre b with
  | .stop s => s
  | .dup s g =>
    match s.keyCheck .rread (pkKey b) (pkOff b) len (s.keyCtx g) with
    | .error _ => s
    | .ok idx => s.serveGet g idx b
  | .new s g d =>
    match s.keyUse .rread (pkKey b) (pkOff b) len (s.keyCtx g) with
    | (.error c, s) => s.violation g d c b
    | (.ok idx, s) => (s.settlePsn g d).serveGet g idx b

/-- A GET's bytes were read: one GET_RESP (R274). Data that the host does not give is open (log entry 14). -/
def State.serveDone (s : State) (g psn : Nat) (a : Ans) : State :=
  match s.rma.serves.find? (fun x => x.q == g && x.psn == psn) with
  | none => s
  | some v =>
    let s := s.modRma (fun r => { r with serves := r.serves.eraseP (fun x => x.q == g && x.psn == psn) })
    let (x, s) := match a with
      | .ok b => ((b ++ List.replicate v.len 0).take v.len, s)
      | _ => let (n, s) := s.pick (2 ^ (8 * v.len)); (leBytes v.len n, s)
    let pad := (8 - v.len % 8) % 8
    let x := if 33 ≤ v.len ∧ v.len ≤ 56 then x ++ List.replicate (64 - v.len) 0 else x
    if s.q g Q.STATE = qFree then s else s.answer g 0x22 psn pad 0 x

/-- Engines in service of the bays whose ENGINES mask has a function bit (R65): their numbers. -/
def State.enginesFor (s : State) (k : Nat) : List Nat :=
  match s.member 0x8005 with
  | none => []
  | some m => (List.range 256).filter (fun e =>
      bit (leAt m (e / 16) 1) k && s.fitted (24 + e / 16) && s.imageEnables (24 + e / 16) && !s.isContained (24 + e / 16) &&
      !s.enginesDown.contains e)

/-- The result of an atomic: the new value, or none where nothing is written (R264). -/
def atomNew (aop size old op0 op1 : Nat) : Option Nat :=
  let m := 2 ^ (8 * size)
  let sg (x : Nat) : Int := toSigned (8 * size) x
  match aop with
  | 0 => some ((old + op0) % m)
  | 1 => some op0
  | 2 => if old = op0 then some op1 else none
  | 3 => some (old &&& op0)
  | 4 => some (old ||| op0)
  | 5 => some (old ^^^ op0)
  | 6 => some (if sg op0 < sg old then op0 else old)
  | 7 => some (if sg old < sg op0 then op0 else old)
  | 8 => some (min old op0)
  | _ => some (max old op0)

/-- Two atomics work on one 64-byte line of one host port's memory. -/
def sameLine (x y : Atomic) : Bool := x.reg / 2 ^ 23 == y.reg / 2 ^ 23 && x.addr / 64 == y.addr / 64

/-- The engine issues an atomic: a PCIe AtomicOp with AMODE host, else the read of its operand (R274). -/
def State.atomIssue (s : State) (x : Atomic) : State :=
  let s := s.modRma (fun r => { r with atoms := r.atoms.map (fun y => if y = x then { y with begun := true } else y) })
  if x.hostMode then s.emit (.hostAtomic (regionFn x.reg (s.region x.reg)) x.addr x.aop x.size x.op0 x.op1)
  else s.readHost (regionFn x.reg (s.region x.reg)) x.addr x.size

/-- Atomics that are first at their line are issued (R274); the coherent ones go to their line's home. -/
def State.atomKick (s : State) : State :=
  let xs := s.rma.atoms.zipIdx.filter (fun e => !e.1.begun && !e.1.coh && !(s.rma.atoms.take e.2).any (fun y => sameLine y e.1))
  foldS xs s (fun s e => s.atomIssue e.1)

/-- Send the ATOMIC_RESP of a recorded old value. -/
def State.atomResp (s : State) (x : ARec) : State :=
  s.answer x.q 0x23 x.psn (16 * (if x.size = 4 then 0 else if x.size = 8 then 1 else 2)) 0 (leBytes x.size x.old)

/-- Handle an ATOMIC_REQ (Tables 8.11 and 8.12, R274); `coh` tells a coherent atomic's address. -/
def State.onAtomicReq (s : State) (coh : Fn → Nat → Bool) (b : Bytes) : State :=
  let size := sizeOf' (bits (pkMod b) 4 2)
  let aop := bits (pkMod b) 0 4
  match s.targetPre b with
  | .stop s => s
  | .dup s g =>
    match s.rma.recs.find? (fun x => x.q == g && x.psn == pkPsn b) with
    | some x => s.atomResp x
    | none => s
  | .new s g d =>
    match s.keyUse .ratomic (pkKey b) (pkOff b) size { s.keyCtx g with asize := size, aop := aop } with
    | (.error c, s) => s.violation g d c b
    | (.ok idx, s) =>
      if 512 * (s.enginesFor 3).length ≤ s.rma.recs.length + s.rma.atoms.length then
        let s := s.nak g (pkPsn b) nkBusy 4
        if s.rma.atomLogged then s else (s.modRma (fun r => { r with atomLogged := true })).raise .RMA_ATOMIC_FULL
      else
        let r := s.region idx
        let a := r.addr (pkOff b)
        let op0 := leAt (pkPayload b) 0 size
        let op1 := leAt (pkPayload b) size size
        let host := bit (r.f RG.ACCESS) 4
        let isCoh := coh (regionFn idx r) a
        let s := s.settlePsn g d
        (s.modRma (fun x => { x with atoms := x.atoms ++ [⟨g, pkPsn b, aop, size, op0, op1, idx, a, host, isCoh, false⟩] })).atomKick

/-- An atomic finishes with its old value: the write, the record, the response (R274). -/
def State.atomFinish (s : State) (x : Atomic) (old : Nat) : State :=
  let s := s.modRma (fun r => { r with atoms := r.atoms.erase x, recs := r.recs ++ [⟨x.q, x.psn, x.size, old, s.beat⟩] })
  let s := s.wr F.RMA_STATUS.ATOMIC_RECORDS s.rma.recs.length
  let s := if x.hostMode || x.coh then s else
    match atomNew x.aop x.size old x.op0 x.op1 with
    | some v => s.emit (.hostWrite (regionFn x.reg (s.region x.reg)) x.addr (leBytes x.size v))
    | none => s
  (if s.q x.q Q.STATE = qFree then s else s.atomResp ⟨x.q, x.psn, x.size, old, s.beat⟩).atomKick

/-- ATOMIC_COMPLETE: atomic `i` in progress has its old value; atomics to one 64-byte line run in arrival order (R274). An
old value that the host does not give is open (log entry 14). -/
def State.atomDone (s : State) (i : Nat) (a : Ans) : State :=
  match s.rma.atoms[i]? with
  | none => s
  | some x =>
    if x.coh ∨ !x.begun then s
    else
      match a with
      | .ok b => s.atomFinish x (leAt b 0 x.size)
      | _ => let (v, s) := s.pick (2 ^ (8 * x.size)); s.atomFinish x v

/-- A record older than 128 RTO_BEATS is freed (R274). -/
def State.recExpire (s : State) (g psn : Nat) : State :=
  let s := s.modRma (fun r => { r with recs := r.recs.filter (fun x =>
    !(x.q == g && x.psn == psn && decide (128 * s.rd F.RMA_CFG.RTO_BEATS < s.beat - x.beat))) })
  s.wr F.RMA_STATUS.ATOMIC_RECORDS s.rma.recs.length

/-- Handle a request packet by its kind. -/
def State.onRequest (s : State) (coh : Fn → Nat → Bool) (b : Bytes) : State :=
  match pkKind b with
  | 0x10 => s.onPut b
  | 0x11 => s.onPutImm b
  | 0x12 => s.onGetReq b
  | _ => s.onAtomicReq coh b

/-- A packet at an RMA unit: R268, and nothing while the unit is disabled (log entry 15). -/
def State.rmaPacket (s : State) (b : Bytes) (f : State → State) : State :=
  if rmaBad b then s.malformed else if !s.en uRMA then s.rmaStale else f s

/-- The bytes of a request packet (Tables 8.8 and 8.9). -/
def State.reqPacket (s : State) (g psn adist : Nat) (t : Todo) : Bytes :=
  let c := s.c g
  mkPacket (c.f Q.REMOTE_NODE) s.nodeId 1 (c.f Q.TC) t.kind (adist % 256) (leBytes 4 c.peerDqp ++ leBytes 3 psn ++ t.hdr) t.payload

/-- The number of PSNs that the window admits (R266). -/
def State.window (s : State) : Nat := 2 ^ s.rd F.RMA_CFG.WINDOW_LOG

/-- Send the packets that the window admits (R266). -/
def State.pump (s : State) (g : Nat) : Nat → State
  | 0 => s
  | n + 1 =>
    let c := s.c g
    match c.todo with
    | [] => s
    | t :: rest =>
      if diff24 (c.f Q.NEXT_PSN) (c.f Q.UNA_PSN) < s.window ∧ (c.f Q.STATE = qActive ∨ c.f Q.STATE = qStopping) then
        let psn := c.f Q.NEXT_PSN
        let adist := diff24 psn (c.f Q.UNA_PSN)
        let s := s.send (s.reqPacket g psn adist t)
        let s := match t.rdv with | some r => if t.kind = 0x42 then s.post (.rdvAnswer r) else s | none => s
        let s := s.modCtx g (fun c =>
          let tm := if c.win.isEmpty then s.beat else c.timer
          let c := c.put Q.NEXT_PSN (add24 psn 1)
          { c with todo := rest, win := c.win ++ [⟨psn, t, false, none, adist⟩], timer := tm })
        State.pump s g n
      else s

/-- Send again with its original contents (R279, R280). -/
def State.resend (s : State) (g : Nat) (u : Unans) : State := s.send (s.reqPacket g u.psn u.adist u.req)

/-- An entry has no packet left to send or to be answered. -/
def Ctx.allAnswered (c : Ctx) (idx : Nat) : Bool :=
  !(c.todo.any (fun t => t.ent == some idx)) && !(c.win.any (fun u => u.req.ent == some idx && !u.done))

/-- Bytes that an ended RMA entry moved (Table 7.14 LENGTH). -/
def entLength (e : Ent) : Nat :=
  match leAt e.b 0 1 with
  | 4 => leAt e.b 17 1
  | _ => leAt e.b 16 4

/-- Entries whose packets are all answered end (R278); a rendezvous SEND when its RTS is answered and its MSG_FIN has arrived
(R292). -/
def State.finishEnts (s : State) (g : Nat) : State :=
  s.modCtx g (fun c => { c with ents := c.ents.map (fun e =>
    let op := leAt e.b 0 1
    let moved := e.begun && e.fin.isNone && (e.data.isSome || op == 3 || op == 4) && c.allAnswered e.idx
    if moved && decide (1 ≤ op ∧ op ≤ 4) then { e with fin := some ⟨0, 0, entLength e, 0, c.f Q.REMOTE_NODE⟩ }
    else if op == 0x20 && e.begun && e.fin.isNone then
      if leAt e.b 16 4 ≤ c.f Q.EAGER_MAX then
        (if e.data.isSome && c.allAnswered e.idx then { e with fin := some ⟨0, 0, leAt e.b 16 4, 0, c.f Q.REMOTE_NODE⟩ } else e)
      else match e.taken with
        | some t =>
          if e.rtsDone then { e with fin := some ⟨0, if t = leAt e.b 16 4 then 0 else 0x10, t, 0, c.f Q.REMOTE_NODE⟩ } else e
        | none => e
    else e) })

/-- SRDV: rendezvous SENDs that await their MSG_FIN (Table 9.3). -/
def State.countSrdv (s : State) (g : Nat) : State :=
  let c := s.c g
  let n := (c.ents.filter (fun e => leAt e.b 0 1 == 0x20 && e.begun && e.fin.isNone && e.msn.isSome && e.taken.isNone &&
    decide (c.f Q.EAGER_MAX < leAt e.b 16 4))).length
  s.setQ g Q.SRDV (min 255 n)

/-- UNA_PSN moves past answered PSNs (R278): the counts and the timer start again. -/
def State.advance (s : State) (g : Nat) : State :=
  let s := s.modCtx g (fun c =>
    let k := (c.win.takeWhile (·.done)).length
    if k = 0 then c
    else
      let w := c.win.drop k
      let c := c.put Q.UNA_PSN (add24 (c.f Q.UNA_PSN) k)
      { c with win := w, retry := 0, busy := 0, timer := s.beat })
  ((s.finishEnts g).pump g 4096).post (.run g)

/-- Mark a PSN answered. -/
def State.markDone (s : State) (g psn : Nat) : State :=
  s.modCtx g (fun c => { c with win := c.win.map (fun u => if u.psn = psn then { u with done := true, resendAt := none } else u) })

/-- The context that an answer names, when it can answer something (R277, R282). -/
def State.answered (s : State) (b : Bytes) : Option Nat :=
  let g := pkDq b
  let c := s.c g
  if c.cached && pkDqgen b == c.f Q.QGEN && c.f Q.STATE != qFree then some g else none

/-- An unanswered PSN of a queue. -/
def State.unansOf (s : State) (g psn : Nat) : Option Unans := (s.c g).win.find? (fun u => u.psn == psn && !u.done)

/-- The kinds that an ACK answers (R278, R296). -/
def byAck (kind : Nat) : Bool := kind == 0x10 || kind == 0x11 || (decide (0x40 ≤ kind) && decide (kind ≤ 0x42))

/-- Handle an ACK (R278). One that answers nothing outstanding is stale (R282). -/
def State.onAck (s : State) (b : Bytes) : State :=
  match s.answered b with
  | none => s.rmaStale
  | some g =>
    let cum := pkPsn b
    let led := leNat (pkPayload b)
    let cov (p : Nat) : Bool :=
      decide (diff24 cum p < 2 ^ 23) || (decide (1 ≤ diff24 p cum ∧ diff24 p cum ≤ 256) && bit led (diff24 p cum - 1))
    if !((s.c g).win.any (fun u => byAck u.req.kind && !u.done && cov u.psn)) then s.rmaStale else
    let rts := ((s.c g).win.filter (fun u => u.req.kind == 0x41 && cov u.psn)).filterMap (fun u => u.req.ent)
    let s := s.modCtx g (fun c => { c with
      win := c.win.map (fun u => if byAck u.req.kind && cov u.psn then { u with done := true, resendAt := none } else u),
      ents := c.ents.map (fun e => if rts.contains e.idx then { e with rtsDone := true } else e) })
    s.advance g

/-- The connection gives up at a PSN (R281): its entry ends with a status, the queue enters ERROR. -/
def State.giveUp (s : State) (g psn st : Nat) : State :=
  let c := s.c g
  let idx := match c.win.find? (fun u => u.psn == psn) with | some u => u.req.ent | none => none
  let s := s.setQ g Q.CAUSE st
  let s := match idx with
    | some i => s.endEnt g i ⟨0, st, 0, 0, c.f Q.REMOTE_NODE⟩
    | none => s
  s.queueError g erTransport (idx.getD (c.f Q.TAKEN))

/-- Begun entries of some opcodes that have not ended end CONN_LOST (R283, R310). -/
def State.loseEnts (s : State) (g : Nat) (ok : Nat → Bool) : State :=
  s.modCtx g (fun c => { c with ents := c.ents.map (fun e =>
    if e.begun && e.fin.isNone && ok (leAt e.b 0 1) then { e with fin := some ⟨0, 8, 0, 0, c.f Q.REMOTE_NODE⟩ } else e) })

/-- A rendezvous SEND whose RTS is answered ends OK when its connection is lost: all its PSNs are answered (R281, R306). -/
def State.finishRts (s : State) (g : Nat) : State :=
  s.modCtx g (fun c => { c with ents := c.ents.map (fun e =>
    if leAt e.b 0 1 == 0x20 && e.begun && e.fin.isNone && e.rtsDone && e.taken.isNone then
      { e with fin := some ⟨0, 0, leAt e.b 16 4, 0, c.f Q.REMOTE_NODE⟩ } else e) })

/-- The queue entered ERROR: begun entries that move data end OK or CONN_LOST, and the requester state goes (R281). CAUSE of a
connection that the transport stopped stays what the transport set. -/
def State.connLost (s : State) (g : Nat) : State :=
  let s := (s.finishEnts g).finishRts g
  let lost := (s.c g).ents.any (fun e =>
    let op := leAt e.b 0 1
    e.begun && e.fin.isNone && decide ((1 ≤ op ∧ op ≤ 4) ∨ op = 0x20))
  let s := if lost && s.q g Q.REASON != erTransport then s.setQ g Q.CAUSE 8 else s
  State.countSrdv (s.modCtx g (fun c =>
    let es := c.ents.map (fun e =>
      let op := leAt e.b 0 1
      if e.begun && e.fin.isNone && decide ((1 ≤ op ∧ op ≤ 4) ∨ op = 0x20) then
        { e with fin := some ⟨0, 8, 0, 0, c.f Q.REMOTE_NODE⟩ } else e)
    let c := c.put Q.UNA_PSN (c.f Q.NEXT_PSN)
    { c with ents := es, win := [], todo := [], retry := 0, busy := 0 })) g

/-- Handle a NAK (R280, R281, Table 8.10). -/
def State.onNak (s : State) (b : Bytes) : State :=
  match s.answered b with
  | none => s.rmaStale
  | some g =>
    match s.unansOf g (pkPsn b) with
    | none => s.rmaStale
    | some u =>
      let c := s.c g
      match pkMod b with
      | 1 => (s.raise .RMA_REMOTE_VIOLATION g).giveUp g u.psn 1
      | 2 => s.giveUp g u.psn 2
      | 5 => s.giveUp g u.psn 3
      | 3 =>
        let bm := c.f Q.LIMITS / 16
        if bm ≠ 0 ∧ 16 * bm < c.busy + 1 then s.giveUp g u.psn 5
        else
          let at' := s.beat + s.rd F.RMA_CFG.BACKOFF_BEATS * 2 ^ min c.busy 6
          s.modCtx g (fun c => { c with
            busy := c.busy + 1,
            win := c.win.map (fun x => if x.psn = u.psn then { x with resendAt := some at' } else x) })
      | 4 => s.resend g u
      | _ => s.malformed

/-- Write bytes into the local data of an entry, at a position of the concatenation of its fragments (R238); bytes for key 0
are discarded (R267). -/
def State.landFrags (s : State) (key0 : List (Nat × Nat × Nat)) (pos : Nat) (b : Bytes) : State :=
  (key0.foldl (fun (a : State × Nat × Bytes) f =>
    let (s, base, rest) := a
    let here := min rest.length (base + f.2.1 - (pos + (b.length - rest.length)))
    if pos + (b.length - rest.length) < base ∨ base + f.2.1 ≤ pos + (b.length - rest.length) ∨ rest.isEmpty then (s, base + f.2.1, rest)
    else
      (if f.1 = 0 then s else s.place (f.1 / 256) (f.2.2 + (pos + (b.length - rest.length) - base)) (rest.take here),
        base + f.2.1, rest.drop here))
    (s, 0, b)).1

/-- A response's data lands (R278). -/
def State.landed (s : State) (g : Nat) (u : Unans) (x : Bytes) : State :=
  match u.req.land with
  | none => s
  | some (key, pos, _) =>
    match u.req.ent with
    | some i =>
      match s.ent g i with
      | some e => s.landFrags e.frags pos x
      | none => s
    | none => if key = 0 then s else s.place (key / 256) pos x

/-- Handle a GET_RESP or an ATOMIC_RESP (R278). -/
def State.onResp (s : State) (kind : Nat) (b : Bytes) : State :=
  match s.answered b with
  | none => s.rmaStale
  | some g =>
    match s.unansOf g (pkPsn b) with
    | none => s.rmaStale
    | some u =>
      if u.req.kind ≠ kind then s.rmaStale
      else
        let n := match u.req.land with | some l => l.2.2 | none => 0
        let x := (pkPayload b).take n
        let s := (s.landed g u x).markDone g u.psn
        let s := match u.req.rdv with | some r => s.post (.rdvAnswer r) | none => s
        s.advance g

/-- The connection timer expires (R279, R281). -/
def State.rtoExpire (s : State) (g : Nat) : State :=
  let c := s.c g
  match c.win.find? (fun u => !u.done) with
  | none => s
  | some u =>
    if s.beat < c.timer + s.rd F.RMA_CFG.RTO_BEATS * 2 ^ min c.retry 3 then s
    else if c.f Q.LIMITS % 16 < c.retry + 1 then (s.raise .RMA_RETRY_EXCEEDED g).giveUp g u.psn 4
    else
      let us := c.win.filter (fun u => !u.done && u.resendAt.isNone)
      let s := foldS us s (fun s u => (s.resend g u).inc F.RMA_COUNT.RETRANSMITS)
      s.modCtx g (fun c => { c with retry := c.retry + 1, timer := s.beat })

/-- A busy back-off ends (R280). -/
def State.backoffExpire (s : State) (g psn : Nat) : State :=
  match s.unansOf g psn with
  | none => s
  | some u =>
    match u.resendAt with
    | none => s
    | some t =>
      if s.beat < t then s
      else (s.resend g u).modCtx g (fun c => { c with win := c.win.map (fun x => if x.psn = psn then { x with resendAt := none } else x) })

/-- ACK_DELAY passes (R272). -/
def State.ackDelay (s : State) (g : Nat) : State := if (s.c g).ackDue ∧ s.q g Q.STATE ≠ qFree then s.ackNow g else s

/-- A region still has users (R259, R305). -/
def State.regionUsed (s : State) (idx : Nat) : Bool :=
  s.hif.ctx.any (fun e => e.2.ents.any (fun x => x.regs.contains idx)) || s.rma.serves.any (fun x => x.reg == idx) ||
  s.rma.atoms.any (fun x => x.reg == idx) || s.mat.rdvs.any (fun x => x.taken != 0 && x.post.key / 256 == idx) ||
  s.mat.mls.any (fun m => m.2.fromSlot.any (fun x => x.1.key / 256 == idx))

/-- End a region command (Table 8.21). -/
def State.regEnd (s : State) (f : Fn) (cmd code key : Nat) : State :=
  let i := fnInst f
  let s := s.modRma (fun r => { r with cmds := r.cmds.filter (fun k => fnInst k.fn != i) })
  let s := (s.wrI F.RMA_REG_RESULT.BUSY i 0 0).wrI F.RMA_REG_RESULT.CODE i 0 code
  (s.wrI F.RMA_REG_RESULT.CMD i 0 cmd).wrI F.RMA_REG_RESULT.KEY i 0 key

/-- End a region command that leaves no key to tell (Table 8.21): KEY is then open (log entry 95). -/
def State.regEndOpen (s : State) (f : Fn) (cmd code : Nat) : State :=
  let (k, s) := s.pick (2 ^ 32)
  s.regEnd f cmd code k

/-- The PF entry of a command's INDEX field (Table 8.20, R256); none out of range. -/
def State.regIndex (s : State) (f : Fn) (x : Nat) : Option Nat :=
  let pf := fnPf f
  let lg := s.rdI F.RMA_RT_BASE.LOG_LIMIT pf 0
  let e := match f with
    | .pf _ => if x / 2 ^ 22 = 0 then some x else none
    | .vf p v => if x < s.rdI F.RMA_VF_RMAP.RCOUNT p.val v.val then some (s.rdI F.RMA_VF_RMAP.RBASE p.val v.val + x) else none
  match e with
  | some i => if lg ≠ 0 ∧ i ≠ 0 ∧ i < 2 ^ lg then some (pf * 2 ^ 22 + i) else none
  | none => none

/-- Write a descriptor back to the Region Table. -/
def State.writeDesc (s : State) (idx : Nat) (d : Bytes) : State :=
  s.emit (.hostWrite (.pf (Fin.ofNat 4 (idx / 2 ^ 22))) (s.descAddr idx) d)

/-- REG_ENABLE is written (R258). -/
def State.regEnable (s : State) (f : Fn) (x : Nat) : State :=
  if !s.en uRMA then s.regEndOpen f 1 5
  else match s.regIndex f x with
    | none => s.regEndOpen f 1 3
    | some idx =>
      let s := s.modRma (fun r => { r with cmds := r.cmds ++ [⟨f, 1, idx⟩] })
      let s := (s.wrI F.RMA_REG_RESULT.BUSY (fnInst f) 0 1).wrI F.RMA_REG_RESULT.CMD (fnInst f) 0 1
      s.readHost (.pf (Fin.ofNat 4 (idx / 2 ^ 22))) (s.descAddr idx) 64

/-- The S fields of a region descriptor are within Table 8.1. -/
def descOk (d : Bytes) : Bool :=
  let r : Region := ⟨d, [], [], false⟩
  let acc := r.f RG.ACCESS
  let contig := bit acc 5
  decide (1 ≤ r.f RG.LENGTH) && decide (r.f RG.LENGTH ≤ 2 ^ 48) && decide (acc < 64) &&
  (if contig then r.f RG.FIRST == 0 && r.f RG.SHIFT == 0
   else r.f RG.ADDR % 8 == 0 && decide (12 ≤ r.f RG.SHIFT) && decide (r.f RG.SHIFT ≤ 30) && decide (r.f RG.FIRST < 2 ^ r.f RG.SHIFT)) &&
  leNat ((d.drop 28).take 32) == 0 && r.f RG.STATE == 0

/-- A PD is one that a function may give (R256). -/
def State.pdOk (s : State) (f : Fn) (pd : Nat) : Bool :=
  match f with
  | .pf _ => true
  | .vf p v =>
    let b := s.rdI F.RMA_VF_RMAP.PDBASE p.val v.val
    decide (b ≤ pd) && decide (pd < b + 2 ^ s.rdI F.RMA_VF_RMAP.PDLOG p.val v.val)

/-- The descriptor read of a REG_ENABLE completes (R258). -/
def State.regDescDone (s : State) (f : Fn) (a : Ans) : State :=
  match s.rma.cmds.find? (fun k => fnInst k.fn == fnInst f && k.cmd == 1) with
  | none => s
  | some k =>
    match a with
    | .ok d0 =>
      let d := (d0 ++ List.replicate 64 0).take 64
      let owner := match f with | .pf _ => 0 | .vf _ v => v.val + 1
      let pd := leAt d 20 2
      if (tabGet s.rma.regions k.idx).isSome ∨ !descOk d ∨ !s.pdOk f pd then s.regEnd f 1 1 (k.idx * 256 + leAt d 26 1)
      else
        let d := descPut (descPut d RG.OWNER owner) RG.STATE 1
        let s := s.modRma (fun r => { r with regions := tabPut r.regions k.idx ⟨d, [], [], false⟩ })
        (s.writeDesc k.idx d).regEnd f 1 0 (k.idx * 256 + leAt d 26 1)
    | _ => (s.raise .HIF_DMA_ERR).regEndOpen f 1 4

/-- A CLOSING region without users becomes FREE (R259). -/
def State.regClose (s : State) (f : Fn) : State :=
  match s.rma.cmds.find? (fun k => fnInst k.fn == fnInst f && k.cmd == 2) with
  | none => s
  | some k =>
    if s.regionUsed k.idx then s
    else
      let r := s.region k.idx
      let g := (r.f RG.GEN + 1) % 256
      let d := descPut (descPut r.d RG.GEN g) RG.STATE 0
      let s := s.modRma (fun x => { x with regions := tabDel x.regions k.idx })
      let s := s.modHif (fun h => { h with reads := h.reads.map (fun r => match r.job with
        | .page i _ => if i = k.idx then { r with job := .gone } else r
        | _ => r) })
      (s.writeDesc k.idx d).regEnd f 2 0 (k.idx * 256 + g)

/-- REG_DISABLE is written (R259): CLOSING at once, and FREE at once when nothing uses the region. -/
def State.regDisable (s : State) (f : Fn) (x : Nat) : State :=
  if !s.en uRMA then s.regEndOpen f 2 5
  else match s.regIndex f x with
    | none => s.regEndOpen f 2 3
    | some idx =>
      match tabGet s.rma.regions idx with
      | none => s.regEndOpen f 2 2
      | some r =>
        if r.f RG.STATE ≠ 1 then s.regEnd f 2 2 (idx * 256 + r.f RG.GEN)
        else
          let d := descPut r.d RG.STATE 2
          let s := s.modRma (fun y => { y with regions := tabPut y.regions idx { r with d := d }, cmds := y.cmds ++ [⟨f, 2, idx⟩] })
          let s := (s.wrI F.RMA_REG_RESULT.BUSY (fnInst f) 0 1).wrI F.RMA_REG_RESULT.CMD (fnInst f) 0 2
          (s.writeDesc idx d).regClose f

/-- The transport part of a descriptor is within Table 8.3 (R262, R256). -/
def State.transportOk (s : State) (f : Fn) (b : Bytes) : Bool :=
  leAt b 128 4 != s.nodeId && decide (leAt b 128 4 < 2 ^ 17) && leAt b 132 3 < 2 ^ 20 && decide (leAt b 139 1 < 16) &&
  leAt b 143 1 % 16 != 0 && s.pdOk f (leAt b 20 2) && (bit (leAt b 139 1) 3 || leNat ((b.drop 224).take 32) == 0)

/-- The device's fields of the transport part at Q_CREATE (R262, R288). -/
def transportInit (b : Bytes) (qgen : Nat) : Bytes :=
  let sq := leAt b 136 3
  let b := putBytes b 144 (leBytes 3 sq ++ leBytes 1 qgen ++ leBytes 3 sq ++ leBytes 1 0 ++
    leBytes 3 ((leAt b 140 3 + 2 ^ 24 - 1) % 2 ^ 24) ++ leBytes 1 0 ++ leBytes 4 0 ++ leBytes 32 0 ++ leBytes 32 0)
  if bit (leAt b 139 1) 3 then putBytes b 232 (leBytes 24 0) else b

/-- RMA's part of a queue that is freed: its records, atomics, serves and parked headers (R254, R274). -/
def State.rmaFreed (s : State) (g : Nat) : State :=
  let s := s.modRma (fun r => { r with recs := r.recs.filter (fun x => x.q != g), serves := r.serves.filter (fun x => x.q != g),
                                       atoms := r.atoms.filter (fun x => x.q != g), parked := r.parked.filter (fun x => x.1 != g) })
  ((s.wr F.RMA_STATUS.ATOMIC_RECORDS s.rma.recs.length).wr F.RMA_STATUS.MISS_OCC s.rma.parked.length).atomKick

/-- A unit reset of RMA (R283). -/
def State.rmaReset (s : State) : State :=
  let s := s.modRma (fun r => { r with parked := [], recs := [], atoms := [], serves := [] })
  let s := (s.wr F.RMA_STATUS.ATOMIC_RECORDS 0).wr F.RMA_STATUS.MISS_OCC 0
  foldS (s.hif.ctx.map (·.1)) s (fun s g =>
    let st := s.q g Q.STATE
    if st = qOff then s.modCtx g (fun c => { c.put Q.UNA_PSN (c.f Q.NEXT_PSN) with todo := [], win := [], retry := 0, busy := 0 })
    else if st = qActive ∨ st = qStopping then
      ((s.loseEnts g (fun op => decide (1 ≤ op ∧ op ≤ 4) || op == 0x20)).setQ g Q.CAUSE 8).queueError g erTransport (s.q g Q.TAKEN)
    else s)

/-- The once-a-Beat faults may be logged again. -/
def State.rmaBeat (s : State) : State := s.modRma (fun r => { r with missLogged := false, atomLogged := false })

end Sys2Proof.Machine
end

