-- ==== Sys2Proof/Machine/Mat.lean ====
section
/-! DEFINITION. Message matching (09_message_matching.md): match lists, the steps of Table 9.7, restoring order, matching,
spilling, delivery, rendezvous. -/

namespace Sys2Proof.Machine

def State.modMat (s : State) (f : Mat → Mat) : State := { s with mat := f s.mat }

/-- Fields of an ML descriptor (Table 9.1). -/
abbrev ML.PD : Nat × Nat := (0, 2)
abbrev ML.CQ : Nat × Nat := (4, 4)
abbrev ML.ONCHIP : Nat × Nat := (8, 2)
abbrev ML.PLOG : Nat × Nat := (10, 1)
abbrev ML.ULOG : Nat × Nat := (11, 1)
abbrev ML.SPILL_KEY : Nat × Nat := (12, 4)
abbrev ML.SPILL_OFF : Nat × Nat := (16, 8)
abbrev ML.UBUF_KEY : Nat × Nat := (24, 4)
abbrev ML.SLOT_SIZE : Nat × Nat := (28, 2)
abbrev ML.SLOT_COUNT : Nat × Nat := (30, 2)
abbrev ML.UBUF_OFF : Nat × Nat := (32, 8)

def Ml.f (m : Ml) (q : Nat × Nat) : Nat := leAt m.d q.1 q.2

/-- Bytes of a spill ring of 2^log entries; none for 0. -/
def ringEntries (log : Nat) : Nat := if log = 0 then 0 else 2 ^ log

/-- Status codes (Table 9.10). -/
abbrev stLocal : Nat := 0x06
abbrev stTrunc : Nat := 0x10
abbrev stLost : Nat := 0x11
abbrev stRdvFailed : Nat := 0x12
abbrev stCancelled : Nat := 0x13
abbrev stMlReset : Nat := 0x14
abbrev stKeyStale : Nat := 0x15
abbrev stListFull : Nat := 0x20
abbrev stMlBroken : Nat := 0x21
abbrev stNotFound : Nat := 0x22
abbrev stConnBroken : Nat := 0x23

/-- Reads of the slots of an ML are gone with what waited for them. -/
def State.dropSlotReads (s : State) (m : Nat) : State := s.modHif (fun h => { h with reads := h.reads.filter (fun r => r.job != .slot m) })

def State.ml (s : State) (m : Nat) : Option Ml := tabGet s.mat.mls m
def State.modMl (s : State) (m : Nat) (f : Ml → Ml) : State := s.modMat (fun x => { x with mls := tabMod x.mls m f })

/-- Free bytes of a Joiner engine's local store for tree slots and MLs (R197, R286). -/
def State.engineFree (s : State) (e : Nat) : Nat :=
  let mls := s.mat.mls.foldl (fun a m => if m.2.engine = e then a + 64 * m.2.f ML.ONCHIP else a) 0
  let trees := s.mct.trees.foldl (fun a t =>
    if s.rd F.MCT_TREE_STATUS.ENGINE t.1 = e then a + (leAt t.2.d 3 1 + 2) * leAt t.2.d 4 2 * 4096 else a) 0
  229376 - (mls + trees)

/-- The busy share of an engine in a function, as the placement loop computed it last (R398). -/
def State.busyShare (s : State) (k e : Nat) : Nat := ((s.pwr.busy.find? (fun b => b.1 == k && b.2.1 == e)).map (fun b => b.2.2)).getD 0

/-- The least busy of some engines in a function (R398); equal ones are open (log entry 16). -/
def State.leastBusy (s : State) (k : Nat) (es : List Nat) : Option Nat × State :=
  let best := es.filter (fun e => es.all (fun x => decide (s.busyShare k e ≤ s.busyShare k x)))
  if best.isEmpty then (none, s) else let (i, s) := s.pick best.length; (best[i]?, s)

/-- The engine of a function with the most free space, if that is at least `need` (R197, R286), and of equal ones the least busy (R398;
log entry 16). -/
def State.placeOn (s : State) (k need : Nat) : Option Nat × State :=
  let es := s.enginesFor k
  let top := es.foldl (fun a e => max a (s.engineFree e)) 0
  if top < need then (none, s) else s.leastBusy k (es.filter (fun e => s.engineFree e == top))

/-- MAT_ML_STATUS of an ML (Table 9.19). -/
def State.mlStatus (s : State) (m : Nat) : Nat :=
  match s.ml m with
  | none => 0
  | some x =>
    let live (l : List LEnt) := (l.filter (fun e => !e.consumed)).length
    min (2 ^ 20 - 1) (x.posted.length + live x.postedSpill) * 2 ^ 44 + min (2 ^ 20 - 1) (x.unexp.length + live x.unexpSpill) * 2 ^ 24 +
      min 2047 x.held.length * 2 ^ 13 + x.engine * 32 + (if x.broken then 2 else 1)

/-- A queue that is not FREE names an ML in its matching part (R287). -/
def State.mlBound (s : State) (m : Nat) : Bool :=
  s.hif.ctx.any (fun e => e.2.f Q.STATE != qFree && bit (e.2.f Q.RIGHTS) 3 && e.2.f Q.ML % 4096 == m)

/-- The key context of an ML's own accesses. -/
def Ml.keyCtx (m : Ml) : KeyCtx := ⟨m.f ML.PD, m.fn, 0, 0, 0⟩

/-- A receive completion (R307). -/
def State.recvCqe (s : State) (m : Ml) (post : LEnt) (msg : Option LEnt) (st len : Nat) : State :=
  let cq := s.qBase m.fn + m.f ML.CQ
  match msg with
  | some e => s.complete ⟨cq, e.tag, s.localOf m.fn e.user, st, 0x21, true, len, e.peer, post.user, 0, 0, none⟩
  | none => s.complete ⟨cq, 0, 0, st, 0x21, true, 0, 0, post.user, 0, 0, none⟩

/-- The posted entries of an ML, oldest first. -/
def Ml.allPosted (m : Ml) : List LEnt := m.posted ++ m.postedSpill.filter (fun e => !e.consumed)

/-- RECVs and CANCELs that an ML has not processed end with a status of their own (Table 9.2). -/
def State.endEvents (s : State) (x : Ml) (st : Nat) : State :=
  foldS x.events s (fun s e => match e with
    | .recv q i => (s.endEnt q i ⟨0, st, 0, 0, 0⟩).post (.run q)
    | .cancel q i => (s.endEnt q i ⟨0, st, 0, 0, 0⟩).post (.run q)
    | .header _ _ => s)

/-- An ML becomes BROKEN (Table 9.2). -/
def State.mlBreak (s : State) (m : Nat) : State :=
  match s.ml m with
  | none => s
  | some x =>
    if x.broken then s
    else
      let s := foldS (x.allPosted ++ x.fromSlot.map (·.1)) s (fun s p => s.recvCqe x p none stMlBroken 0)
      let s := s.endEvents x stMlBroken
      let s := s.modMl m (fun x =>
        { x with broken := true, posted := [], postedSpill := [], fromSlot := [], events := [], reading := none, waits := false })
      (s.dropSlotReads m).raise .MAT_SPILL_ERR

/-- End an ML command (Table 9.17). -/
def State.mlEnd (s : State) (f : Fn) (cmd code ml : Nat) : State :=
  let i := fnInst f
  let s := s.modMat (fun x => { x with cmds := x.cmds.filter (fun k => fnInst k.fn != i) })
  let s := (s.wrI F.MAT_ML_RESULT.BUSY i 0 0).wrI F.MAT_ML_RESULT.CODE i 0 code
  let s := (s.wrI F.MAT_ML_RESULT.CMD i 0 cmd).wrI F.MAT_ML_RESULT.ML i 0 ml
  if cmd = 1 ∧ (code = 1 ∨ code = 2 ∨ code = 6 ∨ code = 7) then s.raise .MAT_ML_CREATE_FAIL else s

/-- End an ML_CREATE that took no index: ML is then open (log entry 95). -/
def State.mlEndOpen (s : State) (f : Fn) (code : Nat) : State :=
  let (m, s) := s.pick 4096
  s.mlEnd f 1 code m

/-- ML_CREATE takes the lowest FREE ML and reads its descriptor (R284, R285). -/
def State.mlCreate (s : State) (f : Fn) : State :=
  if !s.en 11 then s.mlEndOpen f 5
  else
    match (List.range 4096).find? (fun m => (s.ml m).isNone && !(s.mat.cmds.any (fun k => k.ml == m))) with
    | none => s.mlEndOpen f 7
    | some m =>
      let s := s.modMat (fun x => { x with cmds := x.cmds ++ [⟨f, m⟩] })
      let i := fnInst f
      let s := ((s.wrI F.MAT_ML_RESULT.BUSY i 0 1).wrI F.MAT_ML_RESULT.CMD i 0 1).wrI F.MAT_ML_RESULT.ML i 0 m
      s.readHost f (s.rdI F.MAT_ML_ADDR.ADDR i 0 * 64) 64

/-- The fields of an ML descriptor are within Table 9.1. -/
def mlDescOk (d : Bytes) (qcount : Nat) : Bool :=
  let g (q : Nat × Nat) : Nat := leAt d q.1 q.2
  let logOk (l : Nat) : Bool := l == 0 || (decide (6 ≤ l) && decide (l ≤ 20))
  let ub := g ML.UBUF_KEY
  let ss := g ML.SLOT_SIZE
  leAt d 2 2 == 0 && leNat ((d.drop 40).take 24) == 0 && decide (g ML.CQ < qcount) && decide (g ML.CQ < 2 ^ 20) &&
  decide (16 ≤ g ML.ONCHIP) && decide (g ML.ONCHIP ≤ 3584) && logOk (g ML.PLOG) && logOk (g ML.ULOG) &&
  (g ML.SPILL_KEY != 0 || (g ML.PLOG == 0 && g ML.ULOG == 0)) && g ML.SPILL_OFF % 64 == 0 &&
  (if ub = 0 then ss == 0 && g ML.SLOT_COUNT == 0
   else ss % 64 == 0 && decide (64 ≤ ss) && decide (ss ≤ 4096) && decide (1 ≤ g ML.SLOT_COUNT))

/-- The accesses of an ML to its own regions (R285): the spill rings and the eager slots. -/
def Ml.ranges (m : Ml) : List (Nat × Nat × Nat) :=
  [(m.f ML.SPILL_KEY, 64 * (ringEntries (m.f ML.PLOG) + ringEntries (m.f ML.ULOG)), m.f ML.SPILL_OFF),
   (m.f ML.UBUF_KEY, m.f ML.SLOT_SIZE * m.f ML.SLOT_COUNT, m.f ML.UBUF_OFF)].filter (fun p => p.1 != 0)

/-- The page entries that an ML's accesses to its own regions need and the region cache does not hold (R260). -/
def State.mlPages (s : State) (m : Ml) : List (Nat × Nat) := s.partsDue .lwrite m.keyCtx m.ranges

/-- The ML of a descriptor. -/
def Ml.of (f : Fn) (d : Bytes) : Ml := ⟨f, d, 0, false, [], [], [], [], [], [], [], none, 0, 0, [], false⟩

/-- An ML_CREATE checks its keys, once the page entries are there, and takes its place (R285, R286). -/
def State.mlCheck (s : State) (i : Nat) (d : Bytes) : State :=
  let s := s.modMat (fun x => { x with checking := x.checking.filter (fun c => c.1 != i) })
  match s.mat.cmds.find? (fun k => k.ml == i) with
  | none => s
  | some k =>
    let m := Ml.of k.fn d
    match s.mlPages m with
    | [] =>
      let (ok, s) := m.ranges.foldl (fun (a : Bool × State) p =>
        if !a.1 then a else match a.2.keyUse .lwrite p.1 p.2.2 p.2.1 m.keyCtx with
          | (.ok _, s) => (true, s)
          | (.error _, s) => (false, s)) (true, s)
      if !ok then s.mlEnd k.fn 1 1 i
      else
        match s.placeOn 0 (64 * m.f ML.ONCHIP) with
        | (none, s) => s.mlEnd k.fn 1 2 i
        | (some e, s) => (s.modMat (fun x => { x with mls := tabPut x.mls i { m with engine := e } })).mlEnd k.fn 1 0 i
    | ps => (s.modMat (fun x => { x with checking := x.checking ++ [(i, d)] })).pagesAsk ps

/-- The descriptor read of an ML_CREATE completes (R285). -/
def State.mlDescDone (s : State) (f : Fn) (a : Ans) : State :=
  match s.mat.cmds.find? (fun k => fnInst k.fn == fnInst f && !(s.mat.checking.any (fun c => c.1 == k.ml))) with
  | none => s
  | some k =>
    match a with
    | .ok d0 =>
      let d := (d0 ++ List.replicate 64 0).take 64
      if mlDescOk d (s.qCount f) && s.pdOk f ((Ml.of f d).f ML.PD) then s.mlCheck k.ml d else s.mlEnd f 1 1 k.ml
    | _ => (s.raise .HIF_DMA_ERR).mlEnd f 1 6 k.ml

/-- ML_DESTROY is written (Table 9.2). -/
def State.mlDestroy (s : State) (f : Fn) (m : Nat) : State :=
  if !s.en 11 then s.mlEnd f 2 5 m
  else
    match s.ml m with
    | none => s.mlEnd f 2 4 m
    | some x =>
      if fnInst x.fn ≠ fnInst f then s.mlEnd f 2 4 m
      else if s.mlBound m then s.mlEnd f 2 3 m
      else
        let s := (foldS (x.allPosted ++ x.fromSlot.map (·.1)) s (fun s p => s.recvCqe x p none stMlReset 0)).endEvents x stMlReset
        let s := (s.modMat (fun y => { y with mls := tabDel y.mls m })).dropSlotReads m
        s.mlEnd f 2 0 m

/-- The matching part of a descriptor (R288). -/
def State.matchOk (s : State) (f : Fn) (b : Bytes) : Bool :=
  !bit (leAt b 139 1) 3 ||
  (decide (leAt b 224 2 < 4096) && decide (leAt b 226 2 ≤ 4088) &&
    (match s.ml (leAt b 224 2) with
     | some m => !m.broken && fnInst m.fn == fnInst f && m.f ML.PD == leAt b 20 2
     | none => false))

/-- The block of a SEND, RECV or CANCEL breaks R291 or R293. -/
def State.matBlockBad (s : State) (g : Nat) (b : Bytes) : Bool :=
  let c := s.c g
  let op := leAt b 0 1
  let fl := leAt b 1 1
  let o := b.drop 16
  let mlBad : Bool := match s.ml (leAt o 0 2) with
    | some m => fnInst m.fn != fnInst (s.ownerOf g) || m.f ML.PD != c.f Q.PD
    | none => true
  match op with
  | 0x20 => !bit (c.f Q.RIGHTS) 3 || 2 ^ 31 ≤ leAt o 0 4 || leNat ((o.drop 24).take 24) != 0 ||
      ((bit fl 2 || bit fl 3) && decide (c.f Q.EAGER_MAX < leAt o 0 4))
  | 0x21 => mlBad || 2 ≤ leAt o 2 1 || leAt o 3 1 != 0 || (bit (leAt o 2 1) 0 && leAt o 4 4 != 0) || 2 ^ 31 ≤ leAt o 24 4 || leAt o 44 4 != 0
  | _ => mlBad || leAt o 2 2 != 0 || leNat ((o.drop 8).take 40) != 0

/-- A packet of this chapter breaks R296. -/
def matBad (b : Bytes) : Bool :=
  let pw := pkPwords b
  let p := pkPayload b
  let len := leAt p 0 4
  bits (pkFrame b) 26 6 != 0 || bits (pkDqp b) 20 4 != 0 || leAt b 19 1 != 0 ||
  (match pkKind b with
  | 0x40 => leAt b 23 1 != 0 || (pkWhole b && (leAt p 4 4 != 0 || 4088 < len ||
      (if len ≤ 24 then pkLong b || pw != (8 + len + 7) / 8 else !pkLong b || pw != max 8 ((8 + len + 7) / 8))))
  | 0x41 => leAt b 23 1 != 0 || pkLong b || pw != 2
  | 0x42 => leNat ((b.drop 20).take 12) != 0 || pkLong b || pw != 1 || leAt p 7 1 != 0
  | _ => true)

/-- The bytes of a list entry (Table 9.9). -/
def LEnt.bytes (e : LEnt) : Bytes :=
  leBytes 1 (e.kind + 128 * b2n e.consumed) ++ leBytes 1 (b2n e.anySrc + 2 * b2n e.lost) ++ leBytes 2 (e.slot.getD 0xFFFF) ++
  leBytes 4 e.rank ++ leBytes 8 e.tag ++ leBytes 8 e.ign ++ leBytes 4 e.len ++ leBytes 4 e.key ++ leBytes 8 e.off ++
  leBytes 4 e.user ++ leBytes 3 e.msn ++ leBytes 1 0 ++ leBytes 4 e.peer ++ leBytes 4 e.postq ++ leBytes 8 0

/-- A header as a list entry. -/
def headerEnt (s : State) (g : Nat) (b : Bytes) : LEnt :=
  let p := pkPayload b
  let rts := pkKind b == 0x41
  ⟨if rts then 3 else 2, false, false, none, s.q g Q.SRC_RANK, leAt b 24 8, 0, leAt p 0 4, if rts then leAt p 4 4 else 0,
   if rts then leAt p 8 8 else 0, g, leAt b 20 3, pkSrc b, 0, false⟩

/-- The ring address of spill entry `i` of a list, as an offset in the spill region (R302). -/
def Ml.spillOff (m : Ml) (posted : Bool) (i : Nat) : Nat :=
  let np := ringEntries (m.f ML.PLOG)
  let nu := ringEntries (m.f ML.ULOG)
  m.f ML.SPILL_OFF + (if posted then 64 * ((m.pHead + i) % max 1 np) else 64 * np + 64 * ((m.uHead + i) % max 1 nu))

/-- Write to an ML's own region; a failed key check breaks the ML (Table 9.2). -/
def State.mlWrite (s : State) (m : Nat) (key off : Nat) (b : Bytes) : State :=
  match s.ml m with
  | none => s
  | some x =>
    match (s.regionRead key).2.keyUse .lwrite key off b.length x.keyCtx with
    | (.ok idx, s) => s.place idx off b
    | (.error _, s) => s.mlBreak m

/-- Read from an ML's own region. -/
def State.mlRead (s : State) (m : Nat) (key off len : Nat) : State :=
  match s.ml m with
  | none => s
  | some x =>
    match (s.regionRead key).2.keyUse .lwrite key off len x.keyCtx with
    | (.ok idx, s) => s.fetch idx off len
    | (.error _, s) => s.mlBreak m

/-- Headers that wait as events hold their reservations (R298). -/
def Ml.waiting (m : Ml) : Nat := (m.events.filter (fun e => match e with | .header _ _ => true | _ => false)).length
def Ml.onchip (m : Ml) : Nat := m.posted.length + m.unexp.length + m.held.length
def Ml.entryRoom (m : Ml) : Bool := decide (m.onchip + m.waiting < m.f ML.ONCHIP)
def Ml.spillRoom (m : Ml) : Bool :=
  decide (m.onchip + m.waiting + m.unexpSpill.length < m.f ML.ONCHIP + ringEntries (m.f ML.ULOG))

/-- A header needs an eager slot. -/
def needsSlot (m : Ml) (e : LEnt) : Bool := e.kind == 2 && decide (1 ≤ e.len) && decide (e.len ≤ m.f ML.SLOT_SIZE)

/-- A free slot of an ML; which one is open (log entry 16). -/
def State.takeSlot (s : State) (m : Nat) (x : Ml) : Option Nat × State :=
  let free := (List.range (x.f ML.SLOT_COUNT)).filter (fun k => !x.slots.contains k)
  if free.isEmpty then (none, s)
  else
    let (i, s) := s.pick free.length
    match free[i]? with
    | some k => (some k, s.modMl m (fun x => { x with slots := x.slots ++ [k] }))
    | none => (none, s)

def State.freeSlotOf (s : State) (m : Nat) (k : Option Nat) : State :=
  match k with
  | some k => s.modMl m (fun x => { x with slots := x.slots.erase k })
  | none => s

/-- A header is refused for room (Table 9.7 step 9). -/
def State.noRoom (s : State) (g m psn detail : Nat) : State :=
  let s := (s.nak g psn nkBusy detail).inc F.MAT_COUNT.BUSY_SENT
  if s.mat.fullLogged then s else (s.modMat (fun x => { x with fullLogged := true })).raise .MAT_LIST_FULL m

/-- Held headers of a connection that carry the new EXP_MSN enter matching in turn (R300). -/
def State.release (s : State) (g m : Nat) : Nat → State
  | 0 => s
  | n + 1 =>
    let exp := s.q g Q.EXP_MSN
    match s.ml m with
    | none => s
    | some x =>
      match x.held.find? (fun e => e.user == g && e.msn == exp) with
      | none => s
      | some e =>
        let s := s.modMl m (fun x => { x with held := x.held.erase e, events := x.events ++ [.header { e with kind := if e.kind = 5 then 3 else 2 } none] })
        let s := (s.setQ g Q.EXP_MSN (add24 exp 1)).setQ g Q.HELD (s.q g Q.HELD - 1)
        State.release s g m n

/-- A header that passes step 9 is settled, and enters matching or is held (Table 9.7 step 10, R300). A held entry keeps
its own kind beside KIND 4: 4 for an eager message, 5 for a RTS. -/
def State.admitHeader (s : State) (g d m : Nat) (e : LEnt) (data : Bytes) (inOrder : Bool) : State :=
  let s := (s.settlePsn g d).ackLater g
  if inOrder then
    let s := s.modMl m (fun x => { x with events := x.events ++ [.header e (if e.kind = 2 then some data else none)] })
    let s := s.setQ g Q.EXP_MSN (add24 e.msn 1)
    s.release g m 256
  else
    let lost := e.kind == 2 && e.slot.isNone && decide (1 ≤ e.len)
    let s := if lost then s.raise .MAT_EAGER_LOST m else s
    let s := s.modMl m (fun x => { x with held := x.held ++ [{ e with kind := if e.kind = 3 then 5 else 4, lost := lost }] })
    let s := s.setQ g Q.HELD (s.q g Q.HELD + 1)
    match e.slot, s.ml m with
    | some k, some x => s.mlWrite m (x.f ML.UBUF_KEY) (x.f ML.UBUF_OFF + k * x.f ML.SLOT_SIZE) data
    | _, _ => s

/-- A MSG_FIN settles the FIN condition of its SEND (R304). -/
def State.onFin (s : State) (g d : Nat) (b : Bytes) : State :=
  let s := (s.settlePsn g d).ackLater g
  let p := pkPayload b
  let msn := leAt p 4 3
  let hit (e : Ent) : Bool :=
    leAt e.b 0 1 == 0x20 && e.begun && e.fin.isNone && e.msn == some msn && e.taken.isNone && decide (s.q g Q.EAGER_MAX < leAt e.b 16 4)
  if (s.c g).ents.any hit then
    let s := s.modCtx g (fun c => { c with ents := c.ents.map (fun e => if hit e then { e with taken := some (leAt p 0 4) } else e) })
    (s.countSrdv g |>.finishEnts g).post (.run g)
  else s.inc F.MAT_COUNT.STALE

/-- The queue's ML is not READY (Table 9.7 step 7, R284, R309). -/
def State.notReady (s : State) (g psn : Nat) : State :=
  let s := (s.nak g psn nkConn 0).setQ g Q.CAUSE stMlBroken
  s.queueError g erTransport (s.q g Q.TAKEN)

/-- Handle a MSG_EAGER, MSG_RTS or MSG_FIN (R297, Table 9.7). -/
def State.onMessage (s : State) (b : Bytes) : State :=
  if matBad b then s.malformed else
  match s.targetPre b with
  | .stop s => s
  | .dup s g => s.ackNow g
  | .new s g d =>
    let psn := pkPsn b
    if !bit (s.q g Q.RIGHTS) 3 then s.violation g d 5 b
    else if !pkWhole b then s.nak g psn nkResend 0
    else
      let m := s.q g Q.ML % 4096
      match s.ml m with
      | none => s.notReady g psn
      | some x =>
        if x.broken ∨ fnInst x.fn ≠ fnInst (s.ownerOf g) ∨ !s.en 11 then s.notReady g psn
        else if pkKind b = 0x42 then s.onFin g d b
        else
          let e := headerEnt s g b
          let exp := s.q g Q.EXP_MSN
          let dm := diff24 e.msn exp
          if 255 < dm then
            let s := (s.nak g psn nkConn 0).setQ g Q.CAUSE stConnBroken
            (s.raiseOcc { occ .MAT_MSN_BAD g with info := e.msn + exp * 2 ^ 24, init := pkSrc b, remote := true }).queueError g
              erTransport (s.q g Q.TAKEN)
          else
            let full := needsSlot x e && decide (x.f ML.SLOT_COUNT ≤ x.slots.length)
            if dm = 0 ∧ (!x.spillRoom || full) then s.noRoom g m psn 5
            else if dm ≠ 0 ∧ (x.f ML.ONCHIP ≤ 2 * x.held.length ∨ !x.entryRoom || full) then s.noRoom g m psn 6
            else
              let (k, s) := if needsSlot x e then s.takeSlot m x else (none, s)
              s.admitHeader g d m { e with slot := k } ((pkPayload b).drop 8 |>.take e.len) (dm == 0)

/-- A tag and rank are accepted by a posted entry (R301). -/
def accepts (p : LEnt) (tag rank : Nat) : Bool :=
  (List.range 64).all (fun i => bit p.ign i || bit tag i == bit p.tag i) && (p.anySrc || p.rank == rank)

/-- The CQ of an ML's receive completions. -/
def State.mlCq (s : State) (m : Ml) : Nat := s.qBase m.fn + m.f ML.CQ

/-- A receive completion can be produced: written or parked (R250), or its CQ is in OVERFLOW, for which this chapter has no refusal
(log entry 116). -/
def State.recvRoom (s : State) (m : Ml) : Bool := s.q (s.mlCq m) Q.CQ_STATE == cqOver || s.parkRoom (s.mlCq m)

/-- RRDV: rendezvous receives in progress on a queue (Table 9.3). -/
def State.countRrdv (s : State) (g : Nat) : State := s.setQ g Q.RRDV (min 255 (s.mat.rdvs.filter (fun r => r.q == g)).length)

/-- A transfer is over (R304): its MSG_FIN joins the packets of its queue, which its window admits. -/
def State.rdvEnd (s : State) (r : Rdv) : State :=
  let s := s.modMat (fun x => { x with rdvs := x.rdvs.map (fun y => if y.id = r.id then { r with over' := true } else y) })
  let s := s.modCtx r.q (fun c => { c with todo := c.todo ++
    [⟨0x42, none, some r.id, leBytes 13 0, leBytes 4 r.taken ++ leBytes 3 r.rts.msn ++ leBytes 1 0, none⟩] })
  s.pump r.q 4096

/-- A receive whose MSG_FIN was sent completes as soon as its completion can be written or parked; RRDV falls (R304, R250). -/
def State.rdvFinish (s : State) (r : Rdv) : State :=
  let done (s : State) : State := (s.modMat (fun x => { x with rdvs := x.rdvs.filter (fun y => y.id != r.id) })).countRrdv r.q
  match s.ml r.ml with
  | some m => if s.recvRoom m then done (s.recvCqe m r.post (some r.rts) r.st r.taken) else s
  | none => done s

/-- The receives that may complete. -/
def State.rdvDone (s : State) : State := foldS (s.mat.rdvs.filter (·.sent)) s State.rdvFinish

/-- The landing check of a delivery: nothing to check for no bytes; else the status it fails with (R305). -/
def State.landCheck (s : State) (m : Ml) (p : LEnt) (n : Nat) : Option Nat × State :=
  if n = 0 then (none, s)
  else match s.keyUse .lwrite p.key p.off n m.keyCtx with
    | (.ok _, s) => (none, s)
    | (.error c, s) => (some (if c = 1 ∨ c = 2 then stKeyStale else stLocal), s)

/-- The connection on which a header arrived is still there. -/
def State.sameConn (s : State) (e : LEnt) : Bool :=
  let st := s.q e.user Q.STATE
  (st == qOff || st == qActive || st == qStopping) && s.q e.user Q.REMOTE_NODE == e.peer

/-- A rendezvous meets its posted entry (R304). -/
def State.deliverRts (s : State) (mi : Nat) (m : Ml) (p e : LEnt) : State :=
  let n := min e.len p.len
  let (bad, s) := s.landCheck m p n
  let r : Rdv := ⟨s.mat.nextRdv, mi, e.user, p, e, if bad.isSome then 0 else n, bad.getD (if p.len < e.len then stTrunc else 0),
    false, 0, false, false, 0⟩
  let s := (s.modMat (fun x => { x with nextRdv := x.nextRdv + 1, rdvs := x.rdvs ++ [r] })).countRrdv e.user
  if r.taken = 0 then s.rdvEnd r else s

/-- A message meets a posted entry (R303, R304). -/
def State.deliver (s : State) (mi : Nat) (p e : LEnt) (data : Option Bytes) : State :=
  match s.ml mi with
  | none => s
  | some m =>
    let n := min e.len p.len
    let trunc := if p.len < e.len then stTrunc else 0
    if e.kind = 3 then (if s.sameConn e then s.deliverRts mi m p e else s.recvCqe m p (some e) stRdvFailed 0)
    else
      match s.landCheck m p n with
      | (some st, s) => (s.freeSlotOf mi e.slot).recvCqe m p (some e) st 0
      | (none, s) =>
        if e.lost then s.recvCqe m p (some e) stLost 0
        else match data, e.slot with
        | some b, k =>
          let s := if n = 0 then s else s.place (p.key / 256) p.off (b.take n)
          (s.freeSlotOf mi k).recvCqe m p (some e) trunc n
        | none, some k =>
          if n = 0 then (s.freeSlotOf mi (some k)).recvCqe m p (some e) trunc 0
          else
            let s := s.modMl mi (fun x => { x with fromSlot := x.fromSlot ++ [(p, e)] })
            let s := s.modHif (fun h => { h with reads := h.reads ++ [⟨.slot mi, m.fn, n⟩] })
            s.mlRead mi (m.f ML.UBUF_KEY) (m.f ML.UBUF_OFF + k * m.f ML.SLOT_SIZE) n
        | none, none => s.recvCqe m p (some e) trunc 0

/-- The data of a slot was read (R303): placed, completed, and the slot freed; a bad read breaks the ML. -/
def State.slotDone (s : State) (mi : Nat) (a : Ans) : State :=
  match s.ml mi with
  | none => s
  | some m =>
    match m.fromSlot with
    | [] => s
    | (p, e) :: rest =>
      match a with
      | .ok b =>
        let n := min e.len p.len
        let s := (s.modMl mi (fun x => { x with fromSlot := rest })).place (p.key / 256) p.off ((b ++ List.replicate n 0).take n)
        (s.freeSlotOf mi e.slot).recvCqe m p (some e) (if p.len < e.len then stTrunc else 0) n
      | _ => s.mlBreak mi

/-- Take the first match out of a spill list: marked consumed in its ring (R302). -/
def State.consumeSpill (s : State) (mi : Nat) (posted : Bool) (i : Nat) (e : LEnt) : State :=
  match s.ml mi with
  | none => s
  | some m =>
    let s := s.modMl mi (fun x =>
      if posted then { x with postedSpill := x.postedSpill.set i { e with consumed := true } }
      else { x with unexpSpill := x.unexpSpill.set i { e with consumed := true } })
    s.mlWrite mi (m.f ML.SPILL_KEY) (m.spillOff posted i) (leBytes 1 (e.kind + 128))

/-- Move spilled entries onto the chip in order, passing consumed ones (R302). -/
def refill (room : Nat) : List LEnt → List LEnt × List LEnt × Nat
  | [] => ([], [], 0)
  | e :: r =>
    if e.consumed then let x := refill room r; (x.1, x.2.1, x.2.2 + 1)
    else match room with
      | 0 => ([], e :: r, 0)
      | k + 1 => let x := refill k r; (e :: x.1, x.2.1, x.2.2 + 1)

/-- Up to `n` spilled entries at the head of a list's ring move onto the chip, into at most `room` entries (R302). -/
def State.refillList (s : State) (mi : Nat) (posted : Bool) (n room : Nat) : State :=
  s.modMl mi (fun x =>
    let sp := if posted then x.postedSpill else x.unexpSpill
    let r := refill room (sp.take n)
    if posted then { x with posted := x.posted ++ r.1, postedSpill := r.2.1 ++ sp.drop n, pHead := x.pHead + r.2.2 }
    else { x with unexp := x.unexp ++ r.1, unexpSpill := r.2.1 ++ sp.drop n, uHead := x.uHead + r.2.2 })

/-- Append an entry to a list: on chip, or at the tail of its spill ring (R302). -/
def State.appendList (s : State) (mi : Nat) (posted : Bool) (e : LEnt) : State :=
  match s.ml mi with
  | none => s
  | some m =>
    let spill := if posted then m.postedSpill else m.unexpSpill
    if spill.isEmpty ∧ (if posted then m.entryRoom else decide (m.onchip < m.f ML.ONCHIP)) then
      s.modMl mi (fun x => if posted then { x with posted := x.posted ++ [e] } else { x with unexp := x.unexp ++ [e] })
    else
      let s := s.modMl mi (fun x =>
        if posted then { x with postedSpill := x.postedSpill ++ [e] } else { x with unexpSpill := x.unexpSpill ++ [e] })
      s.mlWrite mi (m.f ML.SPILL_KEY) (m.spillOff posted spill.length) e.bytes

/-- The unexpected list has spilled entries and its ring is full: a header that it must take waits for the refill, which its
reservation allows (R298, R302; log entry 117). -/
def Ml.ringFull (m : Ml) : Bool := !m.unexpSpill.isEmpty && decide (ringEntries (m.f ML.ULOG) ≤ m.unexpSpill.length)

/-- A list can take one more entry (R301). -/
def Ml.canPost (m : Ml) : Bool :=
  (m.postedSpill.isEmpty && m.entryRoom) || decide (m.postedSpill.length < ringEntries (m.f ML.PLOG))

/-- The first event of an ML has ended. -/
def State.eventDone (s : State) (mi : Nat) : State := s.modMl mi (fun x => { x with events := x.events.drop 1, reading := none, waits := false })

/-- The first event of an ML waits, its search ended. -/
def State.eventWaits (s : State) (mi : Nat) : State := s.modMl mi (fun x => { x with reading := none, waits := true })

/-- A header finds no posted entry: it joins the unexpected list (R301, R298). -/
def State.unexpected (s : State) (mi : Nat) (e : LEnt) (data : Option Bytes) : State :=
  match s.ml mi with
  | none => s
  | some m =>
    let lost := e.kind == 2 && decide (1 ≤ e.len) && e.slot.isNone
    let s := if lost && !e.lost then s.raise .MAT_EAGER_LOST mi else s
    let s := match data, e.slot with
      | some b, some k => s.mlWrite mi (m.f ML.UBUF_KEY) (m.f ML.UBUF_OFF + k * m.f ML.SLOT_SIZE) b
      | _, _ => s
    (s.inc F.MAT_COUNT.UNEXPECTED).appendList mi false { e with lost := lost }

/-- A posted entry made from a RECV. -/
def recvEnt (g : Nat) (b : Bytes) : LEnt :=
  let o := b.drop 16
  ⟨1, bit (leAt o 2 1) 0, false, none, leAt o 4 4, leAt o 8 8, leAt o 16 8, leAt o 24 4, leAt o 28 4, leAt o 32 8, leAt o 40 4, 0, 0, g, false⟩

/-- End a RECV or CANCEL entry. -/
def State.matEnd (s : State) (q idx st : Nat) : State := (s.endEnt q idx ⟨0, st, 0, 0, 0⟩).post (.run q)

/-- The spilled entries from entry `i` that one read of the ring covers: up to 512 bytes, and not past the ring's end (R302). -/
def Ml.chunk (m : Ml) (posted : Bool) (i : Nat) : Nat :=
  let ring := max 1 (ringEntries (m.f (if posted then ML.PLOG else ML.ULOG)))
  let head := if posted then m.pHead else m.uHead
  let len := (if posted then m.postedSpill else m.unexpSpill).length
  min 8 (min (len - i) (ring - (head + i) % ring))

/-- The search of an ML's first event reads the spilled entries from entry `i` (R302). -/
def State.readSpill (s : State) (mi : Nat) (m : Ml) (posted : Bool) (i : Nat) : State :=
  (s.modMl mi (fun x => { x with reading := some i })).mlRead mi (m.f ML.SPILL_KEY) (m.spillOff posted i) (64 * m.chunk posted i)

/-- What a search finds (R301, R302): an entry on chip, a spilled one with its place, none, or a read of the ring yet to be made. -/
inductive Found where
  | chip (e : LEnt)
  | spilled (i : Nat) (e : LEnt)
  | none
  | read (i : Nat)
  deriving DecidableEq, Repr

/-- The search of a list for the first event: the on-chip part, then the spill part read by read, of which `at'` is the entry
from which the last read began; a search that has ended finds what it found (R301, R302). -/
def Ml.search (m : Ml) (at' : Option Nat) (posted : Bool) (ok : LEnt → Bool) : Found :=
  let on := if posted then m.posted else m.unexp
  let sp := if posted then m.postedSpill else m.unexpSpill
  let hit (i n : Nat) : Option (LEnt × Nat) := ((sp.drop i).take n).zipIdx.find? (fun e => !e.1.consumed && ok e.1)
  match on.find? ok with
  | some p => .chip p
  | none =>
    if sp.isEmpty then .none
    else if m.waits then (match hit 0 sp.length with | some (p, j) => .spilled j p | none => .none)
    else match at' with
      | none => .read 0
      | some i =>
        let n := m.chunk posted i
        match hit i n with
        | some (p, j) => .spilled (i + j) p
        | none => if n = 0 ∨ sp.length ≤ i + n then .none else .read (i + n)

/-- The event takes the entry that its search found out of its list. -/
def State.takeFound (s : State) (mi : Nat) (posted : Bool) (ok : LEnt → Bool) : Found → State
  | .chip _ => s.modMl mi (fun x => if posted then { x with posted := x.posted.eraseP ok } else { x with unexp := x.unexp.eraseP ok })
  | .spilled i p => s.consumeSpill mi posted i p
  | _ => s

/-- What a match needs before it is made: the landing (key, length, offset) and the queue of a rendezvous. -/
structure Needs where
  land : Nat × Nat × Nat
  queue : Option Nat

/-- The landing of a message in a posted receive (R303), and the queue whose context a rendezvous needs (R228, R304). -/
def needsOf (p e : LEnt) : Needs := ⟨(p.key, min e.len p.len, p.off), if e.kind = 3 then some e.user else none⟩

/-- A match waits for what it needs (R228, R260): the context of a rendezvous' queue, page entries of the landing; none where all is
there. -/
def State.needWait (s : State) (m : Ml) (n : Needs) : Option State :=
  match n.queue.filter s.away with
  | some g => some (s.needCtx g)
  | none => match s.partsDue .lwrite m.keyCtx [n.land] with
    | [] => none
    | ps => some (s.pagesAsk ps)

/-- The first event of an ML goes as far as its search reaches (R299, R301, R302): a match with `p` waits for what it needs, for room for
the receive completion that it produces (R250), and for the region of the receive where it is fetched again (Table 12.3). -/
def State.searchEvent (s : State) (mi : Nat) (m : Ml) (at' : Option Nat) (posted : Bool) (ok : LEnt → Bool)
    (needs : LEnt → Needs) (quiet : LEnt → Bool) (hit : State → LEnt → State) (miss : State → State) : State :=
  let f := m.search at' posted ok
  let found (p : LEnt) : State :=
    match s.needWait m (needs p) with
    | some s => s.eventWaits mi
    | none =>
    let (there, s) := s.regionRead (needs p).land.1
    if there && (s.recvRoom m || quiet p) then hit ((s.takeFound mi posted ok f).eventDone mi) p else s.eventWaits mi
  match f with
  | .chip p => found p
  | .spilled _ p => found p
  | .none => miss s
  | .read i => (if i = 0 then s.inc F.MAT_COUNT.SPILL_READS else s).readSpill mi m posted i

/-- The first event of an ML (R299): `at'` as for the search. A rendezvous whose connection is there produces no completion yet. -/
def State.matchEvent (s : State) (mi : Nat) (at' : Option Nat) : State :=
  match s.ml mi with
  | none => s
  | some m =>
    let rdv (e : LEnt) : Bool := e.kind == 3 && s.sameConn e
    match m.events with
    | [] => s
    | .header e data :: _ =>
      s.searchEvent mi m at' true (fun p => accepts p e.tag e.rank) (fun p => needsOf p e) (fun _ => rdv e) (fun s p => s.deliver mi p e data)
        (fun s => if m.ringFull then s.eventWaits mi else (s.eventDone mi).unexpected mi e data)
    | .recv q idx :: _ =>
      match s.ent q idx with
      | none => s.eventDone mi
      | some en =>
        let p := recvEnt q en.b
        s.searchEvent mi m at' false (fun e => accepts p e.tag e.rank) (fun e => needsOf p e) rdv (fun s e => (s.deliver mi p e none).matEnd q idx 0)
          (fun s =>
            let s := s.eventDone mi
            if m.canPost then (s.appendList mi true p).matEnd q idx 0 else s.matEnd q idx stListFull)
    | .cancel q idx :: _ =>
      match s.ent q idx with
      | none => s.eventDone mi
      | some en =>
        let user := leAt en.b 20 4
        s.searchEvent mi m at' true (fun p => p.user == user) (fun _ => ⟨(0, 0, 0), none⟩) (fun _ => false)
          (fun s p => (s.recvCqe m p none stCancelled 0).matEnd q idx 0) (fun s => (s.eventDone mi).matEnd q idx stNotFound)

/-- MATCH_EVENT: the engine of an ML processes its next event, unless a spill read holds it (R299). -/
def State.matchNext (s : State) (mi : Nat) : State :=
  match s.ml mi with
  | some m => if m.reading.isSome ∨ m.broken ∨ !s.en 11 then s else s.matchEvent mi none
  | none => s

/-- SPILL_READ_DONE: the waiting search goes on, or the ML breaks (R302, Table 9.2). -/
def State.spillDone (s : State) (mi : Nat) (a : Ans) : State :=
  match s.ml mi with
  | some m =>
    match m.reading, a with
    | none, _ => s
    | some i, .ok _ => s.matchEvent mi (some i)
    | some _, _ => s.mlBreak mi
  | none => s

/-- A list has spilled entries that a refill can move or pass (R302). -/
def Ml.refillable (m : Ml) (posted : Bool) : Bool :=
  match if posted then m.postedSpill else m.unexpSpill with
  | [] => false
  | e :: _ => e.consumed || decide (m.onchip < m.f ML.ONCHIP)

/-- SPILL_REFILL (R302): with no event to process, one read of a spill ring from its head, and its entries move onto the chip while
entries are free, or the ML breaks (Table 9.2). A header that waits for a place in its full ring gets one (log entry 117). -/
def State.spillRefill (s : State) (mi : Nat) (a : Ans) : State :=
  match s.ml mi with
  | none => s
  | some m =>
    let stuck := m.waits && m.ringFull
    if m.broken ∨ !(m.events.isEmpty || stuck) then s
    else
      let posted := !stuck && m.refillable true
      if !posted && !m.refillable false then s
      else
        let n := m.chunk posted 0
        let s := s.mlRead mi (m.f ML.SPILL_KEY) (m.spillOff posted 0) (64 * n)
        match s.ml mi, a with
        | some x, .ok _ =>
          if x.broken then s else s.refillList mi posted n (min (if stuck then 1 else n) (m.f ML.ONCHIP - m.onchip))
        | _, _ => s.mlBreak mi

/-- Rendezvous engines with a free tracker: each has 256 (R304). -/
def State.trackers (s : State) : List Nat :=
  (s.enginesFor 2).filter (fun e => decide ((s.mat.rdvs.filter (fun r => r.started && !r.sent && r.engine == e)).length < 256))

/-- RENDEZVOUS_START: the oldest waiting transfer takes a tracker of the least busy engine that has one free, and issues its GET_REQs
(R304, R398). -/
def State.rdvStart (s : State) : State :=
  match s.mat.rdvs.find? (fun r => !r.started && !r.over') with
  | none => s
  | some r =>
    match s.leastBusy 2 s.trackers with
    | (none, s) => s
    | (some e, s) =>
    let ps := cutMsg r.taken
    let s := s.modMat (fun x => { x with
      rdvs := x.rdvs.map (fun y => if y.id = r.id then { y with started := true, left := ps.length, engine := e } else y) })
    let s := s.modCtx r.q (fun c => { c with todo := c.todo ++ ps.map (fun p =>
      ⟨0x12, none, some r.id, leBytes 1 0 ++ leBytes 4 r.rts.key ++ leBytes 8 (r.rts.off + p.1), leBytes 4 p.2 ++ leBytes 4 0,
       some (r.post.key, r.post.off + p.1, p.2)⟩) })
    s.pump r.q 4096

/-- A GET_RESP of a transfer landed, or its MSG_FIN was sent (R304). -/
def State.rdvAnswer (s : State) (id : Nat) : State :=
  match s.mat.rdvs.find? (fun r => r.id == id) with
  | none => s
  | some r =>
    let put (r : Rdv) : State := s.modMat (fun x => { x with rdvs := x.rdvs.map (fun y => if y.id = id then r else y) })
    if r.over' then put { r with sent := true }
    else
      let r := { r with left := r.left - 1 }
      if r.left = 0 then s.rdvEnd r else put r

/-- The requests of the transfers of a queue go: none is sent, and the answer of one that was sent lands nothing (R306, R310). -/
def State.dropRdvReqs (s : State) (g : Nat) : State :=
  s.modCtx g (fun c => { c with
    todo := c.todo.filter (fun t => t.rdv.isNone),
    win := c.win.map (fun u => if u.req.rdv.isSome then { u with req := { u.req with land := none } } else u) })

/-- The held headers and transfers of a queue are gone. -/
def State.dropHeld (s : State) (g : Nat) : State :=
  if (tabGet s.hif.ctx g).isSome then ((s.setQ g Q.HELD 0).setQ g Q.RRDV 0).dropRdvReqs g else s

/-- The receive of a transfer ends with the transfer: RDV_FAILED, or as it stands where only its completion waits (R306). -/
def State.rdvFail (s : State) (r : Rdv) : State :=
  match s.ml r.ml with
  | some m => if r.sent then s.recvCqe m r.post (some r.rts) r.st r.taken else s.recvCqe m r.post (some r.rts) stRdvFailed 0
  | none => s

/-- A queue entered ERROR or was freed: its held headers go, its transfers end RDV_FAILED (R306). -/
def State.matQueueGone (s : State) (g : Nat) (completions : Bool) : State :=
  let s := s.modMat (fun x => { x with mls := x.mls.map (fun e => (e.1,
    let gone := e.2.held.filter (fun h => h.user == g)
    { e.2 with held := e.2.held.filter (fun h => h.user != g),
               slots := e.2.slots.filter (fun k => !(gone.any (fun h => h.slot == some k))) })) })
  let rs := s.mat.rdvs.filter (fun r => r.q == g)
  let s := s.modMat (fun x => { x with rdvs := x.rdvs.filter (fun r => r.q != g) })
  let s := s.dropHeld g
  if completions then foldS rs s State.rdvFail else s

/-- MLs of a reset function go without completions (Table 9.2). -/
def State.matFlr (s : State) (f : Fn) : State :=
  let gone := (s.mat.mls.filter (fun e => fnCovers f (fnInst e.2.fn))).map (·.1)
  let s := foldS (s.mat.cmds.filter (fun k => fnCovers f (fnInst k.fn))) (foldS gone s State.dropSlotReads)
    (fun s k => s.wrI F.MAT_ML_RESULT.BUSY (fnInst k.fn) 0 0)
  s.modMat (fun x => { x with mls := x.mls.filter (fun e => !fnCovers f (fnInst e.2.fn)), cmds := x.cmds.filter (fun k => !fnCovers f (fnInst k.fn)),
                              checking := x.checking.filter (fun c => x.cmds.any (fun k => k.ml == c.1 && !fnCovers f (fnInst k.fn))),
                              rdvs := x.rdvs.filter (fun r => match tabGet x.mls r.ml with
                                | some m => !fnCovers f (fnInst m.fn)
                                | none => true) })

/-- A unit reset of MAT (R310). -/
def State.matReset (s : State) : State :=
  let s := foldS s.mat.rdvs s State.rdvFail
  let s := foldS s.mat.mls s (fun s e =>
    (foldS (e.2.allPosted ++ e.2.fromSlot.map (·.1)) s (fun s p => s.recvCqe e.2 p none stMlReset 0)).endEvents e.2 stMlReset)
  let s := foldS s.mat.cmds (foldS (s.mat.mls.map (·.1)) s State.dropSlotReads) (fun s k => s.wrI F.MAT_ML_RESULT.BUSY (fnInst k.fn) 0 0)
  let s := s.modMat (fun x => { x with mls := [], rdvs := [], cmds := [], checking := [] })
  foldS ((s.hif.ctx.map (·.1)).filter (fun g => bit (s.q g Q.RIGHTS) 3)) s (fun s g =>
    let st := s.q g Q.STATE
    let s := s.dropHeld g
    if st = qActive ∨ st = qStopping then ((s.loseEnts g (· == 0x20)).setQ g Q.CAUSE 8).queueError g erTransport (s.q g Q.TAKEN) else s)

/-- MAT_LIST_FULL may be logged again. -/
def State.matBeat (s : State) : State := s.modMat (fun x => { x with fullLogged := false })

/-- The engine of an ML goes out of service (Table 12.3): the ML breaks. -/
def State.matEngineDown (s : State) (e : Nat) : State :=
  foldS (s.mat.mls.filter (fun m => m.2.engine == e)) s (fun s m => s.mlBreak m.1)

end Sys2Proof.Machine
end

