-- ==== Sys2Proof/Machine/Mct.lean ====
section
/-! DEFINITION. Delta multicast at a member and Confluence trees (06_multicast_and_confluence.md): tree commands and states,
operations, chunks, credits and aborts. -/

namespace Sys2Proof.Machine

def State.modMct (s : State) (f : Mct → Mct) : State := { s with mct := f s.mct }

/-- Fields of a tree descriptor (Table 6.5). -/
def Tree.root (t : Tree) : Bool := bit (leAt t.d 2 1) 0
def Tree.isLocal (t : Tree) : Bool := bit (leAt t.d 2 1) 1
def Tree.nchild (t : Tree) : Nat := leAt t.d 3 1
def Tree.slots (t : Tree) : Nat := leAt t.d 4 2
def Tree.pd (t : Tree) : Nat := leAt t.d 16 2
def Tree.phase (t : Tree) : Nat := leAt t.d 20 4
def Tree.tc (t : Tree) : Nat := leAt t.d 26 1
def Tree.kids (t : Tree) : List Nat := (List.range t.nchild).map (· + 1)

/-- A neighbour in the tree, 0 the parent: its node, its index of the tree, and the CHILD field of packets to it. -/
def Tree.peer (t : Tree) (i : Nat) : Nat × Nat × Nat :=
  if i = 0 then (leAt t.d 8 4, leAt t.d 12 2, leAt t.d 14 1) else (leAt t.d (56 + 8 * i) 4, leAt t.d (60 + 8 * i) 2, 0)

/-- The neighbours of a vertex. -/
def Tree.peers (t : Tree) : List Nat := (if t.root then [] else [0]) ++ t.kids

/-- Fields of an operation block (Table 6.7). -/
def COp.op (o : COp) : Nat := leAt o.blk 2 1
def COp.typeop (o : COp) : Nat := leAt o.blk 3 1
def COp.dt (o : COp) : Nat := o.typeop % 16
def COp.exact' (o : COp) : Bool := bit (leAt o.blk 4 1) 0
def COp.count (o : COp) : Nat := leAt o.blk 8 4
def COp.upE (o : COp) : Nat := upElems o.dt o.exact'
def COp.resE (o : COp) : Nat := chunkElems o.dt
/-- Result chunks of an operation. -/
def COp.nRes (o : COp) : Nat := chunksOf o.count o.resE

abbrev opAll : Nat := 0
abbrev opReduce : Nat := 1
abbrev opBcast : Nat := 2
abbrev opBarrier : Nat := 3

/-- Collective statuses (Table 6.12). -/
abbrev ccOk : Nat := 0
abbrev ccTimeout : Nat := 1
abbrev ccLost : Nat := 2
abbrev ccMismatch : Nat := 3
abbrev ccProto : Nat := 4
abbrev ccLocal : Nat := 5
abbrev ccSw : Nat := 6
abbrev ccBroken : Nat := 7
abbrev ccReset : Nat := 8
abbrev ccNoTree : Nat := 9

/-- Tree states (Table 6.22). -/
abbrev tsFree : Nat := 0
abbrev tsReady : Nat := 1
abbrev tsActive : Nat := 2
abbrev tsBroken : Nat := 3

def State.treeState (s : State) (t : Nat) : Nat := s.rd F.MCT_TREE_STATUS.STATE t
def State.epochOf (s : State) (t : Nat) : Nat := s.rd F.MCT_TREE_STATUS.EPOCH t
def State.tree (s : State) (t : Nat) : Option Tree := tabGet s.mct.trees t
def State.modTree (s : State) (t : Nat) (f : Tree → Tree) : State := s.modMct (fun m => { m with trees := tabMod m.trees t f })
def State.modOp (s : State) (t seq : Nat) (f : COp → COp) : State :=
  s.modTree t (fun x => { x with ops := x.ops.map (fun o => if o.seq = seq then f o else o) })
def Tree.opOf (t : Tree) (seq : Nat) : Option COp := t.ops.find? (fun o => o.seq == seq)
/-- The open operations: those whose entry has not ended. -/
def Tree.openOps (t : Tree) : List COp := t.ops.filter (fun o => !o.ended)
/-- The oldest open OP_SEQ, or the next to be posted. -/
def Tree.base (t : Tree) : Nat := match t.openOps with | o :: _ => o.seq | [] => t.nextSeq

/-- Confluence is enabled at this device (R212). -/
def State.confOn (s : State) : Bool := s.en uMCT && s.fitted uCONF && s.imageEnables uCONF

/-- The state and OP_SEQ registers of a READY or ACTIVE tree (R200). -/
def State.treeRefresh (s : State) (t : Nat) : State :=
  match s.tree t with
  | none => s
  | some x =>
    let st := s.treeState t
    let s := s.wr F.MCT_TREE_STATUS.OP_SEQ x.base t
    if st = tsReady ∨ st = tsActive then
      s.wr F.MCT_TREE_STATUS.STATE (if x.openOps.isEmpty && x.chunks.isEmpty then tsReady else tsActive) t
    else s

/-- The oldest open operation made progress (R210). -/
def State.treeProgress (s : State) (t seq : Nat) : State :=
  s.modTree t (fun x => if x.base = seq then { x with quiet := 0, moved := true } else x)

/-- Credits of a vertex at rest (R198). -/
def Tree.clear (t : Tree) : Tree :=
  ⟨t.d, t.slots, t.kids.map (fun i => (i, t.slots)), [], [], [], 0, false, false, 0, []⟩

/-- A packet of a tree to neighbour `i` (Table 6.10); a payload above 32 bytes fills 64 at least (R205). -/
def State.cfSend (s : State) (t : Tree) (epoch i kind hi seq c typeop count b28 b29 : Nat) (payload : Bytes) : State :=
  let (node, idx, me) := t.peer i
  let p := if 32 < payload.length ∧ payload.length < 64 then payload ++ List.replicate (64 - payload.length) 0 else payload
  s.send (mkPacket node s.nodeId 4 t.tc kind hi
    (leBytes 2 idx ++ leBytes 2 seq ++ leBytes 4 c ++ leBytes 2 epoch ++ leBytes 1 me ++ leBytes 1 typeop ++ leBytes 4 count ++
     leBytes 1 b28 ++ leBytes 1 b29 ++ leBytes 2 0) p)

/-- A slot credit of neighbour `i` is freed; it goes back with the others of its peer (R198). -/
def State.cfGrant (s : State) (t i : Nat) : State :=
  s.modTree t (fun x => { x with freed := tabPut x.freed i (tabGetD x.freed i 0 + 1) })

/-- Return the credits freed, in one CF_GRANT for each peer (R198). -/
def State.cfReturn (s : State) : State :=
  foldS (s.mct.trees.filter (fun e => !e.2.freed.isEmpty)) s (fun s e =>
    foldS e.2.freed (s.modTree e.1 (fun x => { x with freed := [] })) (fun s k =>
      s.cfSend e.2 (s.epochOf e.1) k.1 0x8A 0 0 0 0 0 k.2 (if k.1 = 0 then 1 else 0) []))

/-- The queues whose next entry to begin is an operation of tree `t` (R201). -/
def State.treeWaiters (s : State) (t : Nat) : List Nat :=
  (s.hif.ctx.filter (fun c => match c.2.ents.find? (fun e => !e.begun && e.fin.isNone) with
    | some e => leAt e.b 0 1 == 0x31 && leAt e.b 16 2 == t
    | none => false)).map (·.1)

/-- End the entry of an operation (R200); LENGTH is that of log entry 17. Queues that the tree's sixteen open operations stop go on
(R201). -/
def State.collEnd (s : State) (t : Nat) (o : COp) (st : Nat) : State :=
  if o.ended then s else
  let (len, s) := if st = ccOk then (o.count * dtSize o.dt % 2 ^ 32, s) else s.pick (2 ^ 32)
  let s := s.wr F.MCT_TREE_STATUS.LAST_STATUS st t
  foldS (o.q :: (s.treeWaiters t).filter (fun g => g != o.q)) (s.endEnt o.q o.idx ⟨0, st, len, 0, 0⟩) (fun s g => s.post (.run g))

/-- Complete all open operations of a tree with a status. -/
def State.collEndAll (s : State) (t st : Nat) : State :=
  match s.tree t with
  | none => s
  | some x => foldS x.openOps s (fun s o => s.collEnd t o st)

/-- Send CF_ABORT to every neighbour but `from'` (R200), at most once an epoch (R201). -/
def State.cfAborts (s : State) (t : Nat) (x : Tree) (from' : Option Nat) (seq st : Nat) : State :=
  if x.aborted then s else
  let s := foldS (x.peers.filter (fun i => from' != some i)) s (fun s i =>
    s.cfSend x (s.epochOf t) i 0x8B 0 seq 0 0 0 st 0 [])
  s.modTree t (fun x => { x with aborted := true })

/-- A tree becomes BROKEN: nothing of it goes on. -/
def State.treeBreak (s : State) (t : Nat) : State :=
  ((s.modTree t (fun x => { x with ops := [], chunks := [], freed := [] })).treeRefresh t).wr F.MCT_TREE_STATUS.STATE tsBroken t

/-- A local abort cause or an ABORT command (Table 6.6, R212). -/
def State.treeAbort (s : State) (t seq st : Nat) : State :=
  match s.tree t with
  | none => s
  | some x =>
    if s.treeState t = tsBroken then s
    else
      let s := s.collEndAll t st
      let s := (s.cfAborts t x none seq st).treeBreak t
      s.raiseOcc { occ .MCT_CF_ABORT t with info := seq + st * 2 ^ 16 + s.epochOf t * 2 ^ 32 }

/-- A CF_ABORT of the own epoch from a neighbour (Table 6.6). -/
def State.treeForward (s : State) (t : Nat) (from' : Option Nat) (seq st : Nat) : State :=
  match s.tree t with
  | none => s
  | some x =>
    if s.treeState t = tsBroken then s
    else ((s.collEndAll t (st % 128 + 128)).cfAborts t x from' seq st).treeBreak t

/-- Slots in use for the vertex's own working chunks (R197). -/
def State.working (s : State) (t : Nat) (x : Tree) : Nat :=
  x.ops.foldl (fun a o => a + o.own.length + o.acc.length + o.res.length) 0 +
    (s.hif.reads.filter (fun r => match r.job with | .chunk t' _ _ => t' == t | _ => false)).length

/-- Chunks that a vertex reads of its own host, and their elements each. -/
def Tree.ownChunks (x : Tree) (o : COp) : Nat × Nat :=
  if x.isLocal ∧ (o.op = opAll ∨ o.op = opReduce) then (chunksOf o.count o.upE, o.upE)
  else if x.root ∧ o.op = opBcast then (o.nRes, o.resE)
  else (0, 1)

/-- Read the next own chunk of an operation, while a slot is free. -/
def State.readOwn (s : State) (t seq : Nat) : Nat → State
  | 0 => s
  | n + 1 =>
    match s.tree t with
    | none => s
    | some x =>
      match x.opOf seq with
      | none => s
      | some o =>
        let (k, e) := x.ownChunks o
        if k ≤ o.nextRead ∨ x.slots ≤ s.working t x then s
        else
          let len := inChunk o.count e o.nextRead * dtSize o.dt
          let key := leAt o.blk 12 4
          let s := s.modHif (fun h => { h with reads := h.reads ++ [⟨.chunk t seq o.nextRead, s.ownerOf o.q, len⟩] })
          let s := s.fetch (key / 256) (leAt o.blk 16 8 + o.nextRead * e * dtSize o.dt) len
          State.readOwn (s.modOp t seq (fun o => { o with nextRead := o.nextRead + 1 })) t seq n

/-- Read own chunks of every operation, oldest first. -/
def State.readAll (s : State) (t : Nat) : State :=
  match s.tree t with
  | none => s
  | some x => foldS x.ops s (fun s o => s.readOwn t o.seq (x.slots + 1))

/-- The vertex writes the result to its host (Table 6.9). -/
def Tree.writes (x : Tree) (o : COp) : Bool :=
  (o.op == opAll && x.isLocal) || (o.op == opReduce && x.root) || (o.op == opBcast && x.isLocal && !x.root)

/-- Write result chunk `c`, where this vertex writes results; the chunk is then done. -/
def State.writeResult (s : State) (t : Nat) (x : Tree) (o : COp) (c : Nat) (b : Bytes) : State :=
  let n := inChunk o.count o.resE c * dtSize o.dt
  let s := if x.writes o then s.place (leAt o.blk 24 4 / 256) (leAt o.blk 32 8 + c * o.resE * dtSize o.dt) (b.take n) else s
  (s.modOp t o.seq (fun o => { o with done := o.done ++ [c] })).treeProgress t o.seq

/-- CF_DOWN chunks that an operation passes to each child: how many. -/
def COp.nDown (o : COp) : Nat := if o.op = opAll ∨ o.op = opBcast then o.nRes else 1

/-- A result chunk was passed to every child. -/
def Tree.allPassed (x : Tree) (o : COp) (c : Nat) : Bool := x.kids.all (fun i => o.passed.contains (c, i))

/-- An operation has reached the end of Table 6.9 at this vertex; an ALLREDUCE with children also has its DOWN credits back
(Table 6.14; log entry 18). -/
def Tree.opDone (x : Tree) (o : COp) : Bool :=
  let all (p : Nat → Bool) : Bool := (List.range o.nDown).all p
  match o.op with
  | 0 => all (fun c => o.done.contains c && x.allPassed o c) && x.kids.all (fun i => !(tabGetD x.outDown i []).contains o.seq)
  | 1 => if x.root then (List.range o.nRes).all (fun c => o.done.contains c) else o.done.contains 0 && x.allPassed o 0
  | 2 => all (fun c => (x.root || o.done.contains c) && x.allPassed o c)
  | _ => (x.root || o.done.contains 0) && x.allPassed o 0

/-- Nothing of an operation is left to send. -/
def Tree.opSent (x : Tree) (o : COp) : Bool := (List.range o.nDown).all (fun c => x.allPassed o c)

/-- Release the result slots that are done with: at the root the working slot, elsewhere the parent's credit (R198). -/
def State.releaseDown (s : State) (t seq : Nat) : State :=
  match s.tree t with
  | none => s
  | some x =>
    match x.opOf seq with
    | none => s
    | some o =>
      let s := s.modOp t seq (fun o => { o with res := o.res.filter (fun e =>
        !(if o.op = opReduce then o.done.contains e.1 else x.allPassed o e.1 && (o.done.contains e.1 || o.op == opBcast))) })
      let gone := x.chunks.filter (fun k => !k.up && k.seq == seq && o.done.contains k.c && x.allPassed o k.c)
      let s := s.modTree t (fun x => { x with chunks := x.chunks.filter (fun k => !gone.contains k) })
      foldS gone s (fun s _ => s.cfGrant t 0)

/-- After each event of an operation: slots go back, the operation ends when it is done, own reads go on. -/
def State.opSettle (s : State) (t seq : Nat) : State :=
  let s := s.releaseDown t seq
  match s.tree t with
  | none => s
  | some x =>
    match x.opOf seq with
    | none => (s.readAll t).treeRefresh t
    | some o =>
      let d := o.ended || x.opDone o
      let s := if d then s.collEnd t o ccOk else s
      let s := s.modTree t (fun y =>
        if d then { y with ops := if x.opSent o then y.ops.filter (fun z => z.seq != seq) else
                            y.ops.map (fun z => if z.seq = seq then { z with ended := true } else z) }
        else y)
      (s.readAll t).treeRefresh t

/-- The packet fields of a chunk agree with the operation (R206). -/
def COp.agrees (o : COp) (k : Chunk) : Bool :=
  k.opcode == o.op && k.typeop == o.typeop && k.exact' == o.exact' && k.count == o.count

/-- Take in the held chunks of a posted operation: barrier arrivals are counted, result chunks written. -/
def State.takeChunk (s : State) (t : Nat) (k : Chunk) : State :=
  match s.tree t with
  | none => s
  | some x =>
    match x.opOf k.seq with
    | none => s
    | some o =>
      if k.up then
        if o.op = opBarrier then
          let s := s.modTree t (fun x => { x with chunks := x.chunks.erase k })
          let s := s.modOp t k.seq (fun o => { o with comb := if o.comb.contains k.child then o.comb else o.comb ++ [k.child] })
          ((s.cfGrant t k.child).treeProgress t k.seq).opSettle t k.seq
        else s.treeProgress t k.seq
      else if o.done.contains k.c then s
      else (s.writeResult t x o k.c k.b).opSettle t k.seq

/-- The local uses of a collective (R261): the source of what this node gives, and the landing of what it writes. -/
def State.collParts (s : State) (blk : Bytes) : List (Use × (Nat × Nat × Nat)) :=
  match s.tree (leAt blk 0 2) with
  | none => []
  | some x =>
    let o : COp := ⟨0, 0, x.nextSeq, blk, [], 0, [], [], [], [], [], [], [], false⟩
    let len := o.count * dtSize o.dt
    (if (x.ownChunks o).1 != 0 then [(Use.lread, (leAt blk 12 4, len, leAt blk 16 8))] else []) ++
      (if x.writes o then [(Use.lwrite, (leAt blk 24 4, len, leAt blk 32 8))] else [])

/-- A collective is posted to its tree (R200 to R202, Table 6.6). -/
def State.collPost (s : State) (g idx : Nat) (blk : Bytes) : State :=
  let t := leAt blk 0 2
  let noOp (st : Nat) : State :=
    let (len, s) := (s.wr F.MCT_TREE_STATUS.LAST_STATUS st t).pick (2 ^ 32)
    (s.endEnt g idx ⟨0, st, len, 0, 0⟩).post (.run g)
  match s.tree t with
  | none => noOp ccNoTree
  | some x =>
    if !s.confOn ∨ x.pd ≠ s.q g Q.PD then noOp ccNoTree
    else if s.treeState t = tsBroken then noOp ccBroken
    else
      let o : COp := ⟨g, idx, x.nextSeq, blk, [], 0, [], [], [], [], [], [], [], false⟩
      let s := s.modTree t (fun x => { x with ops := x.ops ++ [o], nextSeq := (x.nextSeq + 1) % 65536,
                                              quiet := if x.openOps.isEmpty then 0 else x.quiet })
      let s := s.treeRefresh t
      let len := o.count * dtSize o.dt
      let check (s : State) (u : Use) (at' : Nat) : Bool × State :=
        match s.keyUse u (leAt blk at' 4) (leAt blk (at' + (if u == .lread then 4 else 8)) 8) len (s.keyCtx g) with
        | (.ok _, s) => (false, s)
        | (.error _, s) => (true, s)
      let (badSrc, s) := if (x.ownChunks o).1 != 0 then check s .lread 12 else (false, s)
      let (badDst, s) := if x.writes o && !badSrc then check s .lwrite 24 else (false, s)
      let held := x.chunks.filter (fun k => k.seq == o.seq)
      if badSrc ∨ badDst then s.treeAbort t o.seq ccLocal
      else if !held.all (fun k => o.agrees k) then s.treeAbort t o.seq ccMismatch
      else
        let s := s.modEnt g idx (fun e => { e with regs :=
          (if (x.ownChunks o).1 != 0 then [leAt blk 12 4 / 256] else []) ++ (if x.writes o then [leAt blk 24 4 / 256] else []) })
        let s := foldS held s (fun s k => s.takeChunk t k)
        s.opSettle t o.seq

/-- An operation block breaks R202. -/
def collBlockBad (b : Bytes) : Bool :=
  let op := leAt b 2 1
  let dt := leAt b 3 1 % 16
  let o := leAt b 3 1 / 16
  let fl := leAt b 4 1
  let n := leAt b 8 4
  decide (3 < op) || decide (7 < dt) || decide (6 < o) || (decide (4 ≤ o) && dtFloat dt) ||
  (bit fl 0 && (o != 0 || !(dt == 4 || dt == 5 || dt == 6))) || (decide (op ≤ 2) && n == 0) || (op == 3 && n != 0) ||
  ((op == 2 || op == 3) && o != 0) || decide (2 ≤ fl) || leAt b 5 3 != 0 || leAt b 28 4 != 0 || leAt b 40 8 != 0

/-- A VN4 packet that is discarded as stale. -/
def State.cfStale (s : State) : State := s.inc F.MCT_COUNT.STALE

/-- The tree that a VN4 packet of the own epoch meets: none where it is stale (R212, Table 6.6). -/
def State.cfTree (s : State) (b : Bytes) : Option (Nat × Tree) :=
  let t := leAt b 12 2
  match s.tree t with
  | none => none
  | some x => if s.confOn ∧ s.epochOf t = leAt b 20 2 then some (t, x) else none

/-- A received CF_UP or CF_DOWN (Table 6.6, R199, R206). -/
def State.onChunk (s : State) (up : Bool) (b : Bytes) : State :=
  match s.cfTree b with
  | none => s.cfStale
  | some (t, x) =>
    if s.treeState t = tsBroken then s.cfStale
    else
      let child := if up then leAt b 22 1 else 0
      let k : Chunk := ⟨up, child, leAt b 14 2, leAt b 16 4, leAt b 28 1, leAt b 23 1, bit (pkFrame b) 31, leAt b 24 4, pkPayload b⟩
      let full := decide ((if up ∨ !x.root then x.slots else 0) ≤ (x.chunks.filter (fun j => j.up == up && j.child == child)).length)
      if 15 < (k.seq + 65536 - x.base) % 65536 ∨ (up ∧ (child = 0 ∨ x.nchild < child)) then s.treeAbort t k.seq ccMismatch
      else if full then s.treeAbort t k.seq ccProto
      else
        match x.opOf k.seq with
        | some o =>
          if !o.agrees k then s.treeAbort t k.seq ccMismatch
          else ((s.modTree t (fun x => { x with chunks := x.chunks ++ [k] })).treeProgress t k.seq).takeChunk t k |>.treeRefresh t
        | none => (s.modTree t (fun x => { x with chunks := x.chunks ++ [k] })).treeRefresh t

/-- A received CF_GRANT (R198, R201). -/
def State.onGrant (s : State) (b : Bytes) : State :=
  match s.cfTree b with
  | none => s.cfStale
  | some (t, x) =>
    if s.treeState t = tsBroken then s.cfStale
    else
      let n := leAt b 28 1
      if leAt b 29 1 = 0 then s.modTree t (fun x => { x with upCred := x.upCred + n })
      else
        let i := leAt b 22 1
        let s := s.modTree t (fun x => { x with downCred := tabMod x.downCred i (· + n),
                                                outDown := tabMod x.outDown i (fun l => l.drop n) })
        foldS x.ops s (fun s o => s.opSettle t o.seq)

/-- A received CF_ABORT (Table 6.6, R201, R211): a LOST that does not come from the neighbour it names is a router's notice
(log entry 19). -/
def State.onAbort (s : State) (b : Bytes) : State :=
  match s.cfTree b with
  | none => s.cfStale
  | some (t, x) =>
    let i := leAt b 22 1
    let st := leAt b 28 1
    let seq := leAt b 14 2
    if st = ccLost ∧ (x.peer i).1 % 2 ^ 17 ≠ pkSrc b then s.treeAbort t seq ccLost
    else s.treeForward t (some i) seq st

/-- CHUNK_COMBINE: a vertex that holds chunk `c` from its host and from every child combines it (R207 to R209). -/
def State.chunkCombine (s : State) (t seq c : Nat) : State :=
  match s.tree t with
  | none => s
  | some x =>
    match x.opOf seq with
    | none => s
    | some o =>
      let kids := x.kids.map (fun i => x.chunks.find? (fun k => k.up && k.child == i && k.seq == seq && k.c == c))
      let ks := kids.filterMap id
      let own := tabGet o.own c
      if !s.confOn ∨ (o.op ≠ opAll ∧ o.op ≠ opReduce) ∨ o.comb.contains c ∨ chunksOf o.count o.upE ≤ c ∨
          ks.length ≠ x.nchild ∨ (x.isLocal ∧ own.isNone) ∨ (!x.isLocal ∧ x.slots ≤ s.working t x) then s
      else
        let n := inChunk o.count o.upE c
        let mine := match own with | some b => [if o.exact' then toRecords o.dt n b else b] | none => []
        let xs := mine ++ ks.map (·.b)
        let r := if o.exact' then foldRecords n xs else foldChunk o.dt (o.typeop / 16) n xs
        let s := s.modTree t (fun x => { x with chunks := x.chunks.filter (fun k => !ks.contains k) })
        let s := s.modOp t seq (fun o => { o with own := tabDel o.own c, comb := o.comb ++ [c] })
        let s := foldS x.kids s (fun s i => s.cfGrant t i)
        let s :=
          if !x.root then s.modOp t seq (fun o => { o with acc := tabPut o.acc c r })
          else if !o.exact' then (s.modOp t seq (fun o => { o with res := tabPut o.res c r })).writeResult t x o c r
          else
            let s := s.modOp t seq (fun o => { o with elems := (List.range n).foldl (fun m i =>
              tabPut m (c * 85 + i) (recordRound o.dt (recordAt r i))) o.elems })
            match (s.tree t).bind (fun x => x.opOf seq) with
            | none => s
            | some o =>
              foldS (List.range o.nRes) s (fun s d =>
                let is := (List.range (inChunk o.count o.resE d)).map (fun i => d * o.resE + i)
                if !o.done.contains d && is.all (fun i => (tabGet o.elems i).isSome) then
                  let b := is.flatMap (fun i => leBytes (dtSize o.dt) (tabGetD o.elems i 0))
                  (s.modOp t seq (fun o => { o with res := tabPut o.res d b })).writeResult t x o d b
                else s)
        (s.treeProgress t seq).opSettle t seq

/-- A CF_UP or CF_DOWN of an operation (R205, R206). -/
def State.chunkPacket (s : State) (t : Nat) (x : Tree) (o : COp) (i c : Nat) (payload : Bytes) : State :=
  let hi := if o.exact' then 2 ^ 13 else 0
  s.cfSend x (s.epochOf t) i (if i = 0 then 0x88 else 0x89) hi o.seq c o.typeop o.count o.op 0 payload

/-- CHUNK_SEND: spend a credit and send chunk `c` to neighbour `i`, 0 the parent (R198, R204). -/
def State.chunkSend (s : State) (t seq c i : Nat) : State :=
  match s.tree t with
  | none => s
  | some x =>
    match x.opOf seq with
    | none => s
    | some o =>
      if !s.confOn then s
      else if i = 0 then
        let ready :=
          if o.op = opBarrier then (if c = 0 ∧ o.comb.length = x.nchild ∧ !o.sent.contains 0 then some [] else none)
          else if o.op = opBcast then none else tabGet o.acc c
        match ready with
        | none => s
        | some b =>
          if x.root ∨ x.upCred = 0 then s
          else
            let s := s.chunkPacket t x o 0 c b
            let s := s.modTree t (fun x => { x with upCred := x.upCred - 1 })
            let s := s.modOp t seq (fun o => { o with acc := tabDel o.acc c, sent := o.sent ++ [c] })
            (s.treeProgress t seq).opSettle t seq
      else
        let ready : Option Bytes :=
          if o.passed.contains (c, i) ∨ x.nchild < i ∨ o.nDown ≤ c then none
          else if o.op = opAll ∨ o.op = opBcast then
            if x.root then tabGet o.res c
            else (x.chunks.find? (fun k => !k.up && k.seq == seq && k.c == c && o.done.contains c)).map (fun k =>
              k.b.take (inChunk o.count o.resE c * dtSize o.dt))
          else if x.root then
            (if o.op = opReduce then (if x.opDone o then some [] else none)
             else if o.comb.length = x.nchild then some [] else none)
          else if o.done.contains 0 then some [] else none
        match ready with
        | none => s
        | some b =>
          if tabGetD x.downCred i 0 = 0 then s
          else
            let s := s.chunkPacket t x o i c b
            let s := s.modTree t (fun x => { x with
              downCred := tabMod x.downCred i (· - 1), outDown := tabPut x.outDown i (tabGetD x.outDown i [] ++ [seq]) })
            let s := s.modOp t seq (fun o => { o with passed := o.passed ++ [(c, i)] })
            (s.treeProgress t seq).opSettle t seq

/-- An own chunk was read; a read that fails aborts with LOCAL_ERROR. -/
def State.chunkRead (s : State) (t seq c : Nat) (a : Ans) : State :=
  match (s.tree t).bind (fun x => x.opOf seq) with
  | none => s
  | some o =>
    match a with
    | .ok b =>
      let s := s.modOp t seq (fun o =>
        if o.op = opBcast then { o with res := tabPut o.res c b } else { o with own := tabPut o.own c b })
      s.opSettle t o.seq
    | _ => s.treeAbort t seq ccLocal

/-- PHASE_TIMEOUT (R210). -/
def State.phaseTimeout (s : State) (t : Nat) : State :=
  match s.tree t with
  | none => s
  | some x => if s.treeState t = tsActive ∧ x.phase ≠ 0 ∧ x.phase ≤ x.quiet then s.treeAbort t x.base ccTimeout else s

/-- The collective phase timers of one Beat (R210): a Beat with progress does not count. -/
def State.phaseBeat (s : State) : State :=
  s.modMct (fun m => { m with trees := m.trees.map (fun e =>
    let counts := e.2.phase != 0 && !e.2.openOps.isEmpty && !e.2.moved
    (e.1, { e.2 with quiet := if counts then e.2.quiet + 1 else 0, moved := false })) })

/-- End a tree command (Table 6.19). -/
def State.treeResult (s : State) (code t : Nat) : State :=
  let s := s.modMct (fun m => { m with cmd := none })
  let s := (s.wr F.MCT_TREE_RESULT.BUSY 0).wr F.MCT_TREE_RESULT.CODE code |>.wr F.MCT_TREE_RESULT.TREE t
  if code = 1 ∨ code = 2 ∨ code = 6 then s.raise .MCT_TREE_LOAD_FAIL t else s

/-- Clear a tree and make it READY at an epoch (Table 6.6). -/
def State.treeReady (s : State) (t e : Nat) : State :=
  let s := s.modTree t Tree.clear
  let s := (s.wr F.MCT_TREE_STATUS.STATE tsReady t).wr F.MCT_TREE_STATUS.EPOCH e t
  s.wr F.MCT_TREE_STATUS.OP_SEQ 0 t

/-- Forget the reads of a tree. -/
def State.treeReads (s : State) (t : Nat) : State :=
  s.modHif (fun h => { h with reads := h.reads.filter (fun r => match r.job with | .chunk t' _ _ => t' != t | _ => true) })

/-- Release a tree. -/
def State.treeFree (s : State) (t : Nat) : State :=
  ((s.modMct (fun m => { m with trees := tabDel m.trees t })).treeReads t).wr F.MCT_TREE_STATUS.STATE tsFree t

/-- A tree command: 1 LOAD, 2 RESET, 3 UNLOAD, 4 ABORT (Table 6.6, R214). A requester without a host function reads no
descriptor (log entry 20). -/
def State.treeCmd (s : State) (f : Option Fn) (cmd t e : Nat) : State :=
  let s := s.wr F.MCT_TREE_RESULT.TREE t
  if !s.confOn then s.treeResult 5 t
  else
    match cmd, s.tree t with
    | 1, some _ => s.treeResult 3 t
    | 1, none =>
      match f with
      | none => s.treeResult 6 t
      | some f =>
        let s := (s.modMct (fun m => { m with cmd := some (f, t) })).wr F.MCT_TREE_RESULT.BUSY 1
        s.readHost f (s.rd F.MCT_TREE_ADDR.ADDR * 64) 192
    | _, none => s.treeResult 4 t
    | 2, some _ => (((s.collEndAll t ccReset).treeReads t).treeReady t e).treeResult 0 t
    | 3, some _ => ((s.collEndAll t ccReset).treeFree t).treeResult 0 t
    | _, some x => (s.treeAbort t x.base ccSw).treeResult 0 t

/-- A tree descriptor is invalid (R195). -/
def treeDescBad (d : Bytes) (t : Nat) : Bool :=
  let n := leAt d 3 1
  let fl := leAt d 2 1
  let root := bit fl 0
  leAt d 0 2 != t || decide (4 ≤ fl) || decide (16 < n) || decide (leAt d 4 2 < 1) || decide (8 < leAt d 4 2) || leAt d 6 2 != 0 ||
  decide (2 ^ 17 ≤ leAt d 8 4) || leAt d 15 1 != 0 || leAt d 18 2 != 0 || decide (2 ^ 24 ≤ leAt d 20 4) || decide (7 < leAt d 26 1) ||
  leNat ((d.drop 27).take 37) != 0 || (root && leAt d 8 4 != 0) || (!root && (leAt d 14 1 == 0 || decide (16 < leAt d 14 1))) ||
  (!bit fl 1 && n == 0) ||
  (List.range 16).any (fun i => decide (2 ^ 17 ≤ leAt d (64 + 8 * i) 4) || leAt d (70 + 8 * i) 2 != 0 || (decide (n ≤ i) && leAt d (64 + 8 * i) 8 != 0))

/-- The descriptor of a LOAD was read (R195, R197). -/
def State.treeDescDone (s : State) (a : Ans) : State :=
  match s.mct.cmd with
  | none => s
  | some (_, t) =>
    match a with
    | .ok d0 =>
      let d := (d0 ++ List.replicate 192 0).take 192
      if treeDescBad d t then s.treeResult 1 t
      else
        match s.placeOn 1 ((leAt d 3 1 + 2) * leAt d 4 2 * 4096) with
        | (none, s) => s.treeResult 2 t
        | (some e, s) =>
          let x : Tree := ⟨d, 0, [], [], [], [], 0, false, false, 0, []⟩
          let s := (s.modMct (fun m => { m with trees := tabPut m.trees t x })).wr F.MCT_TREE_STATUS.ENGINE e t
          (s.treeReady t (leAt d 24 2)).treeResult 0 t
    | _ => s.treeResult 6 t

/-- The operations of a freed queue end without completions, and their reads with them (R254; log entry 21). -/
def State.mctQueueGone (s : State) (g : Nat) : State :=
  let ts := s.mct.trees.filter (fun e => e.2.ops.any (fun o => o.q == g))
  foldS ts s (fun s e =>
    let gone := (e.2.ops.filter (fun o => o.q == g)).map (·.seq)
    let s := s.modHif (fun h => { h with reads := h.reads.filter (fun r => match r.job with
      | .chunk t seq _ => !(t == e.1 && gone.contains seq)
      | _ => true) })
    (s.modTree e.1 (fun x => { x with ops := x.ops.filter (fun o => o.q != g) })).treeRefresh e.1)

/-- A device reset completes open operations with RESET (Table 6.6), where their queues can still write it. -/
def State.mctEndAll (s : State) : State :=
  let qs := (s.mct.trees.flatMap (fun e => e.2.openOps.map (·.q))).eraseDups
  let s := foldS (s.mct.trees.map (·.1)) s (fun s t => s.collEndAll t ccReset)
  foldS qs s (fun s g => s.retire g)

/-- A unit reset of MCT (R214, Table 6.6). -/
def State.mctReset (s : State) : State :=
  let s := foldS (s.mct.trees.map (·.1)) s (fun s t => (s.collEndAll t ccReset).treeFree t)
  let s := if s.mct.cmd.isSome then s.wr F.MCT_TREE_RESULT.BUSY 0 else s
  let s := s.modMct (fun m => { m with cmd := none, bucket := 0 })
  ((s.resetReg .MCT_MC_LAND).resetReg .MCT_MC_CTL).resetReg .MCT_MC_MASK

/-- A Joiner engine goes out of service: its trees abort with LOCAL_ERROR (Table 12.3). -/
def State.mctEngineDown (s : State) (e : Nat) : State :=
  foldS (s.mct.trees.filter (fun x => s.rd F.MCT_TREE_STATUS.ENGINE x.1 == e)) s (fun s x => s.treeAbort x.1 x.2.base ccLocal)

/-- MC_PUT: an ejected replica at a member (R193, R194). At the group's root NEXT_SEQ is the number to stamp and stays (log
entry 22). A landing whose CQ is in OVERFLOW lands nothing. -/
def State.mcMember (s : State) (b : Bytes) : State :=
  let g := pkDst b % 2 ^ 14
  let mseq := leAt b 12 2
  let next := s.rd F.MCT_MC_CTL.NEXT_SEQ g
  let l := s.rd F.MCT_MC_CTL.LAND g
  let root := s.rd F.MCT_MC_CTL.ROOT g == s.nodeId
  let s := if root then s else s.wr F.MCT_MC_CTL.NEXT_SEQ (mseq + 1) g
  if !s.on F.MCT_MC_LAND.VALID l || s.q (s.rd F.MCT_MC_LAND.CQ l) Q.CQ_STATE == cqOver then
    (s.inc F.MCT_COUNT.MC_GAPS).raise .MCT_MC_NO_LAND g
  else
    let x := pkPayload b
    let off := leAt b 16 8
    let cq := s.rd F.MCT_MC_LAND.CQ l
    let key := s.rd F.MCT_MC_LAND.KEY l
    let fin (s : State) (st missed : Nat) : State :=
      s.complete ⟨cq, leAt b 24 8, l, st, 0x30, true, x.length, pkSrc b, mseq + g * 65536, missed, 0, none⟩
    match s.keyUse .mcland key off x.length ⟨0, s.ownerOf cq, 0, 0, 0⟩ with
    | (.error _, s) => fin (s.raise .MCT_MC_BOUNDS g) 2 0
    | (.ok idx, s) =>
      let s := if x.isEmpty then s else s.place idx off x
      if root ∨ mseq = next then fin s 0 0
      else fin (s.inc F.MCT_COUNT.MC_GAPS) 1 ((mseq + 65536 - next) % 65536)

/-- The page entries that a replica's landing needs and the region cache does not hold (R260). -/
def State.mcPages (s : State) (b : Bytes) : List (Nat × Nat) :=
  let l := s.rd F.MCT_MC_CTL.LAND (pkDst b % 2 ^ 14)
  let cq := s.rd F.MCT_MC_LAND.CQ l
  if !s.on F.MCT_MC_LAND.VALID l || s.q cq Q.CQ_STATE == cqOver then []
  else s.pagesDue .mcland (s.rd F.MCT_MC_LAND.KEY l) (leAt b 16 8) (pkPayload b).length ⟨0, s.ownerOf cq, 0, 0, 0⟩

/-- A replica can be handled now: it has no landing, or its landing CQ's context is cached and takes or parks a completion (R194, R250);
one in OVERFLOW refuses it. -/
def State.mcRoom (s : State) (b : Bytes) : Bool :=
  let l := s.rd F.MCT_MC_CTL.LAND (pkDst b % 2 ^ 14)
  let cq := s.rd F.MCT_MC_LAND.CQ l
  !s.on F.MCT_MC_LAND.VALID l || ((s.c cq).cached && (s.q cq Q.CQ_STATE == cqOver || s.parkRoom cq))

end Sys2Proof.Machine
end

