-- ==== Sys2Proof/Machine/Work.lean ====
section
/-! DEFINITION. Work entries: the checks at taking (Table 7.11), the beginning of each operation by its owner's rules, local
data, and queue commands (Tables 7.7, 7.8, 7.25). -/

namespace Sys2Proof.Machine

/-! ### Scheduling (R247) -/

/-- The owner of a queue's next entry holds it (R247): packets of the queue wait for its window (R266) or for the limiter of its remote
node (R176), the MC_PUT bucket is empty (R189), the tree has sixteen operations open (R201). -/
def State.ownerHolds (s : State) (c : Ctx) (b : Bytes) : Bool :=
  let op := leAt b 0 1
  !c.todo.isEmpty ||
  (((decide (1 ≤ op) && decide (op ≤ 4)) || op == 0x20) &&
    (decide (s.window ≤ diff24 (c.f Q.NEXT_PSN) (c.f Q.UNA_PSN)) || s.limitedTo (c.f Q.REMOTE_NODE))) ||
  (op == 0x30 && decide (s.mct.bucket ≤ 0)) ||
  (op == 0x31 && (match s.tree (leAt b 16 2) with | some t => decide (16 ≤ t.openOps.length) | none => false))

/-- A queue holds an entry at or beyond TAKEN that DB covers, as far as the slots read show (R243, R247). -/
def Ctx.hasWork (c : Ctx) : Bool :=
  let n := diff32 (c.f Q.DB) (c.f Q.TAKEN)
  match tabGet c.slots (c.f Q.TAKEN) with
  | some b => decide (entSlots b ≤ n)
  | none => decide (1 ≤ n)

/-- A queue is eligible (R247). -/
def State.eligibleQ (s : State) (g : Nat) (c : Ctx) : Bool :=
  c.cached && c.f Q.STATE == qActive && c.hasWork && !s.cqHold g && decide (c.ents.length < c.f Q.MAX_OUT) &&
  (match tabGet c.slots (c.f Q.TAKEN) with | some b => !s.ownerHolds c b | none => c.todo.isEmpty)

/-- The eligible queues whose next entry has been read: one of them is served (log entry 98). -/
def State.eligibles (s : State) : List (Nat × Ctx) := s.hif.ctx.filter (fun e => s.eligibleQ e.1 e.2 && e.2.nextEnt.isSome)

/-- The queue in turn of a class: the same one while its turn lasts, else the next higher number. -/
def nextQueue (last turn : Nat) (cs : List (Nat × Ctx)) : Option (Nat × Ctx) :=
  match cs.find? (fun x => x.1 == last && decide (turn < x.2.f Q.WEIGHT)) with
  | some x => some x
  | none =>
    match cs.find? (fun x => decide (last < x.1)) with
    | some x => some x
    | none => cs.head?

/-- Deficit round robin over the classes of the eligible queues (R247; log entry 11). -/
def State.drrQ (s : State) (cs : List (Nat × Ctx)) (turn : List Nat) : Nat → Arb → Option (Nat × Ctx) × Arb
  | 0, a => (none, a)
  | n + 1, a =>
    match nextQueue (a.last.getD a.cls 0) (turn.getD a.cls 0) (cs.filter (fun x => x.2.f Q.TC == a.cls)) with
    | some x =>
      let cost := 64 * (match x.2.nextEnt with | some e => e.1 | none => 1)
      if cost ≤ a.deficit.getD a.cls 0 then
        (some x, { a with deficit := a.deficit.set a.cls (a.deficit.getD a.cls 0 - cost), last := a.last.set a.cls x.1 })
      else
        let c := (a.cls + 1) % 8
        State.drrQ s cs turn n { a with cls := c, deficit := a.deficit.set c (a.deficit.getD c 0 + 64 * s.weight c) }
    | none =>
      let c := (a.cls + 1) % 8
      let d := a.deficit.set a.cls 0
      State.drrQ s cs turn n { a with cls := c, deficit := d.set c (d.getD c 0 + 64 * s.weight c) }

/-- The queue that is served next (R247). -/
def State.schedule (s : State) : Option Nat × State :=
  let cs := s.eligibles
  match cs.filter (fun e => s.rdI F.HIF_SCHED.AGE_PROMOTE (s.pfOf e.1) 0 ≤ e.2.age) with
  | c :: r => (some (r.foldl (fun a x => if a.2.age < x.2.age then x else a) c).1, s)
  | [] =>
    if cs.isEmpty then (none, s) else
    let (x, a) := s.drrQ cs s.hif.turn 64 s.hif.arb
    match x with
    | some x =>
      let tc := x.2.f Q.TC
      let n := s.hif.turn.getD tc 0
      let same := s.hif.arb.last.getD tc 0 == x.1 && decide (n < x.2.f Q.WEIGHT)
      (some x.1, s.modHif (fun h => { h with arb := a, turn := h.turn.set tc (if same then n + 1 else 1) }))
    | none => (none, s)

/-- Whether the next entry of the queue in turn has one of the opcodes of `ok`; then that queue, served. -/
def State.serve (s : State) (ok : Nat → Bool) : Option (Nat × Nat × Bytes × State) :=
  if !s.en uHIF then none else
  match s.schedule with
  | (some g, s) =>
    match (s.c g).nextEnt with
    | some (n, b) =>
      if ok (leAt b 0 1) then
        let s := s.modCtx g (fun c =>
          let t := c.f Q.TAKEN
          let sl := (List.range n).foldl (fun tb i => tabDel tb (add32 t i)) c.slots
          let c := c.put Q.TAKEN (add32 t n)
          { c with age := 0, served := true, slots := sl })
        some (g, n, b, s)
      else none
    | none => none
  | (none, _) => none

/-- The queue AGE rule and FULL_BEATS of one boundary (R247, Table 7.8), and the age of push halves (R244). -/
def State.hifBeat (s : State) : State :=
  let full := (s.hif.ctx.filter (fun e => e.2.f Q.CQ_STATE == cqFull)).map (·.1)
  let s := foldS full s (fun s g => if s.away g then s.await g .fullBeat else s.ctxOp g .fullBeat)
  s.modHif (fun h => { h with
    ctx := h.ctx.map (fun e =>
      let up := s.eligibleQ e.1 e.2 && !e.2.served
      (e.1, { e.2 with age := if up then min 31 (e.2.age + 1) else e.2.age, served := false })),
    push := h.push.map (fun e => (e.1, { e.2 with beats := min 3 (e.2.beats + 1) })) })

/-! ### Entries -/

/-- Opcodes (Tables 7.10, 8.5, 9.4). -/
abbrev oNop : Nat := 0
abbrev oPut : Nat := 1
abbrev oPutImm : Nat := 2
abbrev oGet : Nat := 3
abbrev oAtomic : Nat := 4
abbrev oSend : Nat := 0x20
abbrev oRecv : Nat := 0x21
abbrev oCancel : Nat := 0x22
abbrev oMcPut : Nat := 0x30
abbrev oColl : Nat := 0x31

/-- An assigned opcode (R235). -/
def opAssigned (op : Nat) : Bool := [oNop, oPut, oPutImm, oGet, oAtomic, oSend, oRecv, oCancel, oMcPut, oColl].contains op

/-- Fields of an entry: header flags and the operation block. -/
def eOp (b : Bytes) : Nat := leAt b 0 1
def eFlags (b : Bytes) : Nat := leAt b 1 1
def eFence (b : Bytes) : Bool := bit (eFlags b) 1
def eInline (b : Bytes) : Bool := bit (eFlags b) 2
def eFrag (b : Bytes) : Bool := bit (eFlags b) 3
def eBlk (b : Bytes) : Bytes := b.drop 16

/-- The length of an operation's local data (R237, R238). -/
def eLen (b : Bytes) : Nat :=
  let o := eBlk b
  match eOp b with
  | 4 => if eInline b then 32 else leAt o 1 1
  | 0x30 => leAt o 2 2
  | 0x21 => leAt o 24 4
  | _ => leAt o 0 4

/-- Local key and offset of an operation's data. -/
def eKey (b : Bytes) : Nat := leAt (eBlk b) (if eOp b = 0x21 then 28 else 4) 4
def eOff (b : Bytes) : Nat := leAt (eBlk b) (if eOp b = 0x21 then 32 else 8) 8

/-- INLINE and FRAG of Table 7.10 and its owners' tables. -/
def mayInline (op : Nat) : Bool := [oPut, oPutImm, oAtomic, oSend, oMcPut].contains op
def mayFrag (op : Nat) : Bool := [oPut, oPutImm, oGet, oSend, oMcPut].contains op

/-- Check 1 of Table 7.11. -/
def headerBad (b : Bytes) (idx : Nat) : Bool :=
  decide (16 ≤ eFlags b) || leAt b 3 1 != 0 || leAt b 6 2 != 0 || leAt b 2 1 == 0 || decide (4 < leAt b 2 1) || leAt b 4 2 != idx % 65536

/-- Check 3 of Table 7.11 (R237, R238). -/
def formBad (b : Bytes) : Bool :=
  let op := eOp b
  let n := leAt b 2 1
  let len := eLen b
  (eInline b && !mayInline op) || (eFrag b && !mayFrag op) || (eInline b && eFrag b) ||
  (eInline b && (len == 0 || decide (192 < len) || n != 1 + (len + 63) / 64 || leNat (b.drop (64 + len)) != 0)) ||
  (eFrag b && (n != 2 || leAt b 74 2 != 0 || leNat (b.drop 80) != 0))

/-- The fragment descriptor breaks R238. -/
def fragDescBad (b : Bytes) : Bool :=
  eFrag b && (leAt b 64 8 % 16 != 0 || leAt b 72 2 == 0 || decide (256 < leAt b 72 2) || leAt b 76 4 != eLen b)

/-- The block of an RMA operation breaks R264. -/
def rmaBlockBad (b : Bytes) : Bool :=
  let o := eBlk b
  let len := leAt o 0 4
  if eOp b = oAtomic then
    let aop := leAt o 0 1
    let sz := leAt o 1 1
    leAt o 2 2 != 0 || leAt o 20 4 != 0 || decide (9 < aop) || !(sz == 4 || sz == 8 || (sz == 16 && aop == 2)) ||
    leAt o 8 8 % max 1 sz != 0 || leAt o 24 8 % max 1 sz != 0 || (sz == 16) != eInline b
  else
    leAt o 20 4 != 0 || leAt o 40 8 != 0 || decide (2 ^ 31 ≤ len) || (eOp b == oGet && len == 0) ||
    (eOp b != oPutImm && leAt o 32 8 != 0)

/-- The block of an MC_PUT breaks R188. -/
def State.mcBlockBad (s : State) (b : Bytes) : Bool :=
  let o := eBlk b
  let g := leAt o 0 2
  let len := leAt o 2 2
  decide (2 ^ 14 ≤ g) || len % 8 != 0 || (decide (40 ≤ len) && decide (len ≤ 56)) || decide (4096 < len) ||
  !s.on F.MCT_MC_CTL.VALID (g % 2 ^ 14) || s.rd F.MCT_MC_CTL.ROOT (g % 2 ^ 14) != s.nodeId || leNat ((o.drop 32).take 16) != 0

/-- Check 4 of Table 7.11: the block breaks its owner's rules. Bytes that an opcode leaves unused are zero (Table 7.9). -/
def State.blockBad (s : State) (g : Nat) (b : Bytes) : Bool :=
  let op := eOp b
  if op = oNop then leNat ((eBlk b).take 48) != 0
  else if op ≤ 4 then rmaBlockBad b
  else if op = oMcPut then s.mcBlockBad b
  else if op = oColl then collBlockBad (eBlk b)
  else s.matBlockBad g b

/-- The first check of Table 7.11 that an entry fails. -/
def State.entryBad (s : State) (g idx : Nat) (b : Bytes) : Option Nat :=
  if headerBad b idx then some erHeader
  else if !opAssigned (eOp b) then some erOpcode
  else if formBad b then some erForm
  else if s.blockBad g b then some erBlock
  else if fragDescBad b then some erFrag
  else none

/-- The parts of an entry's local data: its fragments, or its one key. -/
def Ent.parts (e : Ent) : List (Nat × Nat × Nat) := if eFrag e.b then e.frags else [(eKey e.b, eLen e.b, eOff e.b)]

/-- The parts' regions, which hold the regions until the entry retires (R259). -/
def Ent.partRegs (e : Ent) : List Nat := (e.parts.filter (fun p => p.2.1 != 0 && p.1 != 0)).map (fun p => p.1 / 256)

/-- End an entry with a status; RMA and SEND statuses are kept as CAUSE (Table 8.3). -/
def State.entFail (s : State) (g : Nat) (e : Ent) (st : Nat) : State :=
  let op := eOp e.b
  let s := if op ≤ 4 ∨ op = oSend then s.setQ g Q.CAUSE st else s
  s.endEnt g e.idx ⟨0, st, 0, 0, if op ≤ 4 ∨ op = oSend then s.q g Q.REMOTE_NODE else 0⟩

/-- The landing of a RECV is checked as it is taken (R293), once the page entries that its check needs are there (R260). -/
def State.recvCheck (s : State) (g : Nat) (e : Ent) : State :=
  match s.partsDue .lwrite (s.keyCtx g) e.parts with
  | [] =>
    match s.partsUse .lwrite (s.keyCtx g) e.parts with
    | (false, s) => s.modEnt g e.idx (fun x => { x with ready := true, fin := some ⟨0, stLocal, 0, 0, 0⟩ })
    | (true, s) => s.modEnt g e.idx (fun x => { x with ready := true, regs := e.partRegs })
  | ps => s.pagesAsk ps

/-- The device takes a RECV or CANCEL: it has its place in the take order (R299). -/
def State.matTaken (s : State) (g idx : Nat) : State :=
  s.modMat (fun x => { x with taken := x.taken.filter (fun t => (s.ent t.1 t.2).isSome) ++ [(g, idx)] })

/-- X_ENTRY: the queue in turn is served, if its next entry has one of the opcodes; the entry is checked as it is taken. -/
def State.takeEntry (s : State) (ok : Nat → Bool) : State :=
  match s.serve ok with
  | none => s
  | some (g, n, b, s) =>
    let idx := diff32 (s.q g Q.TAKEN) n
    let e : Ent := ⟨idx, n, b, true, false, none, false, none, [], [], none, none, false⟩
    let add (s : State) (e : Ent) : State := s.modCtx g (fun c => { c with ents := c.ents ++ [e] })
    match s.entryBad g idx b with
    | some r => (((add s { e with fin := some ⟨2, 0, 0, 0, 0⟩ }).queueError g r idx).ringFetch g).post (.run g)
    | none =>
      let s :=
        if eFrag b then
          let len := 16 * leAt b 72 2
          let s := add s { e with ready := false }
          (s.modHif (fun h => { h with reads := h.reads ++ [⟨.frag g idx, s.ownerOf g, len⟩] })).readHost (s.ownerOf g) (leAt b 64 8) len
        else if eOp b = oRecv then (add s { e with ready := false }).recvCheck g e
        else add s e
      let s := if eOp b = oRecv ∨ eOp b = oCancel then s.matTaken g idx else s
      (s.ringFetch g).post (.run g)

/-- Read the local source of an entry, in its parts. -/
def State.readParts (s : State) (g : Nat) (e : Ent) : State :=
  let n := e.parts.foldl (fun a p => a + p.2.1) 0
  let s := s.modHif (fun h => { h with reads := h.reads ++ [⟨.data g e.idx, s.ownerOf g, n⟩] })
  foldS (e.parts.filter (fun p => p.2.1 != 0)) s (fun s p => s.fetch (p.1 / 256) p.2.2 p.2.1)

/-- Zero padding of a payload of 40 to 56 bytes to 64 (R265, R296). -/
def pad64 (b : Bytes) : Bytes :=
  let n := (b.length + 7) / 8 * 8
  if 40 ≤ n ∧ n ≤ 56 then b ++ List.replicate (64 - b.length) 0 else b

/-- The data of an entry is at hand: its packets join the queue's (R265, R291). -/
def State.entData (s : State) (g : Nat) (e : Ent) (x : Bytes) : State :=
  let o := eBlk e.b
  let len := eLen e.b
  let s := s.modEnt g e.idx (fun e => { e with data := some x })
  let push (s : State) (ts : List Todo) : State := s.modCtx g (fun c => { c with todo := c.todo ++ ts })
  let op := eOp e.b
  if op = oPut ∨ op = oPutImm then
    let ps := cutMsg len
    let last := ps.length - 1
    let ts := ps.zipIdx.map (fun p =>
      let d := (x.drop p.1.1).take p.1.2
      (⟨0x10, some e.idx, none, leBytes 1 ((8 - p.1.2 % 8) % 8 + 8 * b2n (p.2 == last)) ++ leBytes 4 (leAt o 16 4) ++
        leBytes 8 (leAt o 24 8 + p.1.1), d, none⟩ : Todo))
    let imm : List Todo := if op = oPutImm then
      [⟨0x11, some e.idx, none, leBytes 13 0, leBytes 8 (leAt o 32 8) ++ leBytes 4 len ++ leBytes 4 0, none⟩] else []
    push s (ts ++ imm)
  else if op = oSend then
    push s [⟨0x40, some e.idx, none, leBytes 1 0 ++ leBytes 3 (e.msn.getD 0) ++ leBytes 1 0 ++ leBytes 8 (leAt o 16 8),
      pad64 (leBytes 4 len ++ leBytes 4 0 ++ x), none⟩]
  else s

/-- The source of a PUT, PUT_IMM, SEND or MC_PUT: inline bytes, no bytes, or a read of host memory. -/
def State.entSource (s : State) (g : Nat) (e : Ent) : State :=
  if eInline e.b then s.entData g e ((e.b.drop 64).take (eLen e.b))
  else if eLen e.b = 0 then s.entData g e []
  else (s.modEnt g e.idx (fun x => { x with regs := e.partRegs })).readParts g e

/-- The key check of a source. -/
def State.sourceUse (s : State) (g : Nat) (e : Ent) : Bool × State :=
  if eInline e.b then (true, s) else s.partsUse .lread (s.keyCtx g) e.parts

/-- The landing of a GET or an ATOMIC; one with key 0 needs no check (R267). -/
def Ent.landing (e : Ent) : List (Nat × Nat × Nat) :=
  (if eOp e.b = oAtomic then [(eKey e.b, leAt (eBlk e.b) 1 1, eOff e.b)] else e.parts).filter (fun p => p.1 != 0)
def State.landingUse (s : State) (k : KeyCtx) (e : Ent) : Bool × State := s.partsUse .lwrite k e.landing

/-- A PUT or PUT_IMM begins (R266). -/
def State.beginPut (s : State) (g : Nat) (e : Ent) : State :=
  match s.sourceUse g e with
  | (false, s) => s.entFail g e stLocal
  | (true, s) => s.entSource g e

/-- A GET begins: one GET_REQ for each piece (R265, R267). -/
def State.beginGet (s : State) (g : Nat) (e : Ent) : State :=
  match s.landingUse (s.keyCtx g) e with
  | (false, s) => s.entFail g e stLocal
  | (true, s) =>
    let o := eBlk e.b
    let s := s.modEnt g e.idx (fun x => { x with frags := e.parts, regs := e.partRegs })
    s.modCtx g (fun c => { c with todo := c.todo ++ (cutMsg (eLen e.b)).map (fun p =>
      ⟨0x12, some e.idx, none, leBytes 1 0 ++ leBytes 4 (leAt o 16 4) ++ leBytes 8 (leAt o 24 8 + p.1),
       leBytes 4 p.2 ++ leBytes 4 0, some (eKey e.b, p.1, p.2)⟩) })

/-- An ATOMIC begins (Table 8.7, R267). -/
def State.beginAtomic (s : State) (g : Nat) (e : Ent) : State :=
  let o := eBlk e.b
  let sz := leAt o 1 1
  match s.landingUse { s.keyCtx g with asize := sz } e with
  | (false, s) => s.entFail g e stLocal
  | (true, s) =>
    let key := eKey e.b
    let code := if sz = 4 then 0 else if sz = 8 then 1 else 2
    let ops := if sz = 16 then (e.b.drop 64).take 32 else (o.drop 32).take sz ++ (o.drop 40).take sz
    let s := s.modEnt g e.idx (fun x => { x with frags := [(key, sz, eOff e.b)], regs := if key = 0 then [] else [key / 256] })
    s.modCtx g (fun c => { c with todo := c.todo ++
      [⟨0x13, some e.idx, none, leBytes 1 (leAt o 0 1 + 16 * code) ++ leBytes 4 (leAt o 16 4) ++ leBytes 8 (leAt o 24 8), ops,
        some (key, 0, sz)⟩] })

/-- A SEND begins: it takes its MSN (R291), also where its check then fails (log entry 25); a rendezvous needs REMOTE_READ of its
region and its queue (R292). -/
def State.beginSend (s : State) (g : Nat) (e : Ent) : State :=
  let o := eBlk e.b
  let len := eLen e.b
  let rdv := decide (s.q g Q.EAGER_MAX < len)
  let noRead := rdv && !(bit (s.q g Q.RIGHTS) 1 && bit ((s.region (eKey e.b / 256)).f RG.ACCESS) 2)
  let msn := s.q g Q.SEND_MSN
  let s := (s.setQ g Q.SEND_MSN (add24 msn 1)).modEnt g e.idx (fun x => { x with msn := some msn })
  let e := { e with msn := some msn }
  match s.sourceUse g e, noRead with
  | (false, s), _ => s.entFail g e stLocal
  | (true, s), true => s.entFail g e stLocal
  | (true, s), false =>
    if rdv then
      let s := (s.modEnt g e.idx (fun x => { x with regs := e.partRegs })).countSrdv g
      s.modCtx g (fun c => { c with todo := c.todo ++
        [⟨0x41, some e.idx, none, leBytes 1 0 ++ leBytes 3 msn ++ leBytes 1 0 ++ leBytes 8 (leAt o 16 8),
          leBytes 4 len ++ leBytes 4 (eKey e.b) ++ leBytes 8 (eOff e.b), none⟩] })
    else s.entSource g e

/-- The entry of a RECV or CANCEL among the events of an ML. -/
def evEntry : MEv → Option (Nat × Nat)
  | .recv q i => some (q, i)
  | .cancel q i => some (q, i)
  | .header _ _ => none

/-- An event that reaches its engine goes before the RECVs and CANCELs that the device took after it, but not before one that the
engine has begun (R299, log entry 131). -/
def Ml.place (x : Ml) (later : Nat × Nat → Bool) (ev : MEv) : Ml :=
  let n := if x.reading.isSome || x.waits then 1 else 0
  let rest := x.events.drop n
  let before := rest.takeWhile (fun v => match evEntry v with | some t => !later t | none => true)
  { x with events := x.events.take n ++ before ++ ev :: rest.drop before.length }

/-- A RECV or CANCEL begins: it becomes an event of its ML in the order in which the device took it (R299), or ends on an ML that is
BROKEN (Table 9.2), or FREE or another function's by now (R284). -/
def State.beginMatch (s : State) (g : Nat) (e : Ent) : State :=
  let m := leAt (eBlk e.b) 0 2
  match s.ml m with
  | none => s.endEnt g e.idx ⟨0, stMlReset, 0, 0, 0⟩
  | some x =>
    if fnInst x.fn ≠ fnInst (s.ownerOf g) then s.endEnt g e.idx ⟨0, stMlReset, 0, 0, 0⟩
    else if x.broken then s.endEnt g e.idx ⟨0, stMlBroken, 0, 0, 0⟩
    else
      let after := s.mat.taken.dropWhile (fun t => t != (g, e.idx))
      s.modMl m (fun x => x.place after.contains (if eOp e.b = oRecv then .recv g e.idx else .cancel g e.idx))

/-- An MC_PUT begins: the check of its source (R188). -/
def State.beginMc (s : State) (g : Nat) (e : Ent) : State :=
  match s.sourceUse g e with
  | (false, s) => s.entFail g e stLocal
  | (true, s) => s.entSource g e

/-- An entry begins. -/
def State.beginEnt (s : State) (g : Nat) (e : Ent) : State :=
  let s := s.modEnt g e.idx (fun x => { x with begun := true })
  match eOp e.b with
  | 0 => s.endEnt g e.idx ⟨0, 0, 0, 0, 0⟩
  | 3 => s.beginGet g e
  | 4 => s.beginAtomic g e
  | 0x20 => s.beginSend g e
  | 0x21 => s.beginMatch g e
  | 0x22 => s.beginMatch g e
  | 0x30 => s.beginMc g e
  | 0x31 => s.collPost g e.idx (eBlk e.b)
  | _ => s.beginPut g e

/-- An entry may begin: checked, FENCE only with nothing before it (R239), a tree that takes one more operation (R201). -/
def State.mayBegin (s : State) (c : Ctx) (e : Ent) : Bool :=
  e.ready && (!eFence e.b || (match c.ents with | x :: _ => x.idx == e.idx | [] => true)) &&
  (eOp e.b != oColl || (match s.tree (leAt (eBlk e.b) 0 2) with
    | some t => decide (t.openOps.length < 16)
    | none => true))

/-- The keys that an entry's local checks use (R261). -/
def Ent.keys (e : Ent) : List Nat :=
  if eOp e.b = oColl then [leAt (eBlk e.b) 12 4, leAt (eBlk e.b) 24 4] else e.parts.map (·.1)

/-- The page entries that the local checks of an entry need as it begins, and the region cache does not hold (R260). -/
def State.entPages (s : State) (g : Nat) (e : Ent) : List (Nat × Nat) :=
  let k := s.keyCtx g
  let op := eOp e.b
  if op = oPut ∨ op = oPutImm ∨ op = oSend ∨ op = oMcPut then (if eInline e.b then [] else s.partsDue .lread k e.parts)
  else if op = oGet then s.partsDue .lwrite k e.landing
  else if op = oAtomic then s.partsDue .lwrite { k with asize := leAt (eBlk e.b) 1 1 } e.landing
  else if op = oColl then (s.collParts (eBlk e.b)).flatMap (fun p => s.partsDue p.1 k [p.2])
  else []

/-- The region cache is read for an entry that is to begin; it waits while a region is fetched again (Table 12.3) and while page entries
are read (R260). -/
def State.entRegions (s : State) (g : Nat) (e : Ent) : Bool × State :=
  let (there, s) := if s.ecc.words.isEmpty && s.ecc.refetch.isEmpty then (true, s)
    else e.keys.foldl (fun a k => let r := a.2.regionRead k; (a.1 && r.1, r.2)) (true, s)
  match s.entPages g e with
  | [] => (there, s)
  | ps => (false, s.pagesAsk ps)

/-- Begin entries in index order. -/
def State.beginAll (s : State) (g : Nat) : Nat → State
  | 0 => s
  | n + 1 =>
    let c := s.c g
    if c.f Q.STATE ≠ qActive ∧ c.f Q.STATE ≠ qStopping then s
    else
      match c.ents.find? (fun e => !e.begun && e.fin.isNone) with
      | none => s
      | some e =>
        if s.mayBegin c e then
          (match s.entRegions g e with
           | (true, s) => State.beginAll (s.beginEnt g e) g n
           | (false, s) => s)
        else s

/-- The MC_PUT packet of a root (R187, R189, Table 6.2). -/
def State.mcPacket (s : State) (g : Nat) (e : Ent) (x : Bytes) (mseq : Nat) : Bytes :=
  let o := eBlk e.b
  mkPacket (leAt o 0 2) s.nodeId 1 (s.q g Q.TC) 0x80 0
    (leBytes 2 mseq ++ leBytes 2 0 ++ leBytes 8 (leAt o 16 8) ++ leBytes 8 (leAt o 24 8)) x false true

/-- The injection port accepts the MC_PUTs of a queue in order, while the bucket is above zero (R189). -/
def State.mcInject (s : State) (g : Nat) : Nat → State
  | 0 => s
  | n + 1 =>
    match (s.c g).ents.find? (fun e => eOp e.b == oMcPut && e.begun && e.fin.isNone) with
    | none => s
    | some e =>
      match e.data with
      | none => s
      | some x =>
        if s.mct.bucket ≤ 0 ∨ !s.en uRTE ∨ !s.en uMCT then s
        else
          let grp := leAt (eBlk e.b) 0 2 % 2 ^ 14
          let mseq := s.rd F.MCT_MC_CTL.NEXT_SEQ grp
          let p := s.mcPacket g e x mseq
          let s := s.wr F.MCT_MC_CTL.NEXT_SEQ (mseq + 1) grp
          let s := (s.modMct (fun m => { m with bucket := m.bucket - pkCredits p })).injectPk p
          State.mcInject (s.endEnt g e.idx ⟨0, 0, x.length, 0, 0⟩) g n

/-- The work of a queue: entries begin, packets leave, entries retire; retiring may let a fenced entry begin. -/
def State.runQ (s : State) (g : Nat) : Nat → State
  | 0 => s
  | n + 1 =>
    let k := (s.c g).ents.length + 1
    let s := (((s.beginAll g k).mcInject g k).finishEnts g |>.pump g 4096).retire g
    if (s.c g).ents.length + 1 < k then State.runQ s g n else s

/-- Run a queue. -/
def State.run (s : State) (g : Nat) : State := s.runQ g ((s.c g).ents.length + 2)

/-- Run the queues that hold an MC_PUT, once the bucket is refilled. -/
def State.runMc (s : State) : State :=
  foldS ((s.hif.ctx.filter (fun c => c.2.ents.any (fun e => eOp e.b == oMcPut))).map (·.1)) s (fun s g => s.post (.run g))

/-- The fragments of a table (Table 7.13); none where it breaks R238. -/
def fragTable (n total : Nat) (b : Bytes) : Option (List (Nat × Nat × Nat)) :=
  let fs := (List.range n).map (fun i => (leAt b (16 * i) 4, leAt b (16 * i + 4) 4, leAt b (16 * i + 8) 8))
  if fs.all (fun f => f.2.1 != 0) && fs.foldl (fun a f => a + f.2.1) 0 == total then some fs else none

/-- A fragment table was read (R238, FETCH_ERR of Table 7.11). -/
def State.fragRead (s : State) (g idx : Nat) (a : Ans) : State :=
  match s.ent g idx with
  | none => s
  | some e =>
    if e.fin.isSome then s
    else match a with
      | .ok b =>
        match fragTable (leAt e.b 72 2) (leAt e.b 76 4) b with
        | some fs => (s.modEnt g idx (fun e => { e with ready := true, frags := fs })).post (.run g)
        | none => ((s.endEnt g idx ⟨2, 0, 0, 0, 0⟩).queueError g erFrag idx).post (.run g)
      | _ => ((s.raise .HIF_DMA_ERR g).queueError g erFetch idx).post (.run g)

/-- Local data was read; data that the host refuses ends the entry with LOCAL_DMA (Table 8.13). -/
def State.dataRead (s : State) (g idx : Nat) (a : Ans) : State :=
  match s.ent g idx with
  | none => s
  | some e =>
    if e.fin.isSome then s
    else match a with
      | .ok b => (s.entData g e ((b ++ List.replicate (eLen e.b) 0).take (eLen e.b))).post (.run g)
      | _ => ((s.raise .HIF_DMA_ERR g).entFail g e 7).post (.run g)

/-- Read `i` is the oldest of those whose answers one list takes in order. -/
def State.readFirst (s : State) (i : Nat) (j : Job) : Bool := j == .gone || !((s.hif.reads.take i).any (fun r => r.job == j))

/-- What waited for page entries goes on (R260): entries that are to begin, RECVs that are to be checked, ML_CREATEs. -/
def State.pagesThere (s : State) : State :=
  let cs := s.hif.ctx.filter (fun c => c.2.ents.any (fun e => !e.begun && e.fin.isNone))
  let s := foldS cs s (fun s c => (foldS (c.2.ents.filter (fun e => eOp e.b == oRecv && !e.ready && e.fin.isNone)) s
    (fun s e => s.recvCheck c.1 e)).post (.run c.1))
  foldS s.mat.checking s (fun s x => s.mlCheck x.1 x.2)

/-- DATA_READ_DONE: outstanding read `i` of local data, of an operand or of a fragment table completes. -/
def State.readDone (s : State) (i : Nat) (a : Ans) : State :=
  match s.hif.reads[i]? with
  | none => s
  | some r =>
    if !s.readFirst i r.job then s
    else
      let s := s.modHif (fun h => { h with reads := h.reads.eraseIdx i })
      match r.job with
      | .frag q idx => s.fragRead q idx a
      | .data q idx => s.dataRead q idx a
      | .serve q psn => s.serveDone q psn a
      | .slot ml => s.slotDone ml a
      | .chunk t seq c => s.chunkRead t seq c a
      | .page k p => (s.pageRead k p a).pagesThere
      | .gone => s

/-! ### Queue commands -/

/-- End a queue command (Table 7.26). -/
def State.qcmdEnd (s : State) (f : Fn) (cmd code n : Nat) : State :=
  let i := fnInst f
  let s := s.modHif (fun h => { h with cmds := h.cmds.filter (fun k => fnInst k.fn != i) })
  let s := (s.wrI F.HIF_QUEUE_RESULT.BUSY i 0 0).wrI F.HIF_QUEUE_RESULT.CODE i 0 code
  (s.wrI F.HIF_QUEUE_RESULT.CMD i 0 cmd).wrI F.HIF_QUEUE_RESULT.NUM i 0 n

/-- Read the descriptor of a create. -/
def State.qcmdFetch (s : State) (k : QCmd) : State :=
  let s := s.modHif (fun h => { h with cmds := h.cmds.map (fun x => if fnInst x.fn = fnInst k.fn then { x with desc := true } else x) })
  s.readHost k.fn (s.rdI F.HIF_QUEUE_ADDR.ADDR (fnInst k.fn) 0 * 64) 256

/-- Something is bound to a CQ (R233). -/
def State.cqBound (s : State) (cq : Nat) : Bool :=
  !(s.boundQueues cq).isEmpty || (List.range 256).any (fun i => s.on F.MCT_MC_LAND.VALID i && s.rd F.MCT_MC_LAND.CQ i == cq)

/-- Completions wait or are parked for a CQ. -/
def State.cqWaiting (s : State) (cq : Nat) : Bool := (s.hif.wait ++ s.hif.late).any (fun w => w.cq == cq)

/-- A number whose queue and CQ are both FREE after a stub: the stub goes, and the entry is read again when it is needed. -/
def State.dropStub (s : State) (g : Nat) : State :=
  let c := s.c g
  if c.stub ∧ c.f Q.STATE = qFree ∧ c.f Q.CQ_STATE = cqFree then s.modHif (fun h => { h with ctx := tabDel h.ctx g }) else s

/-- A queue command with its context at hand (Tables 7.7 and 7.8). -/
def State.qcmdGo (s : State) (k : QCmd) : State :=
  let s := s.useCtx k.g
  let c := s.c k.g
  let st := c.f Q.STATE
  let cs := c.f Q.CQ_STATE
  let fin (s : State) (code : Nat) : State := s.qcmdEnd k.fn k.cmd code k.num
  match k.cmd with
  | 1 => if st = qFree then s.qcmdFetch k else fin s 2
  | 2 =>
    if st = qOff ∨ (st = qError ∧ c.f Q.REASON = erCtx ∧ c.ents.isEmpty) then
      let s := (s.wr F.HIF_Q_CTRL.ENABLE 0 k.g).modCtx k.g (fun c => (c.put Q.STATE qFree).put Q.QGEN ((c.f Q.QGEN + 1) % 256))
      fin (((s.matQueueGone k.g true |>.queueGone k.g).post (.queueFreed k.g)).dropStub k.g) 0
    else fin s 2
  | 3 => if cs = cqFree then s.qcmdFetch k else fin s 2
  | 4 =>
    if cs ≠ cqOver then fin s 2
    else if s.cqWaiting k.g ∨ (s.boundQueues k.g).any (fun g => s.q g Q.STATE == qActive || s.q g Q.STATE == qStopping) then fin s 6
    else fin (s.setQ k.g Q.CQ_STATE cqReady) 0
  | _ =>
    if cs = cqReady then (if s.cqBound k.g then fin s 6 else fin (s.setQ k.g Q.CQ_STATE cqFree) 0)
    else if cs = cqOver then
      (if s.cqBound k.g ∨ (s.cqWaiting k.g ∧ !c.stub) then fin s 6 else fin ((s.setQ k.g Q.CQ_STATE cqFree).dropStub k.g) 0)
    else fin s 2

/-- HIF_QUEUE_CMD is written (Table 7.25). -/
def State.queueCmd (s : State) (f : Fn) (cmd n : Nat) : State :=
  if !s.en uHIF then s.qcmdEnd f cmd 5 n
  else match s.gOf f n with
    | none => s.qcmdEnd f cmd 3 n
    | some g =>
      if !s.qctCovers g then s.qcmdEnd f cmd 3 n
      else
        let k : QCmd := ⟨f, cmd, n, g, false⟩
        let i := fnInst f
        let s := s.modHif (fun h => { h with cmds := h.cmds ++ [k] })
        let s := ((s.wrI F.HIF_QUEUE_RESULT.BUSY i 0 1).wrI F.HIF_QUEUE_RESULT.CMD i 0 cmd).wrI F.HIF_QUEUE_RESULT.NUM i 0 n
        if (s.c g).cached then s.qcmdGo k else s.needCtx g

/-- The queue part of a descriptor is within Table 7.5. -/
def queueDescOk (b : Bytes) (qcount : Nat) : Bool :=
  leAt b 0 8 % 4096 == 0 && decide (6 ≤ leAt b 8 1) && decide (leAt b 8 1 ≤ 16) && decide (leAt b 9 1 < 4) && decide (leAt b 10 1 < 8) &&
  decide (1 ≤ leAt b 11 1) && decide (leAt b 12 4 < 2 ^ 20) && decide (leAt b 12 4 < qcount) && decide (leAt b 16 4 < 2 ^ 20) &&
  decide (leAt b 16 4 < qcount) && decide (1 ≤ leAt b 22 2) && decide (leAt b 22 2 ≤ 1024) && leAt b 24 8 == 0

/-- The CQ part of a descriptor is within Table 7.6. -/
def cqDescOk (b : Bytes) (eqcount : Nat) : Bool :=
  leAt b 64 8 % 4096 == 0 && decide (6 ≤ leAt b 72 1) && decide (leAt b 72 1 ≤ 16) && leAt b 73 1 == 0 && decide (leAt b 74 2 < eqcount) &&
  leAt b 76 4 == 0

/-- The descriptor of a queue command was read (R226, R227). -/
def State.queueDescDone (s : State) (f : Fn) (a : Ans) : State :=
  match s.hif.cmds.find? (fun k => fnInst k.fn == fnInst f && k.desc) with
  | none => s
  | some k =>
    match a with
    | .ok d0 =>
      let d := (d0 ++ List.replicate 256 0).take 256
      if k.cmd = 1 then
        if !queueDescOk d (s.qCount (s.ownerOf k.g)) || !s.transportOk f d || !s.matchOk (s.ownerOf k.g) d then s.qcmdEnd f 1 1 k.num
        else
          let s := s.modCtx k.g (fun c =>
            let tr := transportInit d (c.f Q.QGEN)
            let c := { c with b := d.take 32 ++ List.replicate 32 0 ++ (c.b.drop 64).take 64 ++ tr.drop 128, asked := 0, slots := [] }
            c.put Q.STATE qOff)
          s.qcmdEnd f 1 0 k.num
      else if !cqDescOk d (s.eqCount (s.ownerOf k.g)) then s.qcmdEnd f 3 1 k.num
      else
        let s := s.modCtx k.g (fun c =>
          let c := { c with b := putBytes c.b 64 ((d.drop 64).take 16 ++ List.replicate 44 0), stub := false }
          c.put Q.CQ_STATE cqReady)
        s.qcmdEnd f 3 0 k.num
    | _ => (s.raise .HIF_DMA_ERR).qcmdEnd f k.cmd 4 k.num

end Sys2Proof.Machine
end

