-- ==== Sys2Proof/Machine/CohHome.lean ====
section
/-! DEFINITION. Coherent domains at the home (10_coherent_domains.md): members and addresses, home entries and credits,
transactions of a line (Table 10.6), time-outs, recalls, atomics. -/

namespace Sys2Proof.Machine

def State.modCoh (s : State) (f : Coh → Coh) : State := { s with coh := f s.coh }

/-- FLAGS of Table 10.4. -/
abbrev cfPoison : Nat := 1
abbrev cfDirty : Nat := 2
abbrev cfStaleF : Nat := 4
abbrev cfResent : Nat := 8
abbrev cfCredited : Nat := 16
abbrev cfHomereq : Nat := 32
abbrev cfKept : Nat := 64
abbrev cfNodata : Nat := 128

def State.ownMid (s : State) : Nat := s.rd F.COH_MODE.MID
def State.memberDead (s : State) (m : Nat) : Bool := s.on F.COH_MEMBER.DEAD m
def State.memberNode (s : State) (m : Nat) : Nat := s.rd F.COH_MEMBER.NODE m

/-- The live member of a node (R312). -/
def State.memberOf (s : State) (node : Nat) : Option Nat :=
  (List.range 64).find? (fun m => s.on F.COH_MEMBER.VALID m && s.memberNode m == node && !s.memberDead m)

/-- Home MID, export and offset of a line (R313). -/
def lineMid (line : Nat) : Nat := bits (line * 64) 40 6
def lineExport (line : Nat) : Nat := bits (line * 64) 39 1
def lineOff (line : Nat) : Nat := bits (line * 64) 0 39

/-- An export answers: VALID, with its CXL.cache link up (R314, R419). -/
def State.exportUp (s : State) (k : Nat) : Bool :=
  s.on F.COH_EXPORT.VALID k && s.rdI F.HIF_PORT_STATUS.LINK_UP (2 * k) 0 == 1 && s.rdI F.HIF_PORT_STATUS.CACHE (2 * k) 0 == 1

/-- A line is one of this home's exports (R314). -/
def State.lineOk (s : State) (line : Nat) : Bool :=
  lineMid line == s.ownMid && s.exportUp (lineExport line) && decide (lineOff line < s.rd F.COH_EXPORT.SIZE (lineExport line) * 2 ^ 28)

/-- The host physical address of a line at its home. -/
def State.lineHpa (s : State) (line : Nat) : Nat := s.rd F.COH_EXPORT.BASE (lineExport line) * 2 ^ 28 + lineOff line

/-- CXL.cache requests to the host (R316): 0 RdShared, 1 RdOwn, 2 DirtyEvict, 3 CleanEvict, 4 a data write, 5 a write that
sets Poison and keeps the host's data (R333). -/
def State.toHost (s : State) (line op : Nat) (b : Bytes) (poison : Bool) : State :=
  s.emit (.cacheReq (lineExport line) op (s.lineHpa line) b poison)

/-- Send a coherence packet (R322); its traffic class is open (log entry 26). -/
def State.cohSend (s : State) (m vn kind line txid reqMid flags htx aop : Nat) (payload : Bytes) : State :=
  let (tc, s) := s.pick 8
  s.send (mkPacket (s.memberNode m) s.nodeId vn tc kind 0
    (leBytes 8 (line * 64) ++ leBytes 2 txid ++ leBytes 1 reqMid ++ leBytes 1 flags ++ leBytes 2 htx ++
     leBytes 1 (s.rd F.COH_MODE.DOMAIN) ++ leBytes 1 aop ++ leBytes 4 0) payload)

/-- Transport words of a coherence packet (Table 10.4). -/
def cpLine (b : Bytes) : Nat := leAt b 12 8 / 64
def cpTxid (b : Bytes) : Nat := leAt b 20 2
def cpMid (b : Bytes) : Nat := leAt b 22 1
def cpFlags (b : Bytes) : Nat := leAt b 23 1
def cpHtx (b : Bytes) : Nat := leAt b 24 2
def cpAop (b : Bytes) : Nat := leAt b 27 1
def cpFlag (b : Bytes) (f : Nat) : Bool := (cpFlags b) / f % 2 == 1

/-- A coherence packet is malformed (R321, R322). -/
def cohBad (b : Bytes) : Bool :=
  let k := pkKind b
  let pw := pkPwords b
  let short (n : Nat) : Bool := !pkLong b && pw == n
  let line := pkLong b && pw == 8
  let vn := pkVn b
  bits (pkFrame b) 18 14 != 0 || decide (2 ^ 46 ≤ leAt b 12 8) || leAt b 12 8 % 64 != 0 || decide (2 ^ 11 ≤ cpHtx b) || leAt b 28 4 != 0 ||
  decide (64 ≤ cpMid b) || (vn == 1 && cpHtx b != 0) || (k != 0x63 && k != 0x79 && cpAop b != 0) ||
  (match k with
  | 0x60 => vn != 1 || !short 0
  | 0x61 => vn != 1 || !short 0
  | 0x62 => vn != 1 || !short 0
  | 0x63 => vn != 1 || pkLong b || pw == 0 || decide (48 ≤ cpAop b) || decide (9 < bits (cpAop b) 0 4)
  | 0x64 => vn != 1 || !line
  | 0x65 => vn != 1 || !short 0
  | 0x68 => vn != 3 || !short 0
  | 0x69 => vn != 3 || !short 0
  | 0x6A => vn != 3 || !short 0
  | 0x70 => vn != 2 || !line
  | 0x71 => vn != 2 || !line
  | 0x72 => vn != 2 || !short 0
  | 0x73 => vn != 2 || !short 0
  | 0x74 => vn != 2 || !(short 0 || line)
  | 0x75 => vn != 2 || !short 0
  | 0x76 => vn != 2 || !short 0
  | 0x77 => vn != 2 || !short 0
  | 0x78 => vn != 2 || !short 0
  | 0x79 => vn != 2 || !(short 1 || short 2) || bits (cpAop b) 0 4 != 0 || decide (48 ≤ cpAop b)
  | _ => true)

def State.cohStale (s : State) : State := s.inc F.COH_COUNT.STALE

/-- A packet at the COH unit: R321, R340, R312; then `f` with its sender. -/
def State.cohPacket (s : State) (b : Bytes) (f : State → Nat → State) : State :=
  if cohBad b then s.malformed
  else if !s.en uCOH then s.cohStale
  else
    let m := s.memberOf (pkSrc b)
    match m, leAt b 26 1 == s.rd F.COH_MODE.DOMAIN with
    | some m, true => f s m
    | _, _ =>
      if s.coh.notLogged.contains (pkSrc b) then s
      else (s.modCoh (fun c => { c with notLogged := c.notLogged ++ [pkSrc b] })).raise .COH_NOT_MEMBER

/-! ### Home lines -/

def State.dirOf (s : State) (line : Nat) : Dir := tabGetD s.coh.dir line Dir.unc
def Dir.idle (d : Dir) : Bool := d.tx.isNone && d.snoops.isEmpty && d.waiting.isEmpty && d.sharers.isEmpty && d.owner.isNone

/-- Change a line at its home; a line with nothing to keep is not listed. -/
def State.modDir (s : State) (line : Nat) (f : Dir → Dir) : State :=
  let d := f (s.dirOf line)
  s.modCoh (fun c => { c with dir := if d.idle then tabDel c.dir line else tabPut c.dir line d })

def State.modTx (s : State) (line : Nat) (f : HTx → HTx) : State := s.modDir line (fun d => { d with tx := d.tx.map f })

/-- A line is busy, or has something that waits for it. -/
def Dir.busy (d : Dir) : Bool := d.tx.isSome || !d.snoops.isEmpty || !d.waiting.isEmpty

/-- Home entries in use (R325): those of requests, and of recalls from 1,024 on. -/
def State.homeUsed (s : State) : List Nat :=
  s.coh.dir.flatMap (fun e => (match e.2.tx with | some t => [t.htx] | none => []) ++ e.2.waiting.map (·.htx)) ++ s.coh.credits.map (·.htx)

/-- Request entries in use by a member. -/
def State.homeUsedBy (s : State) (m : Nat) : Nat :=
  s.coh.dir.foldl (fun a e => a + (match e.2.tx with | some t => if t.kind < 4 ∧ t.mid = m then 1 else 0 | none => 0) +
    (e.2.waiting.filter (fun r => r.mid == m)).length) 0

/-- A free entry of a range; which one is open (log entry 27). -/
def State.freeHtx (s : State) (lo n : Nat) : Option Nat × State :=
  let used := s.homeUsed
  let free := ((List.range n).map (· + lo)).filter (fun h => !used.contains h)
  if free.isEmpty then (none, s) else let (i, s) := s.pick free.length; (free[i]?, s)

/-- The set of a line in the directory cache and in the window cache (log entry 28). -/
def cacheSet (line : Nat) : Nat := line % 32768

/-- Ways of a directory set in use. -/
def State.dirWays (s : State) (set : Nat) : Nat := (s.coh.dir.filter (fun e => cacheSet e.1 == set && e.2.way)).length

/-- Send INV for a transaction (VN3). -/
def State.sendInv (s : State) (line m : Nat) (t : HTx) : State := s.cohSend m 3 0x6A line t.txid t.mid 0 t.htx 0 []

/-- Send a forward. -/
def State.sendFwd (s : State) (line o : Nat) (x : Bool) (home : Bool) (t : HTx) : State :=
  s.cohSend o 3 (if x then 0x69 else 0x68) line t.txid (if home then s.ownMid else t.mid) (if home then cfHomereq else 0) t.htx 0 []

/-- A recall transaction of a line (R317, R338): 4 SnpInv, 5 SnpData or SnpCur, 7 directory victim. Its TXID is open. -/
def State.openRecall (s : State) (line kind htx : Nat) : State :=
  let d := s.dirOf line
  let (x, s) := s.pick 65536
  let inv := kind != 5
  let t : HTx := ⟨3, s.ownMid, x, htx, kind, 0, [], if inv then d.sharers else [], d.owner.getD 0, d.owner.isSome, false, false, none,
    false, inv, false, s.beat, [], false⟩
  let s := s.modDir line (fun d => { d with tx := some t })
  match d.owner with
  | some o => s.sendFwd line o inv true t
  | none => if inv then foldS d.sharers s (fun s m => s.sendInv line m t) else s

/-- The recall of a line whose directory entry was lost (Table 12.3): INV to every VALID member that is not DEAD. Its TXID is open. -/
def State.openLost (s : State) (line htx : Nat) : State :=
  let ms := (List.range 64).filter (fun m => s.on F.COH_MEMBER.VALID m && !s.memberDead m && m != s.ownMid)
  let (x, s) := s.pick 65536
  let t : HTx := ⟨3, s.ownMid, x, htx, 7, 0, [], ms, 0, false, false, false, none, false, true, false, s.beat, [], false⟩
  foldS ms (s.modDir line (fun d => { d with sharers := [], owner := none, tx := some t })) (fun s m => s.sendInv line m t)

/-- Recall the least recently used stable entry of a set (R338). -/
def State.recallVictim (s : State) (set : Nat) : State :=
  let inSet := s.coh.dir.filter (fun e => cacheSet e.1 == set)
  let asked := (inSet.filter (fun e => e.2.tx.any (fun t => t.kind == 7))).length
  let wanted := (inSet.filter (fun e => e.2.tx.isNone && !e.2.way && !e.2.waiting.isEmpty)).length
  match inSet.filter (fun e => e.2.way && !e.2.busy) with
  | [] => s
  | e :: r =>
    if wanted ≤ asked then s
    else
      let v := r.foldl (fun a x => if x.2.lastUse < a.2.lastUse then x else a) e
      match s.freeHtx 1024 32 with
      | (some h, s) => s.openRecall v.1 7 h
      | (none, s) => s

/-- A transaction for a request, with nothing awaited. -/
def HTx.of (r : CReq) (beat : Nat) : HTx := ⟨0, r.mid, r.txid, r.htx, r.kind, r.aop, r.ops, [], 0, false, false, false, none, false, false, false, beat, [], false⟩

/-- Open the transaction of a request on a stable line (Table 10.6). -/
def State.openReq (s : State) (line : Nat) (r : CReq) : State :=
  let d := s.dirOf line
  let t := HTx.of r s.beat
  let put (s : State) (t : HTx) : State := s.modDir line (fun d => { d with tx := some t, way := true })
  match d.owner with
  | some o =>
    if (r.kind = 1 ∨ r.kind = 2) ∧ o = r.mid then
      if r.resent then (put s { t with read := true }).toHost line 1 [] false
      else s.raise .COH_PROTO
    else if r.kind = 3 then
      let t := { t with st := 1, owner := o, fwd := true, fwdX := true }
      (put s t).sendFwd line o true true t
    else
      let t := { t with st := 1, owner := o, fwd := true, comp := true, fwdX := r.kind != 0 }
      (put s t).sendFwd line o (r.kind != 0) false t
  | none =>
    let shares := d.sharers.contains r.mid
    match r.kind with
    | 0 =>
      if shares && !r.resent then s.raise .COH_PROTO
      else (put s { t with read := true }).toHost line 0 [] false
    | 3 =>
      let t := { t with invs := d.sharers, read := true }
      (foldS d.sharers (put s t) (fun s m => s.sendInv line m t)).toHost line 1 [] false
    | _ =>
      let others := d.sharers.filter (· != r.mid)
      let t := { t with invs := others, read := !shares, grantX := shares }
      let s := foldS others (put s t) (fun s m => s.sendInv line m t)
      if shares then s else s.toHost line 1 [] false

/-- End a line's transaction with a new directory record. -/
def State.closeTx (s : State) (line : Nat) (sharers : List Nat) (owner : Option Nat) : State :=
  let s := s.modCoh (fun c => { c with clock := c.clock + 1 })
  s.modDir line (fun d => { d with tx := none, sharers := sharers, owner := owner, way := !sharers.isEmpty || owner.isSome, lastUse := s.coh.clock })

/-- End a line's transaction shared by the members that have not left; with none the line returns to its home (Table 10.6). -/
def State.closeShared (s : State) (line : Nat) (t : HTx) (sharers : List Nat) : State :=
  let l := sharers.filter (fun m => !t.left.contains m)
  (if l.isEmpty then s.toHost line 3 [] false else s).closeTx line l none

/-- The pending sharers once the requester is added. -/
def Dir.withSharer (d : Dir) (m : Nat) : List Nat := if d.sharers.contains m then d.sharers else d.sharers ++ [m]

/-- Nothing more is awaited. -/
def HTx.allIn (t : HTx) : Bool := t.invs.isEmpty && !t.fwd && !t.comp && !t.read

/-- Operands of an ATOM: size and the two operands. -/
def HTx.atom (t : HTx) : Nat × Nat × Nat := let z := sizeOf' (bits t.aop 4 2); (z, leAt t.ops 0 z, leAt t.ops z z)

/-- Run an ATOM on a line's data (R339): the old value and the new data. No field of the packet says which aligned place of
the line is meant, so the place is open (log entry 29). -/
def State.atomLine (s : State) (t : HTx) (b : Bytes) : Nat × Bytes × State :=
  let (z, x, y) := t.atom
  let (i, s) := s.pick (64 / z)
  let old := leAt b (i * z) z
  (old, (match atomNew (bits t.aop 0 4) z old x y with | some v => putBytes b (i * z) (leBytes z v) | none => b), s)

/-- Send ATOM_RESP. -/
def State.sendAtomResp (s : State) (line : Nat) (mid txid htx aop flags old : Nat) : State :=
  let z := sizeOf' (bits aop 4 2)
  s.cohSend mid 2 0x79 line txid mid flags htx (bits aop 4 2 * 16) (leBytes z old ++ List.replicate (if z = 4 then 4 else 0) 0)

/-- Answer a snoop (R317): 0 RspI, 1 RspIHitI, 2 RspS, 3 RspI with data, 4 RspS with data. -/
def State.snoopAnswer (s : State) (line rsp : Nat) (b : Bytes) : State := s.emit (.snpRsp (lineExport line) (s.lineHpa line) rsp b)

/-- The directory of a transaction that failed, as the completed request would have left it (R333 step 4). -/
def State.failClose (s : State) (line : Nat) (t : HTx) : State :=
  match t.kind with
  | 0 =>
    if t.st = 1 then s.closeShared line t (if t.kept then [t.mid, t.owner] else [t.mid])
    else s.closeShared line t ((s.dirOf line).withSharer t.mid)
  | 1 => s.closeTx line [] (some t.mid)
  | 2 => s.closeTx line [] (some t.mid)
  | 3 => s.closeTx line [] none
  | 7 => s.closeTx line [] none
  | _ => (s.snoopAnswer line 0 []).closeTx line [] none

/-- The requester of a transaction that failed gets the host copy with POISON set (R333 steps 3 and 4). -/
def State.failGrant (s : State) (line : Nat) (t : HTx) (copy : Bytes) : State :=
  (s.cohSend t.mid 2 (if t.kind = 0 then 0x70 else 0x71) line t.txid t.mid cfPoison t.htx 0 copy).failClose line t

/-- A transaction has all that it awaited (Table 10.6): it grants and waits for COMP, or ends. -/
def State.finishTx (s : State) (line : Nat) (t : HTx) : State :=
  let d := s.dirOf line
  let (b, poison) := t.data.getD ([], false)
  let fl := if poison then cfPoison else 0
  let atom (s : State) : State :=
    let (old, b, s) := s.atomLine t b
    ((s.sendAtomResp line t.mid t.txid t.htx t.aop fl old).toHost line 2 b poison).closeTx line [] none
  if t.doomed then s.failGrant line t b else
  match t.st with
  | 0 =>
    if t.kind = 3 then atom s
    else
      let s :=
        if t.kind = 0 then s.cohSend t.mid 2 0x70 line t.txid t.mid fl t.htx 0 b
        else if t.grantX then s.cohSend t.mid 2 0x72 line t.txid t.mid 0 t.htx 0 []
        else s.cohSend t.mid 2 0x71 line t.txid t.mid fl t.htx 0 b
      s.modTx line (fun t => { t with st := 2, comp := true })
  | 1 =>
    if t.kind = 3 then atom s
    else if t.kind = 0 then s.closeShared line t (if t.kept then [t.mid, t.owner] else [t.mid])
    else s.closeTx line [] (some t.mid)
  | 2 =>
    if t.kind = 0 then s.closeShared line t (d.withSharer t.mid)
    else s.closeTx line [] (some t.mid)
  | _ =>
    match t.kind with
    | 4 => (match t.data with | some (b, _) => s.snoopAnswer line 3 b | none => s.snoopAnswer line 0 []).closeTx line [] none
    | 5 =>
      match d.owner with
      | some o => ((match t.data with | some (b, _) => s.snoopAnswer line 4 b | none => s.snoopAnswer line 2 []).closeTx line
          (if t.kept then [o] else []) none)
      | none => (s.snoopAnswer line 2 []).closeTx line d.sharers none
    | _ => (match t.data with | some (b, p) => s.toHost line 2 b p | none => s.toHost line 3 [] false).closeTx line [] none

/-- Among the snoops of a line that wait: the recall of a line whose directory entry was lost. -/
abbrev snLost : Nat := 8

/-- Go on with a line: end what is complete, then start what waits, snoops first (R327, R331). A recall waits for a recall entry
(R338). -/
def State.homeRun (s : State) (line : Nat) : Nat → State
  | 0 => s
  | n + 1 =>
    let d := s.dirOf line
    match d.tx with
    | some t => if t.allIn then State.homeRun (s.finishTx line t) line n else s
    | none =>
      match d.snoops with
      | k :: r =>
        let s := s.modDir line (fun d => { d with snoops := r })
        if k ≠ snLost ∧ d.sharers.isEmpty ∧ d.owner.isNone then State.homeRun (s.snoopAnswer line 0 []) line n
        else
          match s.freeHtx 1024 32 with
          | (some h, s) => State.homeRun (if k = snLost then s.openLost line h else s.openRecall line k h) line n
          | (none, s) => s.modDir line (fun d => { d with snoops := k :: r })
      | [] =>
        match d.waiting with
        | [] => s
        | q :: r =>
          if !d.way && decide (16 ≤ s.dirWays (cacheSet line)) then s.recallVictim (cacheSet line)
          else State.homeRun ((s.modDir line (fun d => { d with waiting := r })).openReq line q) line n

/-- Grant credits to the head of the retry list (R329). -/
def State.homeGrants (s : State) : Nat → State
  | 0 => s
  | n + 1 =>
    match s.coh.retry with
    | [] => s
    | (m, x, line) :: r =>
      if (s.dirOf line).busy || s.coh.credits.any (fun c => c.line == line) then s
      else
        match s.freeHtx 0 1024 with
        | (none, s) => s
        | (some h, s) =>
          let s := s.modCoh (fun c => { c with retry := r, credits := c.credits ++ [⟨line, m, x, h, s.beat⟩] })
          State.homeGrants (s.cohSend m 2 0x78 line x m 0 h 0 []) n

/-- Go on with every line that can go on, and with the retry list. -/
def State.homeKick (s : State) : State :=
  let ls := (s.coh.dir.filter (fun e => match e.2.tx with | some t => t.allIn | none => e.2.busy)).map (·.1)
  let s := foldS ls s (fun s l => s.homeRun l 4096)
  let ls := (s.coh.dir.filter (fun e => e.2.tx.isNone && e.2.busy)).map (·.1)
  let s := foldS ls s (fun s l => s.homeRun l 4096)
  s.homeGrants 4096

/-- Joiner engines that serve atomics (R65). -/
def State.atomicsServed (s : State) : Bool := !(s.enginesFor 3).isEmpty

/-- A request at an export that does not answer (R314): poisoned zero data. -/
def State.badExport (s : State) (m kind : Nat) (b : Bytes) : State :=
  let s := s.raise .COH_PROTO
  let (h, s) := s.pick 1024
  let zero := List.replicate 64 0
  match kind with
  | 0 => s.cohSend m 2 0x70 (cpLine b) (cpTxid b) m cfPoison h 0 zero
  | 3 => s.sendAtomResp (cpLine b) m (cpTxid b) h (cpAop b) cfPoison 0
  | _ => s.cohSend m 2 0x71 (cpLine b) (cpTxid b) m cfPoison h 0 zero

/-- A RD_S, RD_X, UPG or ATOM at the home (R329, R330, Table 10.6). -/
def State.onCohReq (s : State) (kind : Nat) (b : Bytes) (m : Nat) : State :=
  let line := cpLine b
  let x := cpTxid b
  let d := s.dirOf line
  let same (r : Nat × Nat) : Bool := r.1 == m && r.2 == x
  if !s.lineOk line then s.badExport m kind b
  else if kind = 3 ∧ !s.atomicsServed then (s.raise .COH_PROTO).sendAtomResp line m x 0 (cpAop b) cfNodata 0
  else if d.tx.any (fun t => t.kind < 4 && same (t.mid, t.txid)) || d.waiting.any (fun r => same (r.mid, r.txid)) then s.cohStale
  else
    let r : CReq := ⟨m, x, kind, cpAop b, pkPayload b, cpFlag b cfResent, 0⟩
    let accept (s : State) (h : Nat) : State := (s.modDir line (fun d => { d with waiting := d.waiting ++ [{ r with htx := h }] })).homeKick
    if s.on F.COH_MODE.RACE_MODE then
      if 16 ≤ s.homeUsedBy m then s.raise .COH_PROTO
      else match s.freeHtx 0 1024 with
        | (some h, s) => accept s h
        | (none, s) => s.raise .COH_PROTO
    else
      match (if cpFlag b cfCredited then s.coh.credits.find? (fun c => c.line == line && same (c.mid, c.txid)) else none) with
      | some c => accept (s.modCoh (fun k => { k with credits := k.credits.erase c })) c.htx
      | none =>
        let retry (s : State) : State :=
          let s := (s.inc F.COH_COUNT.RETRIES).cohSend m 2 0x77 line x m 0 0 0 []
          if s.coh.retry.any (fun e => same (e.1, e.2.1)) then s.homeKick
          else if 4096 ≤ s.coh.retry.length then s.raise .COH_PROTO
          else (s.modCoh (fun k => { k with retry := k.retry ++ [(m, x, line)] })).homeKick
        let stuck := !d.way && decide (16 ≤ s.dirWays (cacheSet line)) &&
          !(s.coh.dir.any (fun e => cacheSet e.1 == cacheSet line && e.2.way && !e.2.busy))
        if d.busy || s.coh.credits.any (fun c => c.line == line) || stuck then retry s
        else match s.freeHtx 0 1024 with
          | (some h, s) => accept s h
          | (none, s) => retry s

/-- A WB at the home (Table 10.6). -/
def State.onWb (s : State) (b : Bytes) (m : Nat) : State :=
  let line := cpLine b
  let d := s.dirOf line
  let ack (s : State) (stale : Bool) : State :=
    s.cohSend m 2 0x76 line (cpTxid b) m (if stale then cfStaleF else 0) 0 0 []
  if d.tx.isNone ∧ d.owner = some m then
    (ack ((s.toHost line 2 (pkPayload b) (cpFlag b cfPoison)).closeTx line [] none) false).homeKick
  else ack s true

/-- An EVICT at the home (Table 10.6). -/
def State.onEvict (s : State) (b : Bytes) (m : Nat) : State :=
  let line := cpLine b
  let d := s.dirOf line
  let s := s.cohSend m 2 0x76 line (cpTxid b) m 0 0 0 []
  let rest := d.sharers.filter (· != m)
  match d.tx with
  | some t =>
    if t.st = 3 then s
    else s.modDir line (fun d => { d with sharers := rest, tx := some { t with left := t.left ++ [m] } })
  | none =>
    if d.sharers.contains m then
      let last := rest.isEmpty
      let s := if last then s.toHost line 3 [] false else s
      (s.modDir line (fun d => { d with sharers := rest, way := d.way && !last })).homeKick
    else s

/-- The line is poisoned in its host (R333 step 2). -/
def State.poisonLine (s : State) (line : Nat) (newer : Bool) : State :=
  if newer then s.toHost line 4 (List.replicate 64 0) true else s.toHost line 5 [] true

/-- A transaction ends by R333, step 1 only after a time-out; after one the home copy is current where a FWD_S was answered with data,
and is then not poisoned. A requester that is still to be granted waits for the host copy
where the home has not read it. The old value that an ATOM which was not performed answers is open (log entry 30). -/
def State.failTx (s : State) (line : Nat) (t : HTx) (nodata : Bool) : State :=
  let d := s.dirOf line
  let clean := t.st == 1 && t.kind == 0 && !t.fwd && !nodata
  let s := if nodata then s else
    foldS (t.invs ++ (if t.fwd then [t.owner] else [])) s (fun s m => s.sendInv line m t)
  let s := if clean then s else
    ((s.poisonLine line (t.st != 0 && t.data.isSome)).inc F.COH_COUNT.POISONED).raiseOcc { occ .COH_POISON t.htx with
      addr := line * 64, info := d.owner.getD 0 % 64 + t.mid % 64 * 256 + b2n nodata * 65536, init := s.memberNode t.mid, remote := true }
  let served := t.st == 1 && !t.comp
  if t.kind = 3 then
    let (v, s) := s.pick (2 ^ (8 * t.atom.1))
    ((s.sendAtomResp line t.mid t.txid t.htx t.aop cfPoison v).failClose line t).homeKick
  else if 4 ≤ t.kind ∨ clean ∨ served then (s.failClose line t).homeKick
  else
    match t.st, t.data with
    | 0, some (b, _) => (s.failGrant line t b).homeKick
    | _, _ =>
      let s := if t.read then s else s.toHost line (if t.kind = 0 then 0 else 1) [] false
      s.modTx line (fun _ => { t with st := 0, invs := [], fwd := false, comp := false, read := true, data := none, doomed := true })

/-- The transaction that an acknowledgement answers (R322). -/
def State.txFor (s : State) (b : Bytes) : Option HTx :=
  (s.dirOf (cpLine b)).tx.filter (fun t => t.txid == cpTxid b && t.htx == cpHtx b)

/-- An INV_ACK at the home. -/
def State.onInvAck (s : State) (b : Bytes) (m : Nat) : State :=
  match s.txFor b with
  | some t => if t.invs.contains m then (s.modTx (cpLine b) (fun t => { t with invs := t.invs.filter (· != m) })).homeKick else s.cohStale
  | none => s.cohStale

/-- A FWD_ACK at the home. -/
def State.onFwdAck (s : State) (b : Bytes) (m : Nat) : State :=
  match s.txFor b with
  | some t =>
    if !t.fwd ∨ t.owner ≠ m then s.cohStale
    else if cpFlag b cfNodata then s.failTx (cpLine b) { t with fwd := false } true
    else
      let d := if pkLong b then some (pkPayload b, cpFlag b cfPoison) else none
      let s := match d with
        | some (x, p) => s.toHost (cpLine b) 4 x p
        | none => s
      (s.modTx (cpLine b) (fun t => { t with fwd := false, data := d, kept := cpFlag b cfKept })).homeKick
  | none => s.cohStale

/-- A COMP at the home. -/
def State.onComp (s : State) (b : Bytes) (m : Nat) : State :=
  match s.txFor b with
  | some t => if t.comp ∧ t.mid = m then (s.modTx (cpLine b) (fun t => { t with comp := false })).homeKick else s.cohStale
  | none => s.cohStale

/-- HOST_DATA_RETURN: the host read of a line's transaction returns (R316). -/
def State.hostData (s : State) (line : Nat) (b : Bytes) (poison : Bool) : State :=
  match (s.dirOf line).tx with
  | some t =>
    if t.read then (s.modTx line (fun t => { t with read := false, data := some ((b ++ List.replicate 64 0).take 64, poison) })).homeKick else s
  | none => s

/-- HOST_SNOOP of an address of the host on port `k` (R317): 4 SnpInv, 5 SnpData or SnpCur. -/
def State.hostSnoop (s : State) (k addr : Nat) (inv : Bool) : State :=
  let base := s.rd F.COH_EXPORT.BASE k * 2 ^ 28
  let off := (addr - base) / 64 * 64
  let line := (s.ownMid * 2 ^ 40 + k * 2 ^ 39 + off) / 64
  if !s.en uCOH ∨ addr < base ∨ s.rd F.COH_EXPORT.SIZE k * 2 ^ 28 ≤ off ∨ !s.on F.COH_EXPORT.VALID k then s.emit (.snpRsp k addr 0 [])
  else
    let d := s.dirOf line
    if d.tx.any (fun t => t.st == 0 && t.read) then s.snoopAnswer line 1 []
    else if d.tx.isNone ∧ d.sharers.isEmpty ∧ d.owner.isNone then s.snoopAnswer line 0 []
    else (s.modDir line (fun d => { d with snoops := d.snoops ++ [if inv then 4 else 5] })).homeKick

/-- A transaction ends as at its time-out (Table 10.6): one that has granted takes the state that COMP would give. -/
def State.txEnd (s : State) (line : Nat) (t : HTx) : State :=
  if t.st = 2 then (s.modTx line (fun t => { t with comp := false })).homeKick else s.failTx line t false

/-- TRANSACTION_TIMER_EXPIRE of a line (R333). -/
def State.txExpire (s : State) (line : Nat) : State :=
  match (s.dirOf line).tx with
  | none => s
  | some t =>
    if t.doomed ∨ s.beat - t.opened < s.rd F.COH_FWD_TIMEOUT.FWD_BEATS then s
    else s.txEnd line t

/-- CREDIT_RESERVE_EXPIRE: a reserved entry that was not claimed (R329). -/
def State.creditExpire (s : State) (i : Nat) : State :=
  match s.coh.credits[i]? with
  | none => s
  | some c =>
    if s.beat - c.beat < s.rd F.COH_FWD_TIMEOUT.FWD_BEATS then s
    else ((s.modCoh (fun k => { k with credits := k.credits.eraseIdx i })).cohStale).homeKick

/-- The home's part of DECLARE_DEAD (R336): the lines poisoned are counted in the walk. -/
def State.homeDead (s : State) (m : Nat) : State :=
  let s := s.modCoh (fun c => { c with
    retry := c.retry.filter (fun e => e.1 != m),
    dir := c.dir.map (fun e => (e.1, { e.2 with waiting := e.2.waiting.filter (fun r => r.mid != m) })) })
  let s := foldS (s.coh.dir.map (·.1)) s (fun s line =>
    let d := s.dirOf line
    let had := d.sharers.contains m
    let rest := d.sharers.filter (· != m)
    match d.tx with
    | some t =>
      let s := s.modDir line (fun d => { d with sharers := rest, tx := some { t with invs := t.invs.filter (· != m), left := t.left ++ [m] } })
      if t.fwd ∧ t.owner = m then s.failTx line { t with fwd := false, invs := t.invs.filter (· != m), left := t.left ++ [m] } true else s
    | none =>
      if d.owner = some m then
        let s := s.modCoh (fun c => { c with walk := c.walk.map (fun w => (w.1, w.2.1 + 1, w.2.2)) })
        (s.poisonLine line false).closeTx line [] none
      else if had ∧ rest.isEmpty then (s.toHost line 3 [] false).closeTx line [] none
      else s.modDir line (fun d => { d with sharers := rest }))
  s.homeKick

/-- The CXL.cache link of an export goes down by PERST_L (R419): its directory entries are dropped. -/
def State.exportLost (s : State) (k : Nat) : State :=
  let ls := s.coh.dir.filter (fun e => lineExport e.1 == k)
  let owned := ls.filter (fun e => e.2.owner.isSome)
  let s := foldS ls s (fun s e => foldS e.2.sharers s (fun s m =>
    let (x, s) := s.pick 65536
    s.cohSend m 3 0x6A e.1 x s.ownMid 0 0 0 []))
  let s := s.modCoh (fun c => { c with dir := c.dir.filter (fun e => lineExport e.1 != k) })
  match owned with
  | [] => s
  | e :: _ =>
    (s.inc F.COH_COUNT.POISONED 0 owned.length).raiseOcc { occ .COH_POISON 0 with
      addr := e.1 * 64, info := e.2.owner.getD 0 % 64 + s.ownMid % 64 * 256, init := s.nodeId, remote := true }

end Sys2Proof.Machine
end

