-- ==== Sys2Proof/Machine/CohAgent.lean ====
section
/-! DEFINITION. Coherent domains at the agent (10_coherent_domains.md): windows, host requests (Table 10.1), line states
(Table 10.7), timers, commands. -/

namespace Sys2Proof.Machine

def State.cline (s : State) (line : Nat) : Option CLine := tabGet s.coh.lines line
/-- The state of a line, where it is not I. -/
def State.lst (s : State) (line : Nat) : Option LState := (s.cline line).map (fun c => c.st)
def State.modCline (s : State) (line : Nat) (f : CLine → CLine) : State := s.modCoh (fun c => { c with lines := tabMod c.lines line f })

/-- Free a TXID. -/
def State.freeTx (s : State) (x : Option Nat) : State :=
  match x with
  | some i => s.modCoh (fun c => { c with txs := tabDel c.txs i })
  | none => s

/-- A line goes to I. -/
def State.toI (s : State) (line : Nat) : State :=
  match s.cline line with
  | some c => (s.freeTx c.tx).modCoh (fun k => { k with lines := tabDel k.lines line })
  | none => s

/-- Change a line's state, and note its use. -/
def State.setLine (s : State) (line : Nat) (f : CLine → CLine) : State :=
  let s := s.modCoh (fun c => { c with clock := c.clock + 1 })
  s.modCline line (fun c => { f c with lastUse := s.coh.clock })

/-- TXID and TXGEN as in a packet (Table 10.4). -/
def ATx.word (i : Nat) (t : ATx) : Nat := i + t.gen * 1024

/-- Outstanding transactions to a home: requests, and WB and EVICT (R324, R329, R330). -/
def State.reqsTo (s : State) (h : Nat) : Nat := (s.coh.txs.filter (fun e => e.2.kind < 4 && lineMid e.2.line == h)).length
def State.wbsTo (s : State) (h : Nat) : Nat := (s.coh.txs.filter (fun e => 4 ≤ e.2.kind && lineMid e.2.line == h)).length

/-- A transaction is open on a line (R320). -/
def State.lineOpen (s : State) (line : Nat) : Bool := s.coh.txs.any (fun e => e.2.line == line)

/-- A TXID may be taken for a request kind to a home. -/
def State.mayTake (s : State) (kind line : Nat) : Bool :=
  decide (s.coh.txs.length < 1024) &&
  (if kind < 4 then decide (s.reqsTo (lineMid line) < (if s.on F.COH_MODE.RACE_MODE then 16 else 64)) else decide (s.wbsTo (lineMid line) < 4))

/-- Take a TXID (R323); which entry is open (log entry 27). -/
def State.takeTx (s : State) (kind line : Nat) (atom : Option (Nat × Nat)) : Nat × State :=
  let free := (List.range 1024).filter (fun i => (tabGet s.coh.txs i).isNone)
  let (k, s) := s.pick (max 1 free.length)
  let i := free.getD k 0
  let g := match tabGet s.coh.gens i with | some g => (g + 1) % 64 | none => 0
  (i, s.modCoh (fun c => { c with txs := tabPut c.txs i ⟨line, kind, g, s.beat, 0, false, atom⟩, gens := tabPut c.gens i g }))

/-- The request of an open transaction (R324), with flags. -/
def State.sendReq (s : State) (i : Nat) (t : ATx) (kind flags : Nat) : State :=
  let h := lineMid t.line
  let me := s.ownMid
  match kind with
  | 3 =>
    match t.atom.bind (fun a => s.rma.atoms.find? (fun x => x.q == a.1 && x.psn == a.2)) with
    | some a =>
      let code := if a.size = 4 then 0 else if a.size = 8 then 1 else 2
      s.cohSend h 1 0x63 t.line (t.word i) me flags 0 (a.aop + 16 * code) (leBytes a.size a.op0 ++ leBytes a.size a.op1)
    | none => s
  | 4 =>
    match s.cline t.line with
    | some c => s.cohSend h 1 0x64 t.line (t.word i) me (flags + if c.poison then cfPoison else 0) 0 0 c.data
    | none => s
  | 5 => s.cohSend h 1 0x65 t.line (t.word i) me flags 0 0 []
  | k => s.cohSend h 1 (0x60 + k) t.line (t.word i) me flags 0 0 []

/-- Take a TXID and send a request. -/
def State.newReq (s : State) (kind line : Nat) (atom : Option (Nat × Nat)) : Nat × State :=
  let (i, s) := s.takeTx kind line atom
  match tabGet s.coh.txs i with
  | some t => (i, s.sendReq i t kind 0)
  | none => (i, s)

/-- Ask the host to give its copy up (BISnpInv) or to downgrade it (BISnpData) (R318). -/
def State.biSnoop (s : State) (line : Nat) (c : CLine) (inv : Bool) : State :=
  (s.emit (.biSnp c.port c.hpa inv)).modCline line (fun c => { c with snp := true })

/-- An uncorrectable or poisoned word of the window cache: its line is poisoned, and the host's copy is asked back (Table 12.3). -/
def lineAct : EccAct := fun s _ _ o _ =>
  match o with
  | some (.line a) =>
    match s.cline a with
    | none => s
    | some c =>
      let s := s.modCline a (fun c => { c with poison := true })
      if c.host ≠ 0 ∧ !c.snp then s.biSnoop a c true else s
  | _ => s

/-- The window cache is read for a line (R361, R362). -/
def State.lineRead (s : State) (line : Nat) : State := if s.ecc.words.isEmpty then s else s.eccUse lineAct (.line line)

/-! ### Windows -/

/-- The line of a host address in a committed decoder of a port (R315); none outside every window. -/
def State.windowLine (s : State) (port hpa : Nat) : Option Nat :=
  (List.range 8).findSome? (fun d =>
    match tabGet s.coh.hdm (8 * port + d) with
    | some (base, size) =>
      if base ≤ hpa ∧ hpa < base + size ∧ s.on F.COH_HDM_TARGET.VALID (8 * port + d) then
        some ((s.rd F.COH_HDM_TARGET.DA_BASE (8 * port + d) * 2 ^ 28 + (hpa - base)) % 2 ^ 46 / 64)
      else none
    | none => none)

/-- The address lies in a range that a decoder of the function's host port presents (R274). -/
def State.cohAddr (s : State) (f : Fn) (a : Nat) : Bool :=
  (List.range 8).any (fun d => match tabGet s.coh.hdm (8 * (fnPf f / 2) + d) with
    | some (base, size) => decide (base ≤ a) && decide (a < base + size)
    | none => false)

/-- The window names a live member other than this device (R315). -/
def State.windowOk (s : State) (line : Nat) : Bool :=
  let m := lineMid line
  m != s.ownMid && s.on F.COH_MEMBER.VALID m && !s.memberDead m

/-- Poisoned data for a host read; its bytes are open. Writes are dropped, and completed. -/
def State.memPoison (s : State) (r : WReq) : State :=
  if r.kind = 0 then
    let (v, s) := s.pick (2 ^ 512)
    s.emit (.memData r.port r.tag (leBytes 64 v) true)
  else s.emit (.memCmp r.port r.tag)

/-- Serve a host read from a line (Table 10.1). -/
def State.memRead (s : State) (r : WReq) (c0 : CLine) : State :=
  let s := s.lineRead r.line
  let c := (s.cline r.line).getD c0
  (s.emit (.memData r.port r.tag c.data c.poison)).setLine r.line (fun c =>
    { c with host := if r.meta' = 0 then c.host else r.meta', port := r.port, hpa := r.hpa })

/-- Bytes of `d` where the mask has their bit, else of `b`. -/
def mergeBytes (b d : Bytes) (mask : Nat) : Bytes := (List.range 64).map (fun i => if bit mask i then d.getD i 0 else b.getD i 0)

/-- Serve a host write on a line in M (Table 10.1). -/
def State.memWrite (s : State) (r : WReq) : State :=
  let s := if r.kind = 1 then s.eccUnitWrite 4 (.line r.line) else s.eccPartWrite lineAct 4 (.line r.line)
  (s.emit (.memCmp r.port r.tag)).setLine r.line (fun c =>
    if r.kind = 1 then { c with data := (r.data ++ List.replicate 64 0).take 64, poison := false, host := r.meta', port := r.port, hpa := r.hpa }
    else { c with data := mergeBytes c.data r.data r.mask })

/-- The state a host request needs (Table 10.1). -/
def WReq.needM (r : WReq) : Bool := r.kind != 0 || r.meta' == 2

/-- A line without anything in hand. -/
def CLine.quiet (c : CLine) : Bool := !c.snp && c.fwd.isNone && !c.vict && !c.dead

/-- Choose a victim in a full set: the least recently used way in a stable state (R318). -/
def State.chooseVictim (s : State) (set : Nat) : State :=
  let ls := s.coh.lines.filter (fun e => cacheSet e.1 == set)
  if ls.any (fun e => e.2.vict) then s
  else match ls.filter (fun e => (e.2.st == .s || e.2.st == .m) && e.2.quiet && !s.lineOpen e.1) with
    | [] => s
    | e :: r =>
      let v := r.foldl (fun a x => if x.2.lastUse < a.2.lastUse then x else a) e
      s.modCline v.1 (fun c => { c with vict := true })

/-- Try to serve a waiting host request; `true` when it is done. -/
def State.tryHost (s : State) (r : WReq) : Bool × State :=
  if !s.windowOk r.line then (true, s.memPoison r)
  else match s.cline r.line with
    | none =>
      if s.lineOpen r.line then (false, s)
      else if 16 ≤ (s.coh.lines.filter (fun e => cacheSet e.1 == cacheSet r.line)).length then (false, s.chooseVictim (cacheSet r.line))
      else
        let kind := if r.needM then 1 else 0
        if !s.mayTake kind r.line then (false, s)
        else
          let (i, s) := s.newReq kind r.line none
          let c : CLine := ⟨if r.needM then .imd else .isd, [], false, 0, r.port, r.hpa, some i, none, false, false, false, false, false, s.coh.clock⟩
          (false, s.modCoh (fun k => { k with lines := tabPut k.lines r.line c }))
    | some c =>
      if c.dead then (false, s)
      else if r.kind = 0 then
        if !c.quiet ∨ (c.st = .s ∧ c.invSeen) then (false, s)
        else if c.st = .m ∨ ((c.st = .s ∨ c.st = .sma) ∧ !r.needM) then (true, s.memRead r c)
        else if c.st = .s ∧ !s.lineOpen r.line ∧ s.mayTake 2 r.line then
          let (i, s) := s.newReq 2 r.line none
          (false, s.modCline r.line (fun c => { c with st := .sma, tx := some i }))
        else (false, s)
      else if c.st = .m then (true, s.memWrite r)
      else if c.st = .s ∧ c.quiet ∧ !c.invSeen ∧ !s.lineOpen r.line ∧ s.mayTake 2 r.line then
        let (i, s) := s.newReq 2 r.line none
        (false, s.modCline r.line (fun c => { c with st := .sma, tx := some i }))
      else (false, s)

/-- Try every waiting host request in order. -/
def State.tryHosts (s : State) : State :=
  let ws := s.coh.wait
  foldS ws (s.modCoh (fun c => { c with wait := [] })) (fun s r =>
    match s.tryHost r with
    | (true, s) => s
    | (false, s) => s.modCoh (fun c => { c with wait := c.wait ++ [r] }))

/-! ### Lines -/

/-- FWD_ACK to the home of a line. -/
def State.fwdAck (s : State) (line : Nat) (f : CFwd) (flags : Nat) (b : Bytes) : State :=
  s.cohSend (lineMid line) 2 0x74 line f.txid f.mid flags f.htx 0 b
def State.invAck (s : State) (line : Nat) (f : CFwd) : State := s.cohSend (lineMid line) 2 0x73 line f.txid f.mid 0 f.htx 0 []

/-- Serve a recorded forward (R332), the host's copy dealt with. -/
def State.serveFwd (s : State) (line : Nat) (c : CLine) (f : CFwd) : State :=
  let s := if f.kind = 2 then s else s.lineRead line
  let c := (s.cline line).getD c
  let p := if c.poison then cfPoison else 0
  if f.kind = 2 then
    let s := s.invAck line f
    if c.st = .sma then s.setLine line (fun c => { c with st := .imd, data := [], fwd := none, snooped := false, host := 0 }) else s.toI line
  else
    let x := f.kind == 1
    let s := if f.homereq then s else s.cohSend f.mid 2 (if x then 0x71 else 0x70) line f.txid f.mid (p + if x then cfDirty else 0) f.htx 0 c.data
    let kept := !x && c.st == .m
    let s := s.fwdAck line f (p * b2n (!x || f.homereq) + if kept then cfKept else 0) (if !x || f.homereq then c.data else [])
    match c.st with
    | .m => if x then s.toI line else s.setLine line (fun c => { c with st := .s, fwd := none, snooped := false })
    | .mia => s.setLine line (fun c => { c with st := .ia, data := [], fwd := none, snooped := false })
    | _ => s.toI line

/-- Go on with one line: one that is given up, a recorded forward, INV_SEEN, a victim. Before the line is given up or downgraded the
host's copy is dealt with: BISnpInv until the host holds none, BISnpData once for a FWD_S (R318). -/
def State.agentLine (s : State) (line : Nat) : State :=
  match s.cline line with
  | none => s
  | some c =>
    if c.snp then s
    else if c.dead then
      (if c.host != 0 then s.biSnoop line c true
       else (match c.fwd with | some f => s.invAck line f | none => s).toI line)
    else match c.fwd with
      | some f => if c.host != 0 ∧ (f.kind != 0 ∨ !c.snooped) then s.biSnoop line c (f.kind != 0) else s.serveFwd line c f
      | none =>
        if c.st = .s ∧ c.invSeen then (if c.host != 0 then s.biSnoop line c true else s.toI line)
        else if c.vict ∧ (c.st = .s ∨ c.st = .m) then
          if c.host != 0 then s.biSnoop line c true
          else
            let s := if c.st = .m then s.lineRead line else s
            let kind := if c.st = .m then 4 else 5
            if s.lineOpen line ∨ !s.mayTake kind line then s
            else
              let (i, s) := s.newReq kind line none
              let s := if kind = 4 then s.modCoh (fun k => { k with flush := k.flush.map (· + 1) }) else s
              s.modCline line (fun c => { c with st := if kind = 4 then .mia else .ia, tx := some i, vict := false })
        else s

/-! ### Coherent atomics (R339, R320) -/

/-- The line of a coherent atomic of RMA. -/
def State.atomicLine (s : State) (a : Atomic) : Option Nat := s.windowLine (fnPf (regionFn a.reg (s.region a.reg)) / 2) a.addr

/-- A coherent atomic that cannot be done: it fails with poisoned data, so its old value is open (log entry 30). -/
def State.atomicFails (s : State) (a : Atomic) : State :=
  let (v, s) := s.pick (2 ^ (8 * a.size))
  s.atomFinish a v

/-- Try to start a coherent atomic: an ATOM from I or S, or in the window cache in M. -/
def State.tryAtomic (s : State) (a : Atomic) : State :=
  if s.coh.txs.any (fun e => e.2.atom == some (a.q, a.psn)) then s
  else match s.atomicLine a with
    | none => s.atomicFails a
    | some line =>
      if !s.windowOk line ∨ !s.en uCOH then s.atomicFails a
      else if s.lineOpen line then s
      else
        let issue := if s.mayTake 3 line then (s.newReq 3 line (some (a.q, a.psn))).2 else s
        match s.cline line with
        | none => issue
        | some c =>
          if !c.quiet then s
          else if c.st = .s then issue
          else if c.st = .m then
            if c.host != 0 then s.biSnoop line c true
            else
              let s := s.lineRead line
              let off := a.addr % 64
              let old := leAt c.data off a.size
              let s := match atomNew a.aop a.size old a.op0 a.op1 with
                | some v => (s.eccPartWrite lineAct 4 (.line line)).setLine line (fun c => { c with data := putBytes c.data off (leBytes a.size v) })
                | none => s
              s.atomFinish a old
          else s

/-- Coherent atomics that are first at their 64-byte line, in arrival order (R274). -/
def State.tryAtomics (s : State) : State :=
  let as := s.rma.atoms.zipIdx.filter (fun e => e.1.coh && !((s.rma.atoms.take e.2).any (fun y => sameLine y e.1)))
  foldS as s (fun s e => s.tryAtomic e.1)

/-- Go on with lines, host requests and coherent atomics. -/
def State.agentRound (s : State) : State := ((foldS (s.coh.lines.map (·.1)) s (fun s l => s.agentLine l)).tryHosts).tryAtomics
def State.agentKick (s : State) : State := s.agentRound.agentRound.agentRound.agentRound

/-- A host request arrives (Table 10.1, R315, R340). -/
def State.hostReq (s : State) (port tag hpa kind meta' : Nat) (data : Bytes) (mask : Nat) : State :=
  let r : WReq := ⟨0, port, tag, hpa, kind, meta', data, mask⟩
  if !s.en uCOH then s.memPoison r
  else
    match (s.windowLine port hpa).filter (fun l => s.windowOk l) with
    | none =>
      let s := if s.coh.protoLogged then s else (s.modCoh (fun c => { c with protoLogged := true })).raise .COH_PROTO
      s.memPoison r
    | some l => (s.modCoh (fun c => { c with wait := c.wait ++ [{ r with line := l, hpa := hpa / 64 * 64 }] })).agentKick

/-- BIRSP: the host answers a BISnp: it keeps a shared copy, or none (R318). -/
def State.biRsp (s : State) (port hpa : Nat) (shared : Bool) : State :=
  match s.coh.lines.find? (fun e => e.2.snp && e.2.port == port && e.2.hpa == hpa / 64 * 64) with
  | none => s
  | some e => (s.modCline e.1 (fun c => { c with snp := false, snooped := c.fwd.isSome, host := if shared then 1 else 0 })).agentKick

/-- A FWD_S, FWD_X or INV at an agent (R326, Table 10.7): 0, 1, 2. -/
def State.onForward (s : State) (kind : Nat) (b : Bytes) : State :=
  let line := cpLine b
  let f : CFwd := ⟨kind, cpMid b, cpTxid b, cpHtx b, cpFlag b cfHomereq⟩
  let nodata := s.fwdAck line f cfNodata []
  let record := (s.modCline line (fun c => { c with fwd := some f, snooped := false })).agentKick
  match s.lst line with
  | none => if kind = 2 then s.invAck line f else nodata
  | some .i => if kind = 2 then s.invAck line f else nodata
  | some .s => if kind = 2 then record else nodata
  | some .m => record
  | some .isd => if kind = 2 then (s.invAck line f).modCline line (fun c => { c with invSeen := true }) else nodata
  | some .imd => if kind = 2 then s.invAck line f else nodata
  | some .sma => if kind = 2 then record else nodata
  | some .mia => if kind = 2 then s.invAck line f else record
  | some .mif => record
  | some .ia => if kind = 2 then s.invAck line f else nodata

/-- The open transaction that an answer names (R322): entry and transaction. -/
def State.atxFor (s : State) (b : Bytes) : Option (Nat × ATx) :=
  let i := cpTxid b % 1024
  match tabGet s.coh.txs i with
  | some t => if t.word i = cpTxid b ∧ t.line = cpLine b then some (i, t) else none
  | none => none

/-- COMP to the home (R332). -/
def State.sendComp (s : State) (b : Bytes) : State := s.cohSend (lineMid (cpLine b)) 2 0x75 (cpLine b) (cpTxid b) s.ownMid 0 (cpHtx b) 0 []

/-- Fill a line: its transaction ends. -/
def State.fill (s : State) (line : Nat) (st : LState) (data : Option (Bytes × Bool)) : State :=
  let s := if data.isSome then s.eccUnitWrite 4 (.line line) else s
  match s.cline line with
  | none => s
  | some c => (s.freeTx c.tx).setLine line (fun c => match data with
      | some (x, p) => { c with st := st, tx := none, data := x, poison := p }
      | none => { c with st := st, tx := none })

/-- The oldest waiting read that a shared fill can serve. -/
def State.serveWaiting (s : State) (line : Nat) : State :=
  match s.coh.wait.find? (fun r => r.line == line && !r.needM), s.cline line with
  | some r, some c => (s.modCoh (fun k => { k with wait := k.wait.erase r })).memRead r c
  | _, _ => s

/-- A DATA_S at an agent. -/
def State.onDataS (s : State) (b : Bytes) : State :=
  let line := cpLine b
  match s.atxFor b, s.lst line with
  | some _, some .isd =>
    (((s.fill line .s (some (pkPayload b, cpFlag b cfPoison))).serveWaiting line).sendComp b).agentKick
  | some _, some .imd => s.raise .COH_PROTO
  | some _, some .sma => s.raise .COH_PROTO
  | _, _ => s.cohStale

/-- A DATA_X at an agent. -/
def State.onDataX (s : State) (b : Bytes) : State :=
  let line := cpLine b
  let go := ((s.fill line .m (some (pkPayload b, cpFlag b cfPoison))).sendComp b).agentKick
  match s.atxFor b, s.lst line with
  | some _, some .isd => s.raise .COH_PROTO
  | some _, some .imd => go
  | some _, some .sma => go
  | _, _ => s.cohStale

/-- A GRANT_X at an agent. -/
def State.onGrantX (s : State) (b : Bytes) : State :=
  let line := cpLine b
  match s.atxFor b, s.lst line with
  | some _, some .isd => s.raise .COH_PROTO
  | some _, some .imd => s.raise .COH_PROTO
  | some _, some .sma => ((s.fill line .m none).sendComp b).agentKick
  | _, _ => s.cohStale

/-- Restart the timer of a transaction (R334). -/
def State.restartTx (s : State) (i : Nat) (f : ATx → ATx) : State :=
  s.modCoh (fun c => { c with txs := tabMod c.txs i (fun t => { f t with timer := s.beat }) })

/-- A WB_ACK at an agent. -/
def State.onWbAck (s : State) (b : Bytes) : State :=
  let line := cpLine b
  match s.atxFor b, s.lst line with
  | some (i, _), some .mia =>
    if cpFlag b cfStaleF then
      (s.restartTx i id).modCline line (fun c => { c with st := .mif })
    else (s.toI line).agentKick
  | some _, some .ia => (s.toI line).agentKick
  | _, _ => s.cohStale

/-- The kind with which a line's request is sent again (Table 10.7). -/
def State.resendKind (s : State) (t : ATx) : Nat :=
  if t.kind ≤ 2 then
    match s.lst t.line with
    | some .isd => 0
    | some .sma => 2
    | _ => 1
  else if t.kind = 4 then (if s.lst t.line = some .ia then 5 else 4)
  else t.kind

/-- A RETRY at an agent. -/
def State.onRetry (s : State) (b : Bytes) : State :=
  match s.atxFor b with
  | some (i, t) => if t.kind < 4 then s.restartTx i (fun t => { t with held := true }) else s.cohStale
  | none => s.cohStale

/-- A CRD_GRANT at an agent: the request again, CREDITED. -/
def State.onCrdGrant (s : State) (b : Bytes) : State :=
  match s.atxFor b with
  | some (i, t) =>
    if t.kind < 4 then (s.restartTx i (fun t => { t with held := false })).sendReq i t (s.resendKind t) cfCredited else s.cohStale
  | none => s.cohStale

/-- An ATOM_RESP at an agent (R339). -/
def State.onAtomResp (s : State) (b : Bytes) : State :=
  match s.atxFor b with
  | some (i, t) =>
    match t.atom.bind (fun a => s.rma.atoms.find? (fun x => x.q == a.1 && x.psn == a.2)) with
    | some a =>
      let s := s.freeTx (some i)
      (if cpFlag b cfPoison || cpFlag b cfNodata then s.atomicFails a else s.atomFinish a (leAt (pkPayload b) 0 a.size)).agentKick
    | none => if t.kind = 3 then s.freeTx (some i) else s.cohStale
  | none => s.cohStale

/-- The host requests that wait for a line get poisoned data. -/
def State.poisonWaiting (s : State) (line : Nat) : State :=
  let ws := s.coh.wait.filter (fun r => r.line == line)
  foldS ws (s.modCoh (fun c => { c with wait := c.wait.filter (fun r => r.line != line) })) (fun s r => s.memPoison r)

/-- The agent gives a line up (R335): I at once, or in SM_A once the host gave its copy up (R318). -/
def State.giveUpLine (s : State) (line : Nat) : State :=
  match s.cline line with
  | none => s
  | some c =>
    if c.st = .sma then (s.freeTx c.tx).modCline line (fun c => { c with st := .s, tx := none, dead := true }) else s.toI line

/-- REQUEST_TIMER_EXPIRE of a TXID entry (R334, R335). -/
def State.reqExpire (s : State) (i : Nat) : State :=
  match tabGet s.coh.txs i with
  | none => s
  | some t =>
    if s.beat - t.timer < s.rd F.COH_FWD_TIMEOUT.REQ_BEATS then s
    else if (s.cline t.line).any (fun c => c.st == .mif && c.tx == some i) then ((s.toI t.line).cohStale).agentKick
    else if t.kind < 4 ∧ s.rd F.COH_FWD_TIMEOUT.REQ_RETRY_MAX < t.resends + 1 then
      let s := s.raise .COH_AGENT_GIVEUP
      if t.kind = 3 then
        let s := s.freeTx (some i)
        match t.atom.bind (fun a => s.rma.atoms.find? (fun x => x.q == a.1 && x.psn == a.2)) with
        | some a => (s.atomicFails a).agentKick
        | none => s.agentKick
      else ((s.poisonWaiting t.line).giveUpLine t.line).agentKick
    else (s.restartTx i (fun t => { t with resends := t.resends + 1 })).sendReq i t (s.resendKind t) cfResent

/-! ### Commands -/

/-- End or start a COH command (Table 10.13). -/
def State.cohResult (s : State) (cmd code m : Nat) (busy : Bool) : State :=
  let s := (s.wr F.COH_RESULT.BUSY (b2n busy)).wr F.COH_RESULT.CODE code
  (s.wr F.COH_RESULT.CMD cmd).wr F.COH_RESULT.MEMBER m

/-- DECLARE_DEAD is written by a requester (R336). -/
def State.declareDead (s : State) (who m : Nat) : State :=
  if !s.en uCOH then s.cohResult 1 5 m false
  else if !s.on F.COH_MEMBER.VALID m then s.cohResult 1 1 m false
  else if m = s.ownMid ∨ s.memberDead m then s.cohResult 1 2 m false
  else
    let s := (s.wr F.COH_MEMBER.DEAD 1 m).wr F.COH_STATUS.RECLAIMING 1
    let s := (s.cohResult 1 0 m true).modCoh (fun c => { c with walk := some (m, 0, who) })
    let s := s.homeDead m
    let ls := (s.coh.lines.filter (fun e => lineMid e.1 == m)).map (·.1)
    let s := foldS (s.coh.wait.filter (fun r => lineMid r.line == m)) s (fun s r => s.poisonWaiting r.line)
    let s := foldS ls s (fun s l => s.modCline l (fun c => { c with dead := true, fwd := none }))
    s.agentKick

/-- DECLARE_DEAD_WALK_END. -/
def State.walkEnd (s : State) : State :=
  match s.coh.walk with
  | none => s
  | some (m, n, who) =>
    let s := (s.modCoh (fun c => { c with walk := none })).wr F.COH_STATUS.RECLAIMING 0
    let s := ((s.wr F.COH_RESULT.LINES n).cohResult 1 0 m false).inc F.COH_COUNT.DEAD_LOST 0 n
    if n = 0 then s
    else s.raiseOcc { occ .COH_DEAD_LOSS m with info := n, init := who }

/-- FLUSH is written (Table 10.12). -/
def State.cohFlush (s : State) (m : Nat) : State :=
  if !s.en uCOH then s.cohResult 2 5 m false
  else
    let s := (s.cohResult 2 0 m true).modCoh (fun c => { c with flush := some 0, lines := c.lines.map (fun e => (e.1, { e.2 with vict := true })) })
    s.agentKick

/-- FLUSH_END: every line that the flush found is gone. -/
def State.flushEnd (s : State) : State :=
  match s.coh.flush with
  | none => s
  | some n =>
    if s.coh.lines.any (fun e => e.2.vict || e.2.st == .mia || e.2.st == .mif || e.2.st == .ia) then s
    else ((s.wr F.COH_RESULT.LINES n).cohResult 2 0 (s.rd F.COH_RESULT.MEMBER) false).modCoh (fun c => { c with flush := none })

/-- REVIVE is written (R337). -/
def State.cohRevive (s : State) (m : Nat) : State :=
  if !s.en uCOH then s.cohResult 3 5 m false
  else if !s.on F.COH_MEMBER.VALID m then s.cohResult 3 1 m false
  else if !s.memberDead m ∨ s.coh.walk.isSome then s.cohResult 3 2 m false
  else (s.wr F.COH_MEMBER.DEAD 0 m).cohResult 3 0 m false

/-- HDM_DECODER_COMMIT (R315): interleave ways other than 1 report a commit error. -/
def State.hdmCommit (s : State) (port d base size ways : Nat) : State :=
  if ways = 1 then (s.modCoh (fun c => { c with hdm := tabPut c.hdm (8 * port + d) (base, size) })).emit (.hdmCommit port d true)
  else s.emit (.hdmCommit port d false)

/-- A unit reset of COH (R340). -/
def State.cohReset (s : State) : State :=
  let as := s.rma.atoms.filter (·.coh)
  let s := foldS s.coh.wait s (fun s r => s.memPoison r)
  let s := s.modCoh (fun c => { Coh.init with gens := c.gens, hdm := c.hdm, clock := c.clock })
  let s := foldS as s (fun s a => s.atomicFails a)
  let s := s.wr F.COH_STATUS.RECLAIMING 0
  s.wr F.COH_RESULT.BUSY 0

/-- PERST_L at port `h` (R419): its host holds nothing any more. -/
def State.hostCopiesLost (s : State) (h : Nat) : State :=
  (s.modCoh (fun c => { c with
    lines := c.lines.map (fun e => (e.1, if e.2.port = h then { e.2 with host := 0, snp := false } else e.2)),
    wait := c.wait.filter (fun r => r.port != h), hdm := c.hdm.filter (fun e => e.1 / 8 != h) })).agentKick

/-- COH_STATUS counts (Table 10.14): home entries, TXIDs, retry list. -/
def State.cohCounts (s : State) : Nat × Nat × Nat :=
  (min 1024 (s.homeUsed.filter (· < 1024)).length, s.coh.txs.length, s.coh.retry.length)

/-- No coherence transaction is open. -/
def State.cohIdle (s : State) : Bool := s.coh.txs.isEmpty && !(s.coh.dir.any (fun e => e.2.busy))

/-- What is logged at most once a Beat may be logged again. -/
def State.cohBeat (s : State) : State := s.modCoh (fun c => { c with protoLogged := false, notLogged := [] })

end Sys2Proof.Machine
end

