-- ==== Sys2Proof/Machine/Ecc.lean ====
section
/-! DEFINITION. Stored data protection (12_stored_data_protection.md): the actions of Table 12.3, the scrubbers, the SRAM
window, and what the units' writes do to the words that hold what they write (log entry 32). -/

namespace Sys2Proof.Machine

/-! ### Actions of Table 12.3 -/

/-- A context becomes a stub (R229); HIF_CTX_ERR is not logged. -/
def State.eccCtx (s : State) (g : Nat) : State :=
  if !(s.c g).cached then s else
  let s := s.queueError g erCtx (s.q g Q.TAKEN)
  let st := s.q g Q.CQ_STATE
  if st = cqReady ∨ st = cqFull then (s.cqOverflow g).putStub g
  else if st = cqOver then s.putStub g
  else s.makeStub g

/-- A directory entry was lost (Table 12.3): the transaction that is open on the line ends as at a time-out (R333), the home copy is
poisoned, and the line is recalled from every member as soon as a recall entry is free (R338). -/
def State.eccDir (s : State) (a : Nat) : State :=
  let s := match (s.dirOf a).tx with
    | some t => if t.doomed then s else s.txEnd a t
    | none => s
  (s.modDir a (fun d => { d with sharers := [], owner := none, snoops := snLost :: d.snoops })).poisonLine a false

/-- A table word: the entry reads as not valid until software writes it again; a tree aborts. -/
def State.eccTable (s : State) (o : EObj) : State :=
  match o with
  | .group i => s.resetIdx .RTE_GROUP_TABLE 0 i
  | .aliasEntry i => s.resetIdx .RTE_ALIAS 0 i
  | .mcast g => (s.resetIdx .MCT_MC_CTL 0 g).resetIdx .MCT_MC_MASK 0 g
  | .tree t => match s.tree t with
    | some x => s.treeAbort t x.base ccLocal
    | none => s
  | _ => s

/-- Keep the members of a list that are not on an engine of `n`; which of them were on the lost one is open (log entry 33). -/
def State.openSplit {α : Type} (s : State) (n : Nat) : List α → List α × List α × State
  | [] => ([], [], s)
  | x :: r =>
    let (k, s) := s.pick n
    let (a, b, s) := State.openSplit s n r
    if k = 0 then (a, x :: b, s) else (x :: a, b, s)

/-- An engine leaves service until device reset (Table 12.3, Table 13.2): its trees abort, its MLs break, its atomics and
their records go, its rendezvous transfers end RDV_FAILED. -/
def State.engineDown (s : State) (e : Nat) : State :=
  if s.enginesDown.contains e then s
  else
    let atoms := s.enginesFor 3
    let rdvs := s.enginesFor 2
    let s := ({ s with enginesDown := s.enginesDown ++ [e] }.mctEngineDown e).matEngineDown e
    let s := if atoms.contains e then
        let (keep, _, s) := s.openSplit atoms.length s.rma.recs
        let (run, _, s) := s.openSplit atoms.length s.rma.atoms
        ((s.modRma (fun r => { r with recs := keep, atoms := run })).wr F.RMA_STATUS.ATOMIC_RECORDS keep.length).atomKick
      else s
    if rdvs.contains e then
      let lost := s.mat.rdvs.filter (fun r => r.started && !r.sent && r.engine == e)
      let s := s.modMat (fun x => { x with rdvs := x.rdvs.filter (fun r => !(lost.any (fun l => l.id == r.id))) })
      foldS lost s (fun s r => match s.ml r.ml with
        | some m => s.recvCqe m r.post (some r.rts) stRdvFailed 0
        | none => s)
    else s

/-- The action of a region (Table 12.3). What the scrubber finds waits for the owner's next read in the packet, replay and local
store regions and for table words (R365). -/
def eccAct : EccAct := fun s r w o scrub =>
  if scrub && (r == 0 || r == 1 || r == 6 || r == 7) then s
  else match r, o with
  | 1, some (.replay p) => (s.eccEmpty (.replay p)).restart p
  | 2, some (.ctx g) => s.eccCtx g
  | 3, _ => regionAct s r w o scrub
  | 4, _ => (lineAct s r w o scrub).agentKick
  | 5, some (.dir a) => (s.eccDir a).homeKick
  | 6, _ => s.engineDown (s.wordEngine w)
  | 7, some t => s.eccTable t
  | _, _ => s

/-- An owner reads what it holds for an object. -/
def State.reads (s : State) (o : EObj) : State := if s.ecc.words.isEmpty then s else s.eccUse eccAct o

/-- Work on an engine of a function: its local store is read. Which engine that is, is open (log entry 33). -/
def State.engineFor (s : State) (k : Nat) (f : State → Nat → State) : State :=
  let es := s.enginesFor k
  if es.isEmpty then s else let (i, s) := s.pick es.length; f s (es.getD i 0)
def State.engineReads (s : State) (k : Nat) : State := if s.ecc.words.isEmpty then s else s.engineFor k (fun s e => s.reads (.engine e))

/-- The local store of the engine that tracks a transfer is read. -/
def State.rdvReads (s : State) (id : Nat) : State :=
  match s.mat.rdvs.find? (fun r => r.id == id && r.started) with
  | some r => s.reads (.engine r.engine)
  | none => s

/-- A descriptor that was fetched again (Table 12.3, R260): what waits for it goes on. -/
def State.eccRefill (s : State) (k : Nat) (a : Ans) : State :=
  if !s.ecc.refetch.contains k then s else
  let s := s.modEcc (fun e => { e with refetch := e.refetch.erase k })
  let bad (s : State) : State := s.modRma (fun r => { r with regions := tabMod r.regions k (fun x => { x with bad := true }) })
  let s := match a with
    | .ok d => if leAt d 60 4 = crc32 (d.take 60) ∧ 64 ≤ d.length then s.eccUnitWrite 3 (.region k) else bad s
    | _ => bad s
  foldS (s.hif.ctx.filter (fun c => c.2.ents.any (fun e => !e.begun && e.fin.isNone))) s (fun s c => s.post (.run c.1))

/-- The groups whose NEXT_SEQ differs between two states. -/
def seqChanged (s t : State) : List Nat :=
  let d := F.MCT_MC_CTL.NEXT_SEQ
  let own (x : State) : List Nat := (x.regs.filter (fun e => (Nat.unpair e.1).1 == Nat.pair d.reg.code d.lo)).map (fun e =>
    (Nat.unpair (Nat.unpair e.1).2).2)
  ((own s ++ own t).eraseDups).filter (fun g => s.rd d g != t.rd d g)

/-- Units write what has changed in what they hold (R359, R369): packets, flits held for replay, contexts, region descriptors,
directory entries, lists, trees, their credits and their chunks, atomic records, rendezvous transfers and the sequence numbers of
groups. The window cache, whose writes are told apart as they are made, is not among them. -/
def State.eccWrites (s t : State) : State :=
  let part (u : State) (r : Nat) (o : EObj) : State := u.eccPartWrite eccAct r o
  let u := foldS ((t.rte.held.filter (fun k => !(s.rte.held.any (fun x => x.b == k.b)))).map (·.b)) t
    (fun u b => u.eccUnitWrite 0 (.packet b))
  let u := foldS ((List.range 64).filter (fun p => s.rd F.LNK_REPLAY_STATUS.TX_NEXT p != t.rd F.LNK_REPLAY_STATUS.TX_NEXT p)) u
    (fun u p => part u 1 (.replay p))
  let u := foldS (t.hif.ctx.filter (·.2.cached)) u (fun u e =>
    let c := s.c e.1
    if !c.cached then u.eccUnitWrite 2 (.ctx e.1) else if c.b = e.2.b then u else part u 2 (.ctx e.1))
  let u := foldS t.rma.regions u (fun u e => match tabGet s.rma.regions e.1 with
    | none => u.eccUnitWrite 3 (.region e.1)
    | some r => if r.d = e.2.d ∧ r.known = e.2.known then u else part u 3 (.region e.1))
  let u := foldS (t.coh.dir.filter (·.2.way)) u (fun u e =>
    let d := s.dirOf e.1
    if d.way ∧ d.sharers = e.2.sharers ∧ d.owner = e.2.owner then u else u.eccUnitWrite 5 (.dir e.1))
  let u := foldS t.mat.mls u (fun u e => match tabGet s.mat.mls e.1 with
    | some m => if m.posted = e.2.posted ∧ m.unexp = e.2.unexp ∧ m.held = e.2.held then u else part u 6 (.ml e.1)
    | none => u)
  let u := foldS t.mct.trees u (fun u e => match tabGet s.mct.trees e.1 with
    | some x =>
      let u := if x.chunks = e.2.chunks ∧ x.ops = e.2.ops then u else part u 6 (.tree e.1)
      if x.upCred = e.2.upCred ∧ x.downCred = e.2.downCred ∧ x.nextSeq = e.2.nextSeq ∧ x.aborted = e.2.aborted then u
      else part u 7 (.tree e.1)
    | none => u.eccUnitWrite 7 (.tree e.1))
  let u := if s.rma.recs = t.rma.recs then u else u.engineFor 3 (fun u e => part u 6 (.engine e))
  let u := foldS ((t.mat.rdvs.filter (fun r => r.started && !(s.mat.rdvs.contains r))).map (·.engine)).eraseDups u
    (fun u e => part u 6 (.engine e))
  foldS (seqChanged s t) u (fun u g => part u 7 (.mcast g))

/-- The owner of a region is enabled (R368). -/
def State.ownerOn (s : State) (r : Nat) : Bool :=
  match r with
  | 0 => s.en uRTE
  | 1 => s.en uLNK
  | 2 => s.en uHIF
  | 3 => s.en uRMA
  | 4 => s.en uCOH
  | 5 => s.en uCOH
  | 6 => s.en uMAT || s.en uMCT || s.en uRMA
  | _ => s.en uRTE || s.en uMCT

/-- A known word or an armed flip may be met by a unit's write. -/
def State.eccWatch (s : State) : Bool := !s.ecc.words.isEmpty || s.on F.ECC_FLIP_CTRL.ARM

/-- An enabled unit may write its region (R415). -/
def State.eccUsed (s : State) : State :=
  let m := ((List.range 8).filter (fun r => s.ownerOn r)).foldl setBit s.ecc.used
  if m = s.ecc.used then s else s.modEcc (fun e => { e with used := m })

/-- Software writes a table entry, as it commits (Table 12.3). -/
def State.eccTableWrite (s : State) (r : Reg) (i : Nat) : State :=
  if !s.eccWatch then s
  else match r with
  | .RTE_GROUP_TABLE => s.eccUnitWrite 7 (.group i)
  | .RTE_ALIAS => s.eccUnitWrite 7 (.aliasEntry i)
  | .MCT_MC_CTL => s.eccPartWrite eccAct 7 (.mcast i)
  | .MCT_MC_MASK => s.eccPartWrite eccAct 7 (.mcast i)
  | _ => s

/-- The table entry that a register shows. -/
def tableObj (r : Reg) (i : Nat) : Option EObj :=
  match r with
  | .RTE_GROUP_TABLE => some (.group i)
  | .RTE_ALIAS => some (.aliasEntry i)
  | .MCT_MC_CTL => some (.mcast i)
  | .MCT_MC_MASK => some (.mcast i)
  | _ => none

/-- The table entries that the route of a packet reads. -/
def State.routeReads (s : State) (b : Bytes) : State :=
  if s.ecc.words.isEmpty then s
  else if pkMcast b then s.reads (.mcast (pkDst b % 2 ^ 14))
  else (foldS (List.range 16) s (fun s i => s.reads (.aliasEntry i))).reads (.group (pkDst b / 256))

/-! ### Scrubber -/

def State.scrubPos (s : State) (r : Nat) : Nat := tabGetD s.ecc.pos r 0
def State.lapBeats (s : State) (r : Nat) : Nat := tabGetD s.ecc.beats r 0

/-- The scrubber of a region reads its next word (R363, R365). The array may show bits that changed since the word was
written (`dUp` of the data, `cUp` of the check bits), and holds `o` there. -/
def State.scrubRead (s : State) (r dUp cUp : Nat) (o : Option EObj) : State :=
  if !s.en uECC then s else
  let w := s.scrubPos r
  let n := s.eccWords r
  let s := if dUp = 0 ∧ cUp = 0 then s else
    let (x, s) := s.eccKnow r w
    if x.poison then s else
    s.setWord r w { x with dflip := x.dflip ^^^ (dUp % 2 ^ (8 * codeBytes (s.eccCode r))),
                           cflip := x.cflip ^^^ (cUp % 2 ^ codeChecks (s.eccCode r)), obj := if x.obj.isSome then x.obj else o }
  let s := s.eccRead eccAct r w true
  if w + 1 < n then
    (s.modEcc (fun e => { e with pos := tabSet e.pos r 0 (w + 1) })).wr F.ECC_REGION_STATUS.PROGRESS ((w + 1) * 65536 / n) r
  else
    let b := s.lapBeats r
    let s := s.modEcc (fun e => { e with pos := tabSet e.pos r 0 0, beats := tabSet e.beats r 0 0 })
    let s := (s.wr F.ECC_REGION_STATUS.LAST_LAP (min 65535 ((b + 1023) / 1024)) r).wr F.ECC_REGION_STATUS.FORCED 0 r
    s.wr F.ECC_REGION_STATUS.PROGRESS 0 r

/-- CORRECTED_WRITE_BACK: the corrected word is written, unless it was written meanwhile (R361, R366). -/
def State.writeBack (s : State) (r w : Nat) : State :=
  match s.eccWord r w with
  | some x => if x.wb then s.eccStore r w x.data x.obj else s
  | none => s

/-- The Beats of the running laps (R364). -/
def State.eccBeat (s : State) : State :=
  if s.en uECC then foldS (List.range 8) s (fun s r => s.modEcc (fun e => { e with beats := tabSet e.beats r 0 (tabGetD e.beats r 0 + 1) }))
  else s

/-- ECC_LAP_MISSED: a lap has reached its deadline (R364). -/
def State.lapMissed (s : State) (r : Nat) : State :=
  if s.en uECC ∧ s.rd F.ECC_SCRUB_CFG.LAP_UNITS * 1024 ≤ s.lapBeats r ∧ !s.on F.ECC_REGION_STATUS.FORCED r then
    (s.wr F.ECC_REGION_STATUS.FORCED 1 r).raise .ECC_LAP_MISSED
  else s

/-- A unit reset of ECC (R370). -/
def State.eccReset (s : State) : State :=
  let s := s.modEcc (fun e => { e with pos := [], beats := [], halves := [] })
  let s := foldS (List.range 8) s (fun s r => (s.wr F.ECC_REGION_STATUS.FORCED 0 r).wr F.ECC_REGION_STATUS.PROGRESS 0 r)
  s.wr F.ECC_FLIP_CTRL.ARM 0

/-! ### The SRAM window -/

/-- The unit that a region belongs to is fitted (R2, Table 0.1); local stores are judged bay by bay. -/
def State.regionFitted (s : State) (r : Nat) : Bool :=
  match r with
  | 2 => s.fitted uHIF || s.fitted (uHIF + 1)
  | 3 => s.fitted uRMA
  | 4 | 5 => s.fitted uCOH
  | _ => true

/-- The byte offset in its region of unit `k` of the window; none beyond the region or in an absent bay (R367), nor in the SRAM of
an absent unit (R2). -/
def State.winOffset (s : State) (k : Nat) : Option Nat :=
  let r := s.rd F.ECC_WIN_SEL.REGION
  let o := s.rd F.ECC_WIN_SEL.PAGE * 262144 + 8 * k
  if eccSize r ≤ o || !s.regionFitted r then none
  else if r = 6 ∧ !s.fitted (24 + o / 4194304) then none
  else some o

/-- The held half of a requester goes, refused (R368). -/
def State.dropHalf (s : State) (who : Who) : State :=
  if s.ecc.halves.any (fun h => h.1 == who) then
    (s.modEcc (fun e => { e with halves := e.halves.filter (fun h => h.1 != who) })).raise .ECC_NARROW_WRITE
  else s

/-- A read of ECC_WIN[k] (R367). An uncorrectable word is counted, logged and written poisoned as any read of it (R362), and takes no
action of its region. -/
def State.winRead (s : State) (who : Who) (k : Nat) : Nat × State :=
  let s := s.dropHalf who
  match s.winOffset k with
  | none => (0, s)
  | some o =>
    let r := s.rd F.ECC_WIN_SEL.REGION
    let cb := codeBytes (s.eccCode r)
    let w := o / cb
    let sh := 2 ^ (8 * (o % cb))
    let (x, s) := s.eccKnow r w
    if s.on F.ECC_WIN_SEL.RAW then
      let c := s.eccCode r
      let s := s.wr F.ECC_WIN_STATUS.CHECK (if x.poison then poisonChecks c else checkBits c x.data ^^^ x.cflip)
      ((x.data ^^^ x.dflip) / sh % 2 ^ 64, s)
    else
      let open' := x.look (s.eccCode r) == 4
      let (look, s) := if open' then s.pick 3 else (x.look (s.eccCode r), s)
      if look = 0 then ((x.data ^^^ x.dflip) / sh % 2 ^ 64, s)
      else if look = 1 then
        let (d, s) := if open' then s.pick (2 ^ 64) else (x.data / sh % 2 ^ 64, s)
        (d, (s.eccCe r w).wr F.ECC_WIN_STATUS.CE 1)
      else if look = 2 then (0, (s.eccUe (fun s r w o _ => s.eccPoison r w o) r w x.obj false).wr F.ECC_WIN_STATUS.UE 1)
      else (0, s.wr F.ECC_WIN_STATUS.UE 1)

/-- The 8-byte unit at a byte offset of a region holds a value already (R447). -/
def State.winHolds (s : State) (r o v : Nat) : Bool × State :=
  let cb := codeBytes (s.eccCode r)
  let (x, s) := s.eccKnow r (o / cb)
  (x.look (s.eccCode r) ≤ 1 && x.data / 2 ^ (8 * (o % cb)) % 2 ^ 64 == v, s)

/-- A write of ECC_WIN[k] (R367, R368); with the owner enabled, one of the value held is no change (R447). -/
def State.winWrite (s : State) (who : Who) (k v : Nat) : State :=
  let r := s.rd F.ECC_WIN_SEL.REGION
  match s.winOffset k with
  | none => (s.dropHalf who).raise .REG_ACCESS
  | some o =>
    if s.ownerOn r then
      let (held, s) := s.winHolds r o v
      (if held then s.dropHalf who else (s.dropHalf who).raise .CFG_REJECT)
    else
      let cb := codeBytes (s.eccCode r)
      if cb = 8 then (s.dropHalf who).eccStore r (o / 8) v none
      else if o % 16 = 0 then (s.dropHalf who).modEcc (fun e => { e with halves := e.halves ++ [(who, o, v)] })
      else
        match s.ecc.halves.find? (fun h => h.1 == who) with
        | some (_, o', lo) =>
          if o' + 8 = o then
            (s.modEcc (fun e => { e with halves := e.halves.filter (fun h => h.1 != who) })).eccStore r (o / 16) (lo + v * 2 ^ 64) none
          else s.dropHalf who
        | none => s.raise .ECC_NARROW_WRITE

/-- A write of ECC_WIN_SEL (Table 12.12). -/
def State.winSel (s : State) (raw region page : Nat) : State :=
  let s := s.modEcc (fun e => { e with halves := [] })
  ((s.wr F.ECC_WIN_SEL.RAW raw).wr F.ECC_WIN_SEL.REGION region).wr F.ECC_WIN_SEL.PAGE page

/-- CHECK_MASK fits the code of the region (R369). -/
def State.flipOk (s : State) (r mask : Nat) : Bool := decide (mask < 2 ^ codeChecks (s.eccCode r))

end Sys2Proof.Machine
end

