-- ==== Sys2Proof/Machine/Peg.lean ====
section
/-! DEFINITION. Pegs (11_pegs.md): owners and reach, taking, waiting, watching, releasing, supervisor actions and resets. -/

namespace Sys2Proof.Machine

/-- The OWNER of the Foreman (R341). -/
abbrev pegForeman : Nat := 0x1000

/-- Result codes of Table 11.1. -/
abbrev pgGot : Nat := 1
abbrev pgHeld : Nat := 2
abbrev pgPending : Nat := 3
abbrev pgTimeout : Nat := 4
abbrev pgNoRoom : Nat := 5
abbrev pgDenied : Nat := 6
abbrev pgDisabled : Nat := 7

/-- The state of a Peg. -/
def State.pg (s : State) (i : Nat) : PegSt := tabGetD s.peg i .init

/-- Set the state of a Peg. -/
def State.setPg (s : State) (i : Nat) (p : PegSt) : State := { s with peg := tabSet s.peg i .init p }

/-- The result word (Table 11.1). -/
def pegWord (result : Nat) (abandoned forced : Bool) (owner position grants : Nat) : Nat :=
  result * 2 ^ 61 + b2n abandoned * 2 ^ 60 + b2n forced * 2 ^ 59 + owner * 2 ^ 46 + position * 2 ^ 32 + grants

/-- Waiter entries in use in the whole device, and stalled reads among them (Table 11.8). -/
def State.pegWaiting (s : State) : Nat := (s.peg.map (fun e => e.2.waiters.length)).sum
def State.pegStalled (s : State) : Nat := (s.peg.map (fun e => (e.2.waiters.filter (fun w => w.2)).length)).sum

/-- The Peg that a function's own index names (R342); none outside its window (R343). -/
def State.pegOf (s : State) (f : Fn) (j : Nat) : Option Nat :=
  match f with
  | .pf _ => if j < 4096 then some j else none
  | .vf p v =>
    let n := s.rdI F.PEG_VF_MAP.PCOUNT p.val v.val
    let i := s.rdI F.PEG_VF_MAP.PBASE p.val v.val + j
    if j < n ∧ i < 4096 then some i else none

/-- A function's own index of a Peg. -/
def State.pegLocal (s : State) (f : Fn) (i : Nat) : Nat :=
  match f with
  | .pf _ => i
  | .vf p v => i - s.rdI F.PEG_VF_MAP.PBASE p.val v.val

/-- A function may use a Peg (R342). -/
def State.pegReach (s : State) (f : Fn) (i : Nat) : Bool := bit (s.rd F.PEG_GROUP.PF_MASK (i / 64)) (fnPf f)

/-- PEG_FN_CFG of a function. -/
def State.pegWatchEn (s : State) (f : Fn) : Bool := s.rdI F.PEG_FN_CFG.WATCH_EN (fnInst f) 0 == 1

/-- Grant a free Peg to an owner: GRANTS rises, the marks are delivered and clear (R344, R352). -/
def PegSt.grant (p : PegSt) (owner : Nat) : PegSt :=
  ⟨some owner, (p.grants + 1) % 2 ^ 32, false, false, p.waiters⟩

/-- A grant reported to a watch (R348). -/
def State.pegEvent (s : State) (f : Fn) (i : Nat) (before after : PegSt) : State :=
  s.event f (s.rdI F.PEG_FN_CFG.WATCH_EQ (fnInst f) 0) 0x18 (b2n before.abandoned + 2 * b2n before.forced)
    (s.pegLocal f i) after.grants

/-- The GOT word of a grant. -/
def gotWord (before after : PegSt) (owner : Nat) : Nat :=
  pegWord pgGot before.abandoned before.forced owner 0 after.grants

/-- Grant a Peg that has become free to its head waiter, if any (R345, R349). -/
def State.pegHand (s : State) (i : Nat) : State :=
  let p := s.pg i
  match p.waiters with
  | [] => s
  | (f, stalled) :: r =>
    let before := { p with waiters := r }
    let after := before.grant (fnOwner f)
    let s := s.setPg i after
    if stalled then s.emit (.pegValue f (s.pegLocal f i) (gotWord before after (fnOwner f))) else s.pegEvent f i before after

/-- Free a Peg and hand it on. -/
def State.pegFree (s : State) (i : Nat) : State := (s.setPg i { s.pg i with holder := none }).pegHand i

/-- Place of a function's waiter in the queue, 1 at the head. -/
def PegSt.position (p : PegSt) (f : Fn) : Nat := p.waiters.findIdx (fun w => w.1 == f) + 1

/-- What a take finds (R344): whether the queue must be joined, or the word that is returned at once. The reader is a
function or the Foreman; `room` says whether a waiter can be taken. -/
inductive PegAns where
  | now (word : Nat) (p : PegSt)
  | noRoom (word : Nat)
  | queue
  deriving DecidableEq, Repr

/-- The word and the effect of a take or a try by `owner` on a Peg (R344). -/
def PegSt.take (p : PegSt) (owner : Nat) (room : Bool) : PegAns :=
  match p.holder with
  | none => if p.waiters.isEmpty then .now (gotWord p (p.grant owner) owner) (p.grant owner)
            else if room then .queue else .noRoom (pegWord pgNoRoom false false 0 0 p.grants)
  | some h =>
    if h = owner then .now (pegWord pgHeld false false owner 0 p.grants) p
    else if room then .queue else .noRoom (pegWord pgNoRoom false false 0 0 p.grants)

/-- TIMEOUT with the present holder. -/
def PegSt.timeoutWord (p : PegSt) : Nat := pegWord pgTimeout false false (p.holder.getD 0) 0 p.grants

/-- HELD with the present holder. -/
def PegSt.heldWord (p : PegSt) : Nat := pegWord pgHeld false false (p.holder.getD 0) 0 p.grants

/-- A waiter entry is free; a stalled read also needs one of the 256 places. -/
def State.pegRoom (s : State) (stalls : Bool) : Bool :=
  decide (s.pegWaiting < 8192) && (!stalls || decide (s.pegStalled < 256))

/-- A read of PEG_TRY[i] by a function with its window in place (R344), or by the Foreman (R425). -/
def State.pegTryBy (s : State) (owner i : Nat) : Nat × State :=
  if !s.en uPEG then (pegWord pgDisabled false false 0 0 (s.pg i).grants, s) else
  match (s.pg i).take owner (s.pegRoom true) with
  | .now w p => (w, s.setPg i p)
  | .noRoom w => (w, s.inc F.PEG_COUNT.NO_ROOM)
  | .queue => ((s.pg i).heldWord, s)

/-- A use without access (R342). -/
def State.pegDeny (s : State) : State := s.raise .PEG_DENIED

/-- A read of PEG_TRY[j] (R344); outside the window it returns zero (R343). -/
def State.pegTry (s : State) (f : Fn) (j : Nat) : State :=
  match s.pegOf f j with
  | none => s.emit (.pegValue f j 0)
  | some i =>
    if s.en uPEG ∧ !s.pegReach f i then
      s.pegDeny.emit (.pegValue f j (pegWord pgDenied false false 0 0 (s.pg i).grants))
    else
      let (w, s) := s.pegTryBy (fnOwner f) i
      s.emit (.pegValue f j w)

/-- The word of a second take while the function's first read is stalled: the spec leaves its RESULT open, but that it is no grant (log
entry 31), and Table 11.1 gives the other fields by it. -/
def State.pegSecond (s : State) (p : PegSt) (f : Fn) : Nat × State :=
  let (n, s) := s.pick 7
  let r := if n = 0 then 0 else n + 1
  (pegWord r false false (if r = pgHeld ∨ r = pgPending ∨ r = pgTimeout then p.holder.getD 0 else 0)
    (if r = pgPending then p.position f else 0) p.grants, s)

/-- A read of PEG_TAKE[j] (R344, R347): a second take by a function that has a waiter changes nothing; it reads PENDING
where the waiter is a watch. -/
def State.pegTake (s : State) (f : Fn) (j : Nat) : State :=
  match s.pegOf f j with
  | none => s.emit (.pegValue f j 0)
  | some i =>
    let p := s.pg i
    if !s.en uPEG then s.emit (.pegValue f j (pegWord pgDisabled false false 0 0 p.grants))
    else if !s.pegReach f i then
      s.pegDeny.emit (.pegValue f j (pegWord pgDenied false false 0 0 p.grants))
    else
      match p.waiters.find? (fun w => w.1 == f) with
      | some (_, false) =>
        s.emit (.pegValue f j (pegWord pgPending false false (p.holder.getD 0) (p.position f) p.grants))
      | some (_, true) =>
        let (w, s) := s.pegSecond p f
        s.emit (.pegValue f j w)
      | none =>
        match p.take (fnOwner f) (s.pegRoom true) with
        | .now w p => (s.setPg i p).emit (.pegValue f j w)
        | .noRoom w => (s.inc F.PEG_COUNT.NO_ROOM).emit (.pegValue f j w)
        | .queue => s.setPg i { p with waiters := p.waiters ++ [(f, true)] }

/-- STALL_LIMIT passes for a stalled read of PEG_TAKE[j] (R345). -/
def State.pegStallLimit (s : State) (f : Fn) (j : Nat) : State :=
  match s.pegOf f j with
  | none => s
  | some i =>
    let p := s.pg i
    if p.waiters.contains (f, true) then
      if s.pegWatchEn f then
        (s.setPg i { p with waiters := p.waiters.map (fun w => if w.1 == f then (f, false) else w) }).emit
          (.pegValue f j (pegWord pgPending false false (p.holder.getD 0) (p.position f) p.grants))
      else
        (s.setPg i { p with waiters := p.waiters.erase (f, true) }).emit
          (.pegValue f j p.timeoutWord)
    else s

/-- A write of WATCH to PEG_WATCH[j] (R347). -/
def State.pegWatch (s : State) (f : Fn) (j : Nat) : State :=
  match s.pegOf f j with
  | none => s.raise .REG_ACCESS
  | some i =>
    let p := s.pg i
    if !s.en uPEG then s
    else if !s.pegReach f i || !s.pegWatchEn f then s.pegDeny
    else if p.waiters.any (fun w => w.1 == f) then s
    else
      match p.take (fnOwner f) (s.pegRoom false) with
      | .now _ p' => if p.holder = none then (s.setPg i p').pegEvent f i p p' else s
      | .noRoom _ => s.inc F.PEG_COUNT.NO_ROOM
      | .queue => s.setPg i { p with waiters := p.waiters ++ [(f, false)] }

/-- A write of CANCEL to PEG_WATCH[j] (R347). -/
def State.pegCancel (s : State) (f : Fn) (j : Nat) : State :=
  match s.pegOf f j with
  | none => s.raise .REG_ACCESS
  | some i => s.setPg i { s.pg i with waiters := (s.pg i).waiters.erase (f, false) }

/-- A release by an owner (R349). -/
def State.pegReleaseBy (s : State) (owner i : Nat) : State :=
  if (s.pg i).holder = some owner then s.pegFree i else s.raise .PEG_NOT_OWNER

/-- A write of RELEASE to PEG_RELEASE[j] (R342, R349). -/
def State.pegRelease (s : State) (f : Fn) (j : Nat) : State :=
  match s.pegOf f j with
  | none => s.raise .REG_ACCESS
  | some i => if s.en uPEG ∧ !s.pegReach f i then s.pegDeny else s.pegReleaseBy (fnOwner f) i

/-- FORCE_RELEASE of Peg `i` (R351): the mark stands before the head waiter is granted, which then sees it. -/
def State.pegForceRelease (s : State) (i : Nat) : State :=
  let s := (s.inc F.PEG_COUNT.FORCED).raise .PEG_FORCED
  let s := s.setPg i { s.pg i with forced := true }
  if (s.pg i).holder.isSome then s.pegFree i else s

/-- FLUSH_WAITERS of Peg `i` (R351, R348). -/
def State.pegFlushWaiters (s : State) (i : Nat) : State :=
  let p := s.pg i
  foldS p.waiters (s.setPg i { p with waiters := [] }) (fun s w =>
    if w.2 then s.emit (.pegValue w.1 (s.pegLocal w.1 i) p.timeoutWord)
    else s.event w.1 (s.rdI F.PEG_FN_CFG.WATCH_EQ (fnInst w.1) 0) 0x19 0 (s.pegLocal w.1 i) p.grants)

/-- A supervisor command (Table 11.7), by a PF that PEG_SUPERVISOR names (R351). -/
def State.pegForce (s : State) (pf cmd i : Nat) : State :=
  if !bit (s.rd F.PEG_SUPERVISOR.MASK) pf then s.raise .CFG_REJECT
  else match cmd with
    | 0 => s
    | 1 => s.pegForceRelease i
    | 2 => s.pegFlushWaiters i
    | _ => s.raise .CFG_REJECT

/-- Free every Peg whose holder a reset covers, with ABANDONED; waiters of the reset functions go first, and PEG_ABANDONED
is logged once (R352, Table 11.2). `link` says whose stalled reads can still be answered. -/
def State.pegOwnersReset (s : State) (covers : Fn → Bool) (owns : Nat → Bool) (link : Fn → Bool) : State :=
  let s := foldS (s.peg.map (·.1)) s (fun s i =>
    let p := s.pg i
    let gone := p.waiters.filter (fun w => covers w.1)
    let s := s.setPg i { p with waiters := p.waiters.filter (fun w => !covers w.1) }
    foldS (gone.filter (fun w => w.2 && link w.1)) s (fun s w => s.emit (.pegValue w.1 (s.pegLocal w.1 i) p.timeoutWord)))
  let held := (s.peg.filter (fun e => match e.2.holder with | some h => owns h | none => false)).map (·.1)
  let s := foldS held s (fun s i => (s.setPg i { s.pg i with abandoned := true }).pegFree i)
  if held.isEmpty then s else s.raise .PEG_ABANDONED

/-- The Peg part of the reset of a VF (Table 11.2). -/
def State.pegVfReset (s : State) (f : Fn) : State :=
  s.pegOwnersReset (fun g => g == f) (fun h => h == fnOwner f) (fun g => s.linkUpPf (fnPf g))

/-- The Peg part of one reset of PFs with their VFs, at once (Table 11.2). -/
def State.pegPfReset (s : State) (ps : List Nat) (inReset : Bool) : State :=
  s.pegOwnersReset (fun g => ps.contains (fnPf g)) (fun h => decide (h < 0x1000) && ps.contains (h / 1024))
    (fun g => !inReset && s.linkUpPf (fnPf g))

/-- The Foreman restarts (Table 11.2). -/
def State.pegForemanReset (s : State) : State := s.pegOwnersReset (fun _ => false) (fun h => h == pegForeman) (fun _ => true)

/-- A device reset completes the stalled reads of functions whose link is up with TIMEOUT (R352). -/
def State.pegEndStalled (s : State) : State :=
  foldS s.peg s (fun s e => foldS (e.2.waiters.filter (fun w => w.2 && s.linkUpPf (fnPf w.1))) s (fun s w =>
    s.emit (.pegValue w.1 (s.pegLocal w.1 e.1) e.2.timeoutWord)))

/-- A PEG unit reset (Table 11.2, R354): every waiter is removed, every Peg freed, ABANDONED on those that were held. -/
def State.pegUnitReset (s : State) : State :=
  let s' := foldS s.peg { s with peg := s.peg.map (fun e =>
      (e.1, { e.2 with waiters := [], holder := none, abandoned := e.2.abandoned || e.2.holder.isSome })) } (fun s e =>
    foldS (e.2.waiters.filter (fun w => w.2)) s (fun s w =>
      s.emit (.pegValue w.1 (s.pegLocal w.1 e.1) (pegWord pgDisabled false false 0 0 e.2.grants))))
  if s.peg.any (fun e => e.2.holder.isSome) then s'.raise .PEG_ABANDONED else s'

/-- PEG_STATE[i] (Table 11.12). -/
def State.pegStateWord (s : State) (i : Nat) : Nat :=
  let p := s.pg i
  b2n p.holder.isSome * 2 ^ 63 + b2n p.abandoned * 2 ^ 62 + b2n p.forced * 2 ^ 61 + p.holder.getD 0 * 2 ^ 48 +
    p.waiters.length * 2 ^ 34 + p.grants

/-- A VF holds or waits on a Peg (R355). -/
def State.pegBusy (s : State) (f : Fn) : Bool :=
  s.peg.any (fun e => e.2.holder == some (fnOwner f) || e.2.waiters.any (fun w => w.1 == f))

/-- A write of PEG_VF_MAP of VF `v` (R355, Table 11.11): refused above the PF's VF count, while the VF uses a Peg, and
outside the ranges. -/
def State.pegMapOk (s : State) (pf v base count : Nat) : Bool :=
  decide (v < s.pfVfs pf) && !s.pegBusy (.vf (Fin.ofNat 4 pf) (Fin.ofNat 512 v)) && decide (count ≤ 64) && decide (base + count ≤ 4096)

end Sys2Proof.Machine
end

