-- ==== Sys2Proof/Machine/Pwr.lean ====
section
/-! DEFINITION. Power states, fabric ports, Scribe loops, the sprint budget, derating and the Grain monitor
(14_power_thermal_wear.md, R443). -/

namespace Sys2Proof.Machine

def State.modPwr (s : State) (f : Pwr → Pwr) : State := { s with pwr := f s.pwr }
def State.modGrn (s : State) (f : Grn → Grn) : State := { s with grn := f s.grn }

/-- Conditional task `k` of Table 1.4 is enabled: bit 16 + k of BEA_CONFIG. -/
def State.task (s : State) (k : Nat) : Bool := bit (s.rd F.BEA_CONFIG.TASK_EN) k

/-- Unlimited tolerance (R390). -/
abbrev tolNone : Nat := 4294967295

/-! ### Latency tolerance -/

/-- The tolerance of host attachment `a` (R390). -/
def State.hostTol (s : State) (a : Nat) : Nat :=
  if s.on F.PWR_HOST_TOL.OVR a then s.rd F.PWR_HOST_TOL.OVR_NS a
  else match tabGet s.pwr.ltr a with
    | some (true, sn, ns) => min tolNone (min sn ns)
    | _ => 0

/-- The effective tolerance (R390). -/
def State.tol (s : State) : Nat :=
  (List.range 4).foldl (fun t a => if s.pfExists a && s.linkUpPf a then min t (s.hostTol a) else t) (s.rd F.PWR_FABRIC_TOL.TOL_NS)

/-- An LTR latency field in ns: value and scale (PCIe 6.0). -/
def ltrNs (v : Nat) : Nat := v % 1024 * 2 ^ (5 * (v / 1024 % 8))

/-- The Beat in 0.1 ns (R23). -/
def State.beatTenths (s : State) : Nat := 512 * s.bea.period

/-- T_WIDEN and T_STEP in 0.1 ns (R394, R395). -/
def State.tWiden (s : State) : Nat := 2000000 + 80 * s.beatTenths
def State.tStep (s : State) : Nat :=
  (65 + s.rd F.SER_BRINGUP_CFG.TRAIN_US + s.rd F.SER_BRINGUP_CFG.CHECK_US) * 10000 + 16 * s.beatTenths

/-- A tolerance in ns reaches a time in 0.1 ns. -/
def tolReaches (t time : Nat) : Bool := t == tolNone || decide (time ≤ t * 10)

/-- Exit times of Table 14.1, in ns. -/
def exitNs (st : Nat) : Nat := [0, 200, 5000, 30000, 2000000].getD st 0

/-! ### Power states -/

def State.pState (s : State) : Nat := s.rd F.PWR_STATE.STATE
def State.exiting (s : State) : Bool := s.on F.PWR_STATE.EXITING

/-- The device starts to leave a power state for P0 (Table 14.2). -/
def State.toP0 (s : State) : State := if s.pState = 0 then s else s.wr F.PWR_STATE.EXITING 1

/-- A wake cause (Table 14.2): a gated bay, or another. -/
def State.wake (s : State) (bay : Option Nat) : State :=
  match s.pState with
  | 0 => s
  | 1 => match bay with
    | some b => s.modPwr (fun p => { p with gated := clrBit p.gated b })
    | none => s
  | _ => s.toP0

/-- Every gated resource is usable again: the state is P0 (R391). -/
def State.awake (s : State) : State :=
  ((s.wr F.PWR_STATE.EXITING 0).wr F.PWR_STATE.STATE 0).modPwr (fun p => { p with gated := 0, l1 := 0, waits := [] })

/-- A unit whose logic is power-gated (Table 14.1). -/
def State.gatedUnit (s : State) (u : Nat) : Bool := s.pState == 4 && (u == uHIF || u == uRMA || u == uMAT || u == uCOH)

/-- The engines are power-gated, and the window cache is in retention (Table 14.1). -/
def State.gatedEngines (s : State) : Bool := decide (2 ≤ s.pState)

/-- The attachment of a function is in L1 (Table 14.1). -/
def State.linkAsleep (s : State) (f : Fn) : Bool := s.live && bit s.pwr.l1 (fnPf f)

/-- A host access to a gated resource is a wake cause (R392), and completes after the wake (R393). -/
def State.sleepOn (s : State) (a : Asleep) : State := (s.modPwr (fun p => { p with waits := p.waits ++ [a] })).wake none

/-- The attachment that something leaving the device uses. -/
def Out.pf : Out → Option Nat
  | .regValue (.fn f) _ | .pegValue f .. | .hostRead f .. | .hostWrite f .. | .hostAtomic f .. | .msix f .. => some (fnPf f)
  | .cacheReq port .. | .snpRsp port .. | .biSnp port .. | .memData port .. | .memCmp port .. => some (2 * port)
  | _ => none

/-- The device's own traffic through an attachment in L1 is a wake cause (R392); how long it takes to leave is timing. -/
def State.linkWake (s : State) (out : List Out) : State :=
  if s.pwr.l1 = 0 then s
  else if s.live && out.any (fun o => match o.pf with | some a => bit s.pwr.l1 a | none => false) then s.wake none
  else s

/-- A power state is allowed (R391). -/
def State.allowed (s : State) (n : Nat) : Bool :=
  decide (exitNs n ≤ s.tol) && decide (n ≤ s.rd F.PWR_CTRL.MAX_STATE) &&
  (match n with
   | 2 => decide (s.rd F.PWR_IDLE.P2_BEATS ≤ s.pwr.idle2)
   | 3 => decide (s.rd F.PWR_IDLE.P3_BEATS ≤ s.pwr.idle3)
   | 4 => decide (s.rd F.PWR_IDLE.P4_BEATS ≤ s.pwr.idle4)
   | _ => true)

/-- The deepest allowed state. -/
def State.deepest (s : State) : Nat := (List.range 5).foldl (fun d n => if s.allowed n then n else d) 0

/-- POWER_STATE_ENTRY (R392): the deepest allowed state, where it is deeper. In P3 and P4 every attachment that is up and that its host
has enabled for L1 enters L1 (Table 14.1); which of them that is, PCI Express configures and the spec leaves open (log entry 129). -/
def State.powerEntry (s : State) : State :=
  let d := s.deepest
  if s.en uPWR ∧ !s.exiting ∧ s.pState < d ∧ s.pState < 4 then
    let (l1, s) := if 3 ≤ d then s.pick 16 else (0, s)
    (s.wr F.PWR_STATE.STATE d).modPwr (fun p => { p with
      gated := if d = 1 then 65535 - p.bays % 65536 else 65535
      l1 := if d < 3 then p.l1 else (((bitsSet 4 l1).filter (fun a => s.pfExists a && s.linkUpPf a)).map (fun a => 2 ^ a)).sum })
  else s

/-- The idle counts of one boundary, the gating of bays in P1, and the exits that the settings in effect ask for. -/
def State.idleTask (s : State) (m : BeatIn) : State :=
  let c2 := m.bays == 0 && !m.window
  let c3 := c2 && !m.host
  let busyQ := s.hif.ctx.any (fun e => e.2.f Q.STATE == qActive || e.2.f Q.STATE == qStopping)
  let busyT := s.mct.trees.any (fun t => s.rd F.MCT_TREE_STATUS.STATE t.1 == tsActive)
  let c4 := c3 && !busyQ && s.hif.wait.isEmpty && s.hif.late.isEmpty && !busyT && s.cohIdle
  let up (c : Bool) (n : Nat) : Nat := if c then min 65535 (n + 1) else 0
  let s := s.modPwr (fun p => { p with idle2 := up c2 p.idle2, idle3 := up c3 p.idle3, idle4 := up c4 p.idle4, bays := m.bays % 65536 })
  let s := if s.pState = 1 then s.modPwr (fun p => { p with gated := 65535 - m.bays % 65536 }) else s
  if !s.en uPWR ∨ s.rd F.PWR_CTRL.MAX_STATE < s.pState then s.toP0 else s

/-- The tolerance may have changed (R392, R395). -/
def State.tolTask (s : State) : State :=
  let old := s.pwr.tol
  let new := s.tol
  if old = new then s
  else
    let s := s.modPwr (fun p => { p with tol := new })
    if old < new then s
    else
      let fell (t : Nat) : Bool := tolReaches old t && !tolReaches new t
      let used (p : Nat) : Bool := s.portRole p != 0
      let s := if fell s.tStep then foldS ((List.range 64).filter used) s (fun s p =>
          if s.shadowOf F.SER_PORT_CTRL.TARGET_STEP p < s.portMaxStep p then s.stage F.SER_PORT_CTRL.TARGET_STEP (s.portMaxStep p) p else s)
        else s
      let narrow := (List.range 64).any (fun p => used p && s.serState p == serActive && s.rd F.SER_PORT_STATUS.WIDTH p == 1 &&
        s.portMaxWidth p == 2)
      let slow := (List.range 64).any (fun p => used p && s.serState p == serActive &&
        decide (s.rd F.SER_PORT_STATUS.STEP p < s.portMaxStep p))
      let s := if (fell s.tWiden && narrow) || (fell s.tStep && slow) then s.raise .PWR_LATENCY_UNMET else s
      if new < exitNs s.pState then s.toP0 else s

/-- LTR_UPDATE: host software writes a PF's LTR control and latencies (R390). -/
def State.ltrUpdate (s : State) (pf : Nat) (enable : Bool) (snoop nosnoop : Nat) : State :=
  s.modPwr (fun p => { p with ltr := tabPut p.ltr pf (enable, ltrNs snoop, ltrNs nosnoop) })

/-! ### Fabric ports -/

/-- The traffic of a port in the Beat that ends, out and in, in percent of one-lane capacity. -/
def trafficOf (m : BeatIn) (p : Nat) : Nat × Nat := ((m.traffic.find? (fun t => t.1 == p)).map (fun t => t.2)).getD (0, 0)

/-- The Beats in a row in which a port's traffic stayed below NARROW_PCT both ways (R394): counted on every port, so that a port which
becomes an auto port is judged by the Beats that passed. -/
def State.quietPort (s : State) (p : Nat) (t : Nat × Nat) : State :=
  let low := s.rd F.PWR_PORT_CFG.NARROW_PCT
  s.modPwr (fun x => { x with quiet := tabSet x.quiet p 0 (if t.1 < low ∧ t.2 < low then min 65535 (tabGetD x.quiet p 0 + 1) else 0) })

/-- What a boundary decides for an auto port (R394, R405). -/
def State.autoPort (s : State) (p out inn : Nat) : State :=
  let high := s.rd F.PWR_PORT_CFG.WIDEN_PCT
  let q := tabGetD s.pwr.quiet p 0
  let w := s.rd F.SER_PORT_STATUS.WIDTH p
  let okTol := tolReaches s.tol s.tWiden
  let up := s.on F.BEA_STATUS.UP_VALID && s.rd F.BEA_STATUS.UPSTREAM == p
  let asked := (s.sp p).wide
  let s := s.modSp p (fun x => { x with wide := false })
  if asked ∨ !s.en uPWR ∨ (w = 1 ∧ (high < out ∨ high < inn ∨ !okTol)) then s.drive F.SER_PORT_CTRL.TARGET_WIDTH (min 2 (s.portMaxWidth p)) p
  else if w = 2 ∧ okTol ∧ s.rd F.PWR_PORT_CFG.PORT_IDLE_BEATS ≤ q ∧ !up then s.drive F.SER_PORT_CTRL.TARGET_WIDTH 1 p
  else s

/-- All auto ports (R394). -/
def State.portTask (s : State) (m : BeatIn) : State :=
  let s := foldS (List.range 64) s (fun s p => s.quietPort p (trafficOf m p))
  foldS (bitsSet 64 (s.rd F.PWR_PORT_AUTO.AUTO)) s (fun s p => s.autoPort p (trafficOf m p).1 (trafficOf m p).2)

/-! ### Scribe loops -/

/-- One update of a loop on a whole-number value `u` (R396): the error before is kept under `key`. -/
def State.loopOn (s : State) (k key : Nat) (e : Int) (u lo hi : Nat) : Nat × State :=
  let d := s.loopStep k e ((tabGet s.pwr.prev key).getD e)
  ((max (lo : Int) (min (hi : Int) (u + d))).toNat, s.modPwr (fun p => { p with prev := tabPut p.prev key e }))

/-- Forget the error before: the loop does not run, or its override is set. -/
def State.loopOff (s : State) (key : Nat) : State := s.modPwr (fun p => { p with prev := tabDel p.prev key })

/-- Adaptive voltage scaling of one island (R396, R399). -/
def State.avsLoop (s : State) (i : Nat) (slack : Int) : State :=
  let s := s.drive F.PWR_AVS.SLACK (ofSigned 16 slack) i
  if !s.en uPWR ∨ !s.task 1 then (if s.task 1 then s else s.loopOff i)
  else if s.on F.PWR_AVS_OVERRIDE.OVR i then s.loopOff i
  else
    let e : Int := (s.rd F.PWR_LOOP_CFG.AVS_SLACK : Int) - slack
    let (u, s) := s.loopOn 0 i e (s.rd F.PWR_AVS.VOLT i) (island i).2.1 (island i).2.2
    let s := s.drive F.PWR_AVS.VOLT u i
    if s.rd F.PWR_AVS.VOLT i == (island i).2.2 && decide (0 < e) && !bit s.pwr.limitLogged i then
      (s.modPwr (fun p => { p with limitLogged := setBit p.limitLogged i })).raise .PWR_AVS_LIMIT i
    else s

/-- The engine frequency loop (R396, R401). -/
def State.engLoop (s : State) : State :=
  if !s.task 2 then s.loopOff 4
  else if !s.en uPWR then s
  else if s.on F.PWR_ENG_OVERRIDE.OVR then s.loopOff 4
  else
    let e : Int := ((s.rd F.PWR_POWER.CEILING : Int) - (s.rd F.PWR_POWER.P_NOW : Int)) / 10
    let (u, s) := s.loopOn 1 4 e (s.rd F.PWR_ENG.STEP) 16 (s.rd F.PWR_ENG.CAP)
    s.drive F.PWR_ENG.STEP u

/-- Mean EPOCH_AVG of the routable ports (R397, Table 14.3). -/
def State.meanQueue (s : State) : Nat :=
  let ps := (List.range 64).filter (fun p => !s.dead p)
  if ps.isEmpty then 0 else (ps.map (fun p => s.rd F.RTE_CONG.EPOCH_AVG p)).sum / ps.length

/-- The Eddy-mark threshold loop. -/
def State.eddyLoop (s : State) : State :=
  if !s.task 4 ∨ s.on F.RTE_EDDY_OVERRIDE.OVR then s.loopOff 5
  else
    let e : Int := (s.rd F.PWR_LOOP_CFG.EDDY_QREF : Int) - (s.meanQueue : Int)
    let (u, s) := s.loopOn 3 5 e (s.rd F.RTE_EDDY.THRESH) 1 32767
    s.drive F.RTE_EDDY.THRESH u

/-- The share of the Beat's adaptive injections that went non-minimal, in 1/256; with no injection it is 0 (R397). -/
def State.nonminShare (s : State) : Nat := s.rte.nonmin * 256 / s.rte.injected

/-- The adaptive-routing bias loop (R397). -/
def State.biasLoop (s : State) : State :=
  let q := s.meanQueue
  let nonmin := s.nonminShare
  let e : Int := if s.pwr.qPrev ≤ q then (nonmin / 16 : Nat) else -(min (s.pwr.qPrev - q) 16 : Nat)
  let s := s.modPwr (fun p => { p with qPrev := q })
  if !s.task 5 ∨ s.on F.RTE_ADAPT_OVERRIDE.OVR then s.loopOff 6
  else
    let (u, s) := s.loopOn 4 6 e (s.rd F.RTE_ADAPT.BIAS) 0 65535
    s.drive F.RTE_ADAPT.BIAS u

/-- A tree or an ML that the placement loop may move (R197, R286): number, whether it is a tree, and its bytes. -/
def State.movable (s : State) (k e : Nat) : List (Nat × Nat) :=
  if k = 1 then
    (s.mct.trees.filter (fun t => s.rd F.MCT_TREE_STATUS.ENGINE t.1 == e && s.rd F.MCT_TREE_STATUS.STATE t.1 == tsReady &&
      t.2.chunks.isEmpty && t.2.ops.isEmpty)).map (fun t => (t.1, (leAt t.2.d 3 1 + 2) * leAt t.2.d 4 2 * 4096))
  else
    (s.mat.mls.filter (fun m => m.2.engine == e && m.2.onchip == 0 && m.2.events.isEmpty)).map (fun m => (m.1, 64 * m.2.f ML.ONCHIP))

/-- Decide to move one object to an engine that has room for it (R398), which commits at the next boundary (R396); which object is
open (log entry 16). -/
def State.planMove (s : State) (k e e' : Nat) : State :=
  let os := (s.movable k e).filter (fun o => decide (o.2 ≤ s.engineFree e') && !s.pwr.moves.any (fun m => m.1 == k && m.2.1 == o.1))
  if os.isEmpty then s
  else
    let (i, s) := s.pick os.length
    match os[i]? with
    | none => s
    | some o => s.modPwr (fun p => { p with moves := p.moves ++ [(k, o.1, e')] })

/-- The engine that an object of the placement loop lies on. -/
def State.placed (s : State) (k o : Nat) : Nat :=
  if k = 1 then s.rd F.MCT_TREE_STATUS.ENGINE o else ((tabGet s.mat.mls o).map (fun m => m.engine)).getD 0

/-- A decided move takes place: the object may still be moved and the engine still has room for it. Its bay is needed (R392). -/
def State.moveNow (s : State) (m : Nat × Nat × Nat) : State :=
  match (s.movable m.1 (s.placed m.1 m.2.1)).find? (fun o => o.1 == m.2.1) with
  | some o =>
    if s.engineFree m.2.2 < o.2 then s
    else
      let s := (s.inc F.PWR_PLACE.MOVES).wake (some (m.2.2 / 16))
      if m.1 = 1 then s.wr F.MCT_TREE_STATUS.ENGINE m.2.2 o.1 else s.modMl o.1 (fun x => { x with engine := m.2.2 })
  | none => s

/-- The results of the power tasks that are no registers' commit with group 14 (R27, R31): moves and P_FILT. -/
def State.pwrCommit (s : State) : State :=
  let ms := s.pwr.moves
  let s := s.modPwr (fun p => { p with moves := [], filt := p.filtNext.getD p.filt, filtNext := none })
  foldS ms s (fun s m => s.moveNow m)

/-- The placement loop (R398), for matching (0) and collectives (1): the busy shares of the Beat, and the moves. -/
def State.placeLoop (s : State) (m : BeatIn) : State :=
  let s := s.modPwr (fun p => { p with moves := [], busy := m.busy })
  if !s.task 6 ∨ !s.en uPWR ∨ s.on F.PWR_PLACE.FREEZE then s
  else foldS [0, 1] s (fun s k =>
    match s.enginesFor k with
    | [] => s
    | e :: es =>
      let top := es.foldl (fun (a x : Nat) => if s.busyShare k a < s.busyShare k x then x else a) e
      let low := es.foldl (fun (a x : Nat) => if s.busyShare k x < s.busyShare k a then x else a) e
      if 64 ≤ (s.busyShare k top - s.busyShare k low) * s.rd F.PWR_LOOP_GAIN.GAIN_P 5 / 256 then
        foldS (List.range (s.rd F.PWR_LOOP_GAIN.STEP_LIMIT 5)) s (fun s _ => s.planMove k top low)
      else s)

/-- Committed overrides put their values in effect (R396, R402). -/
def State.overrides (s : State) : State :=
  let s := foldS (List.range 4) s (fun s i =>
    if s.on F.PWR_AVS_OVERRIDE.OVR i then s.wr F.PWR_AVS.VOLT (s.rd F.PWR_AVS_OVERRIDE.VOLT i) i else s)
  let s := if s.on F.PWR_ENG_OVERRIDE.OVR then s.wr F.PWR_ENG.STEP (min (s.rd F.PWR_ENG.CAP) (s.rd F.PWR_ENG_OVERRIDE.STEP)) else s
  let s := if s.on F.RTE_EDDY_OVERRIDE.OVR then s.wr F.RTE_EDDY.THRESH (s.rd F.RTE_EDDY_OVERRIDE.THRESH) else s
  if s.on F.RTE_ADAPT_OVERRIDE.OVR then s.wr F.RTE_ADAPT.BIAS (s.rd F.RTE_ADAPT_OVERRIDE.BIAS) else s

/-- The value that an island is to hold (R399). -/
def State.avsTarget (s : State) (i : Nat) : Nat := if s.spill || !s.task 1 then (island i).1 else s.rd F.PWR_AVS.VOLT i

/-- A Beat has passed since the regulators were last written: what they settled at is the last good value; an island below V_MAX may log
PWR_AVS_LIMIT again (R399). -/
def State.avsSettle (s : State) : State :=
  s.modPwr (fun p => { p with
    good := p.isl
    limitLogged := ((List.range 4).filter (fun i => decide (s.rd F.PWR_AVS.VOLT i < (island i).2.2))).foldl clrBit p.limitLogged })

/-- Send each committed change of an island's voltage to its regulator (R399). -/
def State.avsSend (s : State) : State :=
  foldS (List.range 4) s (fun s i =>
    let nom := (island i).1
    let t := s.avsTarget i
    if tabGetD s.pwr.volt i nom = t then s
    else
      (s.modPwr (fun p => { p with volt := tabSet p.volt i nom t, isl := tabSet p.isl i nom t })).emit (.avsBus i t))

/-- PWR_VR_FAULT: the island holds its last good value (R399). -/
def State.vrFault (s : State) (i : Nat) : State :=
  (s.modPwr (fun p => { p with isl := tabSet p.isl i (island i).1 (tabGetD p.good i (island i).1) })).raise .PWR_VR_FAULT i

/-! ### Power ceiling, sprint and derating -/

/-- ENV_EFF and SPRINT_EFF (R400). -/
def State.envEff (s : State) : Nat :=
  let th := s.rd F.PWR_COOLING.THETA_CC
  let e := s.rd F.PWR_ENV.ENVELOPE_W
  if th = 0 then e else min e ((850 - s.rd F.PWR_COOLING.COOLANT_MAX) * 100000 / th)
def State.sprintEff (s : State) : Nat :=
  let e := s.envEff
  if s.rd F.PWR_COOLING.THETA_CC = 0 then e else max e (s.rd F.PWR_ENV.SPRINT_W - (s.rd F.PWR_ENV.ENVELOPE_W - e))

/-- The thermal time constant in s (R400). -/
def State.tau (s : State) : Rat := (s.rd F.PWR_COOLING.THERMAL_MASS * s.rd F.PWR_COOLING.THETA_CC : Nat) / (1000000000 : Nat)

/-- 2^60 × artanh(z / 2^60), by its series. -/
def artanh60 (z : Nat) : Nat :=
  let z2 := z * z / 2 ^ 60
  ((List.range 40).foldl (fun (a : Nat × Nat) i => (a.1 + a.2 / (2 * i + 1), a.2 * z2 / 2 ^ 60)) (0, z)).1

/-- 2^60 × ln(x / 2^60) for x ≥ 2^60. -/
def ln60 : Nat → Nat → Nat
  | 0, _ => 0
  | n + 1, x =>
    if 2 ^ 61 ≤ x then 799144290325165979 + ln60 n (x / 2)
    else 2 * artanh60 ((x - 2 ^ 60) * 2 ^ 60 / (x + 2 ^ 60))

/-- SPRINT_S in 0.1 s, rounded down (R401; the rounding is the model's, log entry 35). -/
def State.sprintTenths (s : State) : Nat :=
  let se : Rat := s.sprintEff
  let ee : Rat := s.envEff
  if !s.on F.PWR_STATE.SPRINT_OK ∨ s.sprintEff ≤ s.envEff then 0
  else
    let x := (((se - s.pwr.filt) / (se - ee)) * (2 ^ 60 : Nat)).floor.toNat
    min 65535 (s.rd F.PWR_COOLING.THERMAL_MASS * s.rd F.PWR_COOLING.THETA_CC * ln60 64 x / (2 ^ 60 * 100000000))

/-- Temperatures and power of one boundary (R443): CASE, TJ_MAX, P_NOW; PWR_OVERTEMP. -/
def State.tempTask (s : State) (m : BeatIn) : State :=
  let s := s.wr F.PWR_POWER.P_NOW (min 65535 m.power)
  let case : Int := (m.sensors.take 16).sum / 16 - (m.power / 40 : Nat) - Config.caseOffset
  let tj := m.sensors.foldl max (m.sensors.headD 0)
  let s := (s.wr F.PWR_TEMP.CASE (ofSigned 16 case)).wr F.PWR_TEMP.TJ_MAX (ofSigned 16 tj)
  let hot := m.sensors.findIdx (fun t => decide (1200 ≤ t))
  if hot < m.sensors.length then s.raiseOcc { occ .PWR_OVERTEMP with info := ofSigned 16 case + hot % 256 * 65536 }
  else if 1000 ≤ case then s.raiseOcc { occ .PWR_OVERTEMP with info := ofSigned 16 case + 255 * 65536 }
  else s

/-- The threshold of a derate step in 0.1 °C (Table 14.6). -/
def derateAt (k : Nat) : Int := 820 + 30 * (k : Int)

/-- The derate step after a boundary (R402). -/
def derateNext (step : Nat) (case : Int) : Nat :=
  let enter := ((List.range 5).filter (fun k => k != 0 && decide (derateAt k ≤ case))).foldl max 0
  if step ≤ enter then enter
  else ((List.range 5).filter (fun k => decide (k ≤ step) && (k == 0 || decide (derateAt k - 10 < case)))).foldl max 0

/-- Derating (R402): the step, the engine cap. -/
def State.derateTask (s : State) : State :=
  let old := s.rd F.PWR_STATE.DERATE
  let new := derateNext old (toSigned 16 (s.rd F.PWR_TEMP.CASE))
  let s := s.wr F.PWR_STATE.DERATE new
  let cap := 32 - 4 * new
  let s := s.wr F.PWR_ENG.CAP cap
  let s := if cap < s.rd F.PWR_ENG.STEP then s.wr F.PWR_ENG.STEP cap else s
  let s := if cap < s.shadowOf F.PWR_ENG.STEP then s.stage F.PWR_ENG.STEP cap else s
  if old < new then s.raise .PWR_DERATE else s

/-- P_FILT of one boundary (R400): the filter, and the estimator's correction while PWR is enabled (R405); it commits at the next
boundary (R396). -/
def State.filtTask (s : State) : State :=
  if !s.task 7 ∨ s.rd F.PWR_COOLING.THERMAL_MASS * s.rd F.PWR_COOLING.THETA_CC = 0 then
    (if s.task 7 then s else s.loopOff 7)
  else
    let now : Rat := (s.rd F.PWR_POWER.P_NOW : Nat) / (10 : Nat)
    let dt : Rat := (s.beatTenths : Nat) / (10000000000 : Nat)
    let f := s.pwr.filt + (now - s.pwr.filt) * dt / s.tau
    let model : Rat := (s.rd F.PWR_COOLING.COOLANT_MAX : Nat) + (s.rd F.PWR_COOLING.THETA_CC : Nat) / (100000 : Nat) * f
    let e := max 0 ((toSigned 16 (s.rd F.PWR_TEMP.CASE) : Rat) - model).floor
    if s.en uPWR then
      let d := s.loopStep 6 e ((tabGet s.pwr.prev 7).getD e)
      s.modPwr (fun p => { p with filtNext := some (max 0 (f + d)), prev := tabPut p.prev 7 e })
    else s.modPwr (fun p => { p with filtNext := some f })

/-- The ceiling and the sprint (R401, R402). -/
def State.ceilTask (s : State) : State :=
  let ee := s.envEff
  let se := s.sprintEff
  let s := (s.wr F.PWR_ENV.ENV_EFF ee).wr F.PWR_ENV.SPRINT_EFF se
  let was := s.pwr.barred
  let f := s.pwr.filt
  let barred := s.task 7 && (if was then !decide (f + 10 ≤ (ee : Rat)) else decide ((ee : Rat) ≤ f))
  let step := s.rd F.PWR_STATE.DERATE
  let ended := barred && !was
  let ok := s.task 7 && step == 0 && !barred
  let s := (s.wr F.PWR_STATE.SPRINT_OK (b2n ok)).modPwr (fun p => { p with barred := barred })
  let s := if ended then s.raise .PWR_SPRINT_END else s
  let ceil := match step with
    | 0 => 10 * (if ok then se else ee)
    | 1 => 10 * ee
    | n => min (10 * ee) (max 2500 (ee * (11 - n)))
  let s := s.wr F.PWR_POWER.CEILING ceil
  let s := s.wr F.PWR_POWER.P_FILT (min 65535 (f * 10).floor.toNat)
  let s := s.wr F.PWR_POWER.SPRINT_S s.sprintTenths
  s.wr F.PWR_STATE.OVER_CEIL (b2n (decide (ceil < s.rd F.PWR_POWER.P_NOW) && s.rd F.PWR_ENG.STEP == 16))

/-- A unit reset of PWR, and clearing its ENABLE (Table 14.2, R405). -/
def State.pwrReset (s : State) : State :=
  (s.toP0).modPwr (fun p => { p with idle2 := 0, idle3 := 0, idle4 := 0, prev := [], quiet := [] })

/-! ### The Grain monitor -/

def State.grnIn (s : State) (i : Nat) : GrnIn := tabGetD s.grn.ins i .init
def State.modGrnIn (s : State) (i : Nat) (f : GrnIn → GrnIn) : State :=
  s.modGrn (fun g => { g with ins := tabSet g.ins i .init (f (tabGetD g.ins i .init)) })

/-- The square root of a rational, rounded down to 2^-40 (the rounding is the model's, log entry 35). -/
def ratSqrt (x : Rat) : Rat := (Nat.sqrt (x * (2 ^ 80 : Nat)).floor.toNat : Nat) / (2 ^ 40 : Nat)

/-- Slope per month and its standard error of daily points (R403). -/
def fitLine (ys : List Rat) : Rat × Rat :=
  let n : Rat := ys.length
  let xs : List Rat := (List.range ys.length).map (fun (d : Nat) => (d : Rat) * 100 / 3044)
  let mx := xs.sum / n
  let my := ys.sum / n
  let ps := List.zip xs ys
  let sxx := (xs.map (fun x => (x - mx) * (x - mx))).sum
  let sxy := (ps.map (fun p => (p.1 - mx) * (p.2 - my))).sum
  let syy := (ys.map (fun y => (y - my) * (y - my))).sum
  let b := sxy / sxx
  (b, ratSqrt (max 0 ((syy - b * sxy) / (n - 2) / sxx)))

/-- Months of a quotient: 0xFFFF where the denominator is not positive. -/
def monthsOf (num den : Rat) : Nat := if den ≤ 0 then 65535 else min 65534 (max 0 (num / den)).floor.toNat

/-- Remaining months, LOW and HIGH of an input (R403); the eye margin wears downwards. -/
def State.grainFit (s : State) (i : Nat) : Option (Nat × Nat × Nat) :=
  let ys := (s.grnIn i).points
  if ys.length < 14 ∨ (s.grnIn i).bad then none
  else
    let (b, sg) := fitLine ys
    let lim : Rat := (s.rd F.GRN_INPUT.LIMIT i : Nat)
    let m := ys.getLastD 0
    let num := if i = 2 then m - lim else lim - m
    let b := if i = 2 then -b else b
    if b ≤ 0 then some (65535, 65535, 65535)
    else some (monthsOf num b, monthsOf num (b + 2 * sg), monthsOf num (b - 2 * sg))

/-- One input at a sample: its reading (none where it cannot be read or its history record fails its CRC), and whether a day
ends with it. -/
def State.grainInput (s : State) (i : Nat) (r : Option Nat) (day : Bool) : State :=
  match r with
  | none =>
    if (s.grnIn i).bad then s else (s.modGrnIn i (fun x => { x with bad := true })).raise .GRN_MONITOR_ERR i
  | some v =>
    let s := s.modGrnIn i (fun x => { x with sum := x.sum + v, n := x.n + 1, bad := false })
    if day then
      let x := s.grnIn i
      let mean : Rat := (x.sum : Rat) / x.n
      let s := s.modGrnIn i (fun x => { x with points := (x.points ++ [mean]).drop (x.points.length + 1 - 180), sum := 0, n := 0 })
      s.stage F.GRN_INPUT.VALUE (min 1048575 mean.floor.toNat) i
    else s

/-- The limit of AVS drift (Table 14.7): V_MAX − V_NOM of the island whose VOLT has drifted most, the lowest of equal ones; the VOLT of
the first boot is taken to be V_NOM, the reset value (log entry 34). -/
def State.driftLimit (s : State) : Nat :=
  let d (i : Nat) : Int := (s.rd F.PWR_AVS.VOLT i : Int) - ((island i).1 : Nat)
  let i := [1, 2, 3].foldl (fun a x => if d a < d x then x else a) 0
  (island i).2.2 - (island i).1

/-- The reports of Grain: staged, they commit with group 15 (R403, R404). An input has a prediction where its MONTHS is not 0xFFFF. -/
def State.grainReport (s : State) : State :=
  let s := (s.wr F.GRN_INPUT.LIMIT (2 * s.rd F.SER_BRINGUP_CFG.EYE_FLOOR) 2).wr F.GRN_INPUT.LIMIT s.driftLimit 1
  let fits := (List.range 5).map (fun i => (i, s.grainFit i))
  let s := foldS fits s (fun s f =>
    let s := s.stage F.GRN_INPUT.POINTS (if (s.grnIn f.1).bad then 0 else (s.grnIn f.1).points.length) f.1
    s.stage F.GRN_INPUT.MONTHS (match f.2 with | some m => m.1 | none => 65535) f.1)
  let valid := (fits.filterMap (fun f => f.2.map (fun m => (f.1, m)))).filter (fun f => f.2.1 != 65535)
  match valid with
  | [] => (s.stage F.GRN_EOL.VALID 0).modGrn (fun g => { g with warned := false })
  | v :: vs =>
    let b := vs.foldl (fun a x => if x.2.1 < a.2.1 then x else a) v
    let s := (s.stage F.GRN_EOL.VALID 1).stage F.GRN_EOL.INPUT b.1
    let s := ((s.stage F.GRN_EOL.MONTHS b.2.1).stage F.GRN_EOL.LOW b.2.2.1).stage F.GRN_EOL.HIGH b.2.2.2
    let warn := decide (b.2.2.1 < s.rd F.GRN_CTRL.WARN_MONTHS)
    let was := s.grn.warned
    let s := s.modGrn (fun g => { g with warned := warn })
    if warn ∧ !was then s.raise .GRN_EOL_WARN else s

/-- The readings of a sample: input 3 is the repair elements that BIST used, per mille of all there are (R415, Table 14.7), where it can
be read. -/
def State.grainReads (s : State) (rs : List (Option Nat)) (i : Nat) : Option Nat :=
  (rs.getD i none).map (fun v => if i = 3 then 1000 * s.grn.repairs / Config.spareElements else v)

/-- GRAIN_SAMPLE (R403, R404), every 65,536th boundary. -/
def State.grainSample (s : State) (rs : List (Option Nat)) (day : Bool) : State :=
  if !s.en uGRN ∨ s.grn.since < 65536 then s
  else
    let s := s.modGrn (fun g => { g with since := 0 })
    let s := foldS (List.range 5) s (fun s i => s.grainInput i (s.grainReads rs i) day)
    let sp := match s.grainReads rs 3 with
      | some v => decide (750 ≤ v)
      | none => s.grn.spares
    let was := s.grn.spares
    let s := s.modGrn (fun g => { g with spares := sp })
    let s := if sp ∧ !was then s.raise .GRN_SPARES_LOW else s
    s.grainReport

end Sys2Proof.Machine
end

