-- ==== Sys2Proof/Machine/Truss.lean ====
section
/-! DEFINITION. The Truss loader (02_truss_image.md): the checks of Table 2.14, applying a full image, staging and
committing a hot one. -/

namespace Sys2Proof.Machine

/-- ORIGIN of TRS_ERROR (Table 2.20). -/
abbrev orgSlot0 : Nat := 0
abbrev orgSlot1 : Nat := 1
abbrev orgFull : Nat := 2
abbrev orgHot : Nat := 3

/-- A rejection: the check number, its fault, the member type and the byte offset (R74). -/
structure Reject where
  check : Nat
  fault : Src
  ty : Nat
  off : Nat
  deriving DecidableEq, Repr

/-- What the checks are made against: the fitted units, the key slots, the security floor, the digest in force and the
bytes that the slot or push holds. -/
structure ChkEnv where
  fitted : Nat
  keys : Tab KeySlot
  floor : Nat
  digest : Option Bytes
  limit : Nat
  deriving DecidableEq, Repr

/-- A member found by the walk: its TYPE, its header's offset and its body. -/
structure Mem where
  ty : Nat
  off : Nat
  body : Bytes
  deriving DecidableEq, Repr

/-- All of a list of (condition, offset) hold, or the offset of the first that does not. -/
def firstBad (l : List (Bool × Nat)) : Option Nat := (l.find? (fun c => !c.1)).map (·.2)

/-- Check 1: the header (Table 2.1). -/
def chk1 (e : ChkEnv) (b : Bytes) : Option Reject :=
  let len := leAt b 8 4
  (firstBad [
    (decide (64 ≤ b.length ∧ 320 ≤ len ∧ len ≤ 1048576 ∧ len % 8 = 0 ∧ len ≤ e.limit), 8),
    (leAt b 0 4 == 0x53555254, 0),
    (leAt b 14 2 == 64, 14),
    (leAt b 60 4 == crc32 (b.take 60), 60),
    (leAt b 48 12 == 0, 48),
    (decide (leAt b 6 2 < 2), 6),
    (bit (leAt b 6 2) 0 || leAt b 32 16 == 0, 32)]).map (fun o => ⟨1, .TRS_FORMAT, 0, o⟩)

def chk2 (b : Bytes) : Option Reject := if leAt b 20 4 = 0xF1A0 then none else some ⟨2, .TRS_FORMAT, 0, 20⟩
def chk3 (b : Bytes) : Option Reject := if leAt b 5 1 = 1 then none else some ⟨3, .TRS_VERSION, 0, 5⟩

/-- A signature block at offset `q` over the bytes before it (R58, R70): the offset of the failing field. -/
def sigBad (keys : Tab KeySlot) (b : Bytes) (q : Nat) : Option Nat :=
  let slot := leAt b (q + 4) 1
  let pk := (b.drop (q + 8)).take 96
  firstBad [
    (leAt b q 4 == 0x4E474953, q),
    (leAt b (q + 5) 3 == 0, q + 5),
    (leAt b (q + 200) 56 == 0, q + 200),
    (match tabGet keys slot with
     | some k => !k.revoked
     | none => false, q + 4),
    (match tabGet keys slot with
     | some k => k.hash == sha384 pk
     | none => false, q + 8),
    (ecdsaOk (beNat (pk.take 48)) (beNat (pk.drop 48)) (beNat ((b.drop (q + 104)).take 48))
      (beNat ((b.drop (q + 152)).take 48)) (sha384 (b.take q)), q + 104)]

def chk4 (e : ChkEnv) (b : Bytes) : Option Reject :=
  (sigBad e.keys b (leAt b 8 4 - 256)).map (fun o => ⟨4, .TRS_SIGNATURE, 0, o⟩)

/-- Check 5 (R72). -/
def chk5 (e : ChkEnv) (b : Bytes) : Option Reject :=
  if e.floor ≤ leAt b 16 4 ∧ leAt b 16 4 ≤ 64 then none else some ⟨5, .TRS_ROLLBACK, 0, 16⟩

/-- Check 6: walk of `n` members from offset `o` to the signature block at `q`, types rising above `t` (R55, R56); a walk that ends at
the wrong place fails there. -/
def walk (b : Bytes) (q : Nat) : Nat → Nat → Nat → Except Reject (List Mem)
  | 0, o, _ => if o = q then .ok [] else .error ⟨6, .TRS_FORMAT, 0, o⟩
  | n + 1, o, t =>
    let ty := leAt b o 2
    let len := leAt b (o + 4) 4
    if q < o + 16 then .error ⟨6, .TRS_FORMAT, 0, o⟩
    else if ty % 32768 < t then .error ⟨6, .TRS_FORMAT, ty, o⟩
    else if len % 8 ≠ 0 ∨ q < o + 16 + len then .error ⟨6, .TRS_FORMAT, ty, o + 4⟩
    else
      match walk b q n (o + 16 + len) (ty % 32768 + 1) with
      | .ok l => .ok (⟨ty, o, (b.drop (o + 16)).take len⟩ :: l)
      | .error r => .error r

/-- The defined members: body length, and whether hot (Table 2.4). -/
def memberRow (ty : Nat) : Option (Nat × Bool) :=
  match ty with
  | 0x8001 => some (16, false)
  | 0x8002 => some (8, false)
  | 0x8003 => some (128, false)
  | 0x8004 => some (40, false)
  | 0x8005 => some (16, false)
  | 0x8006 => some (8, false)
  | 0x8007 => some (8, false)
  | 0x8008 => some (8, false)
  | 0x8009 => some (8, true)
  | 0x800A => some (16, false)
  | 0x800B => some (160, false)
  | 0x800C => some (32, true)
  | 0x800D => some (56, true)
  | 0x800E => some (16, true)
  | 0x007F => some (0, true)
  | _ => none

/-- A member that check 8 skips: not critical, and of an unknown type or version (R73). -/
def memSkipped (b : Bytes) (m : Mem) : Bool :=
  m.ty < 0x8000 && ((memberRow m.ty).isNone || leAt b (m.off + 2) 2 != 1)

/-- Checks 7, 8 and 9 of the members. -/
def chk7 (b : Bytes) (ms : List Mem) : Option Reject :=
  (ms.find? (fun m => leAt b (m.off + 8) 4 != crc32 m.body)).map (fun m => ⟨7, .TRS_MEMBER_CRC, m.ty, m.off + 8⟩)

def chk8 (b : Bytes) (ms : List Mem) : Option Reject :=
  (ms.find? (fun m => 0x8000 ≤ m.ty && ((memberRow m.ty).isNone || leAt b (m.off + 2) 2 != 1))).map (fun m =>
    if (memberRow m.ty).isNone then ⟨8, .TRS_MEMBER_UNKNOWN, m.ty, m.off⟩ else ⟨8, .TRS_VERSION, m.ty, m.off + 2⟩)

def chk9 (ms : List Mem) : Option Reject :=
  (ms.find? (fun m => match memberRow m.ty with
    | some r => if m.ty = 0x007F then !(decide (8 ≤ m.body.length ∧ m.body.length ≤ 4096)) else m.body.length != r.1
    | none => false)).map (fun m => ⟨9, .TRS_FORMAT, m.ty, m.off + 4⟩)

/-- The body of a member type. -/
def memBody (ms : List Mem) (ty : Nat) : Option Bytes := (ms.find? (fun m => m.ty == ty)).map (·.body)

/-- The UNITS word and the BEAT word of the members. -/
def unitsWord (ms : List Mem) : Nat := match memBody ms 0x8002 with | some b => leNat b | none => 0
def beatWord (ms : List Mem) : Nat := match memBody ms 0x8008 with | some b => leNat b | none => 0

/-- The member types a full image must hold (Table 2.4, R59). -/
def required (ms : List Mem) : List Nat :=
  [0x8001, 0x8002, 0x8003, 0x8004] ++ (if bits (unitsWord ms) 24 16 ≠ 0 then [0x8005] else []) ++ [0x8006] ++
  (if bit (unitsWord ms) 12 then [0x8007] else []) ++ [0x8008] ++ (if bit (beatWord ms) 31 then [0x800A] else [])

/-- The offset at which an absent member would stand in type order (R74). -/
def placeOf (ms : List Mem) (q ty : Nat) : Nat :=
  match ms.find? (fun m => decide (ty % 32768 < m.ty % 32768)) with
  | some m => m.off
  | none => q

/-- Check 10, on the members that are not skipped; where an absent one would stand, every member of the image counts. -/
def chk10 (e : ChkEnv) (hot : Bool) (b : Bytes) (ms all : List Mem) : Option Reject :=
  let isHot := bit (leAt b 6 2) 0
  let q := leAt b 8 4 - 256
  if hot then
    if !isHot then some ⟨10, .TRS_HOT_REJECT, 0, 6⟩
    else match ms.find? (fun m => match memberRow m.ty with | some r => !r.2 | none => false) with
      | some m => some ⟨10, .TRS_HOT_REJECT, m.ty, m.off⟩
      | none =>
        if ms.all (fun m => m.ty == 0x007F) then some ⟨10, .TRS_HOT_REJECT, 0, 64⟩
        else if e.digest = some ((b.drop 32).take 16) then none else some ⟨10, .TRS_HOT_REJECT, 0, 32⟩
  else if isHot then some ⟨10, .TRS_MISSING, 0, 6⟩
  else ((required ms).find? (fun t => (memBody ms t).isNone)).map (fun t => ⟨10, .TRS_MISSING, t, placeOf all q t⟩)

/-- The codes that a region may take (Table 12.2). -/
def codeAllowed (r c : Nat) : Bool := if r < 2 then c == 0 || c == 1 else c == 1 || c == 2

/-- The limits of DEVICE (Table 2.5, R61), each with its offset in the body. -/
def limDevice (b : Bytes) : List (Bool × Nat) :=
  let id := leAt b 0 4
  let g := leAt b 4 2
  let gx := leAt b 6 1
  let gy := leAt b 7 1
  [(decide (id < 2 ^ 17), 0), (decide (1 ≤ g ∧ g ≤ 512), 4), (decide (1 ≤ gx ∧ gx ≤ 16), 6), (decide (1 ≤ gy ∧ gy ≤ 16), 7),
   (decide (bits id 8 9 < g ∧ bits id 0 4 < gx ∧ bits id 4 4 < gy), 0), (leAt b 8 8 == 0, 8)]

/-- The limits of UNITS at check 11 (R62, and the needs of R65 where no ENGINES member says otherwise). -/
def limUnits (ms : List Mem) (b : Bytes) : List (Bool × Nat) :=
  let u := leNat b
  let hif := bit u 8 || bit u 9
  let bays := bits u 24 16 != 0
  [(u / 2 ^ 40 == 0 && bits u 19 5 == 0, 0),
   (bit u 0 && bit u 1 && bit u 2 && bit u 14 && bit u 15 && bit u 16 && bit u 18, 0),
   (!bit u 10 || hif, 0), (!bit u 11 || bit u 10, 0), (!bit u 12 || hif, 0), (!bit u 7 || (bit u 6 && bays), 0),
   (!(bit u 10 || bit u 11) || bays, 0),
   ((memBody ms 0x8005).isSome || !(bit u 10 || bit u 11 || bit u 7), 0)]

/-- The limits of PORTS (Table 2.6, R63); an entry that exceeds the ports of its role fails. -/
def limPorts (ms : List Mem) (b : Bytes) : List (Bool × Nat) :=
  let ent := fun p => leAt b (2 * p) 2
  let cnt := fun r n => ((List.range n).filter (fun p => ent p % 4 == r)).length
  let dev := (memBody ms 0x8001).getD []
  (List.range 64).map (fun p =>
    let x := ent p
    (x / 64 == 0 && (if x % 4 = 0 then x / 4 == 0 else bits x 2 2 == 1 || bits x 2 2 == 2), 2 * p)) ++
  (List.range 64).map (fun p =>
    (!(ent p % 4 == 1 && decide ((leAt dev 6 1 - 1) + (leAt dev 7 1 - 1) < cnt 1 (p + 1))) &&
     !(ent p % 4 == 2 && (decide (34 < cnt 2 (p + 1)) || leAt dev 4 2 == 1)), 2 * p))

/-- The limits of VCBUF (Table 2.7, R64). -/
def limVcbuf (b : Bytes) : List (Bool × Nat) :=
  let mn := fun v => leAt b (8 * v) 2
  (List.range 5).flatMap (fun v =>
    [(decide ((if v = 0 then 1 else 17) ≤ mn v), 8 * v),
     (decide (1 ≤ leAt b (8 * v + 2) 2 ∧ leAt b (8 * v + 2) 2 ≤ 384), 8 * v + 2), (leAt b (8 * v + 4) 4 == 0, 8 * v + 4)]) ++
  [(decide (mn 0 + mn 1 + mn 2 + mn 3 + mn 4 ≤ 256), 0)]

/-- The limits of ENGINES (R65). -/
def limEngines (ms : List Mem) (b : Bytes) : List (Bool × Nat) :=
  let u := unitsWord ms
  let mask := fun n => leAt b n 1
  let serves := fun k => (List.range 16).any (fun n => bit (mask n) k)
  (List.range 16).map (fun n =>
    (decide (mask n < 16) && (bit u (24 + n) || mask n == 0) && (!bit (mask n) 1 || bit u 7), n)) ++
  [(!bit u 11 || (serves 0 && serves 2), 0), (!bit u 7 || serves 1, 0), (!bit u 10 || serves 3, 0)]

/-- The limits of FAULT_LIMITS (R68, R372, R375, R379). -/
def limFaults (b : Bytes) : List (Bool × Nat) :=
  let asg := fun k => let v := leAt b (2 * k) 2; if v = 0xFFFF then richDefault k else v
  (List.range 16).map (fun k =>
    (if k < 5 then asg k == richDefault k
     else srcAssigned (asg k) && asg k != 0 && !(List.range k).any (fun j => asg j == asg k), 2 * k)) ++
  (List.range 512).map (fun n =>
    let v := bits (leAt b (32 + n / 4) 1) (2 * (n % 4)) 2
    (if !srcAssigned n then v == 0 else if srcIntegrity n then v == 3 else !(v == 2 && srcScope n == 0), 32 + n / 4))

/-- The limits of SCRIBE_GAINS: an entry of zeros, or each field in its range. -/
def limGains (b : Bytes) : List (Bool × Nat) :=
  (List.range 7).flatMap (fun k =>
    let zero := leAt b (8 * k) 8 == 0
    let fits := fun o hi => zero || decide (1 ≤ leAt b (8 * k + o) 2 ∧ leAt b (8 * k + o) 2 ≤ hi)
    [(fits 0 0x800, 8 * k), (fits 2 0x800, 8 * k + 2), (fits 4 1024, 8 * k + 4), (leAt b (8 * k + 6) 2 == 0, 8 * k + 6)])

/-- The limits of one member at check 11 (R60 to R69), with offsets in its body. -/
def memLimits (ms : List Mem) (m : Mem) : List (Bool × Nat) :=
  let b := m.body
  match m.ty with
  | 0x8001 => limDevice b
  | 0x8002 => limUnits ms b
  | 0x8003 => limPorts ms b
  | 0x8004 => limVcbuf b
  | 0x8005 => limEngines ms b
  | 0x8006 => (List.range 8).map (fun r => (codeAllowed r (leAt b r 1), r))
  | 0x8007 => [(decide (leAt b 0 1 ≤ 1), 0), (leAt b 1 7 == 0, 1)]
  | 0x8008 => [(decide (10 ≤ leAt b 0 1 ∧ leAt b 0 1 ≤ 160), 0), (decide (leAt b 1 1 < 3), 1), (decide (leAt b 2 1 < 2), 2),
               (leAt b 4 4 == 0, 4)]
  | 0x8009 => [(decide (250 ≤ leAt b 0 2 ∧ leAt b 0 2 ≤ 480), 0), (decide (leAt b 0 2 ≤ leAt b 2 2 ∧ leAt b 2 2 ≤ 480), 2),
               (leAt b 4 4 == 0, 4)]
  | 0x800A => [(decide (1000 ≤ leAt b 0 4 ∧ leAt b 0 4 ≤ 10000000), 0), (decide (10000 ≤ leAt b 4 4 ∧ leAt b 4 4 ≤ 1000000), 4),
               (decide (leAt b 8 2 ≤ 700), 8), (leAt b 10 6 == 0, 10)]
  | 0x800B => limFaults b
  | 0x800C => (List.range 4).map (fun k => (leAt b (8 * k) 8 != 0, 8 * k))
  | 0x800D => limGains b
  | 0x800E => [(decide (1 ≤ leAt b 0 2 ∧ leAt b 0 2 ≤ 255), 0), (decide (1 ≤ leAt b 2 2), 2),
               (decide (1 ≤ leAt b 4 4 ∧ leAt b 4 4 ≤ 1048576), 4), (decide (1 ≤ leAt b 8 4 ∧ leAt b 8 4 ≤ 1048576), 8),
               (decide (1 ≤ leAt b 12 2), 12), (leAt b 14 2 == 0, 14)]
  | _ => []

def chk11 (ms : List Mem) : Option Reject :=
  (ms.filterMap (fun m => (firstBad (memLimits ms m)).map (fun o => (⟨11, .TRS_LIMIT, m.ty, m.off + 16 + o⟩ : Reject)))).head?

/-- Check 12 (R10, R62): an enabled unit, bay or host port that is not fitted. -/
def chk12 (e : ChkEnv) (ms : List Mem) : Option Reject :=
  match ms.find? (fun m => m.ty == 0x8002) with
  | some m => if (List.range 40).any (fun u => bit (leNat m.body) u && !bit e.fitted u)
              then some ⟨12, .TRS_ABSENT, 0x8002, m.off + 16⟩ else none
  | none => none

/-- The costs of conditional tasks 0 to 7 (Table 1.4). -/
def taskCost (k : Nat) : Nat := [48, 80, 48, 96, 64, 80, 160, 32].getD k 0

/-- The sum of the costs of the enabled conditional tasks. -/
def taskSum (te : Nat) : Nat := ((List.range 8).map (fun k => if bit te k then taskCost k else 0)).sum

/-- Check 13 (R26). -/
def chk13 (e : ChkEnv) (ms : List Mem) : Option Reject :=
  match ms.find? (fun m => m.ty == 0x8008) with
  | some m =>
    let te := leAt m.body 3 1
    if 392 + taskSum te ≤ 50 * leAt m.body 0 1 ∧ bit te 0 = bit (unitsWord ms) 7 ∧
       ((bit te 2 || bit te 6) = false ∨ bits e.fitted 24 16 ≠ 0)
    then none else some ⟨13, .TRS_BEAT_BUDGET, 0x8008, m.off + 16 + 3⟩
  | none => none

/-- The first rejection of a list. -/
def firstSome : List (Option Reject) → Option Reject
  | [] => none
  | some r :: _ => some r
  | none :: l => firstSome l

/-- Checks 1 to 5, in order (R74). -/
def checkHead (e : ChkEnv) (b : Bytes) : Option Reject :=
  match chk1 e b with
  | some r => some r
  | none => firstSome [chk2 b, chk3 b, chk4 e b, chk5 e b]

/-- All the checks of Table 2.14 in order: a rejection, or the image; and how many members were skipped (R73). Table 2.14 names no check
for MEMBER_COUNT outside 1 to 64 (R54), and R73 does not say when the skips of an image that is rejected are logged: the model rejects
the count at check 6, with MEMBER_TYPE 0 and OFFSET 12, and logs the skips once checks 7 and 8 have passed for all members (DESIGN
CHOICE, log entry 110). -/
def checkImage (e : ChkEnv) (hot : Bool) (b : Bytes) : Except Reject Img × Nat :=
  match checkHead e b with
  | some r => (.error r, 0)
  | none =>
    let q := leAt b 8 4 - 256
    if leAt b 12 2 = 0 ∨ 64 < leAt b 12 2 then (.error ⟨6, .TRS_FORMAT, 0, 12⟩, 0) else
    match walk b q (leAt b 12 2) 64 0 with
    | .error r => (.error r, 0)
    | .ok ms0 =>
      match firstSome [chk7 b ms0, chk8 b ms0] with
      | some r => (.error r, 0)
      | none =>
        let ms := ms0.filter (fun m => !memSkipped b m)
        let sk := ms0.length - ms.length
        match firstSome [chk9 ms, chk10 e hot b ms ms0, chk11 ms, chk12 e ms, if hot then none else chk13 e ms] with
        | some r => (.error r, sk)
        | none => (.ok ⟨leAt b 16 4, leAt b (q + 4) 1, leAt b 24 8, sha384 (b.take q), ms.map (fun m => (m.ty, m.body))⟩, sk)

/-- The byte of the flash at an address; an erased byte reads 0xFF. -/
def State.flashByte (s : State) (a : Nat) : Byte := tabGetD s.trs.flash a 0xFF

/-- `n` bytes of the flash from address `a`. -/
def State.flashRead (s : State) (a n : Nat) : Bytes := (List.range n).map (fun i => s.flashByte (a + i))

/-- Put bytes into the flash. -/
def State.flashPut (s : State) (a : Nat) (b : Bytes) : State :=
  let f := (List.zip (List.range b.length) b).foldl (fun f e => tabSet f (a + e.1) 0xFF e.2) s.trs.flash
  { s with trs := { s.trs with flash := f } }

/-- The bytes of a Truss slot that an image there would take: IMAGE_LEN bytes, at most 1 MiB (Table 15.3). -/
def State.slotBytes (s : State) (k : Nat) : Bytes :=
  let a := 0x400000 + 0x100000 * k
  let len := leNat (s.flashRead (a + 8) 4)
  s.flashRead a (if 64 ≤ len ∧ len ≤ 1048576 then len else 64)

/-- The environment of a check. -/
def State.chkEnv (s : State) (limit : Nat) : ChkEnv :=
  ⟨fittedWord s.boot.variant, s.trs.keys, s.trs.floor, s.trs.img.map (fun i => i.digest.take 16), limit⟩

/-- Record a rejection in TRS_ERROR and raise its fault (R74). Table 13.3 gives ADDR and INFO of two of these sources, and
they are zero for the others (R380). -/
def State.reject (s : State) (org : Nat) (b : Bytes) (r : Reject) : State :=
  let s := s.wr F.TRS_ERROR.MEMBER_TYPE r.ty
  let s := s.wr F.TRS_ERROR.OFFSET r.off
  let s := s.wr F.TRS_ERROR.CHECK r.check
  let s := s.wr F.TRS_ERROR.ORIGIN org
  let s := s.wr F.TRS_ERROR.VALID 1
  let slot := leAt b (leAt b 8 4 - 256 + 4) 1
  let listed := r.fault = .TRS_SIGNATURE ∨ r.fault = .TRS_ROLLBACK
  let addr := if listed ∧ org < 2 then 0x400000 + 0x100000 * org else 0
  let inst := if listed then 0 else org
  let info := if r.fault = .TRS_ROLLBACK then bits (leAt b 16 4) 0 8 + 256 * s.trs.floor
    else if r.fault = .TRS_SIGNATURE then slot + 256 * org else 0
  s.raiseOcc ⟨r.fault.num, inst, addr, info, if org < 2 then 0 else 0x1000, false, 0, false⟩

/-- The Note for each skipped member (R73). -/
def State.skips (s : State) (n : Nat) : State := foldS (List.replicate n ()) s (fun s _ => s.raise .TRS_MEMBER_SKIPPED)

/-- A little-endian field of a member of the image in force, or a default. -/
def memField (i : Img) (ty off n dflt : Nat) : Nat :=
  match i.members.find? (fun m => m.1 == ty) with
  | some m => leAt m.2 off n
  | none => dflt

/-- POWER_ENV of an image (Table 2.8). -/
def State.applyPower (s : State) (i : Img) : State :=
  (s.wr F.PWR_ENV.ENVELOPE_W (memField i 0x8009 0 2 480)).wr F.PWR_ENV.SPRINT_W (memField i 0x8009 2 2 480)

/-- SCRIBE_GAINS of an image: an absent member, or an entry of zeros, leaves the defaults. -/
def State.applyGains (s : State) (i : Img) : State :=
  foldS (List.range 7) s (fun s k =>
    let p := memField i 0x800D (8 * k) 2 0
    if p = 0 then ((s.wr F.PWR_LOOP_GAIN.GAIN_P (gainDefault k).1 k).wr F.PWR_LOOP_GAIN.GAIN_I (gainDefault k).2.1 k).wr
      F.PWR_LOOP_GAIN.STEP_LIMIT (gainDefault k).2.2 k
    else ((s.wr F.PWR_LOOP_GAIN.GAIN_P p k).wr F.PWR_LOOP_GAIN.GAIN_I (memField i 0x800D (8 * k + 2) 2 0) k).wr
      F.PWR_LOOP_GAIN.STEP_LIMIT (memField i 0x800D (8 * k + 4) 2 0) k)

/-- The default of seed `k`: the node ID in bits 16 to 0 and the index plus one in bits 63 to 60 (R69). -/
def seedDefault (node k : Nat) : Nat := node + (k + 1) * 2 ^ 60

/-- FAULT_THRESH of an image (Table 2.10), into FLT_THRESH and LNK_HEALTH. -/
def State.applyThresh (s : State) (i : Img) : State :=
  let s := s.wr F.FLT_THRESH.ESC_COUNT (memField i 0x800E 0 2 F.FLT_THRESH.ESC_COUNT.rst)
  let s := s.wr F.FLT_THRESH.ESC_WINDOW (memField i 0x800E 4 4 F.FLT_THRESH.ESC_WINDOW.rst)
  let s := s.wr F.LNK_HEALTH.UNCORR_MAX (memField i 0x800E 2 2 F.LNK_HEALTH.UNCORR_MAX.rst)
  let s := s.wr F.LNK_HEALTH.REPLAY_MAX (memField i 0x800E 12 2 F.LNK_HEALTH.REPLAY_MAX.rst)
  s.wr F.LNK_HEALTH.WINDOW (memField i 0x800E 8 4 F.LNK_HEALTH.WINDOW.rst)

/-- A member of an image. -/
def hasMember (i : Img) (ty : Nat) : Bool := i.members.any (fun m => m.1 == ty)

/-- The commit groups that a hot image touches (Table 2.15). -/
def hotGroups (i : Img) : List Nat :=
  (if hasMember i 0x8009 then [14] else []) ++ (if hasMember i 0x800D then [14, 3, 5] else []) ++
  (if hasMember i 0x800C then [5] else []) ++ (if hasMember i 0x800E then [13, 4] else [])

/-- Replace in the image in force the members that a hot image carries (R76, R77). -/
def mergeHot (i h : Img) : Img :=
  { i with members := i.members.filter (fun m => !hasMember h m.1 || m.1 == 0x007F) ++
      h.members.filter (fun m => m.1 != 0x007F) }

end Sys2Proof.Machine
end

