-- ==== Sys2Proof/Machine/Boot.lean ====
section
/-! DEFINITION. Supplies, boot phases, LOAD and the kinds of reset (15_reset_and_bringup.md, 02_truss_image.md). -/

namespace Sys2Proof.Machine

def State.modBoot (s : State) (f : Boot → Boot) : State := { s with boot := f s.boot }
def State.modPins (s : State) (f : Pins → Pins) : State := { s with pins := f s.pins }
def State.modTrs (s : State) (f : Trs → Trs) : State := { s with trs := f s.trs }

/-- The device boots or resets: PWROK is high and PHASE is not RUNNING (R422). -/
def State.resetting (s : State) : Bool := s.pins.pwrok && s.phase != phRunning

/-- Foreman states of FMN_INFO. -/
abbrev fmRom : Nat := 0
abbrev fmRunning : Nat := 1
abbrev fmRecovery : Nat := 2
abbrev fmRestarting : Nat := 3

/-- The registers that a function, or a PF, has of its own (17_register_map_index.md, log entry 39). -/
def Reg.perFn : Reg → Bool
  | .HIF_FN_INFO | .HIF_QUEUE_ADDR | .HIF_QUEUE_CMD | .HIF_QUEUE_RESULT | .HIF_COUNT | .HIF_EQ_BASE | .HIF_EQ_CFG | .HIF_EQ_STATUS
  | .HIF_EQ_DB | .RMA_REG_CMD | .RMA_REG_RESULT | .RMA_QINFO_SEL | .RMA_QINFO | .MAT_ML_ADDR | .MAT_ML_CMD | .MAT_ML_RESULT
  | .MAT_ML_STATUS | .PEG_FN_CFG | .PEG_TAKE | .PEG_TRY | .PEG_RELEASE | .PEG_WATCH | .PEG_STATE => true
  | _ => false
def Reg.perPf : Reg → Bool
  | .HIF_QCT_BASE | .HIF_SCHED | .HIF_PORT_STATUS | .HIF_VF_MAP | .RMA_RT_BASE | .RMA_VF_RMAP | .PEG_VF_MAP | .FLT_NOTIFY
  | .FMN_INFO | .FMN_MB_CTRL | .FMN_MB_STATUS | .FMN_REQ | .FMN_RESP => true
  | _ => false

/-- The registers of a function whose fields an FLR returns to reset: its RW fields (Table 15.7), its command results. -/
def flrRegs : List Reg :=
  [.HIF_QUEUE_ADDR, .HIF_QUEUE_RESULT, .HIF_EQ_BASE, .HIF_EQ_CFG, .HIF_EQ_STATUS, .HIF_EQ_DB, .RMA_REG_RESULT, .RMA_QINFO_SEL,
   .MAT_ML_ADDR, .MAT_ML_RESULT, .PEG_FN_CFG]
def flrPfRegs : List Reg :=
  [.HIF_QCT_BASE, .HIF_SCHED, .HIF_VF_MAP, .RMA_RT_BASE, .RMA_VF_RMAP, .PEG_VF_MAP, .FLT_NOTIFY, .FMN_REQ]

/-- Take the registers of a list, in one function instance, back to reset. -/
def State.clearInst (s : State) (rs : List Reg) (i : Nat) : State :=
  let cs := rs.map Reg.code
  { s with
    regs := s.regs.filter (fun e =>
      !((Nat.unpair (Nat.unpair e.1).2).1 == i && cs.contains (Nat.unpair (Nat.unpair e.1).1).1))
    shadow := s.shadow.filter (fun e => !(e.2.inst == i && rs.contains e.2.fld.reg)) }

/-- The reset of a function, or of a PF with its VFs (R254, R419, Table 11.2): its queues, CQs and rings, its MLs, its
commands in progress. `stays` holds when its QCT does. -/
def State.fnReset (s : State) (f : Fn) (stays : Bool) : State :=
  let s := (s.hifFlr f stays).matFlr f
  let gone := s.rma.cmds.filter (fun k => fnCovers f (fnInst k.fn))
  let s := s.modRma (fun r => { r with cmds := r.cmds.filter (fun k => !fnCovers f (fnInst k.fn)) })
  foldS gone s (fun s k => s.wrI F.RMA_REG_RESULT.BUSY (fnInst k.fn) 0 0)

/-- The RW configuration fields of a function return to reset (Table 15.7). -/
def State.fnClear (s : State) (f : Fn) : State :=
  match f with
  | .pf p =>
    foldS ((List.range 512).map (fun v => 4 + p.val * 512 + v)) (s.clearInst (flrRegs ++ flrPfRegs) p.val) (fun s i => s.clearInst flrRegs i)
  | .vf _ _ => s.clearInst flrRegs (fnInst f)

/-- An FLR (R254, R352, Table 15.7). -/
def State.flr (s : State) (f : Fn) : State :=
  let s := match f with
    | .pf p => (s.fnReset f false).pegPfReset [p.val] false
    | .vf _ _ => (s.fnReset f true).pegVfReset f
  s.fnClear f

/-- A HIF unit reset (R254, R420): every function's queues at once, with the ENABLE bits of HIF_EQ_CFG cleared. -/
def State.hifReset (s : State) : State :=
  let keep := s.regs.filter (fun e =>
    let r := (Nat.unpair (Nat.unpair e.1).1).1
    let lo := (Nat.unpair (Nat.unpair e.1).1).2
    (r == Reg.HIF_EQ_CFG.code && lo != 63) || r == Reg.HIF_EQ_BASE.code || r == Reg.HIF_QUEUE_ADDR.code)
  let s := (foldS [0, 1, 2, 3] s (fun s p => s.fnReset (.pf p) true)).pegPfReset [0, 1, 2, 3] false
  { s with regs := keep.foldl (fun t e => tabPut t e.1 e.2) s.regs }

/-! ### Units -/

/-- The effects that a chapter gives to clearing a unit's ENABLE (R116, R145, R254, R354, Table 14.2). -/
def State.unitCleared (s : State) (u : Nat) : State :=
  match u with
  | 3 => s.serOffAll
  | 4 => s.fenceAll fnLnkOff serDetect
  | 8 => s.hifReset
  | 13 => s.pegUnitReset
  | 16 => s.pwrReset
  | _ => s

/-- Disable a unit: its ENABLE clears, with the effects of its chapter. -/
def State.unitOff (s : State) (u : Nat) : State :=
  match enableFld u with
  | some f => if s.on f then (s.wr f 0).unitCleared u else s
  | none => s

/-- Enable a unit (R116, Table 4.7): enabled ports leave OFF; a port whose lanes are ACTIVE starts its link
(DESIGN CHOICE, log entry 141); the router goes on (R184). -/
def State.unitOn (s : State) (u : Nat) : State :=
  match enableFld u with
  | some f =>
    if s.on f then s else
    let s := s.wr f 1
    if u = uSER then s.serOnAll
    else if u = uLNK then foldS (List.range 64) s (fun s p => s.linkStart p)
    else if u = uRTE then s.routerOn
    else s
  | none => s

/-- The image enables unit `u`; HIF by either host port (R62). -/
def State.unitImaged (s : State) (u : Nat) : Bool :=
  if u = 8 then s.imageEnables 8 || s.imageEnables 9 else s.imageEnables u

/-- The Contain of a unit, or of a Joiner bay (Table 13.2). An instance of 7 or 9 names the unit of 6 or 8 (R374). -/
def State.containUnit (s : State) (i : Nat) : State :=
  let u := unitNorm i
  if 24 ≤ i ∧ i < 40 then
    if s.fitted i then foldS ((List.range 16).map (fun k => 16 * (i - 24) + k)) s (fun s e => s.engineDown e) else s
  else if i < 19 ∧ s.fitted u then (s.modBoot (fun b => { b with contained := setBit b.contained u })).unitOff u
  else s

/-- The runtime state that a unit reset clears, by chapter (R420). -/
def State.unitClear (s : State) (u : Nat) : State :=
  match u with
  | 1 =>
    let s := if s.trs.staged.isSome then (s.wr F.TRS_HOT_STATUS.DISCARDED 1).wr F.TRS_HOT_STATUS.STATE 0 else s
    (s.wr F.TRS_STATUS.PUSH_CLOSED 0).modTrs (fun t => { t with staged := none })
  | 3 => s.serOffAll
  | 4 => s.fenceAll fnLnkOff serDetect
  | 5 => s.rteReset
  | 6 => s.mctReset
  | 8 => s.hifReset
  | 10 => s.rmaReset
  | 11 => s.matReset
  | 12 => s.cohReset
  | 13 => s.pegUnitReset
  | 14 => s.eccReset
  | 16 => (s.pwrReset).modPwr (fun p => { p with moves := [], filtNext := none })
  | _ => s

/-- The unit is being reset (GLB_UNIT_RESET.BUSY). -/
def State.unitBusy (s : State) (u : Nat) : Bool := bit (s.rd F.GLB_UNIT_RESET.BUSY) u

/-- The bits of BUSY that a unit takes: MCT has two, and HIF. -/
def busyMask (u : Nat) : Nat := if u = 6 then 0xC0 else if u = 8 then 0x300 else 2 ^ u

def State.setBusy (s : State) (u : Nat) (on : Bool) : State :=
  foldS (bitsSet 19 (busyMask u)) s (fun s i =>
    s.wr F.GLB_UNIT_RESET.BUSY (if on then setBit (s.rd F.GLB_UNIT_RESET.BUSY) i else clrBit (s.rd F.GLB_UNIT_RESET.BUSY) i))

/-- FMN_INFO reads the same in every PF's window. -/
def State.wrFmn (s : State) (f : Fld) (v : Nat) : State := foldS [0, 1, 2, 3] s (fun s p => s.wrI f p 0 v)

/-- The Foreman restarts (R414): its Pegs are freed with ABANDONED. -/
def State.foremanRestart (s : State) : State := ((s.wrFmn F.FMN_INFO.STATE fmRestarting).raise .FMN_RESTART).pegForemanReset

/-- Start the reset of one unit (R420, R34): ENABLE clears, the group's shadow, PENDING and HOLD clear, and the unit's
runtime state clears. -/
def State.unitStart (s : State) (u : Nat) : State :=
  if s.unitBusy u then s else
  let s := s.setBusy u true
  let g := groupOfUnit u
  let s := (s.dropShadow g).wr F.BEA_COMMIT_HOLD.HOLD (clrBit (s.rd F.BEA_COMMIT_HOLD.HOLD) g)
  if u = uFMN then s.foremanRestart else
  let s := match enableFld u with
    | some f => s.wr f 0
    | none => s
  s.unitClear u

/-- UNIT_RESET_COMPLETE of a unit, but for one that a device reset or boot absorbed, which completes at RUNNING (R422): ENABLE is set again when TRS_ENABLE enables the unit, it is not contained, and the
device is not in the Spillway (R420, R374, R386). -/
def State.unitDone (s : State) (u : Nat) : State :=
  let u := unitNorm u
  if !s.unitBusy u || u == uFMN || (s.resetting && !s.spill) then s else
  let s := s.setBusy u false
  if s.unitImaged u && !s.isContained u && !s.spill then s.unitOn u else s

/-- The units of a request mask that a unit reset acts on, with what the mask is refused for (Table 15.11). -/
def State.unitMask (s : State) (m : Nat) : List Nat :=
  ((bitsSet 19 m).filter (fun u => !(u == 0 || u == 2 || u == 15) && s.fitted u)).map unitNorm |>.eraseDups

/-- A unit reset request (R420, R422): absorbed by a device reset or boot in progress, but for the Foreman's, which that
reset does not act on once the firmware has been started. -/
def State.unitResets (s : State) (m : Nat) : State :=
  let s := if bit m 0 || bit m 2 || bit m 15 then s.raise .CFG_REJECT else s
  let s := if (bitsSet 19 m).any (fun u => !s.fitted u) then s.raise .CFG_ABSENT else s
  let us := s.unitMask m
  if s.resetting && !s.spill then
    let starts := s.rd F.FMN_INFO.STATE == fmRom
    let s := if us.contains uFMN ∧ !starts then s.unitStart uFMN else s
    let us := us.filter (fun u => u != uFMN || starts)
    foldS us s (fun s u => s.setBusy u true)
  else foldS us s (fun s u => s.unitStart u)

/-- A port reset request (R421, R422); in the Spillway the ports stay OFF (R386). -/
def State.portResets (s : State) (m : Nat) : State :=
  if s.resetting && !s.spill then s
  else foldS (bitsSet 64 m) s (fun s p => s.portReset p)

/-! ### Device reset -/

/-- The registers that a device reset keeps: FLT_STATUS (Table 15.7), the boot status, BUSY of absorbed unit resets (R422), the chiplet PLLs, and the
Foreman's and host links' registers (log entry 40). -/
def keptRegs : List Reg :=
  [.FLT_STATUS, .GLB_UNIT_RESET, .GLB_RESET_CAUSE, .GLB_BOOT_STATUS, .SER_PLL_STATUS, .FMN_INFO, .FMN_MB_STATUS, .FMN_REQ, .FMN_RESP,
   .HIF_PORT_STATUS]

/-- Keep, of the registers, the kept ones, LOADS, and what ports that still send FENCE flits need: the state, step and lanes of the
port and its TX_NEXT (Table 4.2). -/
def State.keepRegs (s : State) : State :=
  let fencing := (List.range 64).filter (fun p => s.lnkState p == lnkFencing)
  let s' := { s with regs := s.regs.filter (fun e => (keptRegs.map Reg.code).contains (Nat.unpair (Nat.unpair e.1).1).1) }
  let s' := s'.wr F.TRS_STATUS.LOADS (s.rd F.TRS_STATUS.LOADS)
  foldS fencing s' (fun t p =>
    let t := (t.wr F.LNK_PORT_STATUS.STATE lnkFencing p).wr F.LNK_REPLAY_STATUS.TX_NEXT (s.rd F.LNK_REPLAY_STATUS.TX_NEXT p) p
    let t := foldS [F.SER_PORT_STATUS.STATE, F.SER_PORT_STATUS.STEP, F.SER_PORT_STATUS.WIDTH, F.SER_PORT_STATUS.LANES] t
      (fun t d => t.wr d (s.rd d p) p)
    foldS [2 * p, 2 * p + 1] t (fun t l => t.wr F.SER_LANE_STATUS.POWERED (s.rd F.SER_LANE_STATUS.POWERED l) l))

/-- An access that waited for a wake which does not come: reads return zero, CXL is answered as of a device that does not run, writes are
dropped (R418, Table 13.6). -/
def State.endWait (s : State) (a : Asleep) : State :=
  match a with
  | .read f .. | .status f .. | .qinfo f .. => s.emit (.regValue (.fn f) 0)
  | .peg f j .. => s.emit (.pegValue f j 0)
  | .mem port tag hpa kind mv data mask => s.memPoison ⟨0, port, tag, hpa, kind, mv, data, mask⟩
  | .snoop k addr _ => s.emit (.snpRsp k addr 0 [])
  | _ => s

/-- Accesses that waited for a wake are gone with the attachment that they came through. -/
def State.dropWaits (s : State) (pfs : List Nat) : State :=
  s.modPwr (fun p => { p with waits := p.waits.filter (fun a => !pfs.contains a.pf) })

/-- Answer the host reads that a device reset or the Spillway leaves without their unit: reads that wait for a context or a wake return
zero, window reads poisoned data (R418, log entry 41). -/
def State.endReads (s : State) : State :=
  let s := foldS s.pwr.waits s State.endWait
  let s := foldS s.hif.status s (fun s r => s.emit (.regValue r.who 0))
  foldS s.coh.wait s (fun s r => s.memPoison r)

/-- Device reset entry (R418): an orderly fence of every port in INIT or UP, every function as by a HIF unit reset, every
Peg freed without marks, a pending hot image discarded, every RW field at its reset value; the host links and the configuration
space of the functions, with their LTR settings and HDM decoders, are kept, and each island goes to V_NOM (R399). -/
def State.deviceEntry (s : State) (cause : Nat) : State :=
  let s := s.mctEndAll.pegEndStalled.endReads
  let s := foldS (List.range 64) s (fun s p => s.lanesOff p fnDeviceReset)
  let links := s.lnk.filter (fun e => s.lnkState e.1 == lnkFencing)
  let lanes := s.lane.filterMap (fun e => if s.lnkState (e.1 / 2) == lnkFencing then some (e.1, { LaneSt.init with txScr := e.2.txScr }) else none)
  let s := (s.keepRegs).wr F.GLB_RESET_CAUSE.CAUSE cause
  let s := s.inc F.GLB_RESET_CAUSE.DEVICE_RESETS
  let s := s.wr F.GLB_BOOT_STATUS.PHASE phReset
  State.avsSend { s with
    shadow := [], acts := [], bea := Bea.init, lnk := links, ser := [], lane := lanes, portOff := 0, arrived := []
    rte := Rte.init, hif := { Hif.init with msix := s.hif.msix }, rma := Rma.init, mat := Mat.init, mct := Mct.init
    coh := { Coh.init with hdm := s.coh.hdm }, peg := [], ecc := Ecc.init
    pwr := { Pwr.init with ltr := s.pwr.ltr, volt := s.pwr.volt, isl := s.pwr.isl, good := s.pwr.good }
    grn := { s.grn with since := 0 }, enginesDown := [], escBeats := 0
    trs := { s.trs with img := none, staged := none }
    boot := { s.boot with
      absorbed := s.boot.absorbed ++ s.boot.unitWait.map (·.1), unitWait := [], contained := 0 } }

/-- A device reset request (R418, R422): absorbed by a reset or boot in progress; without effect in the Spillway (R386). -/
def State.deviceReset (s : State) (cause : Nat) : State :=
  if !s.pins.pwrok || s.spill || s.resetting then s else s.deviceEntry cause

/-! ### Pins and boot phases -/

/-- PWROK falls: a cold reset (R407, Table 15.7). The flash, the fuses, the pins and the TAP stay. -/
def State.pwrokFall (s : State) : State :=
  { s with
    regs := [], shadow := [], acts := [], bea := Bea.init, lnk := [], ser := [], lane := [], portOff := 0, arrived := []
    rte := Rte.init, hif := Hif.init, rma := Rma.init, mat := Mat.init, mct := Mct.init, coh := Coh.init, peg := [], ecc := Ecc.init
    pwr := Pwr.init, grn := { s.grn with since := 0 }, enginesDown := [], escBeats := 0
    trs := { s.trs with img := none, pushed := none, cand := none, staged := none, push := none }
    boot := { Boot.init with
      variant := s.boot.variant, foremanLog := s.boot.foremanLog, jtag := s.boot.jtag, bsr := s.boot.bsr }
    pins := { s.pins with pwrok := false } }

/-- PWROK rises (R407, R409, R432): the straps are sampled and boot begins with ROM. -/
def State.pwrokRise (s : State) (hostBif smbAddr : Nat) : State :=
  if s.pins.pwrok then s else
  ((s.modPins (fun b => { b with pwrok := true })).modBoot (fun b => { b with hostBif := hostBif % 4, smbAddr := smbAddr % 4 })).wr F.GLB_BOOT_STATUS.PHASE phRom

/-- The end of ROM (R409, R411): the fuses read, the core PLL locked or not, a parity error on the configuration network.
The Foreman's firmware is read whatever was raised (R388). -/
def State.romEnd (s : State) (fuse pll parity : Bool) : State :=
  if s.phase != phRom then s else
  let s := if pll then s else s.raise .GLB_CORE_PLL
  let s := if parity then s.raise .GLB_CFGNET else s
  let s := if fuse then s else s.raise .GLB_FUSE
  s.wr F.GLB_BOOT_STATUS.PHASE phFirmware

/-- A firmware slot passes (Table 15.4, R412, R70). -/
def State.fwOk (s : State) (k : Nat) : Bool :=
  let a := 0x200000 * k
  let h := s.flashRead a 64
  let len := leAt h 8 4
  leAt h 0 4 == 0x57464D46 && leAt h 4 1 == 1 && leAt h 5 3 == 0 && len % 8 == 0 && decide (4096 ≤ len ∧ len ≤ 2097152) &&
  decide (leAt h 12 4 ≤ 64) && decide (leAt h 20 4 < len - 256) && leAt h 24 36 == 0 && leAt h 60 4 == crc32 (h.take 60) &&
  decide (s.trs.floor ≤ leAt h 12 4) && (sigBad s.trs.keys (s.flashRead a len) (len - 256)).isNone

/-- SEC_VERSION of the running firmware; none in RECOVERY. -/
def State.fwSec (s : State) : Option Nat :=
  let k := s.rd F.GLB_BOOT_STATUS.FW_SLOT
  if s.rd F.FMN_INFO.STATE = fmRunning ∧ k < 2 then some (leNat (s.flashRead (0x200000 * k + 12) 4)) else none

/-- The boot ROM picks a firmware slot (R412): A, then B, else RECOVERY. -/
def State.fwSelect (s : State) : State :=
  let run (s : State) (k : Nat) : State :=
    ((s.wr F.GLB_BOOT_STATUS.FW_SLOT k).wrFmn F.FMN_INFO.STATE fmRunning).wrFmn F.FMN_INFO.FW_VERSION
      (leNat (s.flashRead (0x200000 * k + 16) 4))
  if s.fwOk 0 then run s 0 else
  let s := s.raise .FMN_FW_REJECT
  if s.fwOk 1 then run s 1 else
  (((s.raise .FMN_FW_REJECT).wr F.GLB_BOOT_STATUS.FW_SLOT 2).wrFmn F.FMN_INFO.STATE fmRecovery).wrFmn F.FMN_INFO.FW_VERSION 0

/-- The end of FIRMWARE (R412): BIST, or RESET while WARM_RST_L holds the boot (R422). -/
def State.firmwareEnd (s : State) : State :=
  if s.phase != phFirmware then s else
  (s.fwSelect).wr F.GLB_BOOT_STATUS.PHASE (if s.pins.warm then phReset else phBist)

/-- WATCHDOG_EXPIRE (R414). -/
def State.watchdog (s : State) : State :=
  if s.pins.pwrok && s.rd F.FMN_INFO.STATE == fmRunning then s.foremanRestart else s

/-- The Foreman's restart completes: the slots are tried again (R412, R413). A unit reset that a device reset absorbed completes with
that reset (R388, R422). -/
def State.foremanDone (s : State) : State :=
  if s.rd F.FMN_INFO.STATE = fmRestarting then (if s.resetting && !s.spill then s.fwSelect else (s.fwSelect).setBusy uFMN false) else s

/-- WARM_RST_L held for 1 µs (R450, R422). -/
def State.warmAssert (s : State) : State :=
  let s := s.modPins (fun b => { b with warm := true })
  if !s.pins.pwrok then s else
  if s.spill then s
  else if s.phase = phRunning then s.deviceEntry 1
  else if s.phase = phBist ∨ s.phase = phLoad then
    (s.modTrs (fun t => { t with pushed := if t.pushed.isSome then t.pushed else t.cand, cand := none })).wr F.GLB_BOOT_STATUS.PHASE phReset
  else s

/-- The release of WARM_RST_L: a held boot or reset goes on (R422). -/
def State.warmRelease (s : State) : State := s.modPins (fun b => { b with warm := false })

/-- BIST begins: WARM_RST_L does not hold the boot or reset (R422), and the fences that began a device reset are over (R418). -/
def State.bistBegin (s : State) : State :=
  if s.pins.pwrok && !s.pins.warm && !s.spill && s.phase == phReset && (List.range 64).all (fun p => s.lnkState p != lnkFencing) then
    s.wr F.GLB_BOOT_STATUS.PHASE phBist
  else s

/-- The units that an unrepairable region contains (Table 15.5). -/
def bistUnits (r : Nat) : List Nat :=
  match r with
  | 0 => [uRTE]
  | 1 => [uLNK]
  | 2 => [uHIF]
  | 3 => [uRMA]
  | 4 => [uCOH]
  | 5 => [uCOH]
  | 7 => [uRTE, uMCT]
  | _ => []

/-- The end of BIST (R415): spare elements used, regions that cannot be repaired (rows of Table 0.1) and bays whose local
store cannot; every code word is zero; a held pushed image becomes the first candidate of LOAD (R48, R422). -/
def State.bistEnd (s : State) (repairs bad bays : Nat) : State :=
  if s.phase != phBist || s.spill then s else
  let s := { s with ecc := Ecc.init, enginesDown := [] }
  let s := s.modBoot (fun b => { b with contained := 0 })
  let bays := (bitsSet 16 bays).filter (fun n => s.fitted (24 + n))
  let us := (((bitsSet 8 bad).flatMap bistUnits).eraseDups).filter (fun u => s.fitted u)
  let s := (s.wr F.GLB_BOOT_STATUS.REPAIRS (min repairs 255)).wr F.GLB_BOOT_STATUS.BAD_BAYS ((bays.map (fun n => 2 ^ n)).sum)
  let s := foldS us s (fun s u => (s.raise .GLB_BIST_FAIL u).containUnit u)
  let s := foldS bays s (fun s n => (s.raise .GLB_BIST_FAIL (24 + n)).containUnit (24 + n))
  let s := { s with grn := { s.grn with repairs := repairs } }
  (s.modTrs (fun t => { t with cand := t.pushed, pushed := none })).wr F.GLB_BOOT_STATUS.PHASE phLoad

/-! ### LOAD -/

/-- The registers that a port takes from its PORTS entry (Tables 3.14, 5.26); POWER_DOWN does not stay on a port that turns out unused
(R116). -/
def State.loadPort (s : State) (p : Nat) : State :=
  let s := if s.portRole p = 0 then s.wr F.SER_PORT_CTRL.POWER_DOWN 0 p else s
  let s := (s.wr F.SER_PORT_CTRL.TARGET_STEP (s.portMaxStep p) p).wr F.SER_PORT_CTRL.TARGET_WIDTH (s.portMaxWidth p) p
  s.wr F.RTE_PORT_FALLBACK.MASK (s.fallbackReset p) p

/-- The fault severities and slots of an image (R375); a slot that it reassigns is cleared (R379). -/
def State.loadFaults (s : State) (i : Img) : State :=
  match i.members.find? (fun m => m.1 == 0x800B) with
  | none => s
  | some m =>
    let s := foldS (List.range 16) s (fun s k =>
      let v := leAt m.2 (2 * k) 2
      if v = 0xFFFF ∨ v = s.rd F.FLT_RICH_ASSIGN.SOURCE k then s else (s.wr F.FLT_RICH_ASSIGN.SOURCE v k).clearSlot k)
    foldS (List.range 480) s (fun s n =>
      let v := bits (leAt m.2 (32 + n / 4) 1) (2 * (n % 4)) 2
      if srcAssigned n then (s.wr F.FLT_SEV.DEFAULT v n).wr F.FLT_SEV.SEV v n else s)

/-- The seeds of an image (R69). -/
def State.applySeeds (s : State) (i : Img) : State :=
  let node := memField i 0x8001 0 4 0 % 2 ^ 17
  foldS (List.range 4) s (fun s k => s.wr F.RTE_SEED.SEED (memField i 0x800C (8 * k) 8 (seedDefault node k)) k)

/-- The fields that LOAD sets from a full image: identity, TR fields and the reset values marked "image" (R51). -/
def State.loadImage (s : State) (i : Img) (source : Nat) : State :=
  let s := s.modTrs (fun t => { t with img := some i })
  let s := (((s.wr F.TRS_STATUS.STATE 2).wr F.TRS_STATUS.SOURCE source).wr F.TRS_STATUS.SIGN_SLOT i.keySlot).wr F.TRS_STATUS.SEC_VERSION i.sec
  let s := (s.inc F.TRS_STATUS.LOADS).wr F.TRS_BUILD_ID.BUILD_ID i.build
  let s := (s.wr F.TRS_IMAGE_DIGEST.DIGEST (leAt i.digest 0 8) 0).wr F.TRS_IMAGE_DIGEST.DIGEST (leAt i.digest 8 8) 1
  let s := s.wr F.TRS_ENABLE.ENABLE (memField i 0x8002 0 8 0)
  let s := (s.wr F.RTE_NODE.NODE_ID (memField i 0x8001 0 4 0)).wr F.RTE_NODE.GROUPS (memField i 0x8001 4 2 0)
  let s := (s.wr F.RTE_NODE.GROUP_X (memField i 0x8001 6 1 0)).wr F.RTE_NODE.GROUP_Y (memField i 0x8001 7 1 0)
  let s := (s.wr F.BEA_CONFIG.PERIOD_UNITS (memField i 0x8008 0 1 20)).wr F.BEA_CONFIG.ROLE (memField i 0x8008 1 1 0)
  let s := (s.wr F.BEA_CONFIG.EXT_REF (memField i 0x8008 2 1 0)).wr F.BEA_CONFIG.TASK_EN (memField i 0x8008 3 1 0)
  let s := s.wr F.RTE_LIMITER_STATUS.RATE_CAP (392 * s.rd F.BEA_CONFIG.PERIOD_UNITS / 10)
  let codes := (List.range 8).map s.eccCode
  let s := foldS [(F.ECC_CODES.CODE_0, 0), (F.ECC_CODES.CODE_1, 1), (F.ECC_CODES.CODE_2, 2), (F.ECC_CODES.CODE_3, 3), (F.ECC_CODES.CODE_4, 4),
    (F.ECC_CODES.CODE_5, 5), (F.ECC_CODES.CODE_6, 6), (F.ECC_CODES.CODE_7, 7)] s (fun s e => s.wr e.1 (memField i 0x8006 e.2 1 1))
  let s := s.modEcc (fun e => { e with words := e.words.filter (fun x => codes.getD (x.1 / 2 ^ 23) 0 == s.eccCode (x.1 / 2 ^ 23)) })
  let s := s.wr F.COH_MODE.RACE_MODE (memField i 0x8007 0 1 0)
  let s := (s.wr F.PWR_COOLING.THERMAL_MASS (memField i 0x800A 0 4 0)).wr F.PWR_COOLING.THETA_CC (memField i 0x800A 4 4 0)
  let s := s.wr F.PWR_COOLING.COOLANT_MAX (memField i 0x800A 8 2 0)
  let s := (((s.applyPower i).applyGains i).applyThresh i).loadFaults i
  let s := (s.applySeeds i).loadSeeds
  let s := if s.groups = 1 then s.wr F.GLB_BOOT_CTRL.ROUTES_READY 1 else s
  (foldS (List.range 64) s (fun s p => s.loadPort p)).beaLoaded

/-- The first candidate that passes, with each failed one rejected (R48, R74, R73). What a candidate raises is handled at
the severities and slots in effect before the accepted image's (R373); a Halt among them ends the loading (R384). -/
def State.tryImages (s : State) : List (Nat × Nat × Bytes) → Option (Img × Nat) × State
  | [] => (none, (s.raise .TRS_NO_IMAGE).collectNow)
  | (org, source, b) :: r =>
    match checkImage (s.chkEnv 1048576) false b with
    | (.ok i, sk) => (some (i, source), (s.skips sk).collectNow)
    | (.error e, sk) =>
      let s := ((s.skips sk).reject org b e).collectNow
      if s.spill then (none, s) else s.tryImages r

/-- PHASE becomes RUNNING and every unit that the image enables, or that runs with no image (R50), is set enabled in the
same cycle (R416); a unit contained by BIST is not (R415). -/
def State.enterRunning (s : State) (ms : Nat) : State :=
  let s := (s.wr F.GLB_BOOT_STATUS.PHASE phRunning).wr F.GLB_BOOT_STATUS.BOOT_MS (min ms 65535)
  foldS [4, 5, 6, 8, 10, 11, 12, 13, 14, 16, 17, 3] s (fun s u => if s.unitImaged u && s.fitted u && !s.isContained u then s.unitOn u else s)

/-- RUNNING ends what a reset absorbed (R422): unit and port resets, and a NOW that waits starts a device reset. -/
def State.endAbsorbed (s : State) : State :=
  let s := s.wr F.GLB_UNIT_RESET.BUSY (if s.rd F.FMN_INFO.STATE = fmRestarting then s.rd F.GLB_UNIT_RESET.BUSY &&& 2 ^ uFMN else 0)
  if s.boot.nowPending then (s.modBoot (fun b => { b with nowPending := false })).post .deviceReset else s

/-- The end of LOAD (R48, R53, R416), `ms` milliseconds after the start that BOOT_MS counts from. -/
def State.loadEnd (s : State) (ms : Nat) : State :=
  if s.phase != phLoad || s.spill then s else
  let cs := (match s.trs.cand with | some b => [(orgFull, 3, b)] | none => []) ++
    [(orgSlot0, 1, s.slotBytes 0), (orgSlot1, 2, s.slotBytes 1)]
  let (r, s) := s.tryImages cs
  let s := s.modTrs (fun t => { t with cand := none })
  if s.spill then s else
  let s := match r with
    | some (i, source) => s.loadImage i source
    | none => s.wr F.TRS_STATUS.STATE 1
  (s.enterRunning ms).endAbsorbed

/-- CORE_PLL_UNLOCK and FUSE_READ (R411). -/
def State.pllLost (s : State) (parity : Bool) : State :=
  if !s.pins.pwrok then s else
  let s := s.raise .GLB_CORE_PLL
  if parity then s.raise .GLB_CFGNET else s
/-- FUSE_READ: every 1,048,576 Beats (R411). -/
def State.fuseRead (s : State) (ok parity : Bool) : State :=
  if !s.pins.pwrok || s.boot.fuseBeats < 1048576 then s else
  let s := s.modBoot (fun b => { b with fuseBeats := 0 })
  let s := if ok then s else s.raise .GLB_FUSE
  if parity then s.raise .GLB_CFGNET else s

/-! ### Host-port reset -/

/-- PERST_L of host port `h` changes. -/
def State.perstPin (s : State) (h : Nat) (low : Bool) : State :=
  s.modPins (fun b => if h = 0 then { b with perst0 := low } else { b with perst1 := low })

/-- PERST_L of host port `h` is asserted (R419): the port's links go down, its functions are reset as by FLR, its export's directory
entries are dropped and its window lines lose their host copies. -/
def State.hostReset (s : State) (h : Nat) : State :=
  if !s.fitted (uHIF + h) then s else
  let pfs := [2 * h, 2 * h + 1].filter s.pfExists
  let s := foldS pfs s (fun s pf => s.clearInst [.HIF_PORT_STATUS] pf)
  let s := (foldS pfs s (fun s pf => s.fnReset (.pf (Fin.ofNat 4 pf)) false)).pegPfReset pfs true
  let s := foldS pfs s (fun s pf => s.fnClear (.pf (Fin.ofNat 4 pf)))
  let s := { s with pwr := { s.pwr with ltr := s.pwr.ltr.filter (fun e => !pfs.contains e.1) } }.dropWaits pfs
  (s.exportLost h).hostCopiesLost h

/-! ### JTAG and I3C -/

/-- JTAG instructions: 0 BYPASS, 1 IDCODE, 2 SAMPLE/PRELOAD, 3 EXTEST, 4 HIGHZ, 5 EXTEST_PULSE, 6 EXTEST_TRAIN. The last
four act as BYPASS unless PWROK is low or WARM_RST_L is asserted; nothing is loaded while TRST_L is low (R441). They take the output
pins: HIGHZ tri-states them, and the others drive them from the boundary register as SAMPLE/PRELOAD loaded it (IEEE 1149.1, 1149.6). -/
def State.jtagLoad (s : State) (i : Nat) : State :=
  if s.pins.trstLow then s else
  let i := if 3 ≤ i && s.pins.pwrok && !s.pins.warm then 0 else i
  let s := s.modBoot (fun b => { b with jtag := i })
  if 3 ≤ i then s.emit (.scanPins (if i = 4 then none else some s.boot.bsr)) else s

/-- IDCODE (R441): 0x1 at B0, 0xF1A0, and the bits of the BSDL file (log entry 4). -/
def idcodeWord : Nat := 0x1F1A0 * 4096 + Config.idcodeLow.toNat

/-- The data register that a loaded instruction shifts out: IDCODE's, BYPASS's zero (HIGHZ selects that register too), or what the
boundary register captured of the pins, which the board settles (log entry 4). -/
def State.jtagOut (s : State) : State :=
  if s.pins.trstLow then s else
  match s.boot.jtag with
  | 0 => s.emit (.jtag 0 0)
  | 1 => s.emit (.jtag 1 idcodeWord)
  | 4 => s.emit (.jtag 4 0)
  | i => let (v, s) := s.pick (2 ^ Config.scanCells); s.emit (.jtag i v)

/-- SAMPLE/PRELOAD: the pins sampled and shifted out, and the boundary register preloaded. -/
def State.jtagSample (s : State) (pins preload : Nat) : State :=
  if s.pins.trstLow then s else ((s.jtagLoad 2).emit (.jtag 2 pins)).modBoot (fun b => { b with bsr := preload })

/-- TRST_L: while low the TAP is in Test-Logic-Reset, whose instruction is IDCODE (IEEE 1149.1). -/
def State.trst (s : State) (low : Bool) : State :=
  (s.modPins (fun b => { b with trstLow := low })).modBoot (fun b => { b with jtag := if low then 1 else b.jtag })

/-- The SMBus address, which is also the I3C static address (R440). -/
def State.staticAddr (s : State) : Nat := 0x64 + s.boot.smbAddr

/-- SETDASA to the static address, and ENTDAA (R440). -/
def State.setDasa (s : State) (static dyn : Nat) : State :=
  if s.pins.pwrok && static == s.staticAddr && s.boot.i3cAddr.isNone then s.modBoot (fun b => { b with i3cAddr := some dyn }) else s
def State.entDaa (s : State) (dyn : Nat) : State :=
  if s.pins.pwrok && s.boot.i3cAddr.isNone then s.modBoot (fun b => { b with i3cAddr := some dyn }) else s

end Sys2Proof.Machine
end

