-- ==== Sys2Proof/Machine/Operands.lean ====
section
/-! DEFINITION. Operand forms: where an access to a BAR, through the mailbox or in a management packet lies, who makes it,
which instance it meets, and the value that a register reads (17_register_map_index.md, 00_scope.md). -/

namespace Sys2Proof.Machine

/-- What lies at an offset of a BAR. -/
inductive Loc where
  | id (blk : Nat)
  | reg (r : Reg) (i : Nat)
  | shadow (blk : Nat) (l : Option (Reg × Nat))
  | shadowId (blk : Nat)
  | hole (blk : Nat)
  | outside
  | page (n : Nat) (r : Option Reg)
  | push (n o : Nat)
  | msix (v o : Nat)
  | pba (o : Nat)
  deriving DecidableEq, Repr

/-- The index of the instance of `r` at a block offset. RTE_CREDIT has five instances of eight by port. -/
def Reg.indexAt (r : Reg) (off : Nat) : Option Nat :=
  let p := r.place
  let i := (off - p.off) / p.stride
  if p.off ≤ off ∧ (off - p.off) % p.stride = 0 ∧ i < p.count ∧ (r = .RTE_CREDIT → i % 8 ≤ 4) then some i else none

/-- The first register of a list that lies at an offset. -/
def regIn (off : Nat) : List Reg → Option (Reg × Nat)
  | [] => none
  | r :: t => match r.indexAt off with
    | some i => some (r, i)
    | none => regIn off t

/-- The register of block window `blk` at a block offset. -/
def regAt (blk off : Nat) : Option (Reg × Nat) := regIn off (blockRegs blk)

/-- BAR0 of a PF (Table 17.1, R32, R444). -/
def pfLoc (a : Nat) : Loc :=
  if 0x2000000 ≤ a then
    if a < 0x2008000 then .msix ((a - 0x2000000) / 16) (a % 16)
    else if 0x2010000 ≤ a ∧ a < 0x2010100 then .pba (a - 0x2010000)
    else .hole 17
  else if 0x1100000 ≤ a then .hole 17
  else
    let blk := a / 0x100000
    let o := a % 0x100000
    if o = 0x80000 then .shadowId blk
    else if 0x80000 ≤ o then .shadow blk (regAt blk (o - 0x80000))
    else if o = 0 then .id blk
    else match regAt blk o with
      | some x => .reg x.1 x.2
      | none => .hole blk

/-- The registers of the four views of a VF (Table 17.2). -/
def vfView : Nat → List Reg
  | 0 => [.HIF_FN_INFO, .HIF_QUEUE_ADDR, .HIF_QUEUE_CMD, .HIF_QUEUE_RESULT, .HIF_COUNT, .HIF_EQ_BASE, .HIF_EQ_CFG, .HIF_EQ_STATUS,
      .HIF_EQ_DB]
  | 1 => [.RMA_REG_CMD, .RMA_REG_RESULT, .RMA_QINFO_SEL, .RMA_QINFO]
  | 2 => [.MAT_ML_ADDR, .MAT_ML_CMD, .MAT_ML_RESULT, .MAT_ML_STATUS]
  | 3 => [.PEG_FN_CFG, .PEG_TAKE, .PEG_TRY, .PEG_RELEASE, .PEG_WATCH, .PEG_STATE]
  | _ => []
def vfBlk (view : Nat) : Nat := [7, 8, 9, 11].getD view 17

/-- The per-Peg arrays of the PEG window. -/
def Reg.pegArray : Reg → Bool
  | .PEG_TAKE | .PEG_TRY | .PEG_RELEASE | .PEG_WATCH | .PEG_STATE => true
  | _ => false

/-- BAR0 of a VF whose map holds `pegs` Pegs (R221, R343, Table 17.2). -/
def vfLoc (pegs a : Nat) : Loc :=
  if 0x400000 ≤ a then
    if a < 0x400400 then .msix ((a - 0x400000) / 16) (a % 16)
    else if 0x410000 ≤ a ∧ a < 0x410008 then .pba (a - 0x410000)
    else .outside
  else
    let view := a / 0x100000
    let o := a % 0x100000
    if o = 0 then .id (vfBlk view)
    else match regIn o (vfView view) with
      | some x => if x.1.pegArray && decide (pegs ≤ x.2) then .outside else .reg x.1 x.2
      | none => .outside

/-- BAR2 and BAR4 (R222, R244). -/
def pageLoc (a : Nat) : Loc := .page (a / 4096) ((regIn (a % 4096) pageRegs).map (·.1))
def pushLoc (a : Nat) : Loc := .push (a / 128) (a % 128)

/-- The function that an access comes from; none for the mailbox and a remote manager. -/
def whoFn : Who → Option Fn
  | .fn f => some f
  | _ => none

/-- A function that exists (Table 7.1). -/
def State.fnExists (s : State) : Fn → Bool
  | .pf p => s.pfExists p.val
  | .vf p v => s.pfExists p.val && decide (v.val < s.pfVfs p.val)

/-- Where a function's access lies. -/
def State.fnLoc (s : State) (f : Fn) (bar : Bar) (a : Nat) : Loc :=
  match bar with
  | .bar0 => match f with
    | .pf _ => pfLoc a
    | .vf p v => vfLoc (s.rdI F.PEG_VF_MAP.PCOUNT p.val v.val) a
  | .bar2 => pageLoc a
  | .bar4 => pushLoc a

/-- The instance of a register that a requester meets (17_register_map_index.md, R46). -/
def instOf (who : Who) (r : Reg) : Nat :=
  if r = .BEA_PHASE then phaseInst who
  else match whoFn who with
    | some f => if r.perFn then fnInst f else if r.perPf then fnPf f else 0
    | none => 0

/-- The registers of an event ring. -/
def Reg.ring : Reg → Bool
  | .HIF_EQ_BASE | .HIF_EQ_CFG | .HIF_EQ_STATUS | .HIF_EQ_DB => true
  | _ => false

/-- The instance and the index that a requester meets: the rings of a VF are rings of its PF (R219). -/
def State.cellOf (s : State) (who : Who) (r : Reg) (i : Nat) : Nat × Nat :=
  match whoFn who with
  | some f => if r.ring then s.ringOf f i else (instOf who r, i)
  | none => (instOf who r, i)

/-- A register that only functions reach (R448). -/
def Reg.fnOnly (r : Reg) : Bool := r.perFn || r.perPf

/-- The units of a block window (R8). -/
def blockUnits : Nat → List Nat
  | 6 => [6, 7]
  | 7 => [8, 9]
  | b => [unitOfGroup b]

/-- A unit of the block is fitted (R8, R9). -/
def State.blockFitted (s : State) (blk : Nat) : Bool := decide (blk < 17) && (blockUnits blk).any (fun u => s.fitted u)

/-- The block ID of a block (R8). -/
def blockId (blk : Nat) : Nat :=
  [0x01424C47, 0x01535254, 0x01414542, 0x01524553, 0x014B4E4C, 0x01455452, 0x0154434D, 0x01464948, 0x01414D52, 0x0154414D,
   0x01484F43, 0x01474550, 0x01434345, 0x01544C46, 0x01525750, 0x014E5247, 0x014E4D46].getD blk 0

/-- The registers that belong to Confluence alone (R9). -/
def Reg.conf : Reg → Bool
  | .MCT_TREE_ADDR | .MCT_TREE_CMD | .MCT_TREE_RESULT | .MCT_TREE_STATUS => true
  | _ => false

/-- The register belongs to a unit that is absent (R9). -/
def State.regAbsent (s : State) (r : Reg) : Bool := !s.blockFitted r.place.blk || (r.conf && !s.fitted uCONF)

/-- Registers that read normally while the device boots or resets, and in the Spillway (R418, Table 13.6). -/
def Reg.served (r : Reg) : Bool :=
  match r.place.blk with
  | 0 | 13 | 16 => true
  | _ => match r with
    | .BEA_COUNT | .BEA_PHASE | .PWR_STATE | .PWR_POWER | .PWR_TEMP => true
    | _ => false

/-- The block ID of a block reads normally now: in the Spillway and while the device resets, those of the blocks that are served. -/
def State.idServed (s : State) (blk : Nat) : Bool := (!s.spill && !s.resetting) || blk == 0 || blk == 13 || blk == 16

/-- A register reads normally now. -/
def State.readable (s : State) (r : Reg) : Bool := (!s.spill && !s.resetting) || r.served

/-- The host ports answer: PWROK is high and ROM has ended (R410). -/
def State.hostAnswers (s : State) (f : Fn) : Bool := s.pins.pwrok && s.phase != phRom && s.fnExists f

/-! ### What a register reads -/

/-- The word with one field's bits replaced. -/
def fieldIn (x : Nat) (F : Fld) (v : Nat) : Nat := putBits x F.lo F.w v

/-- RTE_CREDIT[p, v] (Table 5.28): credits held by channel. -/
def State.creditWord' (s : State) (p v : Nat) : Nat :=
  let c (hc : Nat) (det : Bool) : Nat := tabGetD s.rte.cred (chKey p v hc det) 0
  let x := fieldIn 0 F.RTE_CREDIT.C0 (min 4095 (c 0 false))
  let x := fieldIn (fieldIn x F.RTE_CREDIT.C1 (min 4095 (c 1 false))) F.RTE_CREDIT.C2 (min 4095 (c 2 false))
  fieldIn (fieldIn (fieldIn x F.RTE_CREDIT.D0 (min 127 (c 0 true))) F.RTE_CREDIT.D1 (min 127 (c 1 true))) F.RTE_CREDIT.D2 (min 127 (c 2 true))

/-- HIF_FN_INFO of a function (Table 7.21). -/
def State.fnInfo (s : State) (f : Fn) : Nat :=
  let n := fnPf f
  let x := fieldIn 0 F.HIF_FN_INFO.PF n
  let x := match f with
    | .pf _ => x
    | .vf _ v => fieldIn (fieldIn x F.HIF_FN_INFO.VF 1) F.HIF_FN_INFO.VFNUM v.val
  let x := fieldIn (fieldIn x F.HIF_FN_INFO.QCOUNT (s.qCount f)) F.HIF_FN_INFO.EQCOUNT (s.eqCount f)
  let x := fieldIn x F.HIF_FN_INFO.VECTORS (match f with | .pf _ => 2048 | .vf _ _ => 64)
  fieldIn x F.HIF_FN_INFO.ENABLED (s.rd F.HIF_CTRL.ENABLE)

/-- TRS_KEY_STATUS from the fuses (Table 2.24). -/
def State.keyStatus (s : State) : Nat :=
  let prog := (s.trs.keys.map (fun k => 2 ^ k.1)).sum
  let rev := (s.trs.keys.map (fun k => if k.2.revoked then 2 ^ k.1 else 0)).sum
  fieldIn (fieldIn (fieldIn 0 F.TRS_KEY_STATUS.PROGRAMMED prog) F.TRS_KEY_STATUS.REVOKED rev) F.TRS_KEY_STATUS.SEC_FLOOR s.trs.floor

/-- BEA_BUDGET (Table 1.12). -/
def State.budgetWord (s : State) : Nat :=
  let x := fieldIn (s.word .BEA_BUDGET 0 0) F.BEA_BUDGET.BUDGET (50 * s.rd F.BEA_CONFIG.PERIOD_UNITS)
  fieldIn x F.BEA_BUDGET.ENABLED (taskSum (s.rd F.BEA_CONFIG.TASK_EN))

/-- COH_STATUS (Table 10.14). -/
def State.cohStatus (s : State) : Nat :=
  let n := s.cohCounts
  let x := fieldIn (s.word .COH_STATUS 0 0) F.COH_STATUS.HOME_TX n.1
  fieldIn (fieldIn x F.COH_STATUS.AGENT_TX n.2.1) F.COH_STATUS.RETRY_WAIT n.2.2

/-- An event ring beyond the function's count reads zero and takes no write (Table 7.30). -/
def State.ringOut (s : State) (who : Who) (r : Reg) (i : Nat) : Bool :=
  r.ring && (match whoFn who with
    | some f => decide (s.eqCount f ≤ i)
    | none => true)

/-- The entries of a table that a function's counts bound read zero beyond them (R444). -/
def State.entryOut (s : State) (who : Who) (r : Reg) (i : Nat) : Bool :=
  match r with
  | .HIF_VF_MAP | .RMA_VF_RMAP | .PEG_VF_MAP => match whoFn who with
    | some f => decide (s.pfVfs (fnPf f) ≤ i)
    | none => true
  | _ => s.ringOut who r i

/-- A register of an unused port that reads zero and takes no write (R116, R145). -/
def State.unusedOut (s : State) (r : Reg) (i : Nat) : Bool :=
  match r with
  | .SER_PORT_CTRL | .LNK_PORT_STATUS | .LNK_PORT_CTRL | .LNK_ERR_COUNT | .LNK_FEC_COUNT | .LNK_REPLAY_STATUS => s.portRole i == 0
  | _ => false

/-- WO and command registers read zero; the value of a register that another unit computes on reading, or its fields. -/
def State.regWord (s : State) (who : Who) (r : Reg) (i : Nat) : Nat :=
  let inst := instOf who r
  if s.entryOut who r i || s.unusedOut r i then 0 else
  let w := s.word r (s.cellOf who r i).1 (s.cellOf who r i).2
  match r with
  | .GLB_FITTED => fittedWord s.boot.variant
  | .GLB_UNIT_RESET => fieldIn 0 F.GLB_UNIT_RESET.BUSY (s.rd F.GLB_UNIT_RESET.BUSY)
  | .TRS_KEY_STATUS => s.keyStatus
  | .BEA_BUDGET => s.budgetWord
  | .BEA_COMMIT_PENDING => s.pendingGroups
  | .RTE_CREDIT => s.creditWord' (i / 8) (i % 8)
  | .RTE_CONG => fieldIn w F.RTE_CONG.QUEUE (min 65535 (s.queuedAll i))
  | .HIF_FN_INFO => match whoFn who with
    | some f => s.fnInfo f
    | none => 0
  | .HIF_COUNT => fieldIn w F.HIF_COUNT.PARKED (min 65535 (match whoFn who with | some f => s.parkedOf f | none => 0))
  | .HIF_PORT_STATUS => fieldIn w F.HIF_PORT_STATUS.BIFURCATED (b2n (s.bifurcated inst))
  | .HIF_EQ_DB => 0
  | .MAT_ML_STATUS => s.mlStatus i
  | .COH_STATUS => s.cohStatus
  | .PEG_COUNT => fieldIn (fieldIn w F.PEG_COUNT.STALLED s.pegStalled) F.PEG_COUNT.WAITING s.pegWaiting
  | .PEG_STATE => match whoFn who with
    | some f => match s.pegOf f i with
      | some k => s.pegStateWord k
      | none => 0
    | none => 0
  | .PEG_TAKE | .PEG_TRY => 0
  | .ECC_REGION_STATUS => fieldIn w F.ECC_REGION_STATUS.CODE (s.eccCode i)
  | .FLT_STATUS => fieldIn w F.FLT_STATUS.RICH_VALID (((List.range 16).map (fun k => s.rd F.FLT_RICH_META.VALID k * 2 ^ k)).sum)
  | .PWR_STATE => fieldIn w F.PWR_STATE.TOL_NS s.tol
  | .FMN_MB_CTRL => 0
  | _ => w

/-- The value in the shadow view (R32): the staged value of B fields, the value in effect of the others. -/
def State.shadowWord (s : State) (who : Who) (r : Reg) (i : Nat) : Nat :=
  if s.entryOut who r i || s.unusedOut r i then 0 else
  let inst := instOf who r
  r.fields.foldl (fun x F => if F.cls = .B then fieldIn x F (s.shadowI F inst i) else x) (s.regWord who r i)

end Sys2Proof.Machine
end

