-- ==== Sys2Proof/Machine/RegCheck.lean ====
section
/-! DEFINITION. The conditions on which a register write is refused for a field (R16, R19, R33, R52, R447), register by register, as the
register tables of the chapters give them. -/

namespace Sys2Proof.Machine

/-- Outside a range. -/
def outR (v lo hi : Nat) : Bool := decide (v < lo) || decide (hi < v)

/-- Two ranges given by base and count have an element in common. -/
def meets (b n b' n' : Nat) : Bool := n != 0 && n' != 0 && decide (b < b' + n') && decide (b' < b + n)

/-- The queue and the CQ of a number are both FREE. -/
def State.numFree (s : State) (g : Nat) : Bool := s.q g Q.STATE == qFree && s.q g Q.CQ_STATE == cqFree

/-- Every number of a PF's share is FREE. -/
def State.shareFree (s : State) (pf : Nat) : Bool := (s.numbersOf (.pf (Fin.ofNat 4 pf))).all s.numFree

/-- The value that a B field of a shared register would hold with word `w` written (R447). -/
def fldOf (w : Nat) (d : Fld) : Nat := bits w d.lo d.w

/-- The value that a field holds (R447). -/
def State.heldVal (s : State) (d : Fld) (inst i : Nat) : Nat := if d.cls = .B then s.shadowI d inst i else s.rdI d inst i

/-- What a field of one register holds after a write of word `w` that another field is judged against: the written value, or the held
one where the written one is itself refused (R16). -/
def State.after (s : State) (d : Fld) (inst i w : Nat) (bad : Nat → Bool) : Nat :=
  let v := fldOf w d
  if bad v then s.heldVal d inst i else v

/-- An event ring of a function is enabled. -/
def State.ringOn (s : State) (f : Fn) (e : Nat) : Bool :=
  decide (e < s.eqCount f) && s.rdI F.HIF_EQ_CFG.ENABLE (s.ringOf f e).1 (s.ringOf f e).2 == 1

/-- A CQ that is not FREE names the ring. -/
def State.ringNamed (s : State) (p e : Nat) : Bool :=
  s.hif.ctx.any (fun c => c.2.f Q.CQ_STATE != cqFree && s.ringOf (s.ownerOf c.1) (c.2.f Q.EQ) == (p, e))

/-- HIF_VF_MAP[v] (R220). -/
def State.vfMapBad (s : State) (pf v w : Nat) : Bool :=
  let qb := fldOf w F.HIF_VF_MAP.QBASE
  let qc := fldOf w F.HIF_VF_MAP.QCOUNT
  let eb := fldOf w F.HIF_VF_MAP.EQBASE
  let ec := fldOf w F.HIF_VF_MAP.EQCOUNT
  let oqb := s.vfMap F.HIF_VF_MAP.QBASE pf v
  let oqc := s.vfMap F.HIF_VF_MAP.QCOUNT pf v
  let oeb := s.vfMap F.HIF_VF_MAP.EQBASE pf v
  let oec := s.vfMap F.HIF_VF_MAP.EQCOUNT pf v
  decide (s.pfVfs pf ≤ v) || decide (16384 < qc) || decide (64 < ec) || decide (s.pfShare pf < qb + qc) || decide (s.pfEqs pf < eb + ec) ||
  (List.range (s.pfVfs pf)).any (fun x => x != v &&
    (meets qb qc (s.vfMap F.HIF_VF_MAP.QBASE pf x) (s.vfMap F.HIF_VF_MAP.QCOUNT pf x) ||
     meets eb ec (s.vfMap F.HIF_VF_MAP.EQBASE pf x) (s.vfMap F.HIF_VF_MAP.EQCOUNT pf x))) ||
  (s.numbersOf (.pf (Fin.ofNat 4 pf))).any (fun g =>
    let n := g - pfBase pf
    !s.numFree g && (meets n 1 qb qc || meets n 1 oqb oqc)) ||
  (List.range oec).any (fun e => s.rdI F.HIF_EQ_CFG.ENABLE pf (oeb + e) == 1) ||
  (List.range ec).any (fun e => s.rdI F.HIF_EQ_CFG.ENABLE pf (eb + e) == 1)

/-- RMA_VF_RMAP[v] (Table 8.26). -/
def State.vfRmapBad (s : State) (pf v w : Nat) : Bool :=
  let rb := fldOf w F.RMA_VF_RMAP.RBASE
  let rc := fldOf w F.RMA_VF_RMAP.RCOUNT
  let lg := s.rdI F.RMA_RT_BASE.LOG_LIMIT pf 0
  let vf : Fn := .vf (Fin.ofNat 4 pf) (Fin.ofNat 512 v)
  decide (s.pfVfs pf ≤ v) || (rc != 0 && (lg == 0 || decide (2 ^ lg < rb + rc))) ||
  (List.range (s.pfVfs pf)).any (fun x => x != v && meets rb rc (s.vfMap F.RMA_VF_RMAP.RBASE pf x) (s.vfMap F.RMA_VF_RMAP.RCOUNT pf x)) ||
  s.rma.regions.any (fun r => fnInst (regionFn r.1 r.2) == fnInst vf) ||
  (s.numbersOf vf).any (fun g => s.q g Q.STATE != qFree)

/-- A gateway field of RTE_GROUP_TABLE (Table 5.29): conditions hold only with VALID set (R185). -/
def State.gatewayBad (s : State) (v : Nat) : Bool :=
  bit v 15 && (bits v 8 6 != 0 ||
    (if bit v 14 then v % 256 == s.ownPos else decide (64 ≤ v % 256) || s.portRole (v % 256) != 2))

/-- RTE_ALIAS[i] (Table 5.30): the other entries are judged by their shadow values (R447). -/
def State.aliasBad (s : State) (i w : Nat) : Bool :=
  let own := fldOf w F.RTE_ALIAS.SERVE_POS == s.ownPos
  let port := fldOf w F.RTE_ALIAS.PORT
  let others := (List.range 16).filter (fun k => k != i && s.shadowOf F.RTE_ALIAS.VALID k == 1)
  fldOf w F.RTE_ALIAS.VALID == 1 &&
  (others.any (fun k => s.shadowOf F.RTE_ALIAS.POS k == fldOf w F.RTE_ALIAS.POS) ||
   (own && (s.portRole port != 3 ||
     others.any (fun k => s.shadowOf F.RTE_ALIAS.SERVE_POS k == s.ownPos && s.shadowOf F.RTE_ALIAS.PORT k == port))))

/-- FLT_RICH_ASSIGN[k] (R379). -/
def State.assignBad (s : State) (k v : Nat) : Bool :=
  decide (k < 5) || v == Src.FLT_SELF.num || !srcAssigned v ||
  (List.range 16).any (fun x => x != k && s.shadowOf F.FLT_RICH_ASSIGN.SOURCE x == v)

/-- FLT_SEV[n] (R371, R375). -/
def sevBad (d : Fld) (n v : Nat) : Bool := !srcAssigned n || (d.lo == 32 && (srcIntegrity n || (v == sevContain && srcScope n == 0)))

/-- The pair of COH_FWD_TIMEOUT (Table 10.11): REQ_BEATS is above the FWD_BEATS in effect after the commit. -/
def State.cohPairBad (s : State) (w : Nat) : Bool :=
  let f := s.after F.COH_FWD_TIMEOUT.FWD_BEATS 0 0 w (fun v => outR v 10 9765)
  decide (fldOf w F.COH_FWD_TIMEOUT.REQ_BEATS ≤ f)

/-- A field that a Scribe loop drives, with its loop enabled (R33), or that PWR drives for an auto port (R394). -/
def State.driven (s : State) (d : Fld) (i : Nat) : Bool :=
  match d.reg with
  | .PWR_AVS => s.task 1
  | .PWR_ENG => s.task 2
  | .SER_FFE | .SER_CTLE | .SER_DFE_TAPS => s.task 3
  | .RTE_EDDY => s.task 4
  | .RTE_ADAPT => s.task 5
  | .SER_PORT_CTRL => d.lo == 2 && bit (s.rd F.PWR_PORT_AUTO.AUTO) i
  | _ => false

/-- Ranges and conditions of the fabric's registers. -/
def State.fabricBad (s : State) (d : Fld) (i v w : Nat) : Bool :=
  match d.reg with
  | .BEA_HOLDOVER => outR v 1 10
  | .SER_BRINGUP_CFG =>
    if d.lo = 56 then outR v 4 200 else if d.lo = 32 then decide (v < 100)
    else if d.lo = 20 then outR v 100 4000 else if d.lo = 8 then outR v 20 4000 else if d.lo = 0 then v == 0 else false
  | .SER_PORT_CTRL =>
    s.portRole i == 0 || (d.lo == 10 && decide (1 < v)) ||
    (d.lo == 4 && (decide (s.portMaxStep i < v) || (decide (v < s.portMaxStep i) && !tolReaches s.tol s.tStep))) ||
    (d.lo == 2 && (v == 0 || decide (2 < v) || decide (s.portMaxWidth i < v)))
  | .SER_FFE | .SER_EQ_OVERRIDE => (d.lo == 8 && decide (20 < v)) || (d.lo == 0 && decide (12 < v))
  | .SER_TEST => !s.laneInTest i || (d.lo == 12 && decide (3 < v)) || (d.lo == 8 && decide (5 < v))
  | .LNK_TIMERS => if d.lo = 48 ∨ d.lo = 0 then decide (v < 10) else decide (v < 20)
  | .RTE_CTRL => d.lo == 8 && bit v 0
  | .RTE_ARB | .RTE_TC_WEIGHT => v == 0
  | .RTE_EDDY | .RTE_EDDY_OVERRIDE => d.lo == 0 && outR v 1 32767
  | .RTE_LIMITER_CFG =>
    if d.lo = 48 then outR v 1 (s.rd F.RTE_LIMITER_STATUS.RATE_CAP) else if d.lo = 16 then outR v 1 4095 else v == 0
  | .RTE_PORT_FALLBACK => (bitsSet 64 v).any (fun q => s.portRole q != s.portRole i)
  | .RTE_GROUP_TABLE => s.gatewayBad v
  | .RTE_ALIAS => s.aliasBad i w
  | .MCT_CTRL => d.lo == 16 && v == 0
  | .MCT_MC_LAND => d.lo == 63 && v == 1 && !s.imageEnables 8 && !s.imageEnables 9
  | _ => false

/-- Ranges and conditions of the host side's registers. -/
def State.hostBad (s : State) (who : Who) (d : Fld) (i v w : Nat) : Bool :=
  let f := (whoFn who).getD (.pf 0)
  let pf := fnPf f
  match d.reg with
  | .HIF_QCT_BASE => !s.shareFree pf || (d.lo == 0 && v != 0 && (decide (v < 6) || decide (s.pfShare pf < 2 ^ v)))
  | .HIF_SCHED => if d.lo = 32 then outR v 1 32 else v == 0
  | .HIF_VF_MAP => s.vfMapBad pf i w
  | .HIF_EQ_BASE => s.rdI F.HIF_EQ_CFG.ENABLE pf i == 1 || (d.lo == 0 && outR v 6 16)
  | .HIF_EQ_CFG =>
    (d.lo == 63 && v == 0 && s.ringNamed pf i) ||
    (d.lo == 32 && decide ((match s.ringOwner pf i with | .pf _ => 2048 | .vf _ _ => 64) ≤ v)) || (d.lo == 24 && v == 0)
  | .RMA_CFG => (d.lo == 50 && decide (v < 4)) || (d.lo == 40 && v == 0) || (d.lo == 36 && outR v 4 8)
  | .RMA_RT_BASE => s.rma.regions.any (fun r => r.1 / 2 ^ 22 == pf) || (d.lo == 0 && v != 0 && outR v 6 22)
  | .RMA_VF_RMAP =>
    s.vfRmapBad pf i w || (d.lo == 42 && v == 0) || (d.lo == 21 && decide (1048576 < v)) || (d.lo == 0 && decide (16 < v)) ||
    (d.lo == 5 && v % 2 ^ s.after F.RMA_VF_RMAP.PDLOG pf i w (fun x => decide (16 < x)) != 0)
  | .COH_FWD_TIMEOUT =>
    if d.lo = 48 then outR v 10 9765 || s.cohPairBad w else if d.lo = 32 then decide (v < 16) || s.cohPairBad w else v == 0
  | .COH_EXPORT =>
    (d.lo == 63 && v == 1 && !(s.en uHIF && s.imageEnables (8 + i) && s.rdI F.HIF_PORT_STATUS.CACHE (2 * i) 0 == 1)) ||
    (d.lo == 0 && outR v 1 2048)
  | .COH_MEMBER => d.lo == 63 && v == 0 && !s.memberDead i
  | .COH_HDM_TARGET => bits w 40 6 == s.ownMid
  | .PEG_CFG => outR v 1 400
  | .PEG_SUPERVISOR => who != .mailbox
  | .PEG_FN_CFG =>
    (d.lo == 0 && decide (s.eqCount f ≤ v)) || 
    (d.lo == 63 && v == 1 && !s.ringOn f (s.after F.PEG_FN_CFG.WATCH_EQ (fnInst f) 0 w (fun x => decide (s.eqCount f ≤ x))))
  | .PEG_VF_MAP => !s.pegMapOk pf i (fldOf w F.PEG_VF_MAP.PBASE) (fldOf w F.PEG_VF_MAP.PCOUNT)
  | .FLT_NOTIFY =>
    (d.lo == 0 && decide (s.eqCount f ≤ v)) ||
    (d.lo == 63 && v == 1 && !s.ringOn f (s.after F.FLT_NOTIFY.EQ pf 0 w (fun x => decide (s.eqCount f ≤ x))))
  | _ => false

/-- Ranges and conditions of the other registers. -/
def State.ownBad (s : State) (d : Fld) (i v w : Nat) : Bool :=
  match d.reg with
  | .ECC_SCRUB_CFG => v == 0
  | .ECC_FLIP_CTRL =>
    (d.lo != 63 && s.on F.ECC_FLIP_CTRL.ARM) || (d.lo == 32 && !s.flipOk (fldOf w F.ECC_FLIP_CTRL.REGION) v)
  | .ECC_FLIP_DATA => s.on F.ECC_FLIP_CTRL.ARM
  | .FLT_CTRL => v == 0
  | .FLT_RICH_ASSIGN => s.assignBad i v
  | .FLT_SEV => sevBad d i v
  | .PWR_CTRL => d.lo == 4 && decide (4 < v)
  | .PWR_IDLE => v == 0
  | .PWR_LOOP_CFG => if d.lo = 16 then outR v 1 32767 else outR v 5 200
  | .PWR_PORT_CFG =>
    if d.lo = 32 then v == 0
    else
      let n := s.after F.PWR_PORT_CFG.NARROW_PCT 0 0 w (fun x => outR x 1 99)
      if d.lo = 8 then decide (100 < v) || decide (v ≤ n) else outR v 1 99
  | .PWR_PORT_AUTO => (bitsSet 64 v).any (fun p => s.portRole p != 1 && s.portRole p != 2)
  | .PWR_ENG => outR v 16 (s.rd F.PWR_ENG.CAP)
  | .PWR_ENG_OVERRIDE => d.lo == 0 && outR v 16 32
  | .PWR_AVS | .PWR_AVS_OVERRIDE => d.lo == 0 && outR v (island i).2.1 (island i).2.2
  | .GRN_CTRL => d.lo == 8 && v == 0
  | .GLB_BOOT_CTRL => v == 0
  | _ => false

/-- A field is its unit's ENABLE. -/
def Fld.isEnable (d : Fld) : Bool := enableFld (unitOfGroup d.group) == some d

/-- Setting a unit's ENABLE is refused for a unit that the image leaves disabled (R52), that is contained (Table 13.2), or in
the Spillway. -/
def State.enableBad (s : State) (u : Nat) : Bool := !s.unitImaged u || s.isContained u || s.spill

/-- A write of `v`, which differs from the value held, is refused for RW field `d` of index `i`, as part of word `w`; the index of an
event ring is the PF's (R219). -/
def State.fieldBad (s : State) (who : Who) (d : Fld) (i v w : Nat) : Bool :=
  (d.isEnable && v == 1 && s.enableBad (unitOfGroup d.group)) || s.driven d i ||
  (d.cls == .Q && s.en (unitOfGroup d.group)) || s.fabricBad d i v w || s.hostBad who d i v w || s.ownBad d i v w

end Sys2Proof.Machine
end

