-- ==== Sys2Proof/Machine/RegWrite.lean ====
section
/-! DEFINITION. Register accesses: a write field by field (R12 to R20), the effects of command registers, the paths by which an
access comes (R445, R448), what is served while the device resets and in the Spillway (R418, Table 13.6). -/

namespace Sys2Proof.Machine

/-! ### The mailbox's end of a request (R424) -/

/-- An Alorex message (Table 15.9a). -/
def mbxMsg (cmd flags tag st : Nat) (payload : Bytes) : Bytes :=
  leBytes 1 cmd ++ leBytes 1 flags ++ leBytes 2 tag ++ leBytes 1 st ++ leBytes 1 0 ++ leBytes 2 payload.length ++ payload

/-- What stands before an Alorex message over MCTP (R423): message type 0x7F and the vendor ID 0x00F1_A0A1, its most significant byte
first (log entry 133). -/
def mctpHead : Bytes := [0x7F, 0x00, 0xF1, 0xA0, 0xA1]

/-- A response lands: over MCTP, or in FMN_RESP with DONE set and BUSY clear. -/
def State.mbxSend (s : State) (who : Mbx) (b : Bytes) : State :=
  match who with
  | .mctp _ => s.emit (.mbxResp who (mctpHead ++ b))
  | .window p =>
    let s := foldS (List.range ((b.length + 7) / 8)) s (fun s k => s.wrI F.FMN_RESP.DATA p.val k (leAt b (8 * k) 8))
    (s.wrI F.FMN_MB_STATUS.DONE p.val 0 1).wrI F.FMN_MB_STATUS.BUSY p.val 0 0

/-- Answer a request with a status and a payload; it is outstanding no longer. -/
def State.mbxAnswer (s : State) (h : Held) (st : Nat) (payload : Bytes) : State :=
  let s := s.modBoot (fun b => { b with outstanding := b.outstanding.erase (h.who, h.tag) })
  s.mbxSend h.who (mbxMsg (leAt h.msg 0 1) 1 h.tag st payload)

/-- A request arrives (R424): a fifth outstanding one, or one with a TAG that is outstanding, is answered BUSY; the others
wait their turn. A PF's window takes no request while BUSY. Nothing is served while PWROK is low (R407). -/
def State.mbxSubmit (s : State) (who : Mbx) (msg : Bytes) (blown : Bool := true) : State :=
  if !s.pins.pwrok then s else
  let tag := leAt msg 2 2
  let take (s : State) : State :=
    let mine := s.boot.outstanding.filter (fun o => o.1 == who)
    if 4 ≤ mine.length ∨ mine.contains (who, tag) then s.mbxSend who (mbxMsg (leAt msg 0 1) 1 tag 4 [])
    else s.modBoot (fun b => { b with outstanding := b.outstanding ++ [(who, tag)], held := b.held ++ [⟨who, tag, msg, blown⟩] })
  match who with
  | .mctp _ => take s
  | .window p =>
    if s.rdI F.FMN_MB_STATUS.BUSY p.val 0 = 1 then s.raise .CFG_REJECT
    else take ((s.wrI F.FMN_MB_STATUS.BUSY p.val 0 1).wrI F.FMN_MB_STATUS.DONE p.val 0 0)

/-- GO: the message in FMN_REQ, whose LEN says how much of it is meant. -/
def State.mbxGo (s : State) (p : Fin 4) : State :=
  let all := (List.range 128).flatMap (fun k => leBytes 8 (s.rdI F.FMN_REQ.DATA p.val k))
  s.mbxSubmit (.window p) (all.take (8 + leAt all 6 2))

/-! ### One write -/

/-- Only the first CFG_REJECT of a write stands (R16). -/
def onceReject : Bool → List Act → List Act
  | _, [] => []
  | seen, .occ o :: r =>
    if o.src = Src.CFG_REJECT.num then (if seen then onceReject true r else .occ o :: onceReject true r) else .occ o :: onceReject seen r
  | seen, a :: r => a :: onceReject seen r

/-- Raise no more than one CFG_REJECT in a write. -/
def State.rejectOnce (s t : State) : State :=
  let n := s.acts.length
  { t with acts := t.acts.take n ++ onceReject false (t.acts.drop n) }

/-- An L field, or a Q field of a disabled unit, takes a value with the effects that the field's chapter gives (R17, R19). -/
def State.putL (s : State) (d : Fld) (inst i v : Nat) : State :=
  if d.isEnable then (if v = 1 then s.unitOn (unitOfGroup d.group) else s.unitOff (unitOfGroup d.group))
  else match d.reg with
    | .SER_PORT_CTRL =>
      if d.lo = 10 then (if v = 1 then s.modeTest i else s.modeOperate i)
      else if d.lo = 8 then (if v = 1 then s.powerDown i else s.powerUp i)
      else s.wrI d inst i v
    | .GLB_BOOT_CTRL => (s.wrI d inst i v).grantAll
    | _ => s.wrI d inst i v

/-- One field of a written word (R13, R16 to R19, R447). Conditions are judged on the state that the write meets, `s0`. -/
def State.putField (s0 : State) (who : Who) (inst i w : Nat) (a : State × Bool) (d : Fld) : State × Bool :=
  let v := bits w d.lo d.w
  match d.acc with
  | .RW =>
    if v = s0.heldVal d inst i then a
    else if s0.fieldBad who d i v w then (a.1, true)
    else if d.cls = .B then (a.1.stageI d inst i v, a.2)
    else (a.1.putL d inst i v, a.2)
  | .RW1C =>
    if v = 0 then a
    else if d.reg = .FLT_RICH_META then (a.1.freeSlot i, a.2)
    else (a.1.wrI d inst i (a.1.rdI d inst i - (a.1.rdI d inst i &&& v)), a.2)
  | _ => a

/-- HIF_EQ_CFG is written whole, from `s0`: a ring that is enabled starts empty, takes its held events, and its message may be due by the
fields as they are now (R252, R253). -/
def State.eqConfigured (s s0 : State) (inst e : Nat) : State :=
  let on (s : State) : Bool := s.rdI F.HIF_EQ_CFG.ENABLE inst e == 1
  let s := if on s && !on s0 then ((s.wrI F.HIF_EQ_STATUS.PI inst e 0).wrI F.HIF_EQ_DB.CI inst e 0).flushEv inst e else s
  s.msiCheck inst e

/-- Every field of a written word; the flag says that one was refused. -/
def State.putFields (s : State) (who : Who) (r : Reg) (inst i w : Nat) : State × Bool :=
  let a := r.fields.foldl (s.putField who inst i w) (s, false)
  if r = .HIF_EQ_CFG then (a.1.eqConfigured s inst i, a.2) else a

/-- CFG_REJECT where a part of the write was refused. -/
def rejectIf (a : State × Bool) : State := if a.2 then a.1.raise .CFG_REJECT else a.1

/-- The OWNER of a requester (R341); the mailbox is the Foreman. -/
def whoOwner : Who → Nat
  | .fn f => fnOwner f
  | _ => 0x1000

/-- FLT_FORCE[w] (R381, R371): forced occurrences in ascending order; a bit of an unassigned source is refused. -/
def State.force (s : State) (k w : Nat) : State :=
  let inst := s.rd F.FLT_FORCE_INST.INSTANCE
  let ns := (bitsSet 64 w).map (fun b => 64 * k + b)
  let s := foldS (ns.filter srcAssigned) s (fun s n => s.raiseOcc ⟨n, inst, 0, 0, 0, false, 0, true⟩)
  if ns.any (fun n => !srcAssigned n) then s.raise .CFG_REJECT else s

/-- SPILL with a key (R389). -/
def State.spillKey (s : State) (key : Nat) : State := if key = 0xA5 then s.enterSpill 0 true false else s.raise .CFG_REJECT

/-- A START bit of TRS_SLOT_CHECK (Table 2.27). -/
def State.slotStart (s : State) (k : Nat) : State := s.wr F.TRS_SLOT_CHECK.BUSY (setBit (s.rd F.TRS_SLOT_CHECK.BUSY) k)

/-- RESTART, where the port is used. -/
def State.portCtrl (s : State) (who : Who) (p w : Nat) : State :=
  let a := s.putFields who .SER_PORT_CTRL 0 p w
  if bit w 9 then (if s.portRole p = 0 then rejectIf (a.1, true) else rejectIf (a.1.restart p, a.2)) else rejectIf a

/-- New SER_TEST fields of a lane in TEST (R112, R114): another preset is loaded, another pattern or a generator turned on starts the
generator anew. -/
def State.testChanged (s t : State) (l : Nat) : State :=
  let was (d : Fld) : Bool := s.rd d l == t.rd d l
  let u := if was F.SER_TEST.PRESET then t else t.testPreset l
  if was F.SER_TEST.PATTERN && was F.SER_TEST.GEN_EN then u else u.modLane l (fun x => { x with gen := none, flip := false })

/-- SER_TEST with its CLEAR and INJECT bits. -/
def State.testCtrl (s : State) (who : Who) (l w : Nat) : State :=
  let t := rejectIf (s.putFields who .SER_TEST 0 l w)
  let t := if t.laneInTest l then s.testChanged t l else t
  let t := if bit w 1 then t.clearPrbs l else t
  if bit w 0 then t.injectBit l else t

/-- A command of a command register (R446): zero requests nothing, a running command or an unknown code refuses it. -/
def State.command (s : State) (busy : Bool) (cmd top : Nat) (go : State → State) : State :=
  if cmd = 0 then s else if busy || decide (top < cmd) then s.raise .CFG_REJECT else go s

/-- COH_CMD (Table 10.12). -/
def State.cohCmd (s : State) (who : Who) (cmd m : Nat) : State :=
  match cmd with
  | 1 => s.declareDead (whoOwner who) m
  | 2 => s.cohFlush m
  | _ => s.cohRevive m

/-- CORRUPT (R146); refused on an unused port. -/
def State.corruptReq (s : State) (p : Nat) : State :=
  if s.portRole p = 0 then s.raise .CFG_REJECT else s.modLink p (fun l => { l with corrupt := true })

/-- GLB_DEVICE_RESET (Table 15.13). -/
def State.resetReq (s : State) (w : Nat) : State :=
  if !bit w 0 then s else if bits w 56 8 = 0x5A then s.deviceReset 2 else s.raise .CFG_REJECT

/-- The effect of a write that is performed on a register, by its requester. -/
def State.writeReg (s : State) (who : Who) (r : Reg) (i w : Nat) : State :=
  let (inst, k) := s.cellOf who r i
  let f : Fn := (whoFn who).getD (.pf 0)
  s.rejectOnce <|
  if s.unusedOut r i || s.ringOut who r i then (if w % 2 ^ 64 = 0 && r != .HIF_EQ_DB then s else s.raise .CFG_REJECT) else match r with
  | .GLB_UNIT_RESET => s.unitResets (w % 2 ^ 19)
  | .GLB_PORT_RESET => s.portResets (w % 2 ^ 64)
  | .GLB_DEVICE_RESET => s.resetReq w
  | .TRS_SLOT_CHECK => foldS (bitsSet 2 (w / 2 ^ 18)) s (fun s k => s.slotStart k)
  | .BEA_COMMIT_HOLD => s.commitHold (w % 2 ^ 17)
  | .BEA_COMMIT_AT => s.commitAt (w % 2 ^ 64)
  | .BEA_COMMIT_ARM => s.commitArm (bit w 63) (w % 2 ^ 17)
  | .SER_PORT_CTRL => s.portCtrl who i w
  | .SER_TEST => s.testCtrl who i w
  | .LNK_PORT_CTRL => if bit w 0 then s.corruptReq i else s
  | .MCT_TREE_CMD =>
    s.command (s.on F.MCT_TREE_RESULT.BUSY) (w % 16) 4 (fun s => s.treeCmd (whoFn who) (w % 16) (bits w 4 10) (bits w 16 16))
  | .HIF_QUEUE_CMD =>
    s.command (s.rdI F.HIF_QUEUE_RESULT.BUSY inst 0 == 1) (w % 16) 5 (fun s => s.queueCmd f (w % 16) (bits w 4 20))
  | .HIF_EQ_DB => s.eqDoor f i w
  | .RMA_REG_CMD =>
    s.command (s.rdI F.RMA_REG_RESULT.BUSY inst 0 == 1) (w % 16) 2
      (fun s => if w % 16 = 1 then s.regEnable f (bits w 8 24) else s.regDisable f (bits w 8 24))
  | .MAT_ML_CMD =>
    s.command (s.rdI F.MAT_ML_RESULT.BUSY inst 0 == 1) (w % 16) 2
      (fun s => if w % 16 = 1 then s.mlCreate f else s.mlDestroy f (bits w 16 12))
  | .COH_CMD => s.command (s.on F.COH_RESULT.BUSY) (w % 16) 3 (fun s => s.cohCmd who (w % 16) (bits w 8 6))
  | .PEG_FORCE =>
    s.command (match who with | .fn (.pf _) => false | _ => true) (w % 16) 15 (fun s => s.pegForce (fnPf f) (w % 16) (bits w 16 12))
  | .PEG_RELEASE => if bit w 0 then s.pegRelease f i else s
  | .PEG_WATCH =>
    let s := if bit w 0 then s.pegWatch f i else s
    if bit w 1 then s.pegCancel f i else s
  | .ECC_WIN => s.winWrite who i (w % 2 ^ 64)
  | .ECC_WIN_SEL => s.winSel (bits w 63 1) (bits w 59 3) (bits w 0 8)
  | .FLT_CTRL =>
    let s := rejectIf (s.putFields who r inst i w)
    if bit w 0 then s.spillKey (bits w 56 8) else s
  | .FLT_FORCE => s.force i (w % 2 ^ 64)
  | .FMN_MB_CTRL => if bit w 0 then s.mbxGo (Fin.ofNat 4 inst) else s
  | .FMN_REQ => if s.rdI F.FMN_MB_STATUS.BUSY inst 0 = 1 then s.raise .REG_ACCESS else rejectIf (s.putFields who r inst i w)
  | _ => rejectIf (s.putFields who r inst k w)

/-- A write of R388 while the device resets, to a block that is not served: POWER_DOWN set (R115, R418). No image is in force, and no
port is known to be unused before LOAD. -/
def State.resetWrite (s : State) (r : Reg) (i w : Nat) : State :=
  if r = .SER_PORT_CTRL ∧ bit w 8 then s.powerDown i else s

/-- A write in the Spillway (Table 13.6, R388): sticky bits clear, slots are freed, the mailbox is used, POWER_DOWN is set; SPILL with
another key is refused; a write that changes more of SER_PORT_CTRL is refused for it; all others are dropped. -/
def State.spillWrite (s : State) (who : Who) (r : Reg) (i w : Nat) : State :=
  match r with
  | .FLT_STICKY | .FLT_RICH_META | .FMN_MB_CTRL | .FMN_MB_STATUS | .FMN_REQ => s.writeReg who r i w
  | .FLT_CTRL => if bit w 0 then s.spillKey (bits w 56 8) else s
  | .SER_PORT_CTRL =>
    let rest := Reg.SER_PORT_CTRL.fields.any (fun d => d.acc == .RW && (d != F.SER_PORT_CTRL.POWER_DOWN || !bit w 8) &&
      bits w d.lo d.w != s.heldVal d (instOf who .SER_PORT_CTRL) i)
    let unused := s.portRole i == 0
    let s := if bit w 8 && !unused then s.powerDown i else s
    if rest || bit w 9 || (unused && w % 2 ^ 64 != 0) then s.raise .CFG_REJECT else s
  | _ => s

/-! ### Paths -/

/-- An access to a window of a block that is served now. -/
def State.blkServed (s : State) (blk : Nat) : Bool :=
  !s.spill && (!s.resetting || blk == 0 || blk == 13 || blk == 16 || decide (17 ≤ blk))

/-- The block that a place belongs to; MSI-X tables, pages and windows are HIF's. -/
def Loc.blk : Loc → Nat
  | .reg r _ => r.place.blk
  | .id b | .shadow b _ | .shadowId b | .hole b => b
  | .outside => 0
  | _ => 7

/-- An access to a place needs what is gated: the logic of its block, or the window cache, on which the commands of COH_CMD work
(Table 14.1, Table 10.12). -/
def State.locGated (s : State) (l : Loc) : Bool :=
  s.live && (s.gatedUnit (unitOfGroup l.blk) || (s.gatedEngines && match l with | .reg .COH_CMD _ => true | _ => false))

/-- An access by a function to a place waits for a wake: its attachment is in L1, or what it needs is gated (R393). -/
def State.sleeps (s : State) (f : Fn) (l : Loc) : Bool := s.linkAsleep f || s.locGated l

/-- A whole, aligned write to a register (R9, R418, R420, R448). A register that only functions reach is outside what the mailbox and a
remote manager reach, also in an absent block (DESIGN CHOICE, log entry 101: R448 before R9). -/
def State.regAccess (s : State) (who : Who) (r : Reg) (i w : Nat) : State :=
  let blk := r.place.blk
  if (whoFn who).isNone && r.fnOnly then (if s.blkServed blk then s.raise .REG_ACCESS else s)
  else if s.spill then s.spillWrite who r i w
  else if !s.blkServed blk then s.resetWrite r i w
  else if s.regAbsent r then s.raise .CFG_ABSENT
  else if s.unitBusy (unitOfGroup blk) then s.raise .REG_ACCESS
  else s.writeReg who r i w

/-- The mailbox and remote managers do not reach the block ID of a window that each function or PF has of its own (Table 17.2, R448). -/
def ownId (who : Who) (b : Nat) : Bool := (whoFn who).isNone && [7, 8, 9, 11, 16].contains b

/-- A write at a place of BAR0. -/
def State.locWrite (s : State) (who : Who) (l : Loc) (w : Nat) : State :=
  match l with
  | .reg r i => s.regAccess who r i w
  | .id b => if ownId who b then (if s.blkServed b then s.raise .REG_ACCESS else s) else if !s.blkServed b then s else if s.blockFitted b then s else s.raise .CFG_ABSENT
  | .shadow b _ => if s.blkServed b then s.raise .REG_ACCESS else s
  | .shadowId b => if s.blkServed b then s.raise .REG_ACCESS else s
  | .hole b => if s.blkServed b then s.raise .REG_ACCESS else s
  | _ => if s.blkServed 7 then s.raise .REG_ACCESS else s

/-- The registers whose writes R388 keeps available. -/
def Reg.r388 : Reg → Bool
  | .FLT_STICKY | .FLT_RICH_META | .FLT_CTRL | .FMN_MB_CTRL | .FMN_MB_STATUS | .FMN_REQ | .SER_PORT_CTRL => true
  | _ => false

/-- A read that R12 does not perform: narrow, or not aligned. A register that stays served logs it (R385). To a register of an absent
block both R12 and R9 apply, and the model logs REG_ACCESS alone (DESIGN CHOICE, log entry 101). -/
def State.locBad (s : State) (l : Loc) : State :=
  let served := match l with
    | .reg r _ => s.readable r
    | .id b => s.idServed b
    | .shadow _ (some (r, _)) => s.readable r
    | .shadow b none => s.blkServed b
    | .shadowId b => s.idServed b
    | .hole b => s.blkServed b
    | _ => s.blkServed 7
  if served then s.raise .REG_ACCESS else s

/-- A write that R12 does not perform. Where writes are dropped without a fault, one that is narrow is too (R385, R418). -/
def State.locBadWrite (s : State) (l : Loc) : State :=
  let served := match l with
    | .reg r _ => if s.spill then r.r388 else s.blkServed r.place.blk
    | .id b => s.blkServed b
    | .shadow b _ => s.blkServed b
    | .shadowId b => s.blkServed b
    | .hole b => s.blkServed b
    | _ => s.blkServed 7
  if served then s.raise .REG_ACCESS else s

/-- A write to a function's MSI-X table (R222, PCIe): 32-bit or 64-bit, aligned; unmasking sends what pends. In the Spillway writes to
BAR0 are dropped (Table 13.6). -/
def State.msixWrite (s : State) (f : Fn) (v o size w : Nat) : State :=
  if s.spill || !((size == 4 || size == 8) && o % size == 0) then s else
  let x := s.vec (fnInst f) v
  let b := putBytes (leBytes 8 x.1 ++ leBytes 4 x.2.1 ++ leBytes 4 (b2n x.2.2)) o (leBytes size w)
  let m := bit (leAt b 12 4) 0
  let s := s.modHif (fun h => { h with msix := tabPut h.msix (fnInst f * 2048 + v) (leAt b 0 8, leAt b 8 4, m) })
  if x.2.2 && !m then s.unmask f v else s

/-- BAR2 and BAR4 take part: the unit is enabled and the device runs (R418, Table 13.6). -/
def State.pagesOn (s : State) : Bool := s.live && s.en uHIF

/-- A write to a doorbell page (R222). -/
def State.pageWrite (s : State) (f : Fn) (n : Nat) (r : Option Reg) (w : Nat) : State :=
  match s.gOf f n with
  | none => s.raise .REG_ACCESS
  | some g =>
    if s.unitBusy uHIF then s.raise .REG_ACCESS else
    match r with
    | some .HIF_SQ_DB => s.door true f n w
    | some .HIF_CQ_DB => s.door false f n w
    | some .HIF_Q_CTRL => s.queueCtrl g (bit w 0)
    | _ => s

/-- Bytes written to a push window (R222, R244); they arrive with posted-request credit. -/
def State.windowWrite (s : State) (f : Fn) (n o : Nat) (b : Bytes) : State :=
  if !s.postedCredit || !s.pagesOn || s.unitBusy uHIF || (s.gOf f n).isNone then s else s.pushWrite f n o b

/-- Bytes that a function writes to a push window of its own. -/
def State.pushTo (s : State) (f : Fn) (n o : Nat) (b : Bytes) : State :=
  if !s.hostAnswers f || decide (128 ≤ o) || !s.postedCredit then s
  else if s.sleeps f (.push n o) then s.sleepOn (.push f n o b)
  else s.windowWrite f n o b

/-- A write of `size` bytes by a function to one of its BARs: a posted request, which arrives only with credit (R242; DEDUCED, log
entry 109); one to a gated block is performed after the wake (R393). -/
def State.fnWrite (s : State) (f : Fn) (bar : Bar) (a size w : Nat) : State :=
  if !s.hostAnswers f || !s.postedCredit then s
  else if s.sleeps f (s.fnLoc f bar a) then s.sleepOn (.write f bar a size w)
  else
    let whole := size == 8 && a % 8 == 0
    match s.fnLoc f bar a with
    | .push n o => s.windowWrite f n o (leBytes size w)
    | .page n r => if !s.live then s else if !whole then s.raise .REG_ACCESS else if s.pagesOn then s.pageWrite f n r w else s
    | .msix v o => s.msixWrite f v o size w
    | .pba _ => s
    | l => if whole then s.locWrite (.fn f) l w else s.locBadWrite l

/-- A whole register write through the mailbox or a management packet (R182, R448). -/
def State.sharedWrite (s : State) (who : Who) (a w : Nat) : State :=
  let l := pfLoc a
  let l := match l with | .msix _ _ => .hole 17 | .pba _ => .hole 17 | x => x
  if a % 8 = 0 then s.locWrite who l w else s.locBadWrite l

/-- A write by any requester: a function to BAR0 of its own, the others by BAR0 offset. -/
def State.busWrite (s : State) (who : Who) (a w : Nat) : State :=
  match who with
  | .fn f => s.fnWrite f .bar0 a 8 w
  | _ => s.sharedWrite who a w

/-- The BAR0 offset of an instance of a register, as a PF addresses it; a VF's views lie elsewhere (Table 17.2). -/
def regOffset (who : Who) (r : Reg) (i : Nat) : Nat :=
  let p := r.place
  let win := match who with
    | .fn (.vf _ _) => [7, 8, 9, 11].findIdx (· == p.blk)
    | _ => p.blk
  win * 0x100000 + p.off + p.stride * i

/-- A register command of the table: the write of one register by its requester. -/
def State.regCmd (s : State) (who : Who) (r : Reg) (i w : Nat) : State := s.busWrite who (regOffset who r i) w

/-- A read of a block ID (R8, R9, R448). -/
def State.idRead (s : State) (who : Who) (b : Nat) : Nat × State :=
  if ownId who b then (0, if s.idServed b then s.raise .REG_ACCESS else s)
  else (if s.idServed b && s.blockFitted b then blockId b else 0, s)

/-- A read through the mailbox or a management packet (R46, R418, R444, R448), at a phase of the Beat. -/
def State.sharedRead (s : State) (who : Who) (a cycle sub : Nat) : Nat × State :=
  if a % 8 ≠ 0 then (0, s.locBad (pfLoc a)) else
  match pfLoc a with
  | .reg r i =>
    if r.fnOnly then (0, if s.readable r then s.raise .REG_ACCESS else s)
    else if !s.readable r || s.regAbsent r then (0, s)
    else
      match r with
      | .BEA_COUNT => (s.regWord who r i, s.capturePhase who cycle sub)
      | .ECC_WIN => s.winRead who i
      | _ =>
        match tableObj r i with
        | some o => if s.ecc.words.isEmpty then (s.regWord who r i, s) else (if s.eccLost o then 0 else s.regWord who r i, s.reads o)
        | none => (s.regWord who r i, s)
  | .shadow _ (some (r, i)) =>
    if r.fnOnly then (0, if s.readable r then s.raise .REG_ACCESS else s)
    else if !s.readable r || s.regAbsent r then (0, s) else (s.shadowWord who r i, s)
  | .shadow _ none => (0, s)
  | .shadowId b => s.idRead who b
  | .id b => s.idRead who b
  | .hole b => (0, if s.blkServed b then s.raise .REG_ACCESS else s)
  | _ => (0, if s.blkServed 17 then s.raise .REG_ACCESS else s)

end Sys2Proof.Machine
end

