-- ==== Sys2Proof/Machine/Mailbox.lean ====
section
/-! DEFINITION. The Foreman mailbox (15_reset_and_bringup.md, Tables 15.9 and 15.9a): what each request does and answers, and
the MCTP control commands (R423). -/

namespace Sys2Proof.Machine

/-- STATUS codes of Table 15.9a. -/
abbrev mbOk : Nat := 0
abbrev mbBadCmd : Nat := 1
abbrev mbBadArg : Nat := 2
abbrev mbRefused : Nat := 3
abbrev mbBusy : Nat := 4
abbrev mbNot : Nat := 5
abbrev mbFlash : Nat := 6

/-- The payload lengths that a command takes (Table 15.9): least and most; none for an unknown command. -/
def mbLens : Nat → Option (Nat × Nat)
  | 0x01 => some (0, 0)
  | 0x02 => some (12, 12)
  | 0x03 => some (16, 16)
  | 0x04 => some (0, 0)
  | 0x05 => some (0, 0)
  | 0x06 => some (1, 1)
  | 0x07 => some (8, 8)
  | 0x08 => some (8, 8)
  | 0x09 => some (9, 9)
  | 0x0A => some (0, 0)
  | 0x10 => some (8, 8)
  | 0x11 => some (4, 4)
  | 0x12 => some (5, 1004)
  | 0x13 => some (1, 1)
  | 0x18 => some (5, 5)
  | 0x19 => some (5, 1004)
  | 0x1A => some (0, 0)
  | 0x20 => some (49, 49)
  | 0x21 => some (1, 1)
  | 0x22 => some (1, 1)
  | 0x28 => some (2, 2)
  | 0x29 => some (2, 2)
  | 0x2A => some (1, 1)
  | _ => none

/-- Commands marked "no" in the Host column, and "no" in the Spillway column (Table 15.9). -/
def mbNoHost (cmd : Nat) : Bool := [0x20, 0x21, 0x22, 0x2A].contains cmd
def mbNoSpill (cmd : Nat) : Bool := [0x0A, 0x18, 0x19, 0x1A, 0x20, 0x21, 0x22, 0x28, 0x29, 0x2A].contains cmd

/-- The Foreman runs in RECOVERY (R412). -/
def State.recovery (s : State) : Bool := s.rd F.FMN_INFO.STATE == fmRecovery

/-- The header of a request breaks Table 15.9a, or its payload has another length than its command takes. -/
def mbHeaderBad (m : Bytes) (lens : Nat × Nat) : Bool :=
  let n := m.length - 8
  leAt m 4 1 != 0 || leAt m 5 1 != 0 || bit (leAt m 1 1) 0 || decide (4 ≤ leAt m 1 1) || leAt m 6 2 != n || decide (1016 < n) ||
  decide (n < lens.1) || decide (lens.2 < n)

/-- An access of the mailbox that reaches the collector is checked (R387). -/
def State.fltMet (s : State) (h : Held) (a n : Nat) : State :=
  if !h.blown && (List.range n).any (fun k => (a + 8 * k) / 0x100000 == 13) then s.raise .FLT_SELF else s

/-- The values of registers, as a payload. -/
def State.mbWords (s : State) (l : List (Reg × Nat)) : Bytes := l.flatMap (fun e => leBytes 8 (s.regWord .mailbox e.1 e.2))

/-- REG_READ of `n` registers from an offset; the phase of the Beat at which the Foreman reads is open. -/
def State.mbRead (s : State) (a : Nat) : Nat → Bytes × State
  | 0 => ([], s)
  | n + 1 =>
    let (c, s) := s.pick 16384
    let (u, s) := s.pick 16
    let (v, s) := s.sharedRead .mailbox a c u
    let (b, s) := State.mbRead s (a + 8) n
    (leBytes 8 v ++ b, s)

/-- The value in effect at an offset, read without any effect. -/
def State.valueAt (s : State) (a : Nat) : Nat :=
  match pfLoc a with
  | .reg r i => if r.fnOnly || !s.readable r || s.regAbsent r || a % 8 != 0 then 0 else s.regWord .mailbox r i
  | .id b => if s.blkServed b && s.blockFitted b && a % 8 == 0 && !ownId .mailbox b then blockId b else 0
  | _ => 0

/-- A write that R388 keeps available, judged by where it goes: all that RECOVERY serves of REG_WRITE (R412). -/
def r388 (a : Nat) : Bool :=
  match pfLoc a with
  | .reg r _ => r.r388 && !r.fnOnly
  | _ => false

def State.mbRegWrite (s : State) (h : Held) (a v : Nat) : State :=
  if s.recovery && !s.spill && !r388 a then s.mbxAnswer h mbNot []
  else
    let s := (s.fltMet h a 1).sharedWrite .mailbox a v
    s.mbxAnswer h mbOk (leBytes 8 (s.valueAt a))

/-- SPILL (R389). -/
def State.mbSpill (s : State) (h : Held) (key : Nat) : State :=
  (s.spillKey key).mbxAnswer h (if key = 0xA5 then mbOk else mbBadArg) []

/-- UNIT_RESET (R420, R422): answered when its units have been reset, or when the reset that absorbs it reaches RUNNING. A bit
that REQUEST has not or refuses (Table 15.11) is an invalid argument. -/
def State.mbUnitReset (s : State) (h : Held) (m : Nat) : State :=
  if 2 ^ 19 ≤ m ∨ bit m 0 ∨ bit m 2 ∨ bit m 15 then s.mbxAnswer h mbBadArg [] else
  let s := s.unitResets m
  if s.resetting && !s.spill then s.modBoot (fun b => { b with absorbed := b.absorbed ++ [h] })
  else s.modBoot (fun b => { b with unitWait := b.unitWait ++ [(h, m)] })

/-- PORT_RESET (R421, R422). -/
def State.mbPortReset (s : State) (h : Held) (m : Nat) : State :=
  let s := s.portResets m
  if s.resetting && !s.spill then s.modBoot (fun b => { b with absorbed := b.absorbed ++ [h] }) else s.mbxAnswer h mbOk []

/-- LANE_POWER (R115, R388): down in every state; up where the device runs. -/
def State.mbLanePower (s : State) (h : Held) (m down : Nat) : State :=
  if 1 < down then s.mbxAnswer h mbBadArg []
  else if down = 1 then
    (foldS ((bitsSet 64 m).filter (fun p => s.resetting || s.portRole p != 0)) s (fun s p => s.powerDown p)).mbxAnswer h mbOk []
  else if s.spill || s.recovery then s.mbxAnswer h mbNot []
  else if s.resetting then s.mbxAnswer h mbOk []
  else (foldS ((bitsSet 64 m).filter (fun p => s.portRole p != 0)) s (fun s p => s.powerUp p)).mbxAnswer h mbOk []

/-! ### Flash and fuses -/

/-- A flash byte whose mailbox write Table 15.3 refuses. -/
def State.flashRefused (s : State) (a : Nat) : Bool :=
  let run := s.rd F.FMN_INFO.STATE == fmRunning
  let k := s.rd F.GLB_BOOT_STATUS.FW_SLOT
  (run && k == 0 && decide (a < 0x200000)) || (run && k == 1 && decide (0x200000 ≤ a) && decide (a < 0x400000)) || decide (0x600000 ≤ a)

/-- FLASH_READ. -/
def State.mbFlashRead (s : State) (h : Held) (a n : Nat) : State :=
  if n = 0 ∨ 1008 < n ∨ 0x800000 < a + n then s.mbxAnswer h mbBadArg [] else s.mbxAnswer h mbOk (s.flashRead a n)

/-- FLASH_ERASE: the block is erased at FLASH_ERASE_DONE. -/
def State.mbFlashErase (s : State) (h : Held) (a : Nat) : State :=
  if a % 65536 ≠ 0 ∨ 0x800000 ≤ a then s.mbxAnswer h mbBadArg []
  else if s.flashRefused a then s.mbxAnswer h mbRefused []
  else s.modBoot (fun b => { b with flashBusy := some h })

/-- FLASH_ERASE_DONE: the erased block reads all ones (JEDEC NOR flash), and the request is answered. -/
def State.eraseDone (s : State) : State :=
  match s.boot.flashBusy with
  | none => s
  | some h =>
    let a := leAt h.msg 8 4
    let s := s.modTrs (fun t => { t with flash := t.flash.filter (fun e => decide (e.1 < a) || decide (a + 65536 ≤ e.1)) })
    (s.modBoot (fun b => { b with flashBusy := none })).mbxAnswer h mbOk []

/-- Program bytes: a byte whose erased bits suffice takes the data; what the others hold is open. -/
def State.flashProgram (s : State) (a : Nat) : Bytes → State
  | [] => s
  | v :: r =>
    let old := s.flashByte a
    if old &&& v = v then State.flashProgram (s.flashPut a [v]) (a + 1) r
    else
      let (x, s) := s.pick 256
      State.flashProgram (s.flashPut a [BitVec.ofNat 8 x]) (a + 1) r

/-- FLASH_WRITE. -/
def State.mbFlashWrite (s : State) (h : Held) (a : Nat) (d : Bytes) : State :=
  if 0x800000 < a + d.length then s.mbxAnswer h mbBadArg []
  else if s.flashRefused a || s.flashRefused (a + d.length - 1) then s.mbxAnswer h mbRefused []
  else (s.flashProgram a d).mbxAnswer h mbOk []

/-- SLOT_CHECK: the number of the check that fails, 0 for a pass; nothing is applied and no fault raised (R74). -/
def State.mbSlotCheck (s : State) (h : Held) (k : Nat) : State :=
  if 1 < k then s.mbxAnswer h mbBadArg []
  else
    let n := match (checkImage (s.chkEnv 1048576) false (s.slotBytes k)).1 with
      | .ok _ => 0
      | .error e => e.check
    s.mbxAnswer h mbOk (leBytes 1 n)

/-- FUSE_KEY (R70): a slot takes its hash once; fuses that read back wrong hold an open value. -/
def State.mbFuseKey (s : State) (h : Held) (k : Nat) (hash : Bytes) : State :=
  if 3 < k then s.mbxAnswer h mbBadArg []
  else match tabGet s.trs.keys k with
    | some x => if x.hash = hash then s.mbxAnswer h mbOk [] else s.mbxAnswer h mbFlash []
    | none =>
      if h.blown then (s.modTrs (fun t => { t with keys := tabPut t.keys k ⟨hash, false⟩ })).mbxAnswer h mbOk []
      else
        let (x, s) := s.pick (2 ^ 384)
        (s.modTrs (fun t => { t with keys := tabPut t.keys k ⟨leBytes 48 x, false⟩ })).mbxAnswer h mbFlash []

/-- FUSE_REVOKE (R71). A blank slot that is revoked reads as PROGRAMMED and takes no key afterwards (DESIGN CHOICE, log entry 118). -/
def State.mbFuseRevoke (s : State) (h : Held) (k : Nat) : State :=
  if 3 < k then s.mbxAnswer h mbBadArg []
  else if s.trs.img.any (fun i => i.keySlot == k) then s.mbxAnswer h mbRefused []
  else if h.blown then
    (s.modTrs (fun t => { t with keys := tabPut t.keys k ⟨(tabGetD t.keys k ⟨[], false⟩).hash, true⟩ })).mbxAnswer h mbOk []
  else s.mbxAnswer h mbFlash []

/-- FUSE_FLOOR (R71, R413). -/
def State.mbFuseFloor (s : State) (h : Held) (v : Nat) : State :=
  if 64 < v ∨ v < s.trs.floor then s.mbxAnswer h mbBadArg []
  else if s.trs.img.any (fun i => decide (i.sec < v)) || s.fwSec.any (fun k => decide (k < v)) then s.mbxAnswer h mbRefused []
  else if h.blown then (s.modTrs (fun t => { t with floor := v })).mbxAnswer h mbOk []
  else
    let (x, s) := s.pick 65
    (s.modTrs (fun t => { t with floor := max t.floor x })).mbxAnswer h mbFlash []

/-! ### Push -/

/-- PUSH_BEGIN (R425, R75, Table 2.22); no image has the length 0 or one above 1 MiB (Table 2.1). -/
def State.mbPushBegin (s : State) (h : Held) (kind len : Nat) : State :=
  if 1 < kind ∨ len = 0 ∨ 1048576 < len then s.mbxAnswer h mbBadArg []
  else if s.trs.push.isSome then s.mbxAnswer h mbBusy []
  else if s.on F.TRS_STATUS.PUSH_CLOSED ∨ (kind = 1 ∧ s.rd F.TRS_HOT_STATUS.STATE = 1) then (s.raise .TRS_BUSY).mbxAnswer h mbBusy []
  else (s.modTrs (fun t => { t with push := some ⟨kind == 1, len, []⟩ })).mbxAnswer h mbOk []

/-- PUSH_DATA: ascending, contiguous offsets (R425). -/
def State.mbPushData (s : State) (h : Held) (off : Nat) (d : Bytes) : State :=
  match s.trs.push with
  | none => s.mbxAnswer h mbBadArg []
  | some p =>
    if off ≠ p.data.length ∨ p.len < off + d.length then s.mbxAnswer h mbBadArg []
    else (s.modTrs (fun t => { t with push := some { p with data := p.data ++ d } })).mbxAnswer h mbOk []

/-- A pushed image fails a check (R74, R75, R425). -/
def State.pushFail (s : State) (h : Held) (org : Nat) (b : Bytes) (e : Reject) : State :=
  let s := s.reject org b e
  let s := if e.check = 4 ∨ e.check = 5 then s.wr F.TRS_STATUS.PUSH_CLOSED 1 else s
  s.mbxAnswer h mbOk (leBytes 1 e.check)

/-- NOW (R425, R422): a device reset at once; while one is in progress, once that reaches RUNNING, unless its LOAD still uses
the image. -/
def State.pushNow (s : State) : State :=
  if s.phase = phRunning then s.post .deviceReset
  else if s.phase = phLoad then s.modBoot (fun b => { b with nowPending := true })
  else s

/-- PUSH_END (R425, R49, R76). -/
def State.mbPushEnd (s : State) (h : Held) (now : Bool) : State :=
  match s.trs.push with
  | none => s.mbxAnswer h mbBadArg []
  | some p =>
    if p.data.length ≠ p.len then s.mbxAnswer h mbBadArg []
    else
      let s := s.modTrs (fun t => { t with push := none })
      if p.hot then
        match checkImage (s.chkEnv p.data.length) true p.data with
        | (.error e, n) => (s.skips n).pushFail h orgHot p.data e
        | (.ok i, n) =>
          (((s.skips n).wr F.TRS_HOT_STATUS.STATE 1).modTrs (fun t => { t with staged := some i })).mbxAnswer h mbOk [0]
      else
        match checkHead (s.chkEnv p.data.length) p.data with
        | some e => s.pushFail h orgFull p.data e
        | none =>
          let s := (s.modTrs (fun t => { t with pushed := some p.data })).mbxAnswer h mbOk [0]
          if now then s.pushNow else s

/-! ### One request -/

/-- What a request whose header and state are right does (Table 15.9). -/
def State.mbDo (s : State) (h : Held) (cmd : Nat) (b : Bytes) : State :=
  match cmd with
  | 0x01 => s.mbxAnswer h mbOk (s.mbWords [(.GLB_IDENT, 0), (.GLB_FITTED, 0), (.GLB_BOOT_STATUS, 0)] ++ leBytes 8 (s.word .FMN_INFO 0 0))
  | 0x02 =>
    let n := leAt b 8 4
    if n = 0 ∨ 16 < n ∨ 0x4000000 < leAt b 0 8 + 8 * n then s.mbxAnswer h mbBadArg []
    else
      let (x, s) := (s.fltMet h (leAt b 0 8) n).mbRead (leAt b 0 8) n
      s.mbxAnswer h mbOk x
  | 0x03 => if 0x4000000 ≤ leAt b 0 8 then s.mbxAnswer h mbBadArg [] else s.mbRegWrite h (leAt b 0 8) (leAt b 8 8)
  | 0x04 => s.mbxAnswer h mbOk (s.mbWords [(.PWR_POWER, 0), (.PWR_TEMP, 0), (.PWR_STATE, 0), (.PWR_AVS, 0), (.PWR_AVS, 1), (.PWR_AVS, 2), (.PWR_AVS, 3)])
  | 0x05 =>
    let (c, s) := s.pick 16384
    let (u, s) := s.pick 16
    let s := s.capturePhase .mailbox c u
    s.mbxAnswer h mbOk (s.mbWords [(.BEA_COUNT, 0), (.BEA_PHASE, 0), (.BEA_STATUS, 0)])
  | 0x06 => s.mbSpill h (leAt b 0 1)
  | 0x07 => s.mbUnitReset h (leAt b 0 8)
  | 0x08 => s.mbPortReset h (leAt b 0 8)
  | 0x09 => s.mbLanePower h (leAt b 0 8) (leAt b 8 1)
  | 0x0A => (s.mbxAnswer h mbOk []).deviceReset 3
  | 0x10 => s.mbFlashRead h (leAt b 0 4) (leAt b 4 4)
  | 0x11 => s.mbFlashErase h (leAt b 0 4)
  | 0x12 => s.mbFlashWrite h (leAt b 0 4) (b.drop 4)
  | 0x13 => s.mbSlotCheck h (leAt b 0 1)
  | 0x18 => s.mbPushBegin h (leAt b 0 1) (leAt b 1 4)
  | 0x19 => s.mbPushData h (leAt b 0 4) (b.drop 4)
  | 0x1A => s.mbPushEnd h (bit (leAt h.msg 1 1) 1)
  | 0x20 => s.mbFuseKey h (leAt b 0 1) (b.drop 1)
  | 0x21 => s.mbFuseRevoke h (leAt b 0 1)
  | 0x22 => s.mbFuseFloor h (leAt b 0 1)
  | 0x28 =>
    if 4096 ≤ leAt b 0 2 then s.mbxAnswer h mbBadArg []
    else
      let (w, s) := s.pegTryBy 0x1000 (leAt b 0 2)
      s.mbxAnswer h mbOk (leBytes 8 w)
  | 0x29 => if 4096 ≤ leAt b 0 2 then s.mbxAnswer h mbBadArg [] else (s.pegReleaseBy 0x1000 (leAt b 0 2)).mbxAnswer h mbOk []
  | _ =>
    if 16 ≤ leAt b 0 1 then s.mbxAnswer h mbBadArg []
    else (s.regAccess .mailbox .PEG_SUPERVISOR 0 (leAt b 0 1)).mbxAnswer h mbOk []

/-- Execute a request (R424): an unknown command, a bad header, a command that its path or the device's state does not allow,
then the command. -/
def State.mbExec (s : State) (h : Held) : State :=
  let cmd := leAt h.msg 0 1
  match mbLens cmd with
  | none => s.mbxAnswer h mbBadCmd []
  | some lens =>
    if mbHeaderBad h.msg lens || (bit (leAt h.msg 1 1) 1 && cmd != 0x1A) then s.mbxAnswer h mbBadArg []
    else if mbNoHost cmd && (match h.who with | .window _ => true | _ => false) then s.mbxAnswer h mbRefused []
    else if mbNoSpill cmd && (s.spill || s.recovery) then s.mbxAnswer h mbNot []
    else s.mbDo h cmd (h.msg.drop 8)

/-- The Foreman serves requests (R414, R412). -/
def State.fmnServes (s : State) : Bool :=
  let st := s.rd F.FMN_INFO.STATE
  s.pins.pwrok && (st == fmRunning || st == fmRecovery) && s.boot.flashBusy.isNone

/-- The oldest request that waits is a REG_READ or REG_WRITE that needs what is gated: it completes after the wake (R393). -/
def State.mbAsleep (s : State) : Bool :=
  match s.boot.held with
  | [] => false
  | h :: _ =>
    let a := leAt h.msg 8 8
    (leAt h.msg 0 1 == 2 && (List.range (min 16 (leAt h.msg 16 4))).any (fun k => s.locGated (pfLoc (a + 8 * k)))) ||
      (leAt h.msg 0 1 == 3 && s.locGated (pfLoc a))

/-- The oldest request that waits can be executed. -/
def State.mbReady (s : State) : Bool := s.fmnServes && !s.boot.held.isEmpty && !s.mbAsleep

/-- Execute the oldest request that waits. -/
def State.mbNext (s : State) : State :=
  match s.boot.held with
  | [] => s
  | h :: r => if s.fmnServes && !s.mbAsleep then (s.modBoot (fun b => { b with held := r })).mbExec h else s

/-- Answer the UNIT_RESETs whose units have been reset (R420), and what a reset absorbed once RUNNING is reached (R422); in
the Spillway, where no reset goes on, at once (R386). -/
def State.mbWaits (s : State) : State :=
  if !s.fmnServes then s else
  let busy := s.rd F.GLB_UNIT_RESET.BUSY
  let done := s.boot.unitWait.filter (fun w => w.2 &&& busy == 0)
  let s := s.modBoot (fun b => { b with unitWait := b.unitWait.filter (fun w => !(w.2 &&& busy == 0)) })
  let s := foldS done s (fun s w => s.mbxAnswer w.1 mbOk [])
  if s.phase = phRunning ∨ s.spill then
    let hs := s.boot.absorbed
    foldS hs (s.modBoot (fun b => { b with absorbed := [] })) (fun s h => s.mbxAnswer h mbOk [])
  else s

/-! ### MCTP control (R423, DSP0236) -/

/-- The endpoint answers over the sideband: PWROK is high and the Foreman's firmware, or the ROM in RECOVERY, runs. -/
def State.mctpOn (s : State) : Bool :=
  let st := s.rd F.FMN_INFO.STATE
  s.pins.pwrok && (st == fmRunning || st == fmRecovery)

/-- Completion codes of MCTP control messages: success, invalid data. -/
abbrev ccOk' : Nat := 0
abbrev ccInvalid : Nat := 2

def State.mctp (s : State) (dst cc : Nat) (data : List Nat) : State := if s.mctpOn then s.emit (.mctpResp dst cc data) else s

/-- Set Endpoint ID: 0 and 0xFF assign nothing. The byte after the completion code says that the assignment was accepted. -/
def State.setEid (s : State) (src eid : Nat) : State :=
  if !s.mctpOn then s
  else if eid = 0 ∨ 255 ≤ eid then s.mctp src ccInvalid []
  else (s.wrFmn F.FMN_INFO.EID eid).mctp src ccOk' [0, eid, 0]

def State.getEid (s : State) (src : Nat) : State := s.mctp src ccOk' [s.rd F.FMN_INFO.EID, 0, 0]

/-- Get MCTP Version Support: the versions are not in the spec, so they are open. -/
def State.mctpVersions (s : State) (src : Nat) : State :=
  if !s.mctpOn then s else
  let (n, s) := s.pick 256
  let (v, s) := s.pick (2 ^ (32 * n))
  s.mctp src ccOk' (n :: (leBytes (4 * n) v).map (fun b => b.toNat))

/-- Get Message Type Support: Alorex messages are of type 0x7F. -/
def State.mctpTypes (s : State) (src : Nat) : State := s.mctp src ccOk' [1, 0x7F]

/-- Get Vendor Defined Message Support: selector 0 is the one vendor set; its command set type is not in the spec. -/
def State.mctpVendor (s : State) (src sel : Nat) : State :=
  if !s.mctpOn then s
  else if sel ≠ 0 then s.mctp src ccInvalid []
  else
    let (v, s) := s.pick 65536
    s.mctp src ccOk' [0xFF, 1, 0x00, 0xF1, 0xA0, 0xA1, v / 256, v % 256]

end Sys2Proof.Machine
end

