-- ==== Sys2Proof/Machine/Settle.lean ====
section
/-! DEFINITION. What one unit hands to another within a command: occurrences and their actions (13_faults_and_spillway.md),
packets at their units, contexts that arrive, and the work that goes on until nothing is left to do. -/

namespace Sys2Proof.Machine

/-! ### Entry of the Spillway -/

/-- The reads of the host that wait, once answered, are gone (log entry 41). -/
def State.dropReads (s : State) : State :=
  let s := s.modHif (fun h => { h with status := [] })
  let s := (s.modCoh (fun c => { c with wait := [] })).modPwr (fun p => { p with waits := [] })
  { s with peg := s.peg.map (fun e => (e.1, { e.2 with waiters := e.2.waiters.filter (fun w => !w.2) })) }

/-- The Spillway's work (Table 13.5): every port leaves by an orderly fence for OFF, each attachment that is up sends its
AER message, the Foreman records FLT_SELF, the core supplies take their safe voltage. -/
def State.spillway (s : State) : State :=
  let s := foldS s.peg s (fun s e => foldS (e.2.waiters.filter (fun w => w.2)) s (fun s w => s.emit (.pegValue w.1 (s.pegLocal w.1 e.1) 0)))
  let s := s.endReads.dropReads
  let s := foldS (List.range 64) s (fun s p => s.lanesOff p fnSpillway)
  let s := foldS ([0, 1, 2, 3].filter (fun a => s.pfExists a && s.linkUpPf a)) s (fun s a => s.emit (.aer a))
  let s := if s.on F.FLT_STATUS.SELF then
      s.modBoot (fun b => { b with foremanLog := b.foremanLog ++ [256 + s.rd F.FLT_STATUS.SPILL_SOURCE] }) else s
  s.avsSend

/-! ### Contain (Table 13.2) -/

/-- Contain of a queue number: its queue enters ERROR; where no queue is there, its CQ overflows. -/
def State.containQueue (s : State) (g : Nat) : State :=
  if s.q g Q.STATE = qFree then
    (if s.q g Q.CQ_STATE = cqReady ∨ s.q g Q.CQ_STATE = cqFull then s.cqOverflow g else s)
  else s.queueError g erTransport (s.q g Q.TAKEN)

/-- The action of a scope on an instance: 1 lane, 2 port, 3 chiplet, 4 queue, 5 ML, 6 engine, 7 image, 8 unit. The image of a forced
Truss fault is the full image that a push holds (R79, R381); a pending hot image leaves the store only as Table 2.22 gives (R78). -/
def State.contain (s : State) (scope i : Nat) : State :=
  match scope with
  | 1 => if i < 128 then s.wr F.SER_LANE_STATUS.FAILED 1 i else s
  | 2 => if i < 64 then s.containPort i else s
  | 3 => if i < 4 then foldS ((List.range 16).map (fun k => 16 * i + k)) s (fun s p => s.containPort p) else s
  | 4 => s.containQueue i
  | 5 => s.mlBreak i
  | 6 => if i < 256 then s.engineDown i else s
  | 7 => if i = orgFull then s.modTrs (fun t => { t with pushed := none, cand := none }) else s
  | 8 => s.containUnit i
  | _ => s

/-! ### Packets at their units -/

/-- The region that a request of remote memory access names. -/
def pkRegion (b : Bytes) : Nat := pkKey b / 256

/-- A request whose region's descriptor is being fetched again waits (Table 12.3). -/
def State.refetching (s : State) (b : Bytes) : Bool :=
  (pkKind b == 0x10 || pkKind b == 0x12 || pkKind b == 0x13) && s.ecc.refetch.contains (pkRegion b)

/-- The page entries that a message's ML needs for its own regions (R260), where the message passes the ledger check and may match. -/
def State.messagePages (s : State) (b : Bytes) : List (Nat × Nat) :=
  let c := s.c (pkDq b)
  if matBad b || !s.passes4 b || !c.isNew (diff24 (pkPsn b) (c.f Q.CUM_PSN)) || !bit (c.f Q.RIGHTS) 3 then []
  else match s.ml (c.f Q.ML % 4096) with
    | some m => if m.broken then [] else s.mlPages m
    | none => []

/-- The page entries for which a request or message waits at ejection (R260). -/
def State.heldPages (s : State) (b : Bytes) : List (Nat × Nat) :=
  if 0x40 ≤ pkKind b ∧ pkKind b ≤ 0x42 then s.messagePages b else s.packetPages b

/-- A packet waits for page entries that are being read. -/
def State.pageWaits (s : State) (b : Bytes) : Bool :=
  s.hif.reads.any (fun r => match r.job with | .page _ _ => true | _ => false) && !(s.heldPages b).isEmpty &&
    (s.heldPages b).all s.pageAsked

/-- A request or message at its target: its context and its region are read. A region that is found uncorrectable is fetched again, and
the packet waits for that at ejection (Table 12.3); so it does for page entries that the region cache does not hold (R260). -/
def State.request (s : State) (b : Bytes) : State :=
  let s := s.reads (.ctx (pkDq b))
  let k := pkKind b
  let wait (s : State) : State := s.modRte (fun r => { r with ejected := b :: r.ejected })
  if !(s.heldPages b).isEmpty then wait (s.pagesAsk (s.heldPages b))
  else if 0x40 ≤ k ∧ k ≤ 0x42 then s.onMessage b
  else
    let t := if k = 0x11 then s else s.reads (.region (pkRegion b))
    let t := if k = 0x13 then t.engineReads 3 else t
    if t.refetching b then wait t
    else (t.rmaPacket b (fun s => s.onRequest s.cohAddr b)).agentKick

/-- The unit that consumes an ejected packet of a KIND; a landing of MC_PUT is HIF's. -/
def kindUnit (k : Nat) : Nat :=
  if 0x10 ≤ k ∧ k < 0x40 then uRMA else if 0x40 ≤ k ∧ k < 0x60 then uMAT else if 0x60 ≤ k ∧ k < 0x80 then uCOH
  else if k = 0x80 then uHIF else uRTE

/-- A packet of a KIND is consumed by a Joiner engine, or in the window cache: ATOMIC_REQ, messages, Confluence packets, and what
coherence sends to an agent. -/
def kindEngine (k : Nat) : Bool :=
  k == 0x13 || (decide (0x40 ≤ k) && decide (k < 0x60)) || (decide (0x81 ≤ k) && decide (k < 0xA0)) ||
    [0x68, 0x69, 0x6A, 0x70, 0x71, 0x72, 0x76, 0x77, 0x78, 0x79].contains k

/-- What consumes a packet of a KIND is gated (Table 14.1). -/
def State.gatedKind (s : State) (k : Nat) : Bool := s.gatedUnit (kindUnit k) || (s.gatedEngines && kindEngine k)

/-- A unit takes the oldest ejected packet of a KIND that can be handled now: while what consumes it is gated the packet waits and
starts the wake (R393, Table 14.2). -/
def State.unitPacket (s : State) (u k : Nat) (f : State → Bytes → State) : State :=
  if s.gatedUnit u || s.gatedKind k then (if s.rte.ejected.any (fun b => pkKind b == k) then s.wake none else s)
  else match s.take (fun b => pkKind b == k && !s.refetching b && !s.pageWaits b && !s.holdWaits b) with
    | none => s
    | some (b, s) => f s b

/-- Work of a Joiner engine (R391): power-gated, it waits for the wake; a clock-gated bay goes on at once. -/
def State.onEngine (s : State) (e : Nat) (f : State → State) : State :=
  if s.gatedEngines then s.wake none else f ((s.wake (some (e / 16))).reads (.engine e))

/-- What waits for a context goes on (R228): status reads, queue commands, parked headers. -/
def State.ctxReady (s : State) (g : Nat) : State :=
  let s := s.answerStatus g
  let ks := s.hif.cmds.filter (fun k => k.g == g && !k.desc)
  let s := foldS ks s (fun s k => s.qcmdGo k)
  let hs := s.rma.parked.filter (fun e => e.1 == g)
  let s := s.modRma (fun r => { r with parked := r.parked.filter (fun e => e.1 != g) })
  let s := s.wr F.RMA_STATUS.MISS_OCC s.rma.parked.length
  foldS hs s (fun s e => s.request e.2)

/-- One piece of work. In the Spillway no queue works (Table 13.5); what notifies is the Halt's own occurrence, in its cycle (R373),
for the others of it and those after it notify no one (R378). -/
def State.act (s : State) : Act → State
  | .occ o => s.raiseOcc o
  | .contain scope i _ => s.contain scope i
  | .notify pf det i => s.eventIf true (.pf (Fin.ofNat 4 pf)) (s.rdI F.FLT_NOTIFY.EQ pf 0) 0x20 det 0 i
  | .spillway => s.spillway
  | .deviceReset => s.deviceReset 4
  | .portDead p => (s.routerDead p).beaPortDown p
  | .linkUp p => s.routerUp p
  | .credit p b => s.creditMsg p 16 b
  | .laneMgmt p b => s.laneMgmtMsg p b
  | .xchg p resp m t => if resp then s.xchgResponse p m t else s.xchgRequest p m t
  | .run g => if s.spill then s else s.run g
  | .queueError g => (s.connLost g).matQueueGone g true
  | .queueFreed g => ((s.rmaFreed g).matQueueGone g false).mctQueueGone g
  | .ctxReady g => if s.spill then s else s.ctxReady g
  | .rdvAnswer id => (s.rdvReads id).rdvAnswer id

/-- The occurrences among pieces of work, and the others. -/
def occsOf (as : List Act) : List Occ := as.filterMap (fun a => match a with | .occ o => some o | _ => none)
def othersOf (as : List Act) : List Act := as.filter (fun a => match a with | .occ _ => false | _ => true)

/-- One round: the occurrences in source order (R378), then the other work in the order in which it was handed over; the work
that the collector hands on comes in the next round, the Spillway's own at once. -/
def State.round (s : State) : State :=
  let as := s.acts
  let s := State.collect { s with acts := [] } (occsOf as)
  foldS (othersOf as) s (fun s a => s.act a)

/-- A packet that is ejected for a gated unit is a wake cause in its own cycle (R392), and so is a mailbox request that waits for one. -/
def State.ejectWake (s : State) : State :=
  if s.rte.ejected.any (fun b => s.gatedKind (pkKind b)) || s.mbAsleep then s.wake none else s

/-- What comes when no piece of work is left: the begin of BIST (R418, R422), answers of the mailbox that wait (R422), what the tolerance asks for (R392), loans and
returns of credits (R168, R198), completions that waited for a place (R250), receives of transfers that may complete (R304), the wake that an ejected packet causes (R392). -/
def State.rest (s : State) : State := if s.live then s.mbWaits.tolTask.lendAll.cfReturn.lateIn.rdvDone.ejectWake else s.bistBegin.mbWaits

/-- Work goes on until nothing is left: pieces of work, mailbox requests (R424), and what comes after them. -/
def State.settleN : Nat → State → State
  | 0, s => s
  | n + 1, s =>
    if !s.acts.isEmpty then State.settleN n s.round
    else if s.mbReady then State.settleN n s.mbNext
    else
      let t := s.rest
      if t.acts.isEmpty then t else State.settleN n t

/-- A command's work is done, with what the units' writes of it meet in the SRAM (R359, R369): no pin and no waiting command is changed
by it. -/
def State.settleFrom (s : State) (n : Nat) (t : State) : State :=
  let u := State.settleN n t
  let u := u.linkWake (u.out.drop s.out.length)
  let u := if u.eccWatch then State.settleN 4096 (s.eccWrites u) else u
  { u.eccUsed with pins := s.pins, pending := s.pending }

def State.settle (s t : State) : State := s.settleFrom 4096 t

/-- A command of a device with power good (R407, R422). -/
def powered (s : State) (f : State → State) : Host.Outcome State Fault Refusal :=
  .next (if s.pins.pwrok then s.settle (f s) else s)

/-- A command that acts only while the device runs (R422, Table 13.6). -/
def running (s : State) (f : State → State) : Host.Outcome State Fault Refusal :=
  .next (if s.live then s.settle (f s) else s)

end Sys2Proof.Machine
end

