-- ==== Sys2Proof/Machine/Beat.lean ====
section
/-! DEFINITION. The Beat boundary (01_device_organization.md): the count, the commit of the unheld groups, the hot image,
the per-Beat tasks in the order of Table 1.4, and what else a boundary starts. -/

namespace Sys2Proof.Machine

/-! ### Commit -/

/-- A group is held (R31). -/
def State.groupHeld (s : State) (g : Nat) : Bool := bit (s.rd F.BEA_COMMIT_HOLD.HOLD) g

/-- What a committed value starts: an equalizer field that is held keeps its value (R88, R110), MAIN follows PRE and POST (R104), a new target (R98, R101), an override (R110), a slot that
is reassigned (R379), a multicast entry that becomes VALID (Table 6.20). `old` is the value before. -/
def State.committed (s : State) (e : Shade) (old : Nat) : State :=
  match e.fld.reg with
  | .SER_FFE | .SER_CTLE | .SER_DFE_TAPS =>
    if s.eqHeld e.idx e.fld.reg || s.inCheck e.idx then s.wrI e.fld e.inst e.idx old
    else if e.fld.reg = .SER_FFE ∧ e.fld.cls = .B then s.ffeMain e.idx else s
  | .SER_EQ_OVERRIDE => (s.eqOverride e.idx).eqFreezeEnd e.idx
  | .SER_DFE_OVERRIDE => s.eqOverride e.idx
  | .SER_PORT_CTRL =>
    if e.fld = F.SER_PORT_CTRL.TARGET_WIDTH then s.widthCommitted e.idx
    else if s.serState e.idx = serActive ∧ e.val ≠ s.rd F.SER_PORT_STATUS.STEP e.idx then s.leave e.idx fnStep serCaps
    else s
  | .FLT_RICH_ASSIGN => if old = e.val then s else s.clearSlot e.idx
  | .MCT_MC_CTL => if e.fld = F.MCT_MC_CTL.VALID ∧ old = 0 ∧ e.val = 1 then s.wr F.MCT_MC_CTL.NEXT_SEQ 0 e.idx else s
  | _ => s

/-- The registers that the routing-table commit, task 3 of Table 1.4, drives. -/
def Reg.routingTable : Reg → Bool
  | .RTE_GROUP_TABLE | .RTE_ALIAS | .RTE_PORT_FALLBACK => true
  | _ => false

/-- A staged value waits a boundary: the routing-table commit has not finished (R28; DEDUCED, log entry 106). -/
def State.tableLate (s : State) (e : Shade) : Bool := s.bea.late.contains 3 && e.fld.reg.routingTable

/-- Groups commit: every staged value takes effect before anything that it starts (R29). -/
def State.commitGroups (s : State) (gs : List Nat) : State :=
  let es := (gs.flatMap s.shades).filter (fun e => !s.tableLate e)
  let olds := es.map (fun e => (e, s.rdI e.fld e.inst e.idx))
  let late := s.tableLate
  let s := foldS es s (fun s e => s.wrI e.fld e.inst e.idx e.val)
  let s := { s with shadow := s.shadow.filter (fun e => !gs.contains e.2.fld.group || late e.2) }
  let s := foldS olds s (fun s e => (s.committed e.1 e.2).eccTableWrite e.1.fld.reg e.1.idx)
  if gs.contains 3 then s.ffeAnswers else s

/-- The unheld groups commit (R29, R31). -/
def State.commitAll (s : State) : State := s.commitGroups ((List.range 17).filter (fun g => !s.groupHeld g))

/-- A pending hot image takes effect where no group that it touches is held (R76, R77, Table 2.22), or waits for task 3 (log entry 106); a new FAULT_THRESH starts
new windows (R376, R137). SIGN_SLOT, SEC_VERSION and BUILD_ID, and the key slot that R71 judges by, stay those of the full image, as R77
says of its digest (DESIGN CHOICE, log entry 118). -/
def State.hotCommit (s : State) : State :=
  match s.trs.staged with
  | none => s
  | some h =>
    if (hotGroups h).any (fun g => s.groupHeld g || (g == 5 && s.bea.late.contains 3)) then s
    else
      let s := if hasMember h 0x8009 then s.applyPower h else s
      let s := if hasMember h 0x800D then s.applyGains h else s
      let device := ((s.trs.img.map (fun i => i.members)).getD []).filter (fun m => m.1 == 0x8001)
      let s := if hasMember h 0x800C then (s.applySeeds { h with members := device ++ h.members }).loadSeeds else s
      let s := if hasMember h 0x800E then
          foldS (List.range 64) { (s.applyThresh h).clearWindows with escBeats := 0 }
            (fun s p => if s.lnkState p = lnkUp then s.healthStart p else s)
        else s
      let s := s.modTrs (fun t => { t with staged := none, img := t.img.map (fun i => mergeHot i h) })
      let s := (s.wr F.TRS_HOT_STATUS.STATE 0).inc F.TRS_HOT_STATUS.HOT_COMMITS
      s.inc F.TRS_STATUS.LOADS

/-- An armed commit that is due releases its groups (R35, R36); the bookkeeping of a Beat that has not finished does so at the next
boundary (R28; DEDUCED, log entry 106). -/
def State.armAt (s : State) : State :=
  if !s.armDue then s
  else if s.bea.late.contains 1 then s.modBea (fun b => { b with armLate := true })
  else s.armRelease

/-- What commits beside the staged values of groups `gs`: the results of the power tasks with group 14 (R396), the hot image (R76); then
the overrides and the regulators (R396, R399). -/
def State.commitRest (s : State) (gs : Nat → Bool) : State :=
  (if gs 14 then s.pwrCommit else s).hotCommit.overrides.avsSettle.avsSend

/-- Everything that commits at a boundary, in one cycle (R29). -/
def State.boundaryCommit (s : State) : State :=
  let s := s.armAt.commitAll
  s.commitRest (fun g => !s.groupHeld g)

/-- ARMED_COMMIT: the boundary at which BEA_COUNT has reached BEA_COMMIT_AT commits the armed groups (R35), and with them a hot image
that waited for them (R76). -/
def State.armedCommit (s : State) : State :=
  if s.on F.BEA_COMMIT_ARM.ARM ∧ !s.bea.armLate ∧ s.rd F.BEA_COMMIT_AT.TARGET ≤ s.beat then
    let m := s.rd F.BEA_COMMIT_ARM.MASK
    ((s.armRelease).commitGroups (bitsSet 17 m)).commitRest (bit m)
  else s

/-! ### Tasks -/

/-- A task of Table 1.4, by its order: one that does not finish in the Beat that begins has no results, and it starts anew in the
next Beat (R28). -/
def State.taskAt (s : State) (m : BeatIn) (k : Nat) (f : State → State) : State := if m.overrun.contains k then s else f s

/-- Aging of waiting work (task 6). -/
def State.ageTask (s : State) : State := s.ageAll.hifBeat

/-- Every ESC_WINDOW-th boundary starts a new escalation window (R376); what was raised before belongs to the old one. -/
def State.escWindow (s : State) : State :=
  let w := s.rd F.FLT_THRESH.ESC_WINDOW
  if w ≤ s.escBeats then { s.collectNow.clearWindows with escBeats := if w = 0 then 0 else s.escBeats % w } else s

/-- The tasks of one Beat in order (R25, R27). The credit audit finds a port whose counts differ from the buffer manager's
records; the counts of this model are those of the resident packets, as the audit leaves them (R170). -/
def State.tasks (s : State) (m : BeatIn) : State :=
  let s := s.taskAt m 2 State.slewTask
  let s := s.taskAt m 4 (fun s => foldS m.audit s (fun s p => s.raise .RTE_CREDIT_AUDIT p.val))
  let s := s.taskAt m 5 (fun s => s.epochTask m.epoch)
  let s := s.taskAt m 6 State.ageTask
  let s := s.taskAt m 7 State.escWindow
  let s := s.taskAt m 8 State.eccBeat
  let s := s.taskAt m 9 (fun s => if s.task 0 then s.phaseBeat else s)
  let s := s.taskAt m 10 (fun s => foldS (List.zip (List.range 4) m.slack) s (fun s e => s.avsLoop e.1 e.2))
  let s := s.taskAt m 11 State.engLoop
  let s := s.taskAt m 12 (fun s => foldS m.visits (if s.eqLoop then s else foldS s.lane s (fun s e => s.eqForget e.1)) (fun s v => s.eqVisit v))
  let s := s.taskAt m 13 State.eddyLoop
  let s := s.taskAt m 14 (fun s => s.biasLoop)
  let s := s.taskAt m 15 (fun s => s.placeLoop m)
  s.taskAt m 16 State.filtTask

/-! ### What else a boundary does -/

/-- One port's counts of a Beat: a full replay buffer (R131), re-acquisition (R103). -/
def State.portBeat (s : State) (p : Nat) : State :=
  let s := if (s.link p).fullBeat then
      (s.inc F.LNK_PORT_STATUS.STALL_BEATS p).modLink p
        (fun l => { l with fullBeat := decide (s.rd F.LNK_REPLAY_STATUS.OUTSTANDING p = 512) })
    else s
  let s := if s.serState p = serActive ∧ s.rd F.SER_PORT_STATUS.WIDTH p < s.offerWidth p then
      s.modSp p (fun x => { x with reacqBeats := min 1024 (x.reacqBeats + 1) })
    else s
  s.routable p

/-- Buckets, limiters, echoes, once-a-Beat faults and idle counts of a boundary (R174 to R176, R189, R392). -/
def State.beatCounts (s : State) (m : BeatIn) : State :=
  let s := s.echoTask.limiterTask.modRte (fun r => { r with injected := 0, nonmin := 0 })
  let s := (s.modMct (fun x => { x with bucket := s.rd F.MCT_CTRL.MC_RATE })).runMc
  let s := s.rmaBeat.matBeat.cohBeat
  let s := foldS (List.range 64) s (fun s p => s.portBeat p)
  let s := foldS m.prbs s (fun s c => s.laneTest c.1.val c.2)
  let s := (s.derateTask.ceilTask.idleTask m).portTask m
  s.modGrn (fun g => { g with since := g.since + 1 })

/-- A task of Table 1.4, by its order, runs (R25). -/
def State.taskRuns (s : State) (k : Nat) : Bool := decide (1 ≤ k) && decide (k ≤ 16) && (decide (k ≤ 8) || s.task (k - 9))

/-- The windows of Beats that a boundary counts (R137, R376), before a commit starts new ones. -/
def State.windowTick (s : State) : State :=
  foldS (List.range 64) { s with escBeats := s.escBeats + 1 } (fun s p =>
    if s.lnkState p = lnkUp then s.modLink p (fun l => { l with winBeats := l.winBeats + 1 }) else s)

/-- What a boundary leaves for the next one: a Beat more since the fuses were read (R411), the cycles of its tasks, and those that will
not finish (R28). -/
def State.beatEnd (s : State) (m : BeatIn) : State :=
  let s := s.modBoot (fun b => { b with fuseBeats := min 1048576 (b.fuseBeats + 1) })
  (s.peak m.cycles).modBea (fun b => { b with late := (m.overrun.filter s.taskRuns).eraseDups })

/-- BEAT_BOUNDARY: the Beat counts on, and groups commit, in every state (R45). Outside RUNNING no task runs but the Beat's own; in
the Spillway nothing commits. The telemetry, which is served in every phase and in the Spillway, goes on, and PWR_OVERTEMP with it
(R418, Table 13.6, R405). -/
def State.beatBoundary (s : State) (m : BeatIn) : State :=
  let s := if m.parity then s.raise .FLT_SELF else s
  let s := s.overruns.beatTick.windowTick
  let s :=
    if s.live then ((s.boundaryCommit.tempTask m).tasks m).beatCounts m
    else
      let s := if s.spill then s else s.armAt.commitAll
      let s := s.taskAt m 2 State.slewTask
      s.tempTask m
  s.beatEnd m

/-- ESC_WINDOW_RESTART: the window of a boundary whose task 7 did not finish restarts when it has (R28, R376). -/
def State.escRestart (s : State) : State := s.escWindow

/-- HEALTH_WINDOW_RESTART: every LINK_WINDOW-th boundary from UP on (R137). -/
def State.healthRestart (s : State) (p : Nat) : State :=
  if s.lnkState p = lnkUp ∧ s.rd F.LNK_HEALTH.WINDOW ≤ (s.link p).winBeats then
    let w := s.rd F.LNK_HEALTH.WINDOW
    let n := (s.link p).winBeats
    (s.healthStart p).modLink p (fun l => { l with winBeats := if w = 0 then 0 else n % w })
  else s

end Sys2Proof.Machine
end

