-- ==== Sys2Proof/Machine/Access.lean ====
section
/-! DEFINITION. Accesses that have rows of their own: one field of a register, the reads that do more than read, and management
packets (R182, R183). -/

namespace Sys2Proof.Machine

/-- A function's registers by their place: the doorbell page of a queue number. -/
def pageAddr (r : Reg) (n : Nat) : Nat := 4096 * n + r.place.off

/-- The word that a requester writes to change one field of a register and no other: what the RW fields hold, with the field's new
value; command bits and write-one-to-clear bits zero. -/
def State.fieldWord (s : State) (who : Who) (d : Fld) (i v : Nat) : Nat :=
  let (inst, k) := s.cellOf who d.reg i
  let held := d.reg.fields.foldl (fun x e => if e.acc = .RW then fieldIn x e (s.heldVal e inst k) else x) 0
  fieldIn held d v

/-- A write of one field. -/
def State.fieldCmd (s : State) (who : Who) (d : Fld) (i v : Nat) : State := s.regCmd who d.reg i (s.fieldWord who d i v)

/-- ENABLE of a unit that has one (R19, R52). -/
def State.enableCmd (s : State) (who : Who) (u v : Nat) : State :=
  match enableFld u with
  | some d => s.fieldCmd who d 0 v
  | none => s

/-- REGISTER_WRITE: a write by a function. A parity error on the configuration network (1) is found before the write is performed
(R411); one in the collector (2) at a write to it (R387). -/
def State.registerWrite (s : State) (f : Fn) (bar : Bar) (a size w : Nat) (parity : Fin 3) : State :=
  if !s.hostAnswers f then s
  else if parity = 1 then s.raise .GLB_CFGNET
  else
    let flt : Bool := match s.fnLoc f bar a with
      | .reg r _ => r.place.blk == 13
      | _ => false
    let s := if parity = 2 ∧ flt = true then s.raise .FLT_SELF else s
    s.fnWrite f bar a size w

/-- FLT_FORCE: a write (R381), and the check of the collector that it reaches (R387). -/
def State.fltForce (s : State) (who : Who) (w : Nat) (v : Checked) : State :=
  let meets : Bool := match who with
    | .fn f => s.hostAnswers f && (fnPf f == fnInst f)
    | _ => true
  (if v.parity && meets then s.raise .FLT_SELF else s).regCmd who .FLT_FORCE w v.val

/-! ### Reads -/

/-- A read of a register of a function: zero where it is not served or absent (R9, R418, Table 13.6); the current value also while
its unit is reset (R420). One that is narrow or not aligned reads zero, with REG_ACCESS (R12). -/
def State.fnRead (s : State) (f : Fn) (r : Reg) (whole : Bool) (zero go : State → State) : State :=
  if !s.hostAnswers f then s
  else if !whole then zero (s.locBad (.reg r 0))
  else if !s.readable r || s.regAbsent r then zero s
  else go s

/-- A read answers zero. -/
def State.readZero (s : State) (f : Fn) : State := s.emit (.regValue (.fn f) 0)

/-- A read by a PF of a shared register, or by another requester, at a phase of the Beat; a VF has no view of one, and an offset that
its views do not hold reads zero (R221, Table 17.2). A read that is not whole is narrow, or not aligned (R12). -/
def State.sharedOut (s : State) (who : Who) (r : Reg) (i cycle sub : Nat) (whole : Bool) : State :=
  match who with
  | .fn (.vf p v) =>
    if !s.hostAnswers (.vf p v) then s
    else if s.sleeps (.vf p v) .outside then s.sleepOn (.read (.vf p v) r i cycle sub whole)
    else (if whole then s else s.locBad .outside).readZero (.vf p v)
  | .fn (.pf p) =>
    if s.hostAnswers (.pf p) && s.sleeps (.pf p) (.reg r i) then s.sleepOn (.read (.pf p) r i cycle sub whole)
    else s.fnRead (.pf p) r whole (fun s => s.readZero (.pf p)) (fun s =>
      let (x, s) := s.sharedRead who (regOffset who r i) cycle sub
      s.emit (.regValue who x))
  | _ =>
    let (x, s) := s.sharedRead who (regOffset who r i + b2n (!whole)) cycle sub
    s.emit (.regValue who x)

/-- A status register of a doorbell page (R222, R228); pages follow R12. -/
def State.pageStatus (s : State) (f : Fn) (n what : Nat) (whole : Bool) : State :=
  if !s.hostAnswers f then s
  else if s.sleeps f (.page n none) then s.sleepOn (.status f n what whole)
  else if !s.live then s.readZero f
  else if !whole then (s.raise .REG_ACCESS).readZero f
  else if !s.pagesOn then s.readZero f
  else match s.gOf f n with
    | none => s.readZero f
    | some g => (s.reads (.ctx g)).statusRead (.fn f) what g

/-- RMA_QINFO (Table 8.23): the queue that RMA_QINFO_SEL names. -/
def State.qinfo (s : State) (f : Fn) (whole : Bool) : State :=
  if s.hostAnswers f && s.sleeps f (.reg .RMA_QINFO 0) then s.sleepOn (.qinfo f whole)
  else s.fnRead f .RMA_QINFO whole (fun s => s.readZero f) (fun s =>
    match s.gOf f (s.rdI F.RMA_QINFO_SEL.NUM (fnInst f) 0) with
    | none => s.readZero f
    | some g => (s.reads (.ctx g)).statusRead (.fn f) 3 g)

/-- A read of PEG_TRY or PEG_TAKE (R344, R418). -/
def State.pegRead (s : State) (f : Fn) (j : Nat) (try' whole : Bool) : State :=
  let r := if try' then Reg.PEG_TRY else .PEG_TAKE
  if s.hostAnswers f && s.sleeps f (.reg r j) then s.sleepOn (.peg f j try' whole)
  else s.fnRead f r whole (fun s => s.emit (.pegValue f j 0)) (fun s => if try' then s.pegTry f j else s.pegTake f j)

/-- The bytes of the host's memory that a doorbell, a window or an MSI-X table entry takes, by its BAR (Table 17.1, Table 17.2). -/
def msixAddr (f : Fn) (v : Nat) : Nat := (match f with | .pf _ => 0x2000000 | .vf _ _ => 0x400000) + 16 * v

/-! ### CXL requests, and what waits for a wake -/

/-- A CXL.mem request of a host (Table 10.1): in the Spillway a read is answered with poison and a write is dropped (Table 13.6);
while the device boots or resets, as of a disabled unit (R418). It waits while the window cache or its attachment sleeps (R393). -/
def State.memReq (s : State) (port tag hpa kind mv : Nat) (data : Bytes) (mask : Nat) : State :=
  if s.spill then (if kind = 0 then s.memPoison ⟨0, port, tag, hpa, 0, mv, [], 0⟩ else s)
  else if s.phase = phRom then s
  else if !s.live then s.memPoison ⟨0, port, tag, hpa, kind, mv, data, mask⟩
  else if s.gatedEngines || bit s.pwr.l1 (2 * port) then s.sleepOn (.mem port tag hpa kind mv data mask)
  else s.hostReq port tag hpa kind mv data mask

/-- The directory entry that a host snoop reads (R361). -/
def State.dirRead (s : State) (k addr : Nat) : State :=
  s.reads (.dir ((s.ownMid * 2 ^ 40 + k * 2 ^ 39 + (addr - s.rd F.COH_EXPORT.BASE k * 2 ^ 28) / 64 * 64) / 64))

/-- A CXL.cache snoop: in the Spillway, and while no directory stands, it is answered RspIHitI (Table 13.6); it waits while the directory
or its attachment sleeps (R393). -/
def State.snoopReq (s : State) (k addr : Nat) (inv : Bool) : State :=
  if !s.live then s.emit (.snpRsp k addr 0 [])
  else if s.gatedUnit uCOH || bit s.pwr.l1 (2 * k) then s.sleepOn (.snoop k addr inv)
  else (s.dirRead k addr).hostSnoop k addr inv

/-- An access that waited for the wake is performed (R393). -/
def State.perform (s : State) (a : Asleep) : State :=
  match a with
  | .write f bar a size w => s.fnWrite f bar a size w
  | .push f n o b => s.pushTo f n o b
  | .read f r i cycle sub whole => s.sharedOut (.fn f) r i cycle sub whole
  | .status f n what whole => s.pageStatus f n what whole
  | .qinfo f whole => s.qinfo f whole
  | .peg f j try' whole => s.pegRead f j try' whole
  | .mem port tag hpa kind mv data mask => s.memReq port tag hpa kind mv data mask
  | .snoop k addr inv => s.snoopReq k addr inv

/-- WAKE_COMPLETE: the exit ends (R391), and the accesses that waited are performed in order (R393). -/
def State.wakeComplete (s : State) : State := if s.exiting then foldS s.pwr.waits s.awake State.perform else s

/-! ### Management packets -/

/-- The entry of RTE_MGMT_ALLOW that admits a node (R183). -/
def State.mgmtEntry (s : State) (node : Nat) : Option (Fin 4) :=
  ([0, 1, 2, 3] : List (Fin 4)).find? (fun i => s.on F.RTE_MGMT_ALLOW.VALID i.val && s.rd F.RTE_MGMT_ALLOW.NODE i.val == node)

/-- Responses to a manager that have not left (R183). -/
def State.mgmtSlots (s : State) (node : Nat) : Nat := (s.rte.agent.filter (fun b => pkKind b == 3 && pkDst b == node)).length

/-- An offset that a management packet reaches (R182): the BEA, RTE and MCT windows without RTE_MGMT_ALLOW. -/
def mgmtReach (a : Nat) : Bool :=
  (a / 0x100000 == 2 || a / 0x100000 == 5 || a / 0x100000 == 6) &&
  (match pfLoc a with
   | .reg r _ => r != .RTE_MGMT_ALLOW
   | .shadow _ (some (r, _)) => r != .RTE_MGMT_ALLOW
   | _ => true)

/-- MGMT_RESP of a request (Table 5.9), in the request's class. -/
def State.mgmtAnswer (s : State) (b : Bytes) (st v : Nat) : State :=
  s.send (mkPacket (pkSrc b) s.nodeId 0 (pkTc b) 0x03 0 ((b.drop 12).take 6 ++ leBytes 1 st) (leBytes 8 v))

/-- The value in effect at an offset, read without any effect. -/
def State.mgmtValue (s : State) (i : Fin 4) (a : Nat) : Nat :=
  match pfLoc a with
  | .reg r k => if s.regAbsent r || a % 8 != 0 then 0 else s.regWord (.mgmt i) r k
  | .id blk => if s.blockFitted blk && a % 8 == 0 then blockId blk else 0
  | _ => 0

/-- A request of remote management (R182, R183): denied, outside, or performed by its fields' classes and answered. -/
def State.mgmtRequest (s : State) (b : Bytes) (go : State → Fin 4 → Nat → State) : State :=
  match s.mgmtEntry (pkSrc b) with
  | none => s.raise .RTE_MGMT_DENIED
  | some i =>
    if 16 ≤ s.mgmtSlots (pkSrc b) then s.raise .RTE_MGMT_DENIED
    else if !mgmtReach (leAt b 12 4) then s.mgmtAnswer b 3 0
    else go s i (leAt b 12 4)

/-- CFG_REJECT is among the work that an access has added to `n` pieces. -/
def State.rejected (s : State) (n : Nat) : Bool :=
  (s.acts.drop n).any (fun a => match a with | .occ o => o.src == Src.CFG_REJECT.num | _ => false)

/-- MGMT_WRITE. -/
def State.mgmtWrite (s : State) (b : Bytes) : State :=
  s.mgmtRequest b (fun s i a =>
    let t := s.sharedWrite (.mgmt i) a (leNat ((pkPayload b).take 8))
    t.mgmtAnswer b (if t.rejected s.acts.length then 2 else 0) (t.mgmtValue i a))

/-- MGMT_READ, at a phase of the Beat (R46). -/
def State.mgmtRead (s : State) (b : Bytes) (cycle sub : Nat) : State :=
  s.mgmtRequest b (fun s i a =>
    let (v, s) := s.sharedRead (.mgmt i) a cycle sub
    s.mgmtAnswer b 0 v)

/-! ### Groups of commands -/

/-- A pin changes, also with power off; with power good the work that it starts goes on (R407). -/
def pinned (s : State) (f : State → State) : Host.Outcome State Fault Refusal :=
  .next (if (f s).pins.pwrok then (f s).settle (f s) else f s)

/-- Work on a link that is UP. -/
def State.upLink (s : State) (p : Nat) (f : State → State) : State := if s.lnkState p = lnkUp then f s else s

/-- A mailbox request arrives with its payload (Table 15.9). -/
def State.mbxRequest (s : State) (who : Mbx) (tag cmd : Nat) (payload : Bytes) (flags : Nat := 0) (blown : Bool := true) : State :=
  s.mbxSubmit who (mbxMsg cmd flags tag 0 payload) blown

/-- A coherence packet at the home: its line's directory entry is read. -/
def State.homePacket (s : State) (k : Nat) (f : State → Bytes → Nat → State) : State :=
  s.unitPacket uCOH k (fun s b => (s.reads (.dir (cpLine b))).cohPacket b (fun s m => f s b m))

/-- A coherence packet at the agent: its window cache line is read. -/
def State.agentPacket (s : State) (k : Nat) (f : State → Bytes → State) : State :=
  s.unitPacket uCOH k (fun s b => (s.reads (.line (cpLine b))).cohPacket b (fun s _ => f s b))

/-- A VN4 packet at its tree: the tree's table entry is read. -/
def State.treePacket (s : State) (k : Nat) (f : State → Bytes → State) : State :=
  s.unitPacket uMCT k (fun s b => f (s.reads (.tree (leAt b 12 2))) b)

/-- An answer at the requester's queue. -/
def State.answerPacket (s : State) (k : Nat) (f : State → Bytes → State) : State :=
  s.unitPacket uRMA k (fun s b => (s.reads (.ctx (pkDq b))).rmaPacket b (fun s => f s b))

/-- MC_PUT at a member: the oldest replica, once its landing CQ's context is there and has room (R194, R250) and its landing's page entries are there (R260). -/
def State.replica (s : State) : State :=
  match s.rte.ejected.find? (fun b => pkKind b == 0x80) with
  | none => s
  | some b =>
    let cq := s.rd F.MCT_MC_LAND.CQ (s.rd F.MCT_MC_CTL.LAND (pkDst b % 2 ^ 14))
    if s.gatedUnit uHIF then s.wake none
    else if s.mcRoom b then
      if !(s.mcPages b).isEmpty then s.pagesAsk (s.mcPages b) else
      let (there, s) := s.regionRead (s.rd F.MCT_MC_LAND.KEY (s.rd F.MCT_MC_CTL.LAND (pkDst b % 2 ^ 14)))
      if there then s.unitPacket uMCT 0x80 (fun s b => (s.reads (.mcast (pkDst b % 2 ^ 14))).mcMember b) else s
    else if (s.c cq).cached then s else s.needCtx cq

/-- An entry is taken of the queue in turn, whose context is read first (R361). -/
def State.serveEntry (s : State) (ok : Nat → Bool) : State :=
  if s.ecc.words.isEmpty then s.takeEntry ok
  else match s.serve ok with
    | some (g, _, _, _) => (s.reads (.ctx g)).takeEntry ok
    | none => s

/-- A packet arrives, or is injected: the table entries of its route are read (R361). -/
def State.arriveRead (s : State) (p : Nat) : State :=
  match s.arrived.find? (fun e => e.1 == p) with
  | some e => (s.routeReads e.2).arriveNext p
  | none => s.arriveNext p
def State.injectRead (s : State) (i : Nat) : State :=
  match s.rte.agent[i]? with
  | some b => (s.routeReads b).inject i
  | none => s.inject i

/-- PACKET_FORWARD, with what the read of the packet finds (R362): `lost` is the word of a packet that is found uncorrectable now, and
a word found so before, or poisoned, is neither counted nor logged again (R360). -/
def State.forwardRead (s : State) (out : Nat) (lost : Option Nat) : State :=
  match (s.arbitrate out).1 with
  | none => s.forward out false
  | some (_, k) =>
    let o := EObj.packet k.b
    let s := s.reads o
    match lost with
    | none => if s.eccLost o then (s.forward out true).eccEmpty o else s.forward out false
    | some w =>
      let known := (s.eccWord 0 w).any (·.poison)
      let s := if known then s else s.eccUe eccAct 0 w (some o) false
      (s.forward out true).eccEmpty o

/-- A flit slot: the flits of a replay are read, and where they cannot be the port restarts (Table 12.3). -/
def State.slotRead (s : State) (p stamp : Nat) : State :=
  let o := EObj.replay p
  if (s.link p).rpos.isNone then s.flitTransmit p stamp
  else
    let t := s.reads o
    if s.lnkState p = lnkUp ∧ t.lnkState p ≠ lnkUp then t else t.flitTransmit p stamp

/-- The descriptor read that ends (R226). -/
def State.descDone (s : State) (k : DescRead) (a : Ans) : State :=
  match k with
  | .queue f => s.queueDescDone f a
  | .tree => s.treeDescDone a
  | .region f => s.regDescDone f a
  | .list f => s.mlDescDone f a
  | .again k => s.eccRefill k a

/-- SLOT_CHECK_COMPLETE: the checks of Table 2.14 on a flash slot whose check runs, with its result (R74, Table 2.27). -/
def State.slotChecked (s : State) (k : Nat) : State :=
  if !bit (s.rd F.TRS_SLOT_CHECK.BUSY) k then s
  else
    let n := match checkImage (s.chkEnv 1048576) false (s.slotBytes k) with
      | (.ok _, _) => 0
      | (.error e, _) => e.check
    let s := s.wr (if k = 0 then F.TRS_SLOT_CHECK.SLOT0_CHECK else F.TRS_SLOT_CHECK.SLOT1_CHECK) n
    s.wr F.TRS_SLOT_CHECK.BUSY (clrBit (s.rd F.TRS_SLOT_CHECK.BUSY) k)

end Sys2Proof.Machine
end

