-- ==== Sys2Proof/Machine/ExecBeat.lean ====
section
/-! DEFINITION. The meanings of register writes and of the Beat unit's commands (00_scope.md, 01_device_organization.md). -/

namespace Sys2Proof.Machine

/-- REGISTER_WRITE (R12 to R20). -/
def execRegisterWrite (f : Fn) (bar : Bar) (a size w : Nat) (parity : Fin 3) (s : State) : Host.Outcome State Fault Refusal :=
  powered s (fun s => s.registerWrite f bar a size w parity)

/-- UNIT_ENABLE (R52). -/
def execUnitEnable (who : Who) (u : Fin 19) (s : State) : Host.Outcome State Fault Refusal := powered s (fun s => s.enableCmd who u.val 1)

/-- UNIT_DISABLE (R19). -/
def execUnitDisable (who : Who) (u : Fin 19) (s : State) : Host.Outcome State Fault Refusal := powered s (fun s => s.enableCmd who u.val 0)

/-- BEAT_BOUNDARY (R29, R27). -/
def execBeatBoundary (m : BeatIn) (s : State) : Host.Outcome State Fault Refusal := powered s (fun s => s.beatBoundary m)

/-- ARMED_COMMIT (R35). -/
def execArmedCommit (s : State) : Host.Outcome State Fault Refusal := running s State.armedCommit

/-- BEA_COMMIT_ARM (R35, R36). -/
def execBeaCommitArm (who : Who) (v : Nat) (s : State) : Host.Outcome State Fault Refusal :=
  powered s (fun s => s.regCmd who .BEA_COMMIT_ARM 0 v)

/-- BEA_COMMIT_AT (R36). -/
def execBeaCommitAt (who : Who) (v : Nat) (s : State) : Host.Outcome State Fault Refusal :=
  powered s (fun s => s.regCmd who .BEA_COMMIT_AT 0 v)

/-- BEA_COUNT: a read (R46). -/
def execBeaCount (who : ReadBy Who) (cycle sub : Nat) (s : State) : Host.Outcome State Fault Refusal :=
  powered s (fun s => s.sharedOut who.src .BEA_COUNT 0 cycle sub who.whole)

/-- BEAT_XCHG_SEND (R38). -/
def execBeatXchgSend (p : Port) (s : State) : Host.Outcome State Fault Refusal := running s (fun s => s.xchgSend p.val)

/-- BEAT_XCHG request (R136). -/
def execBeatXchgRequest (p : Port) (m : Xchg) (t2 : Stamp) (s : State) : Host.Outcome State Fault Refusal :=
  running s (fun s => s.xchgRequest p.val m t2)

/-- BEAT_XCHG response (R39). -/
def execBeatXchgResponse (p : Port) (m : Xchg) (t4 : Stamp) (s : State) : Host.Outcome State Fault Refusal :=
  running s (fun s => s.xchgResponse p.val m t4)

/-- UPSTREAM_LOST (R43). -/
def execUpstreamLost (s : State) : Host.Outcome State Fault Refusal := running s State.upstreamLost

/-- HOLDOVER_LIMIT (R43). -/
def execHoldoverLimit (s : State) : Host.Outcome State Fault Refusal := running s State.holdLimit

/-- MASTER_ALIVE_MISSING (R43). -/
def execMasterAliveMissing (s : State) : Host.Outcome State Fault Refusal := running s State.aliveMissing

/-- LISTEN_WINDOW_END (R43). -/
def execListenWindowEnd (s : State) : Host.Outcome State Fault Refusal := running s State.listenEnd

/-- PPS_EDGE (R37). -/
def execPpsEdge (cycle sub ms : Nat) (s : State) : Host.Outcome State Fault Refusal := powered s (fun s => s.ppsEdge cycle sub ms)

/-- BEAT_REF_LOST (R37). -/
def execBeatRefLost (s : State) : Host.Outcome State Fault Refusal := powered s State.refLost

/-- BEAT_REF_LOCK (R37). -/
def execBeatRefLock (s : State) : Host.Outcome State Fault Refusal := powered s State.refLock

end Sys2Proof.Machine
end

