-- ==== Sys2Proof/Machine/ExecBoot.lean ====
section
/-! DEFINITION. The meanings of boot, reset and pin commands, of fuses, flash and the JTAG and I3C interfaces
(15_reset_and_bringup.md, 16_signals_package_electrical.md, 02_truss_image.md). -/

namespace Sys2Proof.Machine

/-- PWROK_RISE (R409, R407). -/
def execPwrokRise (h a : Fin 4) (s : State) : Host.Outcome State Fault Refusal := .next (s.pwrokRise h.val a.val)

/-- PWROK_FALL (R407). -/
def execPwrokFall (s : State) : Host.Outcome State Fault Refusal := .next s.pwrokFall

/-- ROM (R409, R411). -/
def execRom (fuse pll parity : Bool) (s : State) : Host.Outcome State Fault Refusal := powered s (fun s => s.romEnd fuse pll parity)

/-- FIRMWARE (R412). -/
def execFirmware (s : State) : Host.Outcome State Fault Refusal := powered s State.firmwareEnd

/-- BIST (R415). -/
def execBist (repairs bad bays : Nat) (s : State) : Host.Outcome State Fault Refusal := powered s (fun s => s.bistEnd repairs bad bays)

/-- LOAD (R48, R416). -/
def execLoad (ms : Nat) (s : State) : Host.Outcome State Fault Refusal := powered s (fun s => s.loadEnd ms)

/-- WARM_RST_L_ASSERT (R450, R422). -/
def execWarmRstLAssert (s : State) : Host.Outcome State Fault Refusal := pinned s State.warmAssert

/-- WARM_RST_L_RELEASE (R422). -/
def execWarmRstLRelease (s : State) : Host.Outcome State Fault Refusal := pinned s State.warmRelease

/-- GLB_DEVICE_RESET (R418). -/
def execGlbDeviceReset (who : Who) (v : Nat) (s : State) : Host.Outcome State Fault Refusal :=
  powered s (fun s => s.regCmd who .GLB_DEVICE_RESET 0 v)

/-- GLB_UNIT_RESET (R420). -/
def execGlbUnitReset (who : Who) (v : Nat) (s : State) : Host.Outcome State Fault Refusal :=
  powered s (fun s => s.regCmd who .GLB_UNIT_RESET 0 v)

/-- UNIT_RESET_COMPLETE (R420). -/
def execUnitResetComplete (u : Fin 19) (s : State) : Host.Outcome State Fault Refusal := powered s (fun s => s.unitDone u.val)

/-- GLB_PORT_RESET (R421). -/
def execGlbPortReset (who : Who) (v : Nat) (s : State) : Host.Outcome State Fault Refusal :=
  powered s (fun s => s.regCmd who .GLB_PORT_RESET 0 v)

/-- CORE_PLL_UNLOCK (R411). -/
def execCorePllUnlock (parity : Bool) (s : State) : Host.Outcome State Fault Refusal := powered s (fun s => s.pllLost parity)

/-- FUSE_READ (R411). -/
def execFuseRead (ok parity : Bool) (s : State) : Host.Outcome State Fault Refusal := powered s (fun s => s.fuseRead ok parity)

/-- WATCHDOG_EXPIRE (R414). -/
def execWatchdogExpire (s : State) : Host.Outcome State Fault Refusal := powered s State.watchdog

/-- FOREMAN_RESTART_DONE (R414). -/
def execForemanRestartDone (s : State) : Host.Outcome State Fault Refusal := powered s State.foremanDone

/-- ROUTES_READY (R417): a write of the field. -/
def execRoutesReady (who : Who) (on : Bool) (s : State) : Host.Outcome State Fault Refusal :=
  powered s (fun s => s.fieldCmd who F.GLB_BOOT_CTRL.ROUTES_READY 0 (b2n on))

/-- TRS_SLOT_CHECK (R74). -/
def execTrsSlotCheck (who : Who) (v : Nat) (s : State) : Host.Outcome State Fault Refusal :=
  powered s (fun s => s.regCmd who .TRS_SLOT_CHECK 0 v)

/-- SLOT_CHECK_COMPLETE (R74). -/
def execSlotCheckComplete (k : Fin 2) (s : State) : Host.Outcome State Fault Refusal := powered s (fun s => s.slotChecked k.val)

/-- FLASH_ERASE_DONE (R424). -/
def execFlashEraseDone (s : State) : Host.Outcome State Fault Refusal := powered s State.eraseDone

/-- BYPASS (R441). -/
def execBypass (s : State) : Host.Outcome State Fault Refusal := .next (s.jtagLoad 0).jtagOut

/-- IDCODE (R441). -/
def execIdcode (s : State) : Host.Outcome State Fault Refusal := .next (s.jtagLoad 1).jtagOut

/-- SAMPLE/PRELOAD (R441). -/
def execSamplePreload (pins preload : Nat) (s : State) : Host.Outcome State Fault Refusal := .next (s.jtagSample pins preload)

/-- EXTEST (R441). -/
def execExtest (s : State) : Host.Outcome State Fault Refusal := .next (s.jtagLoad 3).jtagOut

/-- HIGHZ (R441). -/
def execHighz (s : State) : Host.Outcome State Fault Refusal := .next (s.jtagLoad 4).jtagOut

/-- EXTEST_PULSE (R441). -/
def execExtestPulse (s : State) : Host.Outcome State Fault Refusal := .next (s.jtagLoad 5).jtagOut

/-- EXTEST_TRAIN (R441). -/
def execExtestTrain (s : State) : Host.Outcome State Fault Refusal := .next (s.jtagLoad 6).jtagOut

/-- TRST_L (R441). -/
def execTrstL (low : Bool) (s : State) : Host.Outcome State Fault Refusal := .next (s.trst low)

/-- SETDASA (R440). -/
def execSetdasa (static dyn : Nat) (s : State) : Host.Outcome State Fault Refusal := powered s (fun s => s.setDasa static dyn)

/-- ENTDAA (R440). -/
def execEntdaa (dyn : Nat) (s : State) : Host.Outcome State Fault Refusal := powered s (fun s => s.entDaa dyn)

end Sys2Proof.Machine
end

