-- ==== Sys2Proof/Machine/ExecCoh.lean ====
section
/-! DEFINITION. The meanings of the coherence commands (10_coherent_domains.md). -/

namespace Sys2Proof.Machine

/-- RD_S (R331). -/
def execRdS (s : State) : Host.Outcome State Fault Refusal := running s (fun s => s.homePacket 0x60 (fun s b m => s.onCohReq 0 b m))

/-- RD_X (R331). -/
def execRdX (s : State) : Host.Outcome State Fault Refusal := running s (fun s => s.homePacket 0x61 (fun s b m => s.onCohReq 1 b m))

/-- UPG (R331). -/
def execUpg (s : State) : Host.Outcome State Fault Refusal := running s (fun s => s.homePacket 0x62 (fun s b m => s.onCohReq 2 b m))

/-- ATOM (R339). -/
def execAtom (s : State) : Host.Outcome State Fault Refusal := running s (fun s => s.homePacket 0x63 (fun s b m => s.onCohReq 3 b m))

/-- WB (R331). -/
def execWb (s : State) : Host.Outcome State Fault Refusal := running s (fun s => s.homePacket 0x64 (fun s b m => s.onWb b m))

/-- EVICT (R331). -/
def execEvict (s : State) : Host.Outcome State Fault Refusal := running s (fun s => s.homePacket 0x65 (fun s b m => s.onEvict b m))

/-- FWD_S (R332). -/
def execFwdS (s : State) : Host.Outcome State Fault Refusal := running s (fun s => s.agentPacket 0x68 (fun s b => s.onForward 0 b))

/-- FWD_X (R332). -/
def execFwdX (s : State) : Host.Outcome State Fault Refusal := running s (fun s => s.agentPacket 0x69 (fun s b => s.onForward 1 b))

/-- INV (R332). -/
def execInv (s : State) : Host.Outcome State Fault Refusal := running s (fun s => s.agentPacket 0x6A (fun s b => s.onForward 2 b))

/-- DATA_S (R332). -/
def execDataS (s : State) : Host.Outcome State Fault Refusal := running s (fun s => s.agentPacket 0x70 State.onDataS)

/-- DATA_X (R332). -/
def execDataX (s : State) : Host.Outcome State Fault Refusal := running s (fun s => s.agentPacket 0x71 State.onDataX)

/-- GRANT_X (R332). -/
def execGrantX (s : State) : Host.Outcome State Fault Refusal := running s (fun s => s.agentPacket 0x72 State.onGrantX)

/-- INV_ACK (R331). -/
def execInvAck (s : State) : Host.Outcome State Fault Refusal := running s (fun s => s.homePacket 0x73 (fun s b m => s.onInvAck b m))

/-- FWD_ACK (R331). -/
def execFwdAck (s : State) : Host.Outcome State Fault Refusal := running s (fun s => s.homePacket 0x74 (fun s b m => s.onFwdAck b m))

/-- COMP (R331). -/
def execComp (s : State) : Host.Outcome State Fault Refusal := running s (fun s => s.homePacket 0x75 (fun s b m => s.onComp b m))

/-- WB_ACK (R332). -/
def execWbAck (s : State) : Host.Outcome State Fault Refusal := running s (fun s => s.agentPacket 0x76 State.onWbAck)

/-- RETRY (R329). -/
def execRetry (s : State) : Host.Outcome State Fault Refusal := running s (fun s => s.agentPacket 0x77 State.onRetry)

/-- CRD_GRANT (R329). -/
def execCrdGrant (s : State) : Host.Outcome State Fault Refusal := running s (fun s => s.agentPacket 0x78 State.onCrdGrant)

/-- ATOM_RESP (R339). -/
def execAtomResp (s : State) : Host.Outcome State Fault Refusal := running s (fun s => s.agentPacket 0x79 State.onAtomResp)

/-- HOST_DATA_RETURN (R316). -/
def execHostDataReturn (line : Nat) (data : Bytes) (poison : Bool) (s : State) : Host.Outcome State Fault Refusal :=
  running s (fun s => s.hostData line data poison)

/-- HOST_SNOOP (R317). -/
def execHostSnoop (k : Fin 2) (addr : Nat) (inv : Bool) (s : State) : Host.Outcome State Fault Refusal :=
  powered s (fun s => s.snoopReq k.val addr inv)

/-- MEMRD (R318). -/
def execMemrd (port : Fin 2) (tag hpa : Nat) (mv : Fin 3) (s : State) : Host.Outcome State Fault Refusal :=
  powered s (fun s => s.memReq port.val tag hpa 0 mv.val [] 0)

/-- MEMWR (R318). -/
def execMemwr (port : Fin 2) (tag hpa : Nat) (mv : Fin 3) (data : Bytes) (s : State) : Host.Outcome State Fault Refusal :=
  powered s (fun s => s.memReq port.val tag hpa 1 mv.val data 0)

/-- MEMWRPTL (R318). -/
def execMemwrptl (port : Fin 2) (tag hpa : Nat) (mv : Fin 3) (data : Bytes) (mask : Nat) (s : State) : Host.Outcome State Fault Refusal :=
  powered s (fun s => s.memReq port.val tag hpa 2 mv.val data mask)

/-- BIRSP (R318). -/
def execBirsp (port : Fin 2) (hpa : Nat) (shared : Bool) (s : State) : Host.Outcome State Fault Refusal :=
  running s (fun s => s.biRsp port.val hpa shared)

/-- HDM_DECODER_COMMIT (R315), of decoders 0 to 3. -/
def execHdmDecoderCommit (port : Fin 2) (d base size ways : Nat) (s : State) : Host.Outcome State Fault Refusal :=
  powered s (fun s => if s.phase = phRom || s.spill then s else s.hdmCommit port.val d base size ways)

/-- TRANSACTION_TIMER_EXPIRE (R333). -/
def execTransactionTimerExpire (line : Nat) (s : State) : Host.Outcome State Fault Refusal := running s (fun s => s.txExpire line)

/-- REQUEST_TIMER_EXPIRE (R335). -/
def execRequestTimerExpire (i : Nat) (s : State) : Host.Outcome State Fault Refusal := running s (fun s => s.reqExpire i)

/-- CREDIT_RESERVE_EXPIRE (R329). -/
def execCreditReserveExpire (i : Nat) (s : State) : Host.Outcome State Fault Refusal := running s (fun s => s.creditExpire i)

/-- DECLARE_DEAD (R336): a write of COH_CMD. -/
def execDeclareDead (who : Who) (m : Nat) (s : State) : Host.Outcome State Fault Refusal :=
  powered s (fun s => s.regCmd who .COH_CMD 0 (m % 64 * 256 + 1))

/-- DECLARE_DEAD_WALK_END (R336). -/
def execDeclareDeadWalkEnd (s : State) : Host.Outcome State Fault Refusal := running s State.walkEnd

/-- FLUSH (R340). -/
def execFlush (who : Who) (s : State) : Host.Outcome State Fault Refusal := powered s (fun s => s.regCmd who .COH_CMD 0 2)

/-- FLUSH_END (R340). -/
def execFlushEnd (s : State) : Host.Outcome State Fault Refusal := running s State.flushEnd

/-- REVIVE (R337). -/
def execRevive (who : Who) (m : Nat) (s : State) : Host.Outcome State Fault Refusal :=
  powered s (fun s => s.regCmd who .COH_CMD 0 (m % 64 * 256 + 3))

end Sys2Proof.Machine
end

