-- ==== Sys2Proof/Machine/ExecHost.lean ====
section
/-! DEFINITION. The meanings of the host interface's commands (07_host_interface_and_queues.md). -/

namespace Sys2Proof.Machine

/-- DESCRIPTOR_FETCH_DONE (R226). -/
def execDescriptorFetchDone (k : DescRead) (a : Ans) (s : State) : Host.Outcome State Fault Refusal := running s (fun s => s.descDone k a)

/-- CONTEXT_FETCH_DONE (R228). -/
def execContextFetchDone (g : Nat) (a : Ans) (s : State) : Host.Outcome State Fault Refusal :=
  running s (fun s => s.ctxFetched g a)

/-- CONTEXT_STATUS_READ (R228): 0 HIF_Q_STATUS, 1 HIF_Q_STATE, 2 HIF_CQ_STATUS. -/
def execContextStatusRead (f : ReadBy Fn) (n : Nat) (what : Fin 3) (s : State) : Host.Outcome State Fault Refusal :=
  powered s (fun s => s.pageStatus f.src n what.val f.whole)

/-- Q_CREATE (R227): a write of HIF_QUEUE_CMD. -/
def execQCreate (f : Fn) (n : Nat) (s : State) : Host.Outcome State Fault Refusal :=
  powered s (fun s => s.regCmd (.fn f) .HIF_QUEUE_CMD 0 (n % 2 ^ 20 * 16 + 1))

/-- Q_DESTROY (R230). -/
def execQDestroy (f : Fn) (n : Nat) (s : State) : Host.Outcome State Fault Refusal :=
  powered s (fun s => s.regCmd (.fn f) .HIF_QUEUE_CMD 0 (n % 2 ^ 20 * 16 + 2))

/-- CQ_CREATE (R227). -/
def execCqCreate (f : Fn) (n : Nat) (s : State) : Host.Outcome State Fault Refusal :=
  powered s (fun s => s.regCmd (.fn f) .HIF_QUEUE_CMD 0 (n % 2 ^ 20 * 16 + 3))

/-- CQ_RESET (R233). -/
def execCqReset (f : Fn) (n : Nat) (s : State) : Host.Outcome State Fault Refusal :=
  powered s (fun s => s.regCmd (.fn f) .HIF_QUEUE_CMD 0 (n % 2 ^ 20 * 16 + 4))

/-- CQ_DESTROY (R233). -/
def execCqDestroy (f : Fn) (n : Nat) (s : State) : Host.Outcome State Fault Refusal :=
  powered s (fun s => s.regCmd (.fn f) .HIF_QUEUE_CMD 0 (n % 2 ^ 20 * 16 + 5))

/-- Q_ENABLE (R230): a write of HIF_Q_CTRL in the queue's doorbell page. -/
def execQEnable (f : Fn) (n : Nat) (s : State) : Host.Outcome State Fault Refusal :=
  powered s (fun s => s.fnWrite f .bar2 (pageAddr .HIF_Q_CTRL n) 8 1)

/-- Q_DISABLE (R232). -/
def execQDisable (f : Fn) (n : Nat) (s : State) : Host.Outcome State Fault Refusal :=
  powered s (fun s => s.fnWrite f .bar2 (pageAddr .HIF_Q_CTRL n) 8 0)

/-- HIF_SQ_DB (R241). -/
def execHifSqDb (f : Fn) (n v : Nat) (s : State) : Host.Outcome State Fault Refusal :=
  powered s (fun s => s.fnWrite f .bar2 (pageAddr .HIF_SQ_DB n) 8 v)

/-- HIF_CQ_DB (R242). -/
def execHifCqDb (f : Fn) (n v : Nat) (s : State) : Host.Outcome State Fault Refusal :=
  powered s (fun s => s.fnWrite f .bar2 (pageAddr .HIF_CQ_DB n) 8 v)

/-- HIF_EQ_DB (R253). -/
def execHifEqDb (f : Fn) (e v : Nat) (s : State) : Host.Outcome State Fault Refusal :=
  powered s (fun s => s.regCmd (.fn f) .HIF_EQ_DB e v)

/-- PUSH_WRITE (R244). -/
def execPushWrite (f : Fn) (n off : Nat) (b : Bytes) (s : State) : Host.Outcome State Fault Refusal :=
  powered s (fun s => s.pushTo f n off b)

/-- PUSH_HALF_EXPIRE (R244). -/
def execPushHalfExpire (g : Nat) (k : Fin 2) (s : State) : Host.Outcome State Fault Refusal := running s (fun s => s.pushExpire g k.val)

/-- RING_READ_DONE (R243). -/
def execRingReadDone (g : Nat) (a : Ans) (s : State) : Host.Outcome State Fault Refusal := running s (fun s => s.ringDone g a)

/-- DATA_READ_DONE (R224): outstanding read `i`. -/
def execDataReadDone (i : Nat) (a : Ans) (s : State) : Host.Outcome State Fault Refusal := running s (fun s => s.readDone i a)

/-- NOP_ENTRY (R235): the NOP, and an entry whose opcode is not assigned, which fails its queue as it is taken (R236). -/
def execNopEntry (s : State) : Host.Outcome State Fault Refusal := running s (fun s => s.serveEntry (fun op => op == oNop || !opAssigned op))

/-- CQ_OVERFLOW (R233). -/
def execCqOverflow (g : Nat) (s : State) : Host.Outcome State Fault Refusal := running s (fun s => s.cqFullExpire g)

/-- MOD_TIME_EXPIRE (R253). -/
def execModTimeExpire (f : Fn) (e : Nat) (s : State) : Host.Outcome State Fault Refusal := running s (fun s => s.modTime f e)

/-- MSIX_UNMASK (R253): a write of the vector's control word. -/
def execMsixUnmask (f : Fn) (v : Nat) (s : State) : Host.Outcome State Fault Refusal :=
  powered s (fun s => s.fnWrite f .bar0 (msixAddr f v + 12) 4 0)

/-- HOST_LINK_DOWN (R254). -/
def execHostLinkDown (pf : Fin 4) (s : State) : Host.Outcome State Fault Refusal := powered s (fun s => (s.hostLinkDown pf.val).dropWaits [pf.val])

/-- HOST_LINK_UP (R218): not while the host port's PERST_L is asserted (R419), nor before ROM has released the host ports (R409). -/
def execHostLinkUp (pf : Fin 4) (rate width : Nat) (flit cxl cache mem : Bool) (s : State) : Host.Outcome State Fault Refusal :=
  powered s (fun s =>
    if (if pf.val < 2 then s.pins.perst0 else s.pins.perst1) || s.phase == phRom then s
    else s.hostLinkUp pf.val rate width flit cxl cache mem)

/-- FLR (R254). -/
def execFlr (f : Fn) (s : State) : Host.Outcome State Fault Refusal := powered s (fun s => if s.hostAnswers f then s.flr f else s)

/-- PERST_L (R419): asserted with power good it resets its host port. -/
def execPerstL (h : Fin 2) (low : Bool) (s : State) : Host.Outcome State Fault Refusal :=
  powered (s.perstPin h.val low) (fun s => if low then s.hostReset h.val else s)

/-- LTR_UPDATE (R390). -/
def execLtrUpdate (pf : Fin 4) (enable : Bool) (snoop nosnoop : Nat) (s : State) : Host.Outcome State Fault Refusal :=
  powered s (fun s => if s.hostAnswers (.pf pf) then s.ltrUpdate pf.val enable snoop nosnoop else s)

end Sys2Proof.Machine
end

