-- ==== Sys2Proof/Machine/ExecLane.lean ====
section
/-! DEFINITION. The meanings of the lane commands (03_lanes.md). -/

namespace Sys2Proof.Machine

/-- CALIBRATION_DONE (R94). -/
def execCalibrationDone (p : Port) (ok0 ok1 : Bool) (s : State) : Host.Outcome State Fault Refusal :=
  running s (fun s => s.calibrationDone p.val ok0 ok1)

/-- CAPABILITY_SET (R83). -/
def execCapabilitySet (p : Port) (k : Fin 2) (raw : Heard) (peak : Nat) (s : State) : Host.Outcome State Fault Refusal :=
  running s (fun s => s.capabilitySet p.val k.val raw peak)

/-- COUNTDOWN_END (R85). -/
def execCountdownEnd (p : Port) (s : State) : Host.Outcome State Fault Refusal := running s (fun s => s.countdownEnd p.val)

/-- CAPS_TIMEOUT (R86). -/
def execCapsTimeout (p : Port) (s : State) : Host.Outcome State Fault Refusal := running s (fun s => s.capsTimeout p.val)

/-- TRAIN_US_END (R88). -/
def execTrainUsEnd (p : Port) (e0 e1 : EqVals) (s : State) : Host.Outcome State Fault Refusal := running s (fun s => s.trainEnd p.val e0 e1)

/-- CHECK_US_END (R89). -/
def execCheckUsEnd (p : Port) (r0 r1 : PrbsRx) (s : State) : Host.Outcome State Fault Refusal :=
  running s (fun s => s.checkEnd p.val r0 r1)

/-- RESULT_BLOCK (R90). -/
def execResultBlock (p : Port) (k : Fin 2) (raw : List Level) (s : State) : Host.Outcome State Fault Refusal :=
  running s (fun s => s.resultBlock p.val k.val raw)

/-- RESULT_WAIT_END (R89). -/
def execResultWaitEnd (p : Port) (s : State) : Host.Outcome State Fault Refusal := running s (fun s => s.resultWaitEnd p.val)

/-- RETRY_MS (R94). -/
def execRetryMs (p : Port) (s : State) : Host.Outcome State Fault Refusal := running s (fun s => s.retryMs p.val)

/-- LANE_LOCK_LOST (R102). -/
def execLaneLockLost (p : Port) (k : LostLane) (s : State) : Host.Outcome State Fault Refusal :=
  running s (fun s => s.laneLockLost p.val k.lane.val k.mv)

/-- PLL_UNLOCK (R95). -/
def execPllUnlock (c : Fin 4) (s : State) : Host.Outcome State Fault Refusal := powered s (fun s => s.pllUnlock c.val)

/-- PLL_LOCK (R95). -/
def execPllLock (c : Fin 4) (s : State) : Host.Outcome State Fault Refusal := powered s (fun s => s.pllLock c.val)

/-- RESTART (R94): a write of SER_PORT_CTRL with its bit. -/
def execRestart (who : Who) (p : Port) (s : State) : Host.Outcome State Fault Refusal :=
  powered s (fun s => s.fieldCmd who F.SER_PORT_CTRL.RESTART p.val 1)

/-- MODE_TEST (R112). -/
def execModeTest (who : Who) (p : Port) (s : State) : Host.Outcome State Fault Refusal :=
  powered s (fun s => s.fieldCmd who F.SER_PORT_CTRL.MODE p.val 1)

/-- MODE_OPERATE (R94). -/
def execModeOperate (who : Who) (p : Port) (s : State) : Host.Outcome State Fault Refusal :=
  powered s (fun s => s.fieldCmd who F.SER_PORT_CTRL.MODE p.val 0)

/-- POWER_DOWN (R115). -/
def execPowerDown (who : Who) (p : Port) (s : State) : Host.Outcome State Fault Refusal :=
  powered s (fun s => s.fieldCmd who F.SER_PORT_CTRL.POWER_DOWN p.val 1)

/-- FFE_REQ (R106). -/
def execFfeReq (p : Port) (lane seq : Nat) (dpre dpost : Int) (s : State) : Host.Outcome State Fault Refusal :=
  running s (fun s => s.upLink p.val (fun s => s.ffeReq p.val lane seq dpre dpost))

/-- FFE_ACK (R106). -/
def execFfeAck (p : Port) (lane seq : Nat) (s : State) : Host.Outcome State Fault Refusal :=
  running s (fun s => s.upLink p.val (fun s => s.ffeAck p.val lane seq))

/-- WIDTH_REQ (R98). -/
def execWidthReq (p : Port) (lane seq width atBeat : Nat) (s : State) : Host.Outcome State Fault Refusal :=
  running s (fun s => s.upLink p.val (fun s => s.widthReqMsg p.val lane seq width atBeat))

/-- WIDTH_ACK (R98). -/
def execWidthAck (p : Port) (lane seq status : Nat) (s : State) : Host.Outcome State Fault Refusal :=
  running s (fun s => s.upLink p.val (fun s => s.widthAckMsg p.val lane seq status))

/-- WIDTH_REQ_REPEAT (R98). -/
def execWidthReqRepeat (p : Port) (s : State) : Host.Outcome State Fault Refusal := running s (fun s => s.widthReqRepeat p.val)

/-- WIDTH_CHANGE (R99). -/
def execWidthChange (p : Port) (s : State) : Host.Outcome State Fault Refusal := running s (fun s => s.widthChange p.val)

/-- WIDTH_MARKER (R99). -/
def execWidthMarker (p : Port) (s : State) : Host.Outcome State Fault Refusal := running s (fun s => s.widthMarkerSeen p.val)

/-- REACQUISITION (R103). -/
def execReacquisition (p : Port) (s : State) : Host.Outcome State Fault Refusal := running s (fun s => s.reacquisition p.val)

/-- REACQUISITION_END (R100). -/
def execReacquisitionEnd (p : Port) (start : Nat) (syms : List Level) (e : EqVals) (s : State) : Host.Outcome State Fault Refusal :=
  running s (fun s => s.reacquisitionEnd p.val ⟨start, syms⟩ e)

/-- EQ_FREEZE_END (R109). -/
def execEqFreezeEnd (l : Lane) (s : State) : Host.Outcome State Fault Refusal := running s (fun s => s.eqFreezeEnd l.val)

/-- INJECT (R114): a write of SER_TEST with its bit. -/
def execInject (who : Who) (l : Lane) (s : State) : Host.Outcome State Fault Refusal :=
  powered s (fun s => s.fieldCmd who F.SER_TEST.INJECT l.val 1)

/-- CLEAR (R114). -/
def execClear (who : Who) (l : Lane) (s : State) : Host.Outcome State Fault Refusal :=
  powered s (fun s => s.fieldCmd who F.SER_TEST.CLEAR l.val 1)

/-- CHECKER_LOCK (R114): the symbols up to the moment at which the checker's LOCK may change. -/
def execCheckerLock (l : Lane) (before during after : List Level) (s : State) : Host.Outcome State Fault Refusal :=
  running s (fun s => s.laneTest l.val (before ++ during ++ after))

end Sys2Proof.Machine
end

