-- ==== Sys2Proof/Machine/ExecLink.lean ====
section
/-! DEFINITION. The meanings of the link commands (04_link_layer.md). -/

namespace Sys2Proof.Machine

/-- FLIT_RECEIVE (R124). -/
def execFlitReceive (p : Port) (rx : List Level × List Level) (stamp : Stamp) (s : State) : Host.Outcome State Fault Refusal :=
  running s (fun s => s.flitReceive p.val rx.1 rx.2 stamp)

/-- A link NAK (R127). -/
def execNak (p : Port) (x : Nat) (s : State) : Host.Outcome State Fault Refusal :=
  running s (fun s => if s.lnkState p.val = lnkInit ∨ s.lnkState p.val = lnkUp then s.takeNak p.val (x % 4096) else s)

/-- FENCE (R143). -/
def execFence (p : Port) (reason : Nat) (s : State) : Host.Outcome State Fault Refusal := running s (fun s => s.takeFence p.val reason)

/-- CREDIT (R167). -/
def execCredit (p : Port) (words : Bytes) (s : State) : Host.Outcome State Fault Refusal :=
  running s (fun s => s.upLink p.val (fun s => s.creditMsg p.val 16 words))

/-- FLIT_TRANSMIT (R132); a port that fences goes on to send while the device resets or spills (R142). -/
def execFlitTransmit (p : Port) (stamp : Stamp) (s : State) : Host.Outcome State Fault Refusal :=
  powered s (fun s => s.slotRead p.val stamp)

/-- NAK_RETRY (R125). -/
def execNakRetry (p : Port) (s : State) : Host.Outcome State Fault Refusal := running s (fun s => s.nakRetry p.val)

/-- ACK_TIMEOUT (R128). -/
def execAckTimeout (p : Port) (s : State) : Host.Outcome State Fault Refusal := running s (fun s => s.ackTimeout p.val)

/-- HEALTH_WINDOW_RESTART (R137). -/
def execHealthWindowRestart (p : Port) (s : State) : Host.Outcome State Fault Refusal := running s (fun s => s.healthRestart p.val)

/-- NOPROG_US (R138). -/
def execNoprogUs (p : Port) (noFlit : Bool) (s : State) : Host.Outcome State Fault Refusal := running s (fun s => s.noProgress p.val noFlit)

/-- INIT_TIMEOUT (R139). -/
def execInitTimeout (p : Port) (s : State) : Host.Outcome State Fault Refusal := running s (fun s => s.initTimeout p.val)

/-- FENCE_COMPLETE (R142). -/
def execFenceComplete (p : Port) (s : State) : Host.Outcome State Fault Refusal := powered s (fun s => s.fenceDone p.val)

/-- CORRUPT (R146): a write of LNK_PORT_CTRL with its bit. -/
def execCorrupt (who : Who) (p : Port) (s : State) : Host.Outcome State Fault Refusal :=
  powered s (fun s => s.regCmd who .LNK_PORT_CTRL p.val 1)

end Sys2Proof.Machine
end

