-- ==== Sys2Proof/Machine/ExecMailbox.lean ====
section
/-! DEFINITION. The meanings of the mailbox requests (Table 15.9) and of the MCTP control commands (R423). -/

namespace Sys2Proof.Machine

/-- IDENT (R424). -/
def execIdent (who : Mbx) (tag : Nat) (s : State) : Host.Outcome State Fault Refusal := powered s (fun s => s.mbxRequest who tag 0x01 [])

/-- REG_READ (R448): an offset, with what the collector's check finds where it is reached (R387), and a count. -/
def execRegRead (who : Mbx) (tag : Nat) (off : Checked) (count : Nat) (s : State) : Host.Outcome State Fault Refusal :=
  powered s (fun s => s.mbxRequest who tag 0x02 (leBytes 8 off.val ++ leBytes 4 count) (blown := !off.parity))

/-- REG_WRITE (R448). -/
def execRegWrite (who : Mbx) (tag : Nat) (off : Checked) (v : Nat) (s : State) : Host.Outcome State Fault Refusal :=
  powered s (fun s => s.mbxRequest who tag 0x03 (leBytes 8 off.val ++ leBytes 8 v) (blown := !off.parity))

/-- TELEMETRY (R424). -/
def execTelemetry (who : Mbx) (tag : Nat) (s : State) : Host.Outcome State Fault Refusal :=
  powered s (fun s => s.mbxRequest who tag 0x04 [])

/-- BEAT_READ (R424). -/
def execBeatRead (who : Mbx) (tag : Nat) (s : State) : Host.Outcome State Fault Refusal :=
  powered s (fun s => s.mbxRequest who tag 0x05 [])

/-- SPILL (R389). -/
def execMailboxSpill (who : Mbx) (tag key : Nat) (s : State) : Host.Outcome State Fault Refusal :=
  powered s (fun s => s.mbxRequest who tag 0x06 (leBytes 1 key))

/-- UNIT_RESET (R420). -/
def execUnitReset (who : Mbx) (tag mask : Nat) (s : State) : Host.Outcome State Fault Refusal :=
  powered s (fun s => s.mbxRequest who tag 0x07 (leBytes 8 mask))

/-- PORT_RESET (R421). -/
def execPortReset (who : Mbx) (tag mask : Nat) (s : State) : Host.Outcome State Fault Refusal :=
  powered s (fun s => s.mbxRequest who tag 0x08 (leBytes 8 mask))

/-- LANE_POWER (R115). -/
def execLanePower (who : Mbx) (tag mask down : Nat) (s : State) : Host.Outcome State Fault Refusal :=
  powered s (fun s => s.mbxRequest who tag 0x09 (leBytes 8 mask ++ leBytes 1 down))

/-- DEVICE_RESET (R418). -/
def execDeviceReset (who : Mbx) (tag : Nat) (s : State) : Host.Outcome State Fault Refusal :=
  powered s (fun s => s.mbxRequest who tag 0x0A [])

/-- FLASH_READ (R424). -/
def execFlashRead (who : Mbx) (tag off len : Nat) (s : State) : Host.Outcome State Fault Refusal :=
  powered s (fun s => s.mbxRequest who tag 0x10 (leBytes 4 off ++ leBytes 4 len))

/-- FLASH_ERASE (R424). -/
def execFlashErase (who : Mbx) (tag off : Nat) (s : State) : Host.Outcome State Fault Refusal :=
  powered s (fun s => s.mbxRequest who tag 0x11 (leBytes 4 off))

/-- FLASH_WRITE (R424). -/
def execFlashWrite (who : Mbx) (tag off : Nat) (data : Bytes) (s : State) : Host.Outcome State Fault Refusal :=
  powered s (fun s => s.mbxRequest who tag 0x12 (leBytes 4 off ++ data))

/-- SLOT_CHECK (R424). -/
def execSlotCheck (who : Mbx) (tag slot : Nat) (s : State) : Host.Outcome State Fault Refusal :=
  powered s (fun s => s.mbxRequest who tag 0x13 (leBytes 1 slot))

/-- PUSH_BEGIN (R425). -/
def execPushBegin (who : Mbx) (tag hot len : Nat) (s : State) : Host.Outcome State Fault Refusal :=
  powered s (fun s => s.mbxRequest who tag 0x18 (leBytes 1 hot ++ leBytes 4 len))

/-- PUSH_DATA (R425). -/
def execPushData (who : Mbx) (tag off : Nat) (data : Bytes) (s : State) : Host.Outcome State Fault Refusal :=
  powered s (fun s => s.mbxRequest who tag 0x19 (leBytes 4 off ++ data))

/-- PUSH_END (R425), with NOW in FLAGS. -/
def execPushEnd (who : Mbx) (tag : Nat) (now : Bool) (s : State) : Host.Outcome State Fault Refusal :=
  powered s (fun s => s.mbxRequest who tag 0x1A [] (flags := 2 * b2n now))

/-- FUSE_KEY (R70); `blown` says that the fuses read back right. -/
def execFuseKey (who : Mbx) (tag slot : Nat) (hash : Bytes) (blown : Bool) (s : State) : Host.Outcome State Fault Refusal :=
  powered s (fun s => s.mbxRequest who tag 0x20 (leBytes 1 slot ++ hash) (blown := blown))

/-- FUSE_REVOKE (R71). -/
def execFuseRevoke (who : Mbx) (tag slot : Nat) (blown : Bool) (s : State) : Host.Outcome State Fault Refusal :=
  powered s (fun s => s.mbxRequest who tag 0x21 (leBytes 1 slot) (blown := blown))

/-- FUSE_FLOOR (R71). -/
def execFuseFloor (who : Mbx) (tag floor : Nat) (blown : Bool) (s : State) : Host.Outcome State Fault Refusal :=
  powered s (fun s => s.mbxRequest who tag 0x22 (leBytes 1 floor) (blown := blown))

/-- PEG_TAKE (R425). -/
def execMailboxPegTake (who : Mbx) (tag peg : Nat) (s : State) : Host.Outcome State Fault Refusal :=
  powered s (fun s => s.mbxRequest who tag 0x28 (leBytes 2 peg))

/-- PEG_RELEASE (R349). -/
def execMailboxPegRelease (who : Mbx) (tag peg : Nat) (s : State) : Host.Outcome State Fault Refusal :=
  powered s (fun s => s.mbxRequest who tag 0x29 (leBytes 2 peg))

/-- PEG_SUPERVISOR (R351). -/
def execPegSupervisor (who : Mbx) (tag mask : Nat) (s : State) : Host.Outcome State Fault Refusal :=
  powered s (fun s => s.mbxRequest who tag 0x2A (leBytes 1 mask))

/-- GO (R425): a PF writes FMN_MB_CTRL. -/
def execGo (p : Fin 4) (s : State) : Host.Outcome State Fault Refusal := powered s (fun s => s.regCmd (.fn (.pf p)) .FMN_MB_CTRL 0 1)

/-- Set Endpoint ID (R423). -/
def execSetEndpointId (src eid : Nat) (s : State) : Host.Outcome State Fault Refusal := powered s (fun s => s.setEid src eid)

/-- Get Endpoint ID (R423). -/
def execGetEndpointId (src : Nat) (s : State) : Host.Outcome State Fault Refusal := powered s (fun s => s.getEid src)

/-- Get MCTP Version Support (R423). -/
def execGetMctpVersionSupport (src _ty : Nat) (s : State) : Host.Outcome State Fault Refusal := powered s (fun s => s.mctpVersions src)

/-- Get Message Type Support (R423). -/
def execGetMessageTypeSupport (src : Nat) (s : State) : Host.Outcome State Fault Refusal := powered s (fun s => s.mctpTypes src)

/-- Get Vendor Defined Message Support (R423). -/
def execGetVendorDefinedMessage (src sel : Nat) (s : State) : Host.Outcome State Fault Refusal :=
  powered s (fun s => s.mctpVendor src sel)

end Sys2Proof.Machine
end

