-- ==== Sys2Proof/Machine/ExecMat.lean ====
section
/-! DEFINITION. The meanings of the message matching commands (09_message_matching.md). -/

namespace Sys2Proof.Machine

/-- Work of the engine that holds an ML, once the page entries of the ML's own regions are there (R260). -/
def State.onMl (s : State) (m : Nat) (f : State → State) : State :=
  match s.ml m with
  | some x => if (s.mlPages x).isEmpty then s.onEngine x.engine (fun s => f (s.reads (.ml m))) else s.pagesAsk (s.mlPages x)
  | none => s

/-- ML_CREATE (R285): a write of MAT_ML_CMD. -/
def execMlCreate (f : Fn) (s : State) : Host.Outcome State Fault Refusal := powered s (fun s => s.regCmd (.fn f) .MAT_ML_CMD 0 1)

/-- ML_DESTROY (R287). -/
def execMlDestroy (f : Fn) (m : Nat) (s : State) : Host.Outcome State Fault Refusal :=
  powered s (fun s => s.regCmd (.fn f) .MAT_ML_CMD 0 (m % 4096 * 65536 + 2))

/-- SEND_ENTRY (R291). -/
def execSendEntry (s : State) : Host.Outcome State Fault Refusal := running s (fun s => s.serveEntry (· == oSend))

/-- RECV_ENTRY (R293). -/
def execRecvEntry (s : State) : Host.Outcome State Fault Refusal := running s (fun s => s.serveEntry (· == oRecv))

/-- CANCEL_ENTRY (R294). -/
def execCancelEntry (s : State) : Host.Outcome State Fault Refusal := running s (fun s => s.serveEntry (· == oCancel))

/-- MSG_EAGER (R297). -/
def execMsgEager (s : State) : Host.Outcome State Fault Refusal := running s (fun s => s.unitPacket uMAT 0x40 State.request)

/-- MSG_RTS (R297). -/
def execMsgRts (s : State) : Host.Outcome State Fault Refusal := running s (fun s => s.unitPacket uMAT 0x41 State.request)

/-- MSG_FIN (R304). -/
def execMsgFin (s : State) : Host.Outcome State Fault Refusal := running s (fun s => s.unitPacket uMAT 0x42 State.request)

/-- MATCH_EVENT (R299), on the engine that holds the ML. -/
def execMatchEvent (m : Nat) (s : State) : Host.Outcome State Fault Refusal := running s (fun s => s.onMl m (fun s => s.matchNext m))

/-- SPILL_READ_DONE (R302). -/
def execSpillReadDone (m : Nat) (a : Ans) (s : State) : Host.Outcome State Fault Refusal :=
  running s (fun s => s.onMl m (fun s => s.spillDone m a))

/-- SPILL_REFILL (R302). -/
def execSpillRefill (m : Nat) (a : Ans) (s : State) : Host.Outcome State Fault Refusal :=
  running s (fun s => s.onMl m (fun s => s.spillRefill m a))

/-- RENDEZVOUS_START (R304). -/
def execRendezvousStart (s : State) : Host.Outcome State Fault Refusal :=
  running s (fun s => if s.gatedEngines then s.wake none else s.rdvStart)

end Sys2Proof.Machine
end

