-- ==== Sys2Proof/Machine/ExecMct.lean ====
section
/-! DEFINITION. The meanings of the multicast and Confluence commands (06_multicast_and_confluence.md). -/

namespace Sys2Proof.Machine

/-- MC_PUT_ENTRY (R189). -/
def execMcPutEntry (s : State) : Host.Outcome State Fault Refusal := running s (fun s => s.serveEntry (· == oMcPut))

/-- MC_PUT (R193). -/
def execMcPut (s : State) : Host.Outcome State Fault Refusal := running s State.replica

/-- COLLECTIVE_ENTRY (R202). -/
def execCollectiveEntry (s : State) : Host.Outcome State Fault Refusal := running s (fun s => s.serveEntry (· == oColl))

/-- CF_UP (R206). -/
def execCfUp (s : State) : Host.Outcome State Fault Refusal := running s (fun s => s.treePacket 0x88 (fun s b => s.onChunk true b))

/-- CF_DOWN (R206). -/
def execCfDown (s : State) : Host.Outcome State Fault Refusal := running s (fun s => s.treePacket 0x89 (fun s b => s.onChunk false b))

/-- CF_GRANT (R201). -/
def execCfGrant (s : State) : Host.Outcome State Fault Refusal := running s (fun s => s.treePacket 0x8A State.onGrant)

/-- CF_ABORT (R200). -/
def execCfAbort (s : State) : Host.Outcome State Fault Refusal := running s (fun s => s.treePacket 0x8B State.onAbort)

/-- CHUNK_COMBINE (R207), on the tree's engine. -/
def execChunkCombine (t seq c : Nat) (s : State) : Host.Outcome State Fault Refusal :=
  running s (fun s => s.onEngine (s.rd F.MCT_TREE_STATUS.ENGINE t) (fun s => (s.reads (.tree t)).chunkCombine t seq c))

/-- CHUNK_SEND (R198): to the parent (0) or a child. -/
def execChunkSend (t seq c i : Nat) (s : State) : Host.Outcome State Fault Refusal := running s (fun s => (s.reads (.tree t)).chunkSend t seq c i)

/-- PHASE_TIMEOUT (R210). -/
def execPhaseTimeout (t : Nat) (s : State) : Host.Outcome State Fault Refusal :=
  running s (fun s => if s.task 0 then s.phaseTimeout t else s)

/-- TREE_LOAD (R195): a write of MCT_TREE_CMD. -/
def execTreeLoad (who : Who) (t : Nat) (s : State) : Host.Outcome State Fault Refusal :=
  powered s (fun s => s.regCmd who .MCT_TREE_CMD 0 (t % 1024 * 16 + 1))

/-- TREE_RESET (R213), with the new epoch. -/
def execTreeReset (who : Who) (t epoch : Nat) (s : State) : Host.Outcome State Fault Refusal :=
  powered s (fun s => s.regCmd who .MCT_TREE_CMD 0 (epoch % 65536 * 65536 + t % 1024 * 16 + 2))

/-- TREE_UNLOAD (R200). -/
def execTreeUnload (who : Who) (t : Nat) (s : State) : Host.Outcome State Fault Refusal :=
  powered s (fun s => s.regCmd who .MCT_TREE_CMD 0 (t % 1024 * 16 + 3))

/-- TREE_ABORT (R200). -/
def execTreeAbort (who : Who) (t : Nat) (s : State) : Host.Outcome State Fault Refusal :=
  powered s (fun s => s.regCmd who .MCT_TREE_CMD 0 (t % 1024 * 16 + 4))

end Sys2Proof.Machine
end

