-- ==== Sys2Proof/Machine/ExecPeg.lean ====
section
/-! DEFINITION. The meanings of the Peg commands (11_pegs.md). -/

namespace Sys2Proof.Machine

/-- PEG_TAKE: a read (R344). -/
def execPegTake (f : ReadBy Fn) (j : Nat) (s : State) : Host.Outcome State Fault Refusal :=
  powered s (fun s => s.pegRead f.src j false f.whole)

/-- PEG_TRY: a read (R344). -/
def execPegTry (f : ReadBy Fn) (j : Nat) (s : State) : Host.Outcome State Fault Refusal :=
  powered s (fun s => s.pegRead f.src j true f.whole)

/-- PEG_RELEASE: a write (R349). -/
def execPegRelease (f : Fn) (j : Nat) (s : State) : Host.Outcome State Fault Refusal :=
  powered s (fun s => s.regCmd (.fn f) .PEG_RELEASE j 1)

/-- WATCH: a write of PEG_WATCH (R347). -/
def execWatch (f : Fn) (j : Nat) (s : State) : Host.Outcome State Fault Refusal := powered s (fun s => s.regCmd (.fn f) .PEG_WATCH j 1)

/-- CANCEL: a write of PEG_WATCH (R347). -/
def execCancel (f : Fn) (j : Nat) (s : State) : Host.Outcome State Fault Refusal := powered s (fun s => s.regCmd (.fn f) .PEG_WATCH j 2)

/-- FORCE_RELEASE: a write of PEG_FORCE (R351). -/
def execForceRelease (pf : Fin 4) (i : Nat) (s : State) : Host.Outcome State Fault Refusal :=
  powered s (fun s => s.regCmd (.fn (.pf pf)) .PEG_FORCE 0 (i % 4096 * 65536 + 1))

/-- FLUSH_WAITERS: a write of PEG_FORCE (R351). -/
def execFlushWaiters (pf : Fin 4) (i : Nat) (s : State) : Host.Outcome State Fault Refusal :=
  powered s (fun s => s.regCmd (.fn (.pf pf)) .PEG_FORCE 0 (i % 4096 * 65536 + 2))

/-- STALL_LIMIT (R345). -/
def execStallLimit (f : Fn) (j : Nat) (s : State) : Host.Outcome State Fault Refusal := running s (fun s => s.pegStallLimit f j)

end Sys2Proof.Machine
end

