-- ==== Sys2Proof/Machine/ExecPower.lean ====
section
/-! DEFINITION. The meanings of the commands of stored data protection, of the fault collector, of power and wear
(12_stored_data_protection.md, 13_faults_and_spillway.md, 14_power_thermal_wear.md). -/

namespace Sys2Proof.Machine

/-- SCRUB_READ (R363). -/
def execScrubRead (r : Fin 8) (dUp cUp : Nat) (o : Option EObj) (s : State) : Host.Outcome State Fault Refusal :=
  running s (fun s => s.scrubRead r.val dUp cUp o)

/-- CORRECTED_WRITE_BACK (R361). -/
def execCorrectedWriteBack (r : Fin 8) (w : Nat) (s : State) : Host.Outcome State Fault Refusal :=
  running s (fun s => s.writeBack r.val w)

/-- ECC_LAP_MISSED (R364). -/
def execEccLapMissed (r : Fin 8) (s : State) : Host.Outcome State Fault Refusal := running s (fun s => s.lapMissed r.val)

/-- ECC_WIN: a read (R367). -/
def execEccWinRead (who : ReadBy Who) (k : Nat) (s : State) : Host.Outcome State Fault Refusal :=
  powered s (fun s => s.sharedOut who.src .ECC_WIN k 0 0 who.whole)

/-- ECC_WIN: a write (R368). -/
def execEccWinWrite (who : Who) (k v : Nat) (s : State) : Host.Outcome State Fault Refusal :=
  powered s (fun s => s.regCmd who .ECC_WIN k v)

/-- ECC_WIN_SEL: a write (R367). -/
def execEccWinSel (who : Who) (v : Nat) (s : State) : Host.Outcome State Fault Refusal :=
  powered s (fun s => s.regCmd who .ECC_WIN_SEL 0 v)

/-- FLT_FORCE: a write (R381). -/
def execFltForce (who : Who) (w : Fin 8) (v : Checked) (s : State) : Host.Outcome State Fault Refusal :=
  powered s (fun s => s.fltForce who w.val v)

/-- SPILL: a write of FLT_CTRL with its bit and a key (R389). -/
def execSpill (who : Who) (key : Nat) (s : State) : Host.Outcome State Fault Refusal :=
  powered s (fun s => s.regCmd who .FLT_CTRL 0 (s.fieldWord who F.FLT_CTRL.SPILL 0 1 + key % 256 * 2 ^ 56))

/-- ESC_WINDOW_RESTART (R376). -/
def execEscWindowRestart (s : State) : Host.Outcome State Fault Refusal := running s State.escRestart

/-- POWER_STATE_ENTRY (R392). -/
def execPowerStateEntry (s : State) : Host.Outcome State Fault Refusal := running s State.powerEntry

/-- WAKE_CAUSE (R392). -/
def execWakeCause (bay : Option (Fin 16)) (s : State) : Host.Outcome State Fault Refusal :=
  running s (fun s => s.wake (bay.map (fun b => b.val)))

/-- WAKE_COMPLETE (R393). -/
def execWakeComplete (s : State) : Host.Outcome State Fault Refusal := running s State.wakeComplete

/-- PWR_VR_FAULT (R399). -/
def execPwrVrFault (i : Fin 4) (s : State) : Host.Outcome State Fault Refusal := running s (fun s => s.vrFault i.val)

/-- GRAIN_SAMPLE (R403). -/
def execGrainSample (rs : List (Option Nat)) (day : Bool) (s : State) : Host.Outcome State Fault Refusal :=
  running s (fun s => s.grainSample rs day)

end Sys2Proof.Machine
end

