-- ==== Sys2Proof/Machine/ExecRma.lean ====
section
/-! DEFINITION. The meanings of the remote memory access commands (08_remote_memory_access.md). -/

namespace Sys2Proof.Machine

/-- REG_ENABLE (R258): a write of RMA_REG_CMD. -/
def execRegEnable (f : Fn) (idx : Nat) (s : State) : Host.Outcome State Fault Refusal :=
  powered s (fun s => s.regCmd (.fn f) .RMA_REG_CMD 0 (idx % 2 ^ 24 * 256 + 1))

/-- REG_DISABLE (R259). -/
def execRegDisable (f : Fn) (idx : Nat) (s : State) : Host.Outcome State Fault Refusal :=
  powered s (fun s => s.regCmd (.fn f) .RMA_REG_CMD 0 (idx % 2 ^ 24 * 256 + 2))

/-- REG_DISABLE_COMPLETE (R259). -/
def execRegDisableComplete (f : Fn) (s : State) : Host.Outcome State Fault Refusal := running s (fun s => s.regClose f)

/-- RMA_QINFO (R262): a read. -/
def execRmaQinfo (f : ReadBy Fn) (s : State) : Host.Outcome State Fault Refusal := powered s (fun s => s.qinfo f.src f.whole)

/-- PUT_ENTRY (R265). -/
def execPutEntry (s : State) : Host.Outcome State Fault Refusal := running s (fun s => s.serveEntry (· == oPut))

/-- PUT_IMM_ENTRY (R265). -/
def execPutImmEntry (s : State) : Host.Outcome State Fault Refusal := running s (fun s => s.serveEntry (· == oPutImm))

/-- GET_ENTRY (R267). -/
def execGetEntry (s : State) : Host.Outcome State Fault Refusal := running s (fun s => s.serveEntry (· == oGet))

/-- ATOMIC_ENTRY (R264). -/
def execAtomicEntry (s : State) : Host.Outcome State Fault Refusal := running s (fun s => s.serveEntry (· == oAtomic))

/-- PUT (R272). -/
def execPut (s : State) : Host.Outcome State Fault Refusal := running s (fun s => s.unitPacket uRMA 0x10 State.request)

/-- PUT_IMM (R273). -/
def execPutImm (s : State) : Host.Outcome State Fault Refusal := running s (fun s => s.unitPacket uRMA 0x11 State.request)

/-- GET_REQ (R274). -/
def execGetReq (s : State) : Host.Outcome State Fault Refusal := running s (fun s => s.unitPacket uRMA 0x12 State.request)

/-- ATOMIC_REQ (R274). -/
def execAtomicReq (s : State) : Host.Outcome State Fault Refusal := running s (fun s => s.unitPacket uRMA 0x13 State.request)

/-- ATOMIC_COMPLETE (R274): atomic `i` in progress. -/
def execAtomicComplete (i : Nat) (a : Ans) (s : State) : Host.Outcome State Fault Refusal :=
  running s (fun s => if s.gatedEngines then s.wake none else (s.engineReads 3).atomDone i a)

/-- ACK_DELAY (R272). -/
def execAckDelay (g : Nat) (s : State) : Host.Outcome State Fault Refusal := running s (fun s => s.ackDelay g)

/-- ACK (R278). -/
def execAck (s : State) : Host.Outcome State Fault Refusal := running s (fun s => s.answerPacket 0x20 State.onAck)

/-- NAK (R280). -/
def execNakPacket (s : State) : Host.Outcome State Fault Refusal := running s (fun s => s.answerPacket 0x21 State.onNak)

/-- GET_RESP (R278). -/
def execGetResp (s : State) : Host.Outcome State Fault Refusal := running s (fun s => s.answerPacket 0x22 (fun s b => s.onResp 0x12 b))

/-- ATOMIC_RESP (R278). -/
def execAtomicResp (s : State) : Host.Outcome State Fault Refusal :=
  running s (fun s => s.answerPacket 0x23 (fun s b => s.onResp 0x13 b))

/-- RTO_EXPIRE (R279). -/
def execRtoExpire (g : Nat) (s : State) : Host.Outcome State Fault Refusal := running s (fun s => s.rtoExpire g)

/-- BACKOFF_EXPIRE (R280). -/
def execBackoffExpire (g psn : Nat) (s : State) : Host.Outcome State Fault Refusal := running s (fun s => s.backoffExpire g psn)

/-- ATOMIC_RECORD_EXPIRE (R274). -/
def execAtomicRecordExpire (g psn : Nat) (s : State) : Host.Outcome State Fault Refusal := running s (fun s => s.recExpire g psn)

end Sys2Proof.Machine
end

