-- ==== Sys2Proof/Machine/ExecRoute.lean ====
section
/-! DEFINITION. The meanings of the router's and of the management commands (05_routing_and_flow_control.md). -/

namespace Sys2Proof.Machine

/-- PACKET_ARRIVE (R155). -/
def execPacketArrive (p : Port) (s : State) : Host.Outcome State Fault Refusal := running s (fun s => s.arriveRead p.val)

/-- PACKET_INJECT (R159). -/
def execPacketInject (i : Nat) (s : State) : Host.Outcome State Fault Refusal := running s (fun s => s.injectRead i)

/-- PACKET_FORWARD (R172): with `lost`, the packet's word of that index in a held code word is uncorrectable (Table 12.3). -/
def execPacketForward (out : Fin 65) (lost : Option Nat) (s : State) : Host.Outcome State Fault Refusal :=
  running s (fun s => s.forwardRead out.val lost)

/-- LIMITER_FREE (R175). -/
def execLimiterFree (node : Nat) (s : State) : Host.Outcome State Fault Refusal := running s (fun s => s.limiterFree node)

/-- ECHO (R174): the packet is consumed with its mark. -/
def execEcho (s : State) : Host.Outcome State Fault Refusal := running s (fun s => s.unitPacket uRTE 0x04 (fun s _ => s))

/-- MGMT_WRITE (R182). -/
def execMgmtWrite (s : State) : Host.Outcome State Fault Refusal := running s (fun s => s.unitPacket uRTE 0x01 State.mgmtWrite)

/-- MGMT_READ (R182). -/
def execMgmtRead (cycle sub : Nat) (s : State) : Host.Outcome State Fault Refusal :=
  running s (fun s => s.unitPacket uRTE 0x02 (fun s b => s.mgmtRead b cycle sub))

/-- MGMT_RESP (R182): consumed. -/
def execMgmtResp (s : State) : Host.Outcome State Fault Refusal := running s (fun s => s.unitPacket uRTE 0x03 (fun s _ => s))

end Sys2Proof.Machine
end

