-- ==== Sys2Proof/Machine/Dispatch.lean ====
section
/-! DEFINITION. The meaning of each command, arm by arm. -/

namespace Sys2Proof.Machine

/-- The effect of a command on everything but the queue. -/
def exec (i : Instr) (s : State) : Host.Outcome State Fault Refusal :=
  match i with
  | .registerWrite f bar addr size value parity => Sys2Proof.Machine.execRegisterWrite f bar addr size value parity s
  | .unitEnable who u => Sys2Proof.Machine.execUnitEnable who u s
  | .unitDisable who u => Sys2Proof.Machine.execUnitDisable who u s
  | .beatBoundary m => Sys2Proof.Machine.execBeatBoundary m s
  | .powerStateEntry => Sys2Proof.Machine.execPowerStateEntry s
  | .armedCommit => Sys2Proof.Machine.execArmedCommit s
  | .beaCommitArm who value => Sys2Proof.Machine.execBeaCommitArm who value s
  | .beaCommitAt who value => Sys2Proof.Machine.execBeaCommitAt who value s
  | .beaCount who cycle sub => Sys2Proof.Machine.execBeaCount who cycle sub s
  | .beatXchgSend p => Sys2Proof.Machine.execBeatXchgSend p s
  | .beatXchgRequest p m t2 => Sys2Proof.Machine.execBeatXchgRequest p m t2 s
  | .beatXchgResponse p m t4 => Sys2Proof.Machine.execBeatXchgResponse p m t4 s
  | .upstreamLost => Sys2Proof.Machine.execUpstreamLost s
  | .holdoverLimit => Sys2Proof.Machine.execHoldoverLimit s
  | .masterAliveMissing => Sys2Proof.Machine.execMasterAliveMissing s
  | .listenWindowEnd => Sys2Proof.Machine.execListenWindowEnd s
  | .ppsEdge cycle sub ms => Sys2Proof.Machine.execPpsEdge cycle sub ms s
  | .beatRefLost => Sys2Proof.Machine.execBeatRefLost s
  | .pwrokRise hostBif smbAddr => Sys2Proof.Machine.execPwrokRise hostBif smbAddr s
  | .pwrokFall => Sys2Proof.Machine.execPwrokFall s
  | .rom fuse pll parity => Sys2Proof.Machine.execRom fuse pll parity s
  | .firmware => Sys2Proof.Machine.execFirmware s
  | .bist repairs bad bays => Sys2Proof.Machine.execBist repairs bad bays s
  | .load ms => Sys2Proof.Machine.execLoad ms s
  | .warmRstLAssert => Sys2Proof.Machine.execWarmRstLAssert s
  | .warmRstLRelease => Sys2Proof.Machine.execWarmRstLRelease s
  | .glbDeviceReset who value => Sys2Proof.Machine.execGlbDeviceReset who value s
  | .glbUnitReset who value => Sys2Proof.Machine.execGlbUnitReset who value s
  | .unitResetComplete u => Sys2Proof.Machine.execUnitResetComplete u s
  | .glbPortReset who value => Sys2Proof.Machine.execGlbPortReset who value s
  | .corePllUnlock parity => Sys2Proof.Machine.execCorePllUnlock parity s
  | .fuseRead ok parity => Sys2Proof.Machine.execFuseRead ok parity s
  | .watchdogExpire => Sys2Proof.Machine.execWatchdogExpire s
  | .foremanRestartDone => Sys2Proof.Machine.execForemanRestartDone s
  | .routesReady who on => Sys2Proof.Machine.execRoutesReady who on s
  | .pushBegin who tag hot len => Sys2Proof.Machine.execPushBegin who tag hot len s
  | .pushData who tag off data => Sys2Proof.Machine.execPushData who tag off data s
  | .pushEnd who tag now => Sys2Proof.Machine.execPushEnd who tag now s
  | .trsSlotCheck who value => Sys2Proof.Machine.execTrsSlotCheck who value s
  | .slotCheckComplete k => Sys2Proof.Machine.execSlotCheckComplete k s
  | .ident who tag => Sys2Proof.Machine.execIdent who tag s
  | .regRead who tag off count => Sys2Proof.Machine.execRegRead who tag off count s
  | .regWrite who tag off value => Sys2Proof.Machine.execRegWrite who tag off value s
  | .telemetry who tag => Sys2Proof.Machine.execTelemetry who tag s
  | .beatRead who tag => Sys2Proof.Machine.execBeatRead who tag s
  | .mailboxSpill who tag key => Sys2Proof.Machine.execMailboxSpill who tag key s
  | .unitReset who tag mask => Sys2Proof.Machine.execUnitReset who tag mask s
  | .portReset who tag mask => Sys2Proof.Machine.execPortReset who tag mask s
  | .lanePower who tag mask down => Sys2Proof.Machine.execLanePower who tag mask down s
  | .deviceReset who tag => Sys2Proof.Machine.execDeviceReset who tag s
  | .flashRead who tag off len => Sys2Proof.Machine.execFlashRead who tag off len s
  | .flashErase who tag off => Sys2Proof.Machine.execFlashErase who tag off s
  | .flashWrite who tag off data => Sys2Proof.Machine.execFlashWrite who tag off data s
  | .slotCheck who tag slot => Sys2Proof.Machine.execSlotCheck who tag slot s
  | .fuseKey who tag slot hash blown => Sys2Proof.Machine.execFuseKey who tag slot hash blown s
  | .fuseRevoke who tag slot blown => Sys2Proof.Machine.execFuseRevoke who tag slot blown s
  | .fuseFloor who tag floor blown => Sys2Proof.Machine.execFuseFloor who tag floor blown s
  | .mailboxPegTake who tag peg => Sys2Proof.Machine.execMailboxPegTake who tag peg s
  | .mailboxPegRelease who tag peg => Sys2Proof.Machine.execMailboxPegRelease who tag peg s
  | .pegSupervisor who tag mask => Sys2Proof.Machine.execPegSupervisor who tag mask s
  | .setEndpointId src eid => Sys2Proof.Machine.execSetEndpointId src eid s
  | .getEndpointId src => Sys2Proof.Machine.execGetEndpointId src s
  | .getMctpVersionSupport src ty => Sys2Proof.Machine.execGetMctpVersionSupport src ty s
  | .getMessageTypeSupport src => Sys2Proof.Machine.execGetMessageTypeSupport src s
  | .getVendorDefinedMessage src sel => Sys2Proof.Machine.execGetVendorDefinedMessage src sel s
  | .go p => Sys2Proof.Machine.execGo p s
  | .calibrationDone p ok0 ok1 => Sys2Proof.Machine.execCalibrationDone p ok0 ok1 s
  | .capabilitySet p k raw peak => Sys2Proof.Machine.execCapabilitySet p k raw peak s
  | .countdownEnd p => Sys2Proof.Machine.execCountdownEnd p s
  | .capsTimeout p => Sys2Proof.Machine.execCapsTimeout p s
  | .trainUsEnd p e0 e1 => Sys2Proof.Machine.execTrainUsEnd p e0 e1 s
  | .checkUsEnd p r0 r1 => Sys2Proof.Machine.execCheckUsEnd p r0 r1 s
  | .resultBlock p k raw => Sys2Proof.Machine.execResultBlock p k raw s
  | .resultWaitEnd p => Sys2Proof.Machine.execResultWaitEnd p s
  | .retryMs p => Sys2Proof.Machine.execRetryMs p s
  | .laneLockLost p k => Sys2Proof.Machine.execLaneLockLost p k s
  | .pllUnlock c => Sys2Proof.Machine.execPllUnlock c s
  | .pllLock c => Sys2Proof.Machine.execPllLock c s
  | .restart who p => Sys2Proof.Machine.execRestart who p s
  | .modeTest who p => Sys2Proof.Machine.execModeTest who p s
  | .modeOperate who p => Sys2Proof.Machine.execModeOperate who p s
  | .powerDown who p => Sys2Proof.Machine.execPowerDown who p s
  | .ffeReq p lane seq dpre dpost => Sys2Proof.Machine.execFfeReq p lane seq dpre dpost s
  | .ffeAck p lane seq => Sys2Proof.Machine.execFfeAck p lane seq s
  | .widthReq p lane seq width atBeat => Sys2Proof.Machine.execWidthReq p lane seq width atBeat s
  | .widthAck p lane seq status => Sys2Proof.Machine.execWidthAck p lane seq status s
  | .widthReqRepeat p => Sys2Proof.Machine.execWidthReqRepeat p s
  | .widthChange p => Sys2Proof.Machine.execWidthChange p s
  | .widthMarker p => Sys2Proof.Machine.execWidthMarker p s
  | .reacquisition p => Sys2Proof.Machine.execReacquisition p s
  | .reacquisitionEnd p start syms e => Sys2Proof.Machine.execReacquisitionEnd p start syms e s
  | .eqFreezeEnd l => Sys2Proof.Machine.execEqFreezeEnd l s
  | .inject who l => Sys2Proof.Machine.execInject who l s
  | .clear who l => Sys2Proof.Machine.execClear who l s
  | .checkerLock l before during after => Sys2Proof.Machine.execCheckerLock l before during after s
  | .flitReceive p rx stamp => Sys2Proof.Machine.execFlitReceive p rx stamp s
  | .nak p x => Sys2Proof.Machine.execNak p x s
  | .fence p reason => Sys2Proof.Machine.execFence p reason s
  | .credit p words => Sys2Proof.Machine.execCredit p words s
  | .flitTransmit p stamp => Sys2Proof.Machine.execFlitTransmit p stamp s
  | .nakRetry p => Sys2Proof.Machine.execNakRetry p s
  | .ackTimeout p => Sys2Proof.Machine.execAckTimeout p s
  | .healthWindowRestart p => Sys2Proof.Machine.execHealthWindowRestart p s
  | .noprogUs p noFlit => Sys2Proof.Machine.execNoprogUs p noFlit s
  | .initTimeout p => Sys2Proof.Machine.execInitTimeout p s
  | .fenceComplete p => Sys2Proof.Machine.execFenceComplete p s
  | .corrupt who p => Sys2Proof.Machine.execCorrupt who p s
  | .packetArrive p => Sys2Proof.Machine.execPacketArrive p s
  | .packetInject k => Sys2Proof.Machine.execPacketInject k s
  | .packetForward out lost => Sys2Proof.Machine.execPacketForward out lost s
  | .limiterFree node => Sys2Proof.Machine.execLimiterFree node s
  | .echo => Sys2Proof.Machine.execEcho s
  | .mgmtWrite => Sys2Proof.Machine.execMgmtWrite s
  | .mgmtRead cycle sub => Sys2Proof.Machine.execMgmtRead cycle sub s
  | .mgmtResp => Sys2Proof.Machine.execMgmtResp s
  | .mcPutEntry => Sys2Proof.Machine.execMcPutEntry s
  | .mcPut => Sys2Proof.Machine.execMcPut s
  | .collectiveEntry => Sys2Proof.Machine.execCollectiveEntry s
  | .cfUp => Sys2Proof.Machine.execCfUp s
  | .cfDown => Sys2Proof.Machine.execCfDown s
  | .cfGrant => Sys2Proof.Machine.execCfGrant s
  | .cfAbort => Sys2Proof.Machine.execCfAbort s
  | .chunkCombine t seq c => Sys2Proof.Machine.execChunkCombine t seq c s
  | .chunkSend t seq c k => Sys2Proof.Machine.execChunkSend t seq c k s
  | .phaseTimeout t => Sys2Proof.Machine.execPhaseTimeout t s
  | .treeLoad who t => Sys2Proof.Machine.execTreeLoad who t s
  | .treeReset who t epoch => Sys2Proof.Machine.execTreeReset who t epoch s
  | .treeUnload who t => Sys2Proof.Machine.execTreeUnload who t s
  | .treeAbort who t => Sys2Proof.Machine.execTreeAbort who t s
  | .descriptorFetchDone k a => Sys2Proof.Machine.execDescriptorFetchDone k a s
  | .contextFetchDone g a => Sys2Proof.Machine.execContextFetchDone g a s
  | .contextStatusRead f n what => Sys2Proof.Machine.execContextStatusRead f n what s
  | .qCreate f n => Sys2Proof.Machine.execQCreate f n s
  | .qDestroy f n => Sys2Proof.Machine.execQDestroy f n s
  | .cqCreate f n => Sys2Proof.Machine.execCqCreate f n s
  | .cqReset f n => Sys2Proof.Machine.execCqReset f n s
  | .cqDestroy f n => Sys2Proof.Machine.execCqDestroy f n s
  | .qEnable f n => Sys2Proof.Machine.execQEnable f n s
  | .qDisable f n => Sys2Proof.Machine.execQDisable f n s
  | .hifSqDb f n value => Sys2Proof.Machine.execHifSqDb f n value s
  | .hifCqDb f n value => Sys2Proof.Machine.execHifCqDb f n value s
  | .hifEqDb f e value => Sys2Proof.Machine.execHifEqDb f e value s
  | .pushWrite f n off data => Sys2Proof.Machine.execPushWrite f n off data s
  | .pushHalfExpire g k => Sys2Proof.Machine.execPushHalfExpire g k s
  | .ringReadDone g a => Sys2Proof.Machine.execRingReadDone g a s
  | .dataReadDone k a => Sys2Proof.Machine.execDataReadDone k a s
  | .nopEntry => Sys2Proof.Machine.execNopEntry s
  | .cqOverflow g => Sys2Proof.Machine.execCqOverflow g s
  | .modTimeExpire f e => Sys2Proof.Machine.execModTimeExpire f e s
  | .msixUnmask f v => Sys2Proof.Machine.execMsixUnmask f v s
  | .hostLinkDown pf => Sys2Proof.Machine.execHostLinkDown pf s
  | .flr f => Sys2Proof.Machine.execFlr f s
  | .perstL h low => Sys2Proof.Machine.execPerstL h low s
  | .ltrUpdate pf enable snoop nosnoop => Sys2Proof.Machine.execLtrUpdate pf enable snoop nosnoop s
  | .regEnable f idx => Sys2Proof.Machine.execRegEnable f idx s
  | .regDisable f idx => Sys2Proof.Machine.execRegDisable f idx s
  | .regDisableComplete f => Sys2Proof.Machine.execRegDisableComplete f s
  | .rmaQinfo f => Sys2Proof.Machine.execRmaQinfo f s
  | .putEntry => Sys2Proof.Machine.execPutEntry s
  | .putImmEntry => Sys2Proof.Machine.execPutImmEntry s
  | .getEntry => Sys2Proof.Machine.execGetEntry s
  | .atomicEntry => Sys2Proof.Machine.execAtomicEntry s
  | .put => Sys2Proof.Machine.execPut s
  | .putImm => Sys2Proof.Machine.execPutImm s
  | .getReq => Sys2Proof.Machine.execGetReq s
  | .atomicReq => Sys2Proof.Machine.execAtomicReq s
  | .atomicComplete k a => Sys2Proof.Machine.execAtomicComplete k a s
  | .ackDelay g => Sys2Proof.Machine.execAckDelay g s
  | .ack => Sys2Proof.Machine.execAck s
  | .nakPacket => Sys2Proof.Machine.execNakPacket s
  | .getResp => Sys2Proof.Machine.execGetResp s
  | .atomicResp => Sys2Proof.Machine.execAtomicResp s
  | .rtoExpire g => Sys2Proof.Machine.execRtoExpire g s
  | .backoffExpire g psn => Sys2Proof.Machine.execBackoffExpire g psn s
  | .atomicRecordExpire g psn => Sys2Proof.Machine.execAtomicRecordExpire g psn s
  | .mlCreate f => Sys2Proof.Machine.execMlCreate f s
  | .mlDestroy f m => Sys2Proof.Machine.execMlDestroy f m s
  | .sendEntry => Sys2Proof.Machine.execSendEntry s
  | .recvEntry => Sys2Proof.Machine.execRecvEntry s
  | .cancelEntry => Sys2Proof.Machine.execCancelEntry s
  | .msgEager => Sys2Proof.Machine.execMsgEager s
  | .msgRts => Sys2Proof.Machine.execMsgRts s
  | .msgFin => Sys2Proof.Machine.execMsgFin s
  | .matchEvent m => Sys2Proof.Machine.execMatchEvent m s
  | .spillReadDone m a => Sys2Proof.Machine.execSpillReadDone m a s
  | .spillRefill m a => Sys2Proof.Machine.execSpillRefill m a s
  | .rendezvousStart => Sys2Proof.Machine.execRendezvousStart s
  | .rdS => Sys2Proof.Machine.execRdS s
  | .rdX => Sys2Proof.Machine.execRdX s
  | .upg => Sys2Proof.Machine.execUpg s
  | .atom => Sys2Proof.Machine.execAtom s
  | .wb => Sys2Proof.Machine.execWb s
  | .evict => Sys2Proof.Machine.execEvict s
  | .fwdS => Sys2Proof.Machine.execFwdS s
  | .fwdX => Sys2Proof.Machine.execFwdX s
  | .inv => Sys2Proof.Machine.execInv s
  | .dataS => Sys2Proof.Machine.execDataS s
  | .dataX => Sys2Proof.Machine.execDataX s
  | .grantX => Sys2Proof.Machine.execGrantX s
  | .invAck => Sys2Proof.Machine.execInvAck s
  | .fwdAck => Sys2Proof.Machine.execFwdAck s
  | .comp => Sys2Proof.Machine.execComp s
  | .wbAck => Sys2Proof.Machine.execWbAck s
  | .retry => Sys2Proof.Machine.execRetry s
  | .crdGrant => Sys2Proof.Machine.execCrdGrant s
  | .atomResp => Sys2Proof.Machine.execAtomResp s
  | .hostDataReturn line data poison => Sys2Proof.Machine.execHostDataReturn line data poison s
  | .hostSnoop k addr inv => Sys2Proof.Machine.execHostSnoop k addr inv s
  | .memrd port tag hpa mv => Sys2Proof.Machine.execMemrd port tag hpa mv s
  | .memwr port tag hpa mv data => Sys2Proof.Machine.execMemwr port tag hpa mv data s
  | .memwrptl port tag hpa mv data mask => Sys2Proof.Machine.execMemwrptl port tag hpa mv data mask s
  | .birsp port hpa shared => Sys2Proof.Machine.execBirsp port hpa shared s
  | .hdmDecoderCommit port d base size ways => Sys2Proof.Machine.execHdmDecoderCommit port d base size ways s
  | .transactionTimerExpire line => Sys2Proof.Machine.execTransactionTimerExpire line s
  | .requestTimerExpire k => Sys2Proof.Machine.execRequestTimerExpire k s
  | .creditReserveExpire k => Sys2Proof.Machine.execCreditReserveExpire k s
  | .declareDead who m => Sys2Proof.Machine.execDeclareDead who m s
  | .declareDeadWalkEnd => Sys2Proof.Machine.execDeclareDeadWalkEnd s
  | .flush who => Sys2Proof.Machine.execFlush who s
  | .flushEnd => Sys2Proof.Machine.execFlushEnd s
  | .revive who m => Sys2Proof.Machine.execRevive who m s
  | .pegTake f j => Sys2Proof.Machine.execPegTake f j s
  | .pegTry f j => Sys2Proof.Machine.execPegTry f j s
  | .pegRelease f j => Sys2Proof.Machine.execPegRelease f j s
  | .watch f j => Sys2Proof.Machine.execWatch f j s
  | .cancel f j => Sys2Proof.Machine.execCancel f j s
  | .forceRelease pf k => Sys2Proof.Machine.execForceRelease pf k s
  | .flushWaiters pf k => Sys2Proof.Machine.execFlushWaiters pf k s
  | .stallLimit f j => Sys2Proof.Machine.execStallLimit f j s
  | .scrubRead r dUp cUp o => Sys2Proof.Machine.execScrubRead r dUp cUp o s
  | .correctedWriteBack r w => Sys2Proof.Machine.execCorrectedWriteBack r w s
  | .eccLapMissed r => Sys2Proof.Machine.execEccLapMissed r s
  | .eccWinRead who k => Sys2Proof.Machine.execEccWinRead who k s
  | .eccWinWrite who k value => Sys2Proof.Machine.execEccWinWrite who k value s
  | .eccWinSel who value => Sys2Proof.Machine.execEccWinSel who value s
  | .fltForce who w value => Sys2Proof.Machine.execFltForce who w value s
  | .spill who key => Sys2Proof.Machine.execSpill who key s
  | .escWindowRestart => Sys2Proof.Machine.execEscWindowRestart s
  | .wakeCause bay => Sys2Proof.Machine.execWakeCause bay s
  | .wakeComplete => Sys2Proof.Machine.execWakeComplete s
  | .pwrVrFault k => Sys2Proof.Machine.execPwrVrFault k s
  | .grainSample rs day => Sys2Proof.Machine.execGrainSample rs day s
  | .bypass => Sys2Proof.Machine.execBypass s
  | .idcode => Sys2Proof.Machine.execIdcode s
  | .samplePreload pins preload => Sys2Proof.Machine.execSamplePreload pins preload s
  | .extest => Sys2Proof.Machine.execExtest s
  | .highz => Sys2Proof.Machine.execHighz s
  | .extestPulse => Sys2Proof.Machine.execExtestPulse s
  | .extestTrain => Sys2Proof.Machine.execExtestTrain s
  | .trstL low => Sys2Proof.Machine.execTrstL low s
  | .hostLinkUp pf rate width flit cxl cache mem => Sys2Proof.Machine.execHostLinkUp pf rate width flit cxl cache mem s
  | .beatRefLock => Sys2Proof.Machine.execBeatRefLock s
  | .setdasa static dyn => Sys2Proof.Machine.execSetdasa static dyn s
  | .entdaa dyn => Sys2Proof.Machine.execEntdaa dyn s
  | .flashEraseDone => Sys2Proof.Machine.execFlashEraseDone s

end Sys2Proof.Machine
end

