-- ==== Sys2Proof/Safety.lean ====
section
/-! DEFINITION. What the statements say of a state: nothing is left to do, a register is served to a requester, the device
is at reset; and what counts as a safe run. -/

namespace Sys2Proof.Machine

/-- Nothing is left to do between two commands: no work for another unit, no mailbox request that could go on (R424), nothing that
comes after them, no word of the SRAM that a unit's write could meet (R359, R369), and no attachment in L1 that traffic of the device
would wake (R392). -/
def State.settled (t : State) : Bool :=
  t.acts.isEmpty && !t.mbReady && decide (t.rest = t) && !t.eccWatch && decide (t.eccUsed = t) && t.pwr.l1 == 0

/-- No word of the SRAM is known to hold anything but what its unit wrote there last: no error was injected, or came up, that a read
could find. -/
def State.intact (s : State) : Bool := s.ecc.words.isEmpty

/-- The lanes that a port receives on deliver the 256 bytes `raw` in a flit slot, and the descramblers going on over them leave `t`. -/
def State.delivers (s : State) (p : Nat) (r0 r1 : List Level) (raw : Bytes) (t : State) : Prop :=
  ((s.sp p).rxLanes = 1 ∧ s.laneWhole p 0 256 r0 = true ∧ raw = s.laneBytes p 0 r0 ∧ t = s.rxAdvance (2 * p) 256) ∨
  ((s.sp p).rxLanes = 2 ∧ s.laneWhole p 1 256 r1 = true ∧ raw = s.laneBytes p 1 r1 ∧ t = s.rxAdvance (2 * p + 1) 256) ∨
  ((s.sp p).rxLanes = 3 ∧ s.laneWhole p 0 128 r0 = true ∧ s.laneWhole p 1 128 r1 = true ∧
    raw = (if s.evenLane p = 0 then unstripe (s.laneBytes p 0 r0) (s.laneBytes p 1 r1)
           else unstripe (s.laneBytes p 1 r1) (s.laneBytes p 0 r0)) ∧
    t = (s.rxAdvance (2 * p) 128).rxAdvance (2 * p + 1) 128)

/-- Where an access by a requester to a register of its own lies. -/
def State.lies (s : State) (who : Who) (r : Reg) (i : Nat) : Loc :=
  match who with
  | .fn f => s.fnLoc f .bar0 (regOffset who r i)
  | _ => pfLoc (regOffset who r i)

/-- A requester reaches a register that is served now: the device runs, the function exists, its host port answers and has credit for a posted
request (R242), the instance lies in the requester's map, and the register's unit is present and not in reset; what the access needs, and the attachment
of the function, are awake (R393). -/
def State.serves (s : State) (who : Who) (r : Reg) (i : Nat) : Bool :=
  s.live && !s.resetting && decide (s.lies who r i = .reg r i) && !s.regAbsent r && !s.unitBusy (unitOfGroup r.place.blk) &&
  !s.locGated (.reg r i) &&
  (match who with
   | .fn f => s.hostAnswers f && s.postedCredit && !s.linkAsleep f
   | _ => !r.fnOnly)

/-- The fields of a register that a requester may write hold values of their width. -/
def State.fits (s : State) (who : Who) (r : Reg) (i : Nat) : Bool :=
  r.fields.all (fun e => decide (s.heldVal e (s.cellOf who r i).1 (s.cellOf who r i).2 < 2 ^ e.w))

/-- A register whose write does nothing beside what its fields' classes say: it is no command register, and none of its fields is a unit's
ENABLE or starts something. -/
def Reg.plain (r : Reg) : Bool :=
  !([Reg.GLB_UNIT_RESET, .GLB_PORT_RESET, .GLB_DEVICE_RESET, .GLB_BOOT_CTRL, .TRS_SLOT_CHECK, .BEA_COMMIT_HOLD, .BEA_COMMIT_AT, .BEA_COMMIT_ARM,
    .SER_PORT_CTRL, .SER_TEST, .LNK_PORT_CTRL, .MCT_TREE_CMD, .HIF_QUEUE_CMD, .HIF_EQ_CFG, .HIF_EQ_DB, .RMA_REG_CMD, .MAT_ML_CMD, .COH_CMD,
    .PEG_FORCE, .PEG_RELEASE, .PEG_WATCH, .ECC_WIN, .ECC_WIN_SEL, .FLT_CTRL, .FLT_FORCE, .FLT_RICH_META, .FMN_MB_CTRL, .FMN_REQ].contains r) &&
  r.fields.all (fun d => !d.isEnable)

/-- A packet of a KIND can be handled now: its region is not being fetched again, the page entries that it needs are not being read, and
its target-side completion, if it brings one, finds room. -/
def State.ready (s : State) (k : Nat) (b : Bytes) : Bool := pkKind b == k && !s.refetching b && !s.pageWaits b && !s.holdWaits b

/-- Packet `b` is the next one that a unit takes of a KIND: what consumes it is not gated, and `b` is the oldest ejected packet of the
KIND that can be handled now. -/
def State.hands (s : State) (u k : Nat) (b : Bytes) : Bool :=
  !s.gatedUnit u && !s.gatedKind k && s.rte.ejected.find? (s.ready k) == some b

/-- The state in which that unit finds itself with the packet in hand: the packet has left, its marks are noted (R174). -/
def State.handed (s : State) (k : Nat) (b : Bytes) : State :=
  (s.modRte (fun r => { r with ejected := r.ejected.eraseP (s.ready k) })).consumed b

/-- A function reaches the doorbell page of its number `n`, queue and CQ `g` of the device: the device runs with HIF enabled, not in
reset, it and the attachment awake (R393), and its host port has credit for a posted request (R242). -/
def State.page (s : State) (f : Fn) (n g : Nat) : Bool :=
  s.live && s.en uHIF && s.hostAnswers f && s.postedCredit && s.gOf f n == some g && !s.unitBusy uHIF && !s.gatedUnit uHIF && !s.linkAsleep f

/-- A request of the Foreman mailbox is executed at once: the Foreman serves, nothing is left to do, no request waits, and the requester
has room for one more of this TAG (R424). -/
def State.asks (s : State) (who : Mbx) (tag : Nat) : Bool :=
  s.acts.isEmpty && s.boot.held.isEmpty && s.fmnServes && decide (tag < 65536) &&
  decide ((s.boot.outstanding.filter (fun o => o.1 == who)).length < 4) && !s.boot.outstanding.contains (who, tag) &&
  (match who with
   | .mctp _ => true
   | .window p => decide (s.rdI F.FMN_MB_STATUS.BUSY p.val 0 ≠ 1))

/-- The state in which such a request is executed: it is outstanding, and a window is BUSY and not DONE. -/
def State.asked (s : State) (who : Mbx) (tag : Nat) : State :=
  (match who with
   | .mctp _ => s
   | .window p => (s.wrI F.FMN_MB_STATUS.BUSY p.val 0 1).wrI F.FMN_MB_STATUS.DONE p.val 0 0).modBoot
  (fun b => { b with outstanding := b.outstanding ++ [(who, tag)] })

/-- The end of a command that is one such request: `u` is what the request leaves, and the work that it started goes on. -/
def State.mbEnd (s u : State) : State := s.settleFrom 4095 u

/-- The commands that act only while the device runs, out of the Spillway: events of its links, packets, engines, timers and host
reads (R418, Table 13.5, Table 13.6). -/
def needsRunning (c : Instr) : Bool :=
  match c with
  | .powerStateEntry .. | .armedCommit .. | .beatXchgSend .. | .beatXchgRequest .. | .beatXchgResponse ..
  | .upstreamLost .. | .holdoverLimit .. | .masterAliveMissing .. | .listenWindowEnd .. | .calibrationDone ..
  | .capabilitySet .. | .countdownEnd .. | .capsTimeout .. | .trainUsEnd .. | .checkUsEnd .. | .resultBlock ..
  | .resultWaitEnd .. | .retryMs .. | .laneLockLost .. | .ffeReq .. | .ffeAck .. | .widthReq .. | .widthAck ..
  | .widthReqRepeat .. | .widthChange .. | .widthMarker .. | .reacquisition .. | .reacquisitionEnd .. | .eqFreezeEnd ..
  | .checkerLock .. | .flitReceive .. | .nak .. | .fence .. | .credit .. | .nakRetry .. | .ackTimeout ..
  | .healthWindowRestart .. | .noprogUs .. | .initTimeout .. | .packetArrive .. | .packetInject .. | .packetForward ..
  | .limiterFree .. | .echo .. | .mgmtWrite .. | .mgmtRead .. | .mgmtResp .. | .mcPutEntry .. | .mcPut ..
  | .collectiveEntry .. | .cfUp .. | .cfDown .. | .cfGrant .. | .cfAbort .. | .chunkCombine .. | .chunkSend ..
  | .phaseTimeout .. | .descriptorFetchDone .. | .contextFetchDone .. | .pushHalfExpire .. | .ringReadDone ..
  | .dataReadDone .. | .nopEntry .. | .cqOverflow .. | .modTimeExpire .. | .regDisableComplete .. | .putEntry ..
  | .putImmEntry .. | .getEntry .. | .atomicEntry .. | .put .. | .putImm .. | .getReq .. | .atomicReq ..
  | .atomicComplete .. | .ackDelay .. | .ack .. | .nakPacket .. | .getResp .. | .atomicResp .. | .rtoExpire ..
  | .backoffExpire .. | .atomicRecordExpire .. | .sendEntry .. | .recvEntry .. | .cancelEntry .. | .msgEager ..
  | .msgRts .. | .msgFin .. | .matchEvent .. | .spillReadDone .. | .spillRefill .. | .rendezvousStart .. | .rdS ..
  | .rdX .. | .upg .. | .atom .. | .wb .. | .evict .. | .fwdS .. | .fwdX .. | .inv .. | .dataS .. | .dataX .. | .grantX ..
  | .invAck .. | .fwdAck .. | .comp .. | .wbAck .. | .retry .. | .crdGrant .. | .atomResp .. | .hostDataReturn ..
  | .birsp .. | .transactionTimerExpire .. | .requestTimerExpire .. | .creditReserveExpire .. | .declareDeadWalkEnd ..
  | .flushEnd .. | .stallLimit .. | .scrubRead .. | .correctedWriteBack .. | .eccLapMissed .. | .escWindowRestart ..
  | .wakeCause .. | .wakeComplete .. | .pwrVrFault .. | .grainSample .. => true
  | _ => false

/-- The commands that are changes of a pin or of the test port's instruction. -/
def movesPins (c : Instr) : Bool :=
  match c with
  | .pwrokRise .. | .pwrokFall | .warmRstLAssert | .warmRstLRelease | .perstL .. | .trstL .. => true
  | _ => false
def usesTestPort (c : Instr) : Bool :=
  match c with
  | .bypass | .idcode | .samplePreload .. | .extest | .highz | .extestPulse | .extestTrain => true
  | _ => false

/-- The state of the device, beside its pins, the loader's flash and fuses, boot's straps, the TAP, the Grain's day count and
what has left the device, is that of reset (R407, R422). -/
def State.atReset (s : State) : Prop :=
  s.regs = [] ∧ s.shadow = [] ∧ s.acts = [] ∧ s.bea = Bea.init ∧ s.lnk = [] ∧ s.ser = [] ∧ s.lane = [] ∧ s.portOff = 0 ∧
  s.arrived = [] ∧ s.rte = Rte.init ∧ s.hif = Hif.init ∧ s.rma = Rma.init ∧ s.mat = Mat.init ∧ s.mct = Mct.init ∧
  s.coh = Coh.init ∧ s.peg = [] ∧ s.ecc = Ecc.init ∧ s.pwr = Pwr.init ∧ s.enginesDown = [] ∧ s.escBeats = 0

/-- Without power good the device is at reset. -/
def State.coldInv (s : State) : Prop := s.pins.pwrok = false → s.atReset

/-- A run is safe when every step of it answers a next state. -/
def Safe (s : State) : Prop := ∀ n, ∃ t, Sys2Proof.core.run n s = .next t

end Sys2Proof.Machine
end

