-- ==== Sys2Proof/Certificates/Slice0/Obligations.lean ====
section
/-! DEFINITION. The statements about the device, each named for what it states. -/

open Sys2Proof Sys2Proof.Machine

/-- A write by a function to a register that has no row of its own (R13, R16 to R19, R447), whole and aligned: each field takes the bits of the
word by its class. An RW field that already holds the value, or whose condition refuses it, keeps its value; otherwise a B field is
staged and its value in effect stays, and another takes the value at once. An RW1C bit written one clears. The rest stays; no other field changes,
and CFG_REJECT is raised once where a field was refused. A VF meets its PF's event rings (R219). The registers of an unused port (R145) and of
a ring beyond the function's count (R444) keep what they hold: a write of zero there does nothing, another raises CFG_REJECT. -/
def Obligations.WritesGoFieldByField : Prop :=
  ∀ (s : State) (f : Fn) (r : Reg) (i w : Nat), s.serves (.fn f) r i = true → r.plain = true →
    let who := Who.fn f
    let inst := (s.cellOf who r i).1
    let n := (s.cellOf who r i).2
    let out := s.unusedOut r i || s.ringOut who r i
    let refused (d : Fld) : Bool :=
      d.acc == .RW && bits w d.lo d.w != s.heldVal d inst n && s.fieldBad who d n (bits w d.lo d.w) w
    (out = true → exec (.registerWrite f .bar0 (regOffset who r i) 8 w 0) s =
      .next (s.settle (if w % 2 ^ 64 = 0 then s else s.raise .CFG_REJECT))) ∧
    (out = false → ∃ t : State, exec (.registerWrite f .bar0 (regOffset who r i) 8 w 0) s = .next (s.settle t) ∧
      (∀ d ∈ r.fields,
        let v := bits w d.lo d.w
        (d.acc = .RW → (v = s.heldVal d inst n ∨ refused d = true) →
          t.rdI d inst n = s.rdI d inst n ∧ t.shadowI d inst n = s.shadowI d inst n) ∧
        (d.acc = .RW → v ≠ s.heldVal d inst n → refused d = false → d.cls = .B →
          t.shadowI d inst n = v ∧ t.rdI d inst n = s.rdI d inst n) ∧
        (d.acc = .RW → v ≠ s.heldVal d inst n → refused d = false → d.cls ≠ .B → t.rdI d inst n = v) ∧
        (d.acc = .RW1C → v ≠ 0 → t.rdI d inst n = (s.rdI d inst n - (s.rdI d inst n &&& v)) % 2 ^ d.w) ∧
        ((d.acc ≠ .RW ∧ d.acc ≠ .RW1C) ∨ (d.acc = .RW1C ∧ v = 0) → t.rdI d inst n = s.rdI d inst n)) ∧
      (∀ (d : Fld) (j k : Nat), d.reg ≠ r ∨ j ≠ inst ∨ k ≠ n → t.rdI d j k = s.rdI d j k ∧ t.shadowI d j k = s.shadowI d j k) ∧
      t.acts = (if r.fields.any refused then s.raise .CFG_REJECT else s).acts)

/-- Writes that reach no register that takes them (R9, R12, R385, R411, R420): a narrow or unaligned write, one to a place that holds no register,
and one to a unit that is being reset raise REG_ACCESS; that a narrow or unaligned one does so at an absent unit too is the model's choice (log
entry 101). A whole one to a register of an absent unit raises CFG_ABSENT. A parity error on the configuration network raises GLB_CFGNET, and
that the write is then not performed is DEDUCED (log entry 58). None of them changes a register. A write to what a power state gates, or
through an attachment in L1, waits for the wake that it causes (R392, R393; log entry 129). -/
def Obligations.WritesThatAreNotPerformed : Prop :=
  ∀ (s : State) (f : Fn) (a size w : Nat), s.live = true → s.hostAnswers f = true → s.postedCredit = true →
    (∀ bar : Bar, exec (.registerWrite f bar a size w 1) s = .next (s.settle (s.raise .GLB_CFGNET))) ∧
    (∀ bar : Bar, s.sleeps f (s.fnLoc f bar a) = true →
      exec (.registerWrite f bar a size w 0) s = .next (s.settle (s.sleepOn (.write f bar a size w)))) ∧
    (s.sleeps f (s.fnLoc f .bar0 a) = false →
      (∀ (r : Reg) (i : Nat), s.fnLoc f .bar0 a = .reg r i →
        (size ≠ 8 ∨ a % 8 ≠ 0 → exec (.registerWrite f .bar0 a size w 0) s = .next (s.settle (s.raise .REG_ACCESS))) ∧
        (a % 8 = 0 → s.regAbsent r = true → exec (.registerWrite f .bar0 a 8 w 0) s = .next (s.settle (s.raise .CFG_ABSENT))) ∧
        (a % 8 = 0 → s.regAbsent r = false → s.unitBusy (unitOfGroup r.place.blk) = true →
          exec (.registerWrite f .bar0 a 8 w 0) s = .next (s.settle (s.raise .REG_ACCESS)))) ∧
      (∀ b : Nat, s.fnLoc f .bar0 a = .hole b →
        exec (.registerWrite f .bar0 a size w 0) s = .next (s.settle (s.raise .REG_ACCESS))))

/-- UNIT_ENABLE and UNIT_DISABLE (R19, R52, R116, Table 4.7): a write that changes nothing does nothing; setting the ENABLE of a unit that the image
leaves out, that is contained, or with the Spillway entered, is refused; setting it otherwise starts the ports of SER, the links of LNK and the
router's packets; clearing it fences, resets or stops what its chapter says. -/
def Obligations.UnitsTurnOnAndOff : Prop :=
  ∀ (s : State) (who : Who) (u : Fin 19) (d : Fld), enableFld u.val = some d → s.serves who d.reg 0 = true → s.fits who d.reg 0 = true →
    (s.rd d = 1 → exec (.unitEnable who u) s = .next (s.settle s)) ∧
    (s.rd d = 0 → exec (.unitDisable who u) s = .next (s.settle s)) ∧
    (s.rd d = 0 → s.enableBad u.val = true → exec (.unitEnable who u) s = .next (s.settle (s.raise .CFG_REJECT))) ∧
    (s.rd d = 0 → s.enableBad u.val = false → exec (.unitEnable who u) s = .next (s.settle (s.rejectOnce
      (if u.val = uSER then (s.wr d 1).serOnAll
       else if u.val = uLNK then foldS (List.range 64) (s.wr d 1) (fun s p => s.linkStart p)
       else if u.val = uRTE then (s.wr d 1).routerOn
       else s.wr d 1)))) ∧
    (s.rd d = 1 → exec (.unitDisable who u) s = .next (s.settle (s.rejectOnce
      (if u.val = uSER then (s.wr d 0).serOffAll
       else if u.val = uLNK then (s.wr d 0).fenceAll fnLnkOff serDetect
       else if u.val = uHIF then (s.wr d 0).hifReset
       else if u.val = uPEG then (s.wr d 0).pegUnitReset
       else if u.val = uPWR then (s.wr d 0).pwrReset
       else s.wr d 0))))

/-- BEAT_BOUNDARY (R25, R27 to R29, R45): tasks that did not finish count as overruns and the count goes on, in every state. While the
device runs, what is due commits before anything else, then the tasks go in their order, then the counts of the Beat are taken (that the commits
come before every task is log entry 62); before RUNNING what is due commits and only the Beat's own task and the telemetry run (log entry 63); in
the Spillway nothing commits. BEA_OVERRUN's instance is the task's order in Table 1.4 (log entry 65).
Held and armed groups (R31, R35, R36, R46): ARM is refused while the device is not aligned, and with another mask while it is set; set for a Beat
already reached it logs BEA_LATE_COMMIT, and a target moved ahead ends that; it holds the groups of its mask. At its Beat the armed groups are released and their staged
values take effect, but for those of the routing tables while task 3 has not finished (log entry 106), and with them the results of the power
tasks, a hot image, overrides and regulators (R76, R396, R399). A read of BEA_COUNT by a PF returns the count and captures the phase for it; a narrow or unaligned one reads zero and raises
REG_ACCESS (R12); a VF, which has no view of it, reads zero (log entry 57); through an attachment in L1 a read waits (R393). -/
def Obligations.BoundaryAndArmedCommits : Prop :=
  (
    ∀ (s : State) (m : BeatIn), s.pins.pwrok = true → m.parity = false →
      let t : State := s.overruns.beatTick.windowTick
      (s.live = true → exec (.beatBoundary m) s = .next (s.settle ((((t.boundaryCommit.tempTask m).tasks m).beatCounts m).beatEnd m))) ∧
      (s.phase ≠ phRunning → s.spill = false → m.overrun = [] →
        exec (.beatBoundary m) s = .next (s.settle ((t.armAt.commitAll.slewTask.tempTask m).beatEnd m))) ∧
      (s.spill = true → m.overrun = [] → exec (.beatBoundary m) s = .next (s.settle ((t.slewTask.tempTask m).beatEnd m))) ∧
      t.rd F.BEA_COUNT.COUNT = (s.rd F.BEA_COUNT.COUNT + 1) % 2 ^ 64 ∧ t.shadow = s.shadow ∧
      (s.bea.late = [] → t.acts = s.acts) ∧
      (∀ k : Nat, s.bea.late = [k] → t.acts = s.acts ++ [.occ (occ .BEA_OVERRUN k)])) ∧
  (
    ∀ (s : State),
      (∀ (who : Who) (v : Nat), s.serves who .BEA_COMMIT_ARM 0 = true →
        let mask := v % 2 ^ 17
        let armed := (((s.wr F.BEA_COMMIT_ARM.MASK mask).wr F.BEA_COMMIT_ARM.ARM 1).wr F.BEA_COMMIT_HOLD.HOLD (s.rd F.BEA_COMMIT_HOLD.HOLD ||| mask)).modBea
          (fun b => { b with armLate := decide (s.rd F.BEA_COMMIT_AT.TARGET ≤ s.beat) })
        (s.on F.BEA_COMMIT_ARM.ARM = true → bit v 63 = true → mask ≠ s.rd F.BEA_COMMIT_ARM.MASK →
          exec (.beaCommitArm who v) s = .next (s.settle (s.raise .CFG_REJECT))) ∧
        (s.on F.BEA_COMMIT_ARM.ARM = true → bit v 63 = false → exec (.beaCommitArm who v) s = .next (s.settle
          (((s.wr F.BEA_COMMIT_ARM.ARM 0).wr F.BEA_COMMIT_ARM.MASK mask).modBea (fun b => { b with armLate := false })))) ∧
        (s.on F.BEA_COMMIT_ARM.ARM = false → bit v 63 = true → (s.ba = baFree ∨ s.ba = baAcquire) →
          exec (.beaCommitArm who v) s = .next (s.settle ((s.wr F.BEA_COMMIT_ARM.MASK mask).raise .CFG_REJECT))) ∧
        (s.on F.BEA_COMMIT_ARM.ARM = false → bit v 63 = true → s.ba ≠ baFree → s.ba ≠ baAcquire →
          (s.beat < s.rd F.BEA_COMMIT_AT.TARGET → exec (.beaCommitArm who v) s = .next (s.settle armed)) ∧
          (s.rd F.BEA_COMMIT_AT.TARGET ≤ s.beat → exec (.beaCommitArm who v) s = .next (s.settle
            (armed.raise .BEA_LATE_COMMIT))))) ∧
      (∀ (who : Who) (v : Nat), s.serves who .BEA_COMMIT_AT 0 = true → v < 2 ^ 64 →
        (s.on F.BEA_COMMIT_ARM.ARM = false → exec (.beaCommitAt who v) s = .next (s.settle (s.wr F.BEA_COMMIT_AT.TARGET v))) ∧
        (s.on F.BEA_COMMIT_ARM.ARM = true → s.beat < v → exec (.beaCommitAt who v) s = .next (s.settle
          ((s.wr F.BEA_COMMIT_AT.TARGET v).modBea (fun b => { b with armLate := false })))) ∧
        (s.on F.BEA_COMMIT_ARM.ARM = true → v ≤ s.beat → exec (.beaCommitAt who v) s = .next (s.settle
          (((s.wr F.BEA_COMMIT_AT.TARGET v).modBea (fun b => { b with armLate := true })).raise .BEA_LATE_COMMIT)))) ∧
      (s.live = true →
        ((s.on F.BEA_COMMIT_ARM.ARM = false ∨ s.beat < s.rd F.BEA_COMMIT_AT.TARGET) → exec .armedCommit s = .next (s.settle s)) ∧
        (∀ (g : Nat) (d : Fld) (inst i v : Nat), g < 17 → g ≠ 3 → g ≠ 6 → g ≠ 13 → d.group = g →
          s.shadow = [(fkey d inst i, ⟨d, inst, i, v⟩)] → s.eccWatch = false → s.on F.BEA_COMMIT_ARM.ARM = true → s.bea.armLate = false →
          s.rd F.BEA_COMMIT_AT.TARGET ≤ s.beat → s.rd F.BEA_COMMIT_ARM.MASK = 2 ^ g → s.tableLate ⟨d, inst, i, v⟩ = false →
          exec .armedCommit s = .next (s.settle
            (State.commitRest { (s.armRelease).wrI d inst i v with shadow := [] } (bit (2 ^ g)))))) ∧
      (∀ (p : Fin 4) (cycle sub : Nat), s.serves (.fn (.pf p)) .BEA_COUNT 0 = true →
        exec (.beaCount ⟨.fn (.pf p), true⟩ cycle sub) s = .next (s.settle
          (((s.wrI F.BEA_PHASE.CYCLE p.val 0 cycle).wrI F.BEA_PHASE.SUB p.val 0 sub).emit (.regValue (.fn (.pf p)) s.beat))) ∧
        exec (.beaCount ⟨.fn (.pf p), false⟩ cycle sub) s = .next (s.settle ((s.raise .REG_ACCESS).emit (.regValue (.fn (.pf p)) 0)))) ∧
      (∀ (p : Fin 4) (v : Fin 512) (cycle sub : Nat), s.hostAnswers (.vf p v) = true →
        (s.linkAsleep (.vf p v) = false →
          exec (.beaCount ⟨.fn (.vf p v), true⟩ cycle sub) s = .next (s.settle (s.emit (.regValue (.fn (.vf p v)) 0)))) ∧
        (s.linkAsleep (.vf p v) = true → exec (.beaCount ⟨.fn (.vf p v), true⟩ cycle sub) s = .next (s.settle
          (s.sleepOn (.read (.vf p v) .BEA_COUNT 0 cycle sub true))))))

/-- The two-way exchange (R38 to R40, R43, R136, Table 1.6): a request goes out, with a fresh identifier, on each port that carries
exchanges, every 4 Beats on the upstream's and every 64 on the others. A request that comes is answered with its identifier and T1; one of
another period rejects its port, one of a master is heard, and one of a master of higher priority makes a master yield (that nothing else
comes of a request is DEDUCED, log entry 105). A response with no open identifier does nothing; one of another period is rejected, one
of a master out of reach makes no candidate; a valid one sets the delay of its link (the rounding and the bounds are the model's, log
entries 102 and 103), and while LOCKED to another port it only makes a candidate, while FREE the device acquires it and takes its first
offset. -/
def Obligations.ExchangesAlignTheBeat : Prop :=
  ∀ (s : State) (p : Port), s.live = true →
    (s.beatPort p.val = false → exec (.beatXchgSend p) s = .next (s.settle s)) ∧
    (∀ n : Nat, tabGet s.bea.sentAt p = some n → s.bea.ticks < n + s.xchgEvery p → exec (.beatXchgSend p) s = .next (s.settle s)) ∧
    (s.beatPort p.val = true → (tabGet s.bea.sentAt p = none ∨ ∃ n : Nat, tabGet s.bea.sentAt p = some n ∧ n + s.xchgEvery p ≤ s.bea.ticks) →
      let x := (s.pick 256).1
      exec (.beatXchgSend p) s = .next (s.settle
        (((s.pick 256).2.modBea (fun b => { b with xids := tabPut b.xids p x, sentAt := tabPut b.sentAt p b.ticks })).modLink p
          (fun l => { l with xchg := l.xchg ++ [(false, s.xchgOwn x 0 0)] })))) ∧
    ((s.on F.BEA_STATUS.UP_VALID = true → s.rd F.BEA_STATUS.UPSTREAM = p.val → s.xchgEvery p = 4) ∧
      (s.rd F.BEA_STATUS.UPSTREAM ≠ p.val → s.xchgEvery p = 64)) ∧
    (∀ (m : Xchg) (t2 : Stamp), s.beatPort p.val = true →
      let answered (u : State) : State := u.modLink p (fun l => { l with xchg := l.xchg ++ [(true, u.xchgOwn m.xid m.t1 t2)] })
      let c : Cand := ⟨m.prio, m.distance, m.masterId, 0⟩
      (m.period ≠ s.rd F.BEA_CONFIG.PERIOD_UNITS → (s.on F.BEA_STATUS.UP_VALID = false ∨ s.rd F.BEA_STATUS.UPSTREAM ≠ p.val) →
        exec (.beatXchgRequest p m t2) s = .next (s.settle (answered
          ((s.modBea (fun b => { b with cands := tabDel b.cands p })).raise .BEA_PERIOD_MISMATCH p)))) ∧
      (m.period = s.rd F.BEA_CONFIG.PERIOD_UNITS → (1 < m.prio ∨ 6 ≤ m.distance) →
        exec (.beatXchgRequest p m t2) s = .next (s.settle (answered s))) ∧
      (m.period = s.rd F.BEA_CONFIG.PERIOD_UNITS → m.prio ≤ 1 → m.distance < 6 →
        (s.ba ≠ baMaster → exec (.beatXchgRequest p m t2) s = .next (s.settle (answered (s.modBea (fun b => { b with heard := true }))))) ∧
        (s.ba = baMaster → (m.prio < s.ownPrio ∨ (m.prio = s.ownPrio ∧ m.masterId < s.nodeId)) →
          exec (.beatXchgRequest p m t2) s = .next (s.settle (answered
            (((((s.modBea (fun b => { b with heard := true, cands := tabPut b.cands p c })).raise .BEA_MASTER_YIELD).acquire p c).modBea
              (fun b => { b with slewOnly := true })).alive m.alive)))))) ∧
    (∀ (m : Xchg) (t4 : Stamp), (s.beatPort p.val = false ∨ tabGet s.bea.xids p ≠ some m.xid) →
      exec (.beatXchgResponse p m t4) s = .next (s.settle s)) ∧
    (∀ (m : Xchg) (t4 : Stamp), s.beatPort p.val = true → tabGet s.bea.xids p = some m.xid →
      s.on F.BEA_STATUS.UP_VALID = false ∨ s.rd F.BEA_STATUS.UPSTREAM ≠ p.val →
      let t := s.modBea (fun b => { b with xids := tabDel b.xids p })
      let len := s.beatSub
      let delay := max 0 (min 65535 (xchgDelay len m.t1 m.t2 m.t3 t4))
      let u := (t.wr F.BEA_LINK_DELAY.VALID 1 p).wr F.BEA_LINK_DELAY.DELAY delay.toNat p
      let c : Cand := ⟨m.prio, m.distance, m.masterId, 0⟩
      let heard := u.modBea (fun b => { b with cands := tabPut b.cands p c, heard := true })
      (m.period ≠ s.rd F.BEA_CONFIG.PERIOD_UNITS → exec (.beatXchgResponse p m t4) s = .next (s.settle
        ((t.modBea (fun b => { b with cands := tabDel b.cands p })).raise .BEA_PERIOD_MISMATCH p))) ∧
      (m.period = s.rd F.BEA_CONFIG.PERIOD_UNITS → (1 < m.prio ∨ 6 ≤ m.distance) → exec (.beatXchgResponse p m t4) s = .next (s.settle
        (u.modBea (fun b => { b with cands := tabDel b.cands p })))) ∧
      (m.period = s.rd F.BEA_CONFIG.PERIOD_UNITS → m.prio ≤ 1 → m.distance < 6 →
        (s.ba = baLocked → s.rd F.BEA_STATUS.UPSTREAM ≠ p.val → exec (.beatXchgResponse p m t4) s = .next (s.settle heard)) ∧
        (s.ba = baFree → s.role ≠ 1 → exec (.beatXchgResponse p m t4) s = .next (s.settle
          (((heard.acquire p c).alive m.alive).correct (xchgOffset len m.t1 m.t2 m.t3 t4) t4 m.count)))))

/-- The alignment states (R37, R42 to R44, Table 1.6): a locked device whose upstream is silent for 16 Beats, with no other candidate, holds over and
logs it; at the end of LIMIT_S it is free and unaligned; a backup that hears no master for 16 Beats takes over; a primary that hears none in
its listening window becomes master; before their time these events change nothing. A PPS edge captures the count and the phase, one
within 900 ms of the last is ignored; a master with EXT_REF notes the lock of its reference and logs its loss. -/
def Obligations.AlignmentStatesChange : Prop :=
  ∀ (s : State),
    (s.live = true →
      (s.bea.upQuiet < 16 → s.beatPort (s.rd F.BEA_STATUS.UPSTREAM) = true → exec .upstreamLost s = .next (s.settle s)) ∧
      (16 ≤ s.bea.upQuiet → s.ba = baLocked → s.bea.cands = [] → exec .upstreamLost s = .next (s.settle
        ((s.unfollow baHoldover).raise .BEA_HOLDOVER))) ∧
      (s.ba = baHoldover → s.bea.holdTime < s.rd F.BEA_HOLDOVER.LIMIT_S * 10000000000 → exec .holdoverLimit s = .next (s.settle s)) ∧
      (s.ba = baHoldover → s.rd F.BEA_HOLDOVER.LIMIT_S * 10000000000 ≤ s.bea.holdTime →
        exec .holdoverLimit s = .next (s.settle ((s.unfollow baFree).raise .BEA_UNALIGNED))) ∧
      (s.role ≠ 2 → exec .masterAliveMissing s = .next (s.settle s)) ∧
      (s.role = 2 → s.ba = baLocked → 16 ≤ s.bea.aliveQuiet →
        exec .masterAliveMissing s = .next (s.settle (s.enterMaster.raise .BEA_MASTER_TAKEOVER))) ∧
      ((s.role ≠ 1 ∨ s.bea.heard = true) → exec .listenWindowEnd s = .next (s.settle s)) ∧
      (∀ n : Nat, s.ba = baFree → s.role = 1 → s.bea.heard = false → s.bea.sinceLoad = some n → 64 ≤ n →
        exec .listenWindowEnd s = .next (s.settle s.enterMaster))) ∧
    (s.pins.pwrok = true →
      (∀ cycle sub ms : Nat,
        (s.on F.BEA_PPS_PHASE.VALID = true → ms < 900 → exec (.ppsEdge cycle sub ms) s = .next (s.settle s)) ∧
        (s.on F.BEA_PPS_PHASE.VALID = false ∨ 900 ≤ ms → exec (.ppsEdge cycle sub ms) s = .next (s.settle
          ((((s.wr F.BEA_PPS_COUNT.COUNT s.beat).wr F.BEA_PPS_PHASE.VALID 1).wr F.BEA_PPS_PHASE.CYCLE cycle).wr F.BEA_PPS_PHASE.SUB sub)))) ∧
      (s.ba = baMaster → s.on F.BEA_CONFIG.EXT_REF = true → exec .beatRefLock s = .next (s.settle (s.wr F.BEA_STATUS.REF_LOCK 1))) ∧
      (s.ba ≠ baMaster → exec .beatRefLock s = .next (s.settle s)) ∧
      (s.on F.BEA_STATUS.REF_LOCK = true →
        exec .beatRefLost s = .next (s.settle ((s.wr F.BEA_STATUS.REF_LOCK 0).raise .BEA_REF_LOST))) ∧
      (s.on F.BEA_STATUS.REF_LOCK = false → exec .beatRefLost s = .next (s.settle s)))

/-- Bring-up of a port (R86, R89, R91, R94, R95), event by event. A calibration that passes on both lanes takes a port of a locked
PLL to DETECT; a lane whose calibration fails is FAILED and logs SER_CAL_FAIL. RETRY_MS takes a calibrated port from WAIT to DETECT.
CAPS_TIMEOUT without a countdown ends in WAIT: with a peer whose ROUTER flag fits the ROLE it counts in FAILS and logs SER_BRINGUP_FAIL, with another it
logs SER_PEER_MISMATCH in its place. A result block that does not come counts as PASS 0: at S0 the port fails, above S0 it returns to
CAPS with one fallback more and logs SER_STEP_FALLBACK.
A valid capability set (R83, R84, Table 3.2) that arrives with SYNC upright on a lane of a port in DETECT: the port enters CAPS,
the lane has lock, and what the peer says of itself is in SER_PORT_STATUS. A set whose CRC fails only starts the count of consecutive sets
again. In both cases SIG_DET follows the amplitude at the receiver, set above 80 mV and cleared below 40 mV (Table 16.11), no other register
of a set that fails changes, and the lane sends its own next set (R83). -/
def Obligations.BringUpStarts : Prop :=
  (
    ∀ (s : State) (p : Port), s.live = true →
      let fail := ((s.inc F.SER_PORT_STATUS.FAILS p).raise .SER_BRINGUP_FAIL p).serTo p serWait
      ((s.sp p).calib = some serDetect → s.pllLocked p = true →
        s.needsCal (2 * p) = true → s.needsCal (2 * p + 1) = true →
        exec (.calibrationDone p true true) s = .next (s.settle
          ((((s.wr F.SER_LANE_STATUS.CAL_OK 1 (2 * p)).wr F.SER_LANE_STATUS.CAL_OK 1 (2 * p + 1)).modSp p
            (fun x => { x with calib := none })).serTo p serDetect)) ∧
        exec (.calibrationDone p false true) s = .next (s.settle
          (((((s.wr F.SER_LANE_STATUS.FAILED 1 (2 * p)).raise .SER_CAL_FAIL (2 * p)).wr F.SER_LANE_STATUS.CAL_OK 1 (2 * p + 1)).modSp p
            (fun x => { x with calib := none })).serTo p serDetect))) ∧
      (s.serState p = serWait → s.pllLocked p = true → (s.sp p).calib = none →
        s.needsCal (2 * p) = false → s.needsCal (2 * p + 1) = false → s.rd F.SER_PORT_CTRL.MODE p = 0 →
        exec (.retryMs p) s = .next (s.settle (s.serTo p serDetect))) ∧
      ((s.sp p).c0.counting = false → (s.sp p).c1.counting = false →
        (s.serState p = serCaps → s.roleFits p = true → exec (.capsTimeout p) s = .next (s.settle fail)) ∧
        (s.serState p = serCaps → s.roleFits p = false →
          exec (.capsTimeout p) s = .next (s.settle ((s.raise .SER_PEER_MISMATCH p).serTo p serWait)))) ∧
      ((s.sp p).c0.counting = true ∨ (s.sp p).c1.counting = true → exec (.capsTimeout p) s = .next (s.settle s)) ∧
      (s.serState p = serTrain → (s.sp p).checked = true → (s.sp p).agreedStep = 0 →
        exec (.resultWaitEnd p) s = .next (s.settle fail)) ∧
      (s.serState p = serTrain → (s.sp p).checked = true → 0 < (s.sp p).agreedStep →
        exec (.resultWaitEnd p) s = .next (s.settle
          (((s.serTo p serCaps).modSp p (fun y =>
            { y with attempt := (s.sp p).attempt + 1, c0 := { y.c0 with id := none }, c1 := { y.c1 with id := none } })).raise
            .SER_STEP_FALLBACK p)))) ∧
  (
    ∀ (s : State) (p : Port) (k : Fin 2) (raw : List Level) (mv peak : Nat),
      s.live = true → s.serState p = serDetect → s.on F.SER_LANE_STATUS.FAILED (2 * p + k) = false → ((s.sp p).cap k).counted = false →
      bit (s.rd F.SER_PORT_STATUS.POL_INV p) k = false →
      let d := unsymbols 0 false raw
      leAt d 0 4 = 0x3CA55AC3 →
      (capSetOk d = true → ∃ t u : State, exec (.capabilitySet p k ⟨raw, mv⟩ peak) s = .next (s.settle t) ∧
        t.out = s.out ++ [.wire p k 1 (symbols 0 (u.capSet p k))] ∧ u.nodeId = s.nodeId ∧ t.serState p = serCaps ∧
        t.rd F.SER_LANE_STATUS.SIG_DET (2 * p + k) =
          (if 80 < mv then 1 else if mv < 40 then 0 else s.rd F.SER_LANE_STATUS.SIG_DET (2 * p + k)) ∧ t.rd F.SER_LANE_STATUS.CDR_LOCK (2 * p + k) = 1 ∧
        t.rd F.SER_PORT_STATUS.PEER_NODE p = leAt d 8 4 % 2 ^ 17 ∧ t.rd F.SER_PORT_STATUS.PEER_PORT p = leAt d 12 1 % 64 ∧
        t.rd F.SER_PORT_STATUS.PEER_ROUTER p = b2n (bit (leAt d 5 1) 1) ∧
        t.rd F.SER_PORT_STATUS.PEER_BEAT p = b2n (bit (leAt d 5 1) 2) ∧
        t.rd F.SER_PORT_STATUS.PEER_STEP p = leAt d 6 1 % 4 ∧ t.lnk = s.lnk) ∧
      (capSetOk d = false → ∃ t u : State, exec (.capabilitySet p k ⟨raw, mv⟩ peak) s = .next (s.settle t) ∧
        t = { s.sigDetect (2 * p + k) mv with ser := t.ser, out := s.out ++ [.wire p k 1 (symbols 0 (u.capSet p k))] } ∧ u.nodeId = s.nodeId ∧
        ∀ q, q ≠ p.val → t.sp q = s.sp q))

/-- The countdown ends in CAPS with both lanes heard in their places (R85, R87): the port trains at the lower of the two offers (its
own after a fallback as log entry 134 chooses), and
each lane loads the preset that its peer asked for on it and sends PRBS13. TRAIN_US ends with the trained values in the one training
lane, and its coefficients held (R88, R108); CHECK_US ends with that lane's 64 result blocks, whose PASS names the LANE_ID it hears,
when its errors against PRBS13 are within ERR_MAX (R88, R89).
A valid result block whose PASS names lane 0, at a port where only lane 0 passed (R90, R92, Table 3.4): the port enters ACTIVE on
one lane, sends its start marker, starts its scramblers, and its link starts. -/
def Obligations.TrainingEndsInActive : Prop :=
  (
    ∀ (s : State) (p : Port), s.live = true →
      (s.serState p = serCaps → (s.sp p).c0.counted = true → (s.sp p).idOf 0 = some 0 → (s.sp p).idOf 1 = some 1 →
        let step := min (s.offerStep p) (s.rd F.SER_PORT_STATUS.PEER_STEP p)
        let width := min (s.offerWidth p) (s.sp p).peerWidth
        exec (.countdownEnd p) s = .next (s.settle
          (((((s.wr F.SER_PORT_STATUS.STATE serTrain p).wr F.SER_PORT_STATUS.STEP step p).setSp p
            { s.sp p with training := 3, agreedStep := step, agreedWidth := width, trained := false, checked := false, ownPass := 0 }).trainLane
            p 0 step).trainLane p 1 step))) ∧
      (∀ e0 e1 : EqVals, s.serState p = serTrain → (s.sp p).trained = false → (s.sp p).training = 1 →
        exec (.trainUsEnd p e0 e1) s = .next (s.settle
          (((s.loadPreset (2 * p) (s.sp p).c0.preset).putEq (2 * p) e0).modSp p (fun x => { x with trained := true })))) ∧
      (∀ (r0 r1 : PrbsRx) (id : Nat), s.serState p = serTrain → (s.sp p).checked = false → (s.sp p).training = 1 →
        (s.sp p).idOf 0 = some id →
        prbsErrors (s.sp p).agreedStep (bit (s.rd F.SER_PORT_STATUS.POL_INV p) 0) r0 ≤ s.rd F.SER_BRINGUP_CFG.ERR_MAX →
        s.on F.SER_LANE_STATUS.CDR_LOCK (2 * p) = true →
        exec (.checkUsEnd p r0 r1) s = .next (s.settle
          ((s.setSp p { s.sp p with checked := true, ownPass := 1 }).sendResult p 0 (2 ^ id) (s.sp p).agreedStep)))) ∧
  (
    ∀ (s : State) (p : Port) (raw : List Level),
      let d := unsymbols (s.rd F.SER_PORT_STATUS.STEP p) (bit (s.rd F.SER_PORT_STATUS.POL_INV p) 0) raw
      s.live = true → s.serState p = serTrain → (s.sp p).checked = true → (s.sp p).ownPass = 1 → (s.sp p).agreedWidth = 1 →
      leAt d 0 4 = 0x5AC33CA5 → leAt d 28 4 = crc32 (d.take 28) → leAt d 4 1 < 2 → leAt d 7 21 = 0 → leAt d 5 1 = 1 →
      exec (.resultBlock p 0 raw) s = .next (s.settle
        ((((((s.wr F.SER_PORT_STATUS.STATE serActive p).wr F.SER_PORT_STATUS.LANES 1 p).wr F.SER_PORT_STATUS.WIDTH 1 p).setSp p
          { s.sp p with rxLanes := 1, reacqBeats := 0, reacq := none, reacqOwn := none, reacqPeer := none }).startData p 0
          (s.sp p).agreedStep).linkStart p)))

/-- R130: on entry to INIT, TX_NEXT, TX_OLDEST, E and OUTSTANDING are 0, NAK_OUT is clear, no ACK is known, so that 0xFFF is sent, and
the replay buffer is empty. -/
def Obligations.InitStartsClean : Prop :=
  ∀ (s : State) (p : Port), s.lnkState p = lnkDown → s.en uLNK = true → s.serState p = serActive →
    let t := s.linkStart p
    t.lnkState p = lnkInit ∧ t.rd F.LNK_REPLAY_STATUS.TX_NEXT p = 0 ∧ t.rd F.LNK_REPLAY_STATUS.TX_OLDEST p = 0 ∧
    t.rd F.LNK_REPLAY_STATUS.RX_EXPECT p = 0 ∧ t.rd F.LNK_REPLAY_STATUS.OUTSTANDING p = 0 ∧
    t.rd F.LNK_REPLAY_STATUS.NAK_OUT p = 0 ∧ (t.link p).acked = none ∧ (t.link p).replay = [] ∧
    ∀ ty words seq, t.flitHdr p ty words seq = ty * 2 ^ 30 + words * 2 ^ 24 + 0xFFF * 2 ^ 12 + seq

/-- Locks (R94, R95, R102, Table 16.11): a lane that loses its lock clears CDR_LOCK, and SIG_DET where the amplitude says so. One of two used
lanes that does so makes the port ask to narrow to the other, four Beats ahead, and logs SER_NARROWED; the last used lane takes the port to DETECT
with its link down; so does the last lane of a port in CAPS, or of those that train; otherwise nothing more comes of it. A chiplet PLL that locks sets its LOCK; one that loses lock while its ports are in OFF or WAIT clears it and logs
SER_PLL_UNLOCK, and no port moves.
SER_PORT_CTRL of a used port with no calibration under way (Table 3.4, R94, R112, R115, R142). RESTART takes a port to DETECT, from WAIT once
its PLL is locked and its lanes are calibrated, and does nothing in OFF and TEST. MODE set takes a port to TEST, from WAIT likewise, and one in OFF
leaves it where it is enabled; MODE cleared takes a port from TEST to DETECT. POWER_DOWN takes a port to OFF. An ACTIVE port goes
by an orderly fence. A bit that already holds its value does nothing. The register's other fields stay as they are. -/
def Obligations.PortsLockAndObey : Prop :=
  (
    ∀ (s : State),
      (∀ (p : Port) (k : Fin 2) (mv : Nat), s.live = true →
        let t := (s.sigDetect (2 * p + k) mv).wr F.SER_LANE_STATUS.CDR_LOCK 0 (2 * p + k)
        let other := s.on F.SER_LANE_STATUS.CDR_LOCK (2 * p + (1 - k.val))
        let go := exec (.laneLockLost p ⟨k, mv⟩) s
        (s.serState p = serActive → s.rd F.SER_PORT_STATUS.LANES p = 3 → other = true →
          go = .next (s.settle ((t.sendWidthReq p 1 (1 - k.val) 4).raise .SER_NARROWED p))) ∧
        (s.serState p = serActive → s.rd F.SER_PORT_STATUS.LANES p = 2 ^ k.val → s.lnkState p ≠ lnkFencing →
          go = .next (s.settle ((t.lanesLost p).serTo p serDetect))) ∧
        (s.serState p = serActive → bit (s.rd F.SER_PORT_STATUS.LANES p) k = false → go = .next (s.settle t)) ∧
        (s.serState p = serCaps → other = false → go = .next (s.settle (t.serTo p serDetect))) ∧
        (s.serState p = serCaps → other = true → (s.sp p).idOf 0 ≠ (s.sp p).idOf 1 → go = .next (s.settle t)) ∧
        (s.serState p = serTrain → (s.sp p).training = 3 → other = false → go = .next (s.settle (t.serTo p serDetect))) ∧
        (s.serState p = serTrain → (s.sp p).training = 3 → other = true → go = .next (s.settle t)) ∧
        (s.serState p ≠ serCaps → s.serState p ≠ serTrain → s.serState p ≠ serActive → go = .next (s.settle t))) ∧
      (∀ c : Fin 4, s.pins.pwrok = true →
        exec (.pllLock c) s = .next (s.settle (s.wr F.SER_PLL_STATUS.LOCK (setBit (s.rd F.SER_PLL_STATUS.LOCK) c)))) ∧
      (∀ c : Fin 4, s.pins.pwrok = true → bit (s.rd F.SER_PLL_STATUS.LOCK) c = true →
        (∀ i < 16, s.serState (16 * c + i) = serOff ∨ s.serState (16 * c + i) = serWait) →
        exec (.pllUnlock c) s = .next (s.settle
          ((s.wr F.SER_PLL_STATUS.LOCK (clrBit (s.rd F.SER_PLL_STATUS.LOCK) c)).raise .SER_PLL_UNLOCK c)))) ∧
  (
    ∀ (s : State) (who : Who) (p : Port),
      s.serves who .SER_PORT_CTRL p = true → s.fits who .SER_PORT_CTRL p = true → s.portRole p ≠ 0 → (s.sp p).calib = none →
      let still := s.needsCal (2 * p) = false ∧ s.needsCal (2 * p + 1) = false
      let calm := s.pllLocked p = true ∧ still
      let between := s.serState p = serDetect ∨ s.serState p = serCaps ∨ s.serState p = serTrain
      let test := s.wr F.SER_PORT_CTRL.MODE 1 p
      let operate := s.wr F.SER_PORT_CTRL.MODE 0 p
      let down := s.wr F.SER_PORT_CTRL.POWER_DOWN 1 p
      ((s.serState p = serWait → calm → s.rd F.SER_PORT_CTRL.MODE p = 0 → exec (.restart who p) s = .next (s.settle (s.serTo p serDetect))) ∧
        (s.serState p = serWait → s.pllLocked p = false → exec (.restart who p) s = .next (s.settle s)) ∧
        (between → exec (.restart who p) s = .next (s.settle (s.serTo p serDetect))) ∧
        (s.serState p = serActive → exec (.restart who p) s = .next (s.settle (s.leave p fnRestart serDetect))) ∧
        (s.serState p = serOff ∨ s.serState p = serTest → exec (.restart who p) s = .next (s.settle s))) ∧
      (s.rd F.SER_PORT_CTRL.MODE p = 0 →
        (s.serState p = serWait → calm → exec (.modeTest who p) s = .next (s.settle (test.serTo p serTest))) ∧
        (s.serState p = serWait → s.pllLocked p = false → exec (.modeTest who p) s = .next (s.settle test)) ∧
        (between → exec (.modeTest who p) s = .next (s.settle (test.serTo p serTest))) ∧
        (s.serState p = serActive → exec (.modeTest who p) s = .next (s.settle (test.leave p fnTest serTest))) ∧
        (s.serState p = serTest → exec (.modeTest who p) s = .next (s.settle test)) ∧
        (s.serState p = serOff → exec (.modeTest who p) s = .next (s.settle (test.portEnable p))) ∧
        exec (.modeOperate who p) s = .next (s.settle s)) ∧
      (s.rd F.SER_PORT_CTRL.MODE p = 1 →
        (s.serState p = serTest → exec (.modeOperate who p) s = .next (s.settle (operate.serTo p serDetect))) ∧
        (s.serState p ≠ serTest → s.serState p ≠ serOff → exec (.modeOperate who p) s = .next (s.settle operate)) ∧
        (s.serState p = serOff → exec (.modeOperate who p) s = .next (s.settle (operate.portEnable p))) ∧
        exec (.modeTest who p) s = .next (s.settle s)) ∧
      (s.rd F.SER_PORT_CTRL.POWER_DOWN p = 0 →
        (s.serState p ≠ serActive → exec (.powerDown who p) s = .next (s.settle (down.serTo p serOff))) ∧
        (s.serState p = serActive → exec (.powerDown who p) s = .next (s.settle (down.leave p fnPowerDown serOff)))) ∧
      (s.rd F.SER_PORT_CTRL.POWER_DOWN p = 1 → exec (.powerDown who p) s = .next (s.settle s)))

/-- FFE messages on a link that is UP (R97, R106, R110): with the equalization loop on and no override, a request moves PRE and POST
within their ranges, MAIN with them, staged for the next boundary, after which they are answered; a lane under FFE_OVR answers FFE_ACK
with STATUS 2 and its values; a LANE above 1 is answered with STATUS 4, logs SER_LANE_MSG_BAD and changes nothing else; an FFE_ACK ends
the request whose SEQ it carries.
Width changes (R98, R99): a request whose Beat lies ahead is answered done when it narrows, or when the port's own target is two
lanes, and the change of each direction is agreed for that Beat; a request to widen is refused with STATUS 3 otherwise, and noted (R394). An ACK that
says done agrees the port's own request; one that refuses notes the Beat, and the request is repeated after 64 Beats, 16 ahead (DESIGN
CHOICE, log entry 135) or, with a lane lost, 4 ahead (DEDUCED, log entry 96). At AT_BEAT the port sends the width marker on each lane of
its old width and goes on at the new one, and the receiver changes at the marker it finds; a lane that joins starts its scrambler anew
(the model's reading, log entry 111). -/
def Obligations.LaneMessages : Prop :=
  (
    ∀ (s : State) (p : Port) (lane seq : Nat), s.live = true → s.lnkState p = lnkUp →
      (∀ dpre dpost : Int, lane ≤ 1 → -1 ≤ dpre → dpre ≤ 1 → -1 ≤ dpost → dpost ≤ 1 →
        let l := 2 * p + lane
        let pre : Int := (s.shadowOf F.SER_FFE.PRE l : Int) + dpre
        let post : Int := (s.shadowOf F.SER_FFE.POST l : Int) + dpost
        s.eqLoop = true → s.eqHeld l .SER_FFE = false → 0 ≤ pre → pre ≤ 12 → 0 ≤ post → post ≤ 20 →
        exec (.ffeReq p lane seq dpre dpost) s = .next (s.settle
          ((((s.stage F.SER_FFE.PRE pre.toNat l).stage F.SER_FFE.POST post.toNat l).stage F.SER_FFE.MAIN
            (63 - pre.toNat - post.toNat) l).modLane l (fun x => { x with staged := some (seq, 0, 0) })))) ∧
      (∀ dpre dpost : Int, lane ≤ 1 → -1 ≤ dpre → dpre ≤ 1 → -1 ≤ dpost → dpost ≤ 1 →
        s.on F.SER_EQ_OVERRIDE.FFE_OVR (2 * p + lane) = true →
        exec (.ffeReq p lane seq dpre dpost) s = .next (s.settle
          (s.sendLaneMsg p 1 lane seq 2 0 0 (s.rd F.SER_FFE.PRE (2 * p + lane)) (s.rd F.SER_FFE.POST (2 * p + lane)) 0))) ∧
      (∀ dpre dpost : Int, 1 < lane →
        exec (.ffeReq p lane seq dpre dpost) s = .next (s.settle
          ((s.raise .SER_LANE_MSG_BAD p).sendLaneMsg p 1 lane seq 4 0 0 0 0 0))) ∧
      (lane ≤ 1 → (s.laneSt (2 * p + (s.sp p).hears lane)).reqSeq = some seq → (s.laneSt (2 * p + (s.sp p).hears lane)).frozen = 0 →
        exec (.ffeAck p lane seq) s = .next (s.settle
          (s.modLane (2 * p + (s.sp p).hears lane) (fun x => { x with reqSeq := none }))))) ∧
  (
    ∀ (s : State) (p : Port), s.live = true →
      (∀ lane seq at' : Nat, s.lnkState p = lnkUp → lane ≤ 1 → s.beatAhead at' = true →
        exec (.widthReq p lane seq 1 at') s = .next (s.settle
          ((s.modSp p (fun x => { x with txChange := some (s.beatOf at', 1, (s.sp p).hears lane),
                                         rxChange := some (1, (s.sp p).hears lane) })).sendLaneMsg p 3 lane seq 0 0 0 0 0 0))) ∧
      (∀ lane seq at' : Nat, s.lnkState p = lnkUp → lane ≤ 1 → s.beatAhead at' = true → s.rd F.SER_PORT_CTRL.TARGET_WIDTH p = 2 →
        exec (.widthReq p lane seq 2 at') s = .next (s.settle
          ((s.modSp p (fun x => { x with txChange := some (s.beatOf at', 2, (s.sp p).hears lane),
                                         rxChange := some (2, (s.sp p).hears lane) })).sendLaneMsg p 3 lane seq 0 0 0 0 0 0))) ∧
      (∀ lane seq at' : Nat, s.lnkState p = lnkUp → lane ≤ 1 → (s.beatAhead at' = false ∨ s.rd F.SER_PORT_CTRL.TARGET_WIDTH p ≠ 2) →
        exec (.widthReq p lane seq 2 at') s = .next (s.settle
          ((s.modSp p (fun x => { x with wide := true })).sendLaneMsg p 3 lane seq 3 0 0 0 0 0))) ∧
      (∀ (lane seq : Nat) (r : WidthReq), s.lnkState p = lnkUp → lane ≤ 1 → (s.sp p).widthReq = some r → r.seq = seq →
        exec (.widthAck p lane seq 0) s = .next (s.settle (s.modSp p (fun x =>
          { x with widthReq := none, txChange := some (r.atBeat, r.width, r.lane), rxChange := some (r.width, r.lane) }))) ∧
        exec (.widthAck p lane seq 3) s = .next (s.settle
          (s.modSp p (fun x => { x with widthReq := some { r with refusedAt := some s.beat } })))) ∧
      (∀ (r : WidthReq) (b : Nat), (s.sp p).widthReq = some r → r.refusedAt = some b → b + 64 ≤ s.beat →
        s.serState p = serActive →
        (s.laneGone p = false → s.offerWidth p ≠ s.rd F.SER_PORT_STATUS.WIDTH p →
          exec (.widthReqRepeat p) s = .next (s.settle (s.sendWidthReq p r.width r.lane 16))) ∧
        (s.laneGone p = true → r.width = 1 →
          exec (.widthReqRepeat p) s = .next (s.settle (s.sendWidthReq p 1 r.lane 4)))) ∧
      (∀ at' keep : Nat, keep < 2 → at' ≤ s.beat → s.serState p = serActive →
        ((s.sp p).txChange = some (at', 1, keep) → s.rd F.SER_PORT_STATUS.LANES p = 3 →
          exec (.widthChange p) s = .next (s.settle
            (((((s.sendWidthMarker p 0).sendWidthMarker p 1).wr F.SER_PORT_STATUS.WIDTH 1 p).wr F.SER_PORT_STATUS.LANES (2 ^ keep) p).modSp p
              (fun x => { x with txChange := none, reacqBeats := 0 })))) ∧
        ((s.sp p).txChange = some (at', 2, keep) → s.rd F.SER_PORT_STATUS.LANES p = 1 →
          exec (.widthChange p) s = .next (s.settle
            (((((s.sendWidthMarker p 0).modLane (2 * p + 1) (fun x => { x with txScr := scrambler.ones })).wr F.SER_PORT_STATUS.WIDTH 2 p).wr
              F.SER_PORT_STATUS.LANES 3 p).modSp p (fun x => { x with txChange := none, reacqBeats := 0 }))))) ∧
      (∀ keep : Nat, keep < 2 →
        ((s.sp p).rxChange = some (1, keep) → (s.sp p).rxLanes = 3 →
          exec (.widthMarker p) s = .next (s.settle (s.modSp p (fun x => { x with rxChange := none, rxLanes := 2 ^ keep })))) ∧
        ((s.sp p).rxChange = some (2, keep) → (s.sp p).rxLanes = 1 →
          exec (.widthMarker p) s = .next (s.settle
            ((s.modLane (2 * p + 1) (fun x => { x with rxScr := scrambler.ones })).modSp p
              (fun x => { x with rxChange := none, rxLanes := 3 }))))))

/-- Re-acquisition of the unused lane of a narrowed port (R100, R103, R108): it starts once 1,024 Beats have passed; after its 100 µs
the lane's values are written and its result blocks go out; where the lane passes and the peer's block says the same, the port asks to
widen 16 Beats ahead (DESIGN CHOICE, log entry 135). The freeze after a revert ends (R109).
The lane tests (R112, R113, R114): on a lane whose port is in TEST, CLEAR zeroes the checker's counts, INJECT marks the next bit of
a generator that runs to be flipped, a checker takes the bits that the lane's symbols stand for, or in near-end parallel loop its
generator's, the generator sends or feeds the near-end loops, and in far-end loop the lane sends back the symbols it decides; in any other state CLEAR and INJECT are refused with CFG_REJECT. -/
def Obligations.LanesReacquireAndTest : Prop :=
  (
    ∀ (s : State), s.live = true →
      (∀ p : Port, s.serState p = serActive → s.rd F.SER_PORT_STATUS.WIDTH p < s.offerWidth p → 1024 ≤ (s.sp p).reacqBeats →
        bit (s.rd F.SER_PORT_STATUS.LANES p) 0 = true → s.on F.SER_LANE_STATUS.FAILED (2 * p + 1) = false →
        exec (.reacquisition p) s = .next (s.settle ((s.modSp p (fun x => { x with reacqBeats := 0 })).reacqStart p 1))) ∧
      (∀ (p : Port) (r : PrbsRx) (e : EqVals), s.serState p = serActive → (s.sp p).reacq = some 1 → (s.sp p).idOf 1 = some 1 →
        (s.sp p).reacqPeer = none → let step := s.rd F.SER_PORT_STATUS.STEP p
        prbsErrors step (bit (s.rd F.SER_PORT_STATUS.POL_INV p) 1) r ≤ s.rd F.SER_BRINGUP_CFG.ERR_MAX →
        exec (.reacquisitionEnd p r.start r.syms e) s = .next (s.settle
          (((((s.putFfe (2 * p + 1) (s.sp p).reacqFfe.1 (s.sp p).reacqFfe.2).putEq (2 * p + 1) e).sendResult p 1 2 step).modSp p
            (fun x => { x with reacqOwn := some true }))))) ∧
      (∀ (p : Port) (raw : List Level), s.serState p = serActive → (s.sp p).reacq = some 1 → (s.sp p).reacqOwn = some true →
        resultPass (unsymbols (s.rd F.SER_PORT_STATUS.STEP p) (bit (s.rd F.SER_PORT_STATUS.POL_INV p) 1) raw) = some 2 →
        ∃ t : State, t = s.modSp p (fun x => { x with reacq := none, reacqOwn := none, reacqPeer := none }) ∧
          exec (.resultBlock p 1 raw) s = .next (s.settle
            ((t.wr F.SER_LANE_STATUS.CDR_LOCK 1 (2 * p + 1)).sendWidthReq p 2 1 16))) ∧
      (∀ l : Lane, (s.laneSt l).frozen = 0 → s.on F.SER_EQ_OVERRIDE.FREEZE l = false →
        exec (.eqFreezeEnd l) s = .next (s.settle (s.wrNow F.SER_LANE_STATUS.FROZEN 0 l)))) ∧
  (
    ∀ (s : State) (l : Lane),
      (∀ who : Who, s.serves who .SER_TEST l = true → s.fits who .SER_TEST l = true → s.laneInTest l = true →
        exec (.clear who l) s = .next (s.settle
          ((((s.wr F.SER_PRBS_COUNT.BITS 0 l).wr F.SER_PRBS_COUNT.ERRORS 0 l).wr F.SER_PRBS_COUNT.SAT 0 l).modLane l
              (fun x => { x with prbsBits := 0 }))) ∧
        (s.on F.SER_TEST.GEN_EN l = true → s.rd F.SER_TEST.LOOP l ≠ 3 →
          exec (.inject who l) s = .next (s.settle (s.modLane l (fun x => { x with flip := true }))))) ∧
      (∀ who : Who, s.serves who .SER_TEST l = true → s.fits who .SER_TEST l = true → s.laneInTest l = false →
        exec (.clear who l) s = .next (s.settle (s.raise .CFG_REJECT)) ∧
        exec (.inject who l) s = .next (s.settle (s.raise .CFG_REJECT))) ∧
      (∀ before during after : List Level, s.live = true → s.laneInTest l = true → let rx := before ++ during ++ after
        let got := levelBits (s.rd F.SER_TEST.STEP l) (bit (s.rd F.SER_PORT_STATUS.POL_INV (l / 2)) (l % 2)) rx
        let gen := s.generate l got.length
        let go := exec (.checkerLock l before during after) s
        (s.on F.SER_TEST.GEN_EN l = false → s.rd F.SER_TEST.LOOP l ≤ 1 → go = .next (s.settle (s.check l got))) ∧
        (s.on F.SER_TEST.GEN_EN l = false → s.rd F.SER_TEST.LOOP l = 2 → go = .next (s.settle s)) ∧
        (s.on F.SER_TEST.GEN_EN l = true →
          (s.rd F.SER_TEST.LOOP l = 0 → go = .next (s.settle
            ((gen.2.emit (.wire (l / 2) (l % 2) 1 (levelsOf (s.rd F.SER_TEST.STEP l) gen.1))).check l got))) ∧
          (s.rd F.SER_TEST.LOOP l = 1 → go = .next (s.settle (gen.2.check l got))) ∧
          (s.rd F.SER_TEST.LOOP l = 2 → go = .next (s.settle (gen.2.check l gen.1)))) ∧
        (s.rd F.SER_TEST.LOOP l = 3 → go = .next (s.settle ((s.emit (.wire (l / 2) (l % 2) 1 rx)).check l got)))))

/-- R125: while NAK_OUT is set, each NAK_RETRY makes a NAK due, and the next flit that the port sends is a CTRL_U flit of SEQ
TX_NEXT and the current ACK whose one message is NAK(E). -/
def Obligations.NakIsSentAgain : Prop :=
  ∀ (s : State) (p : Port) (stamp : Nat),
    (s.live = true → s.lnkState p = lnkUp → s.on F.LNK_REPLAY_STATUS.NAK_OUT p = true →
      exec (.nakRetry p) s = .next (s.settle (s.modLink p (fun l => { l with nakDue := true })))) ∧
    (s.pins.pwrok = true → s.lnkState p = lnkUp → (s.link p).nakDue = true →
      let ack := match (s.link p).acked with | some a => a | none => 0xFFF
      let hdr := 3 * 2 ^ 30 + 2 * 2 ^ 24 + ack * 2 ^ 12 + s.rd F.LNK_REPLAY_STATUS.TX_NEXT p
      let msg : Bytes := [0x01, 0x01, 0x00, 0x00] ++ leBytes 4 (s.rd F.LNK_REPLAY_STATUS.RX_EXPECT p)
      let l := { s.link p with sinceS := min 4 ((s.link p).sinceS + 1) }
      ((s.link p).rpos = none ∨ s.intact = true) →
      exec (.flitTransmit p stamp) s = .next (s.settle
        (((s.setLink p l).wireFlit p (flitEncode hdr msg false)).setLink p { l with nakDue := false })))

/-- R128: ACK_TIMEOUT with flits outstanding starts a replay from TX_OLDEST, which counts once in the health window (R129), as
long as the window stays within its limit (R137).
R127: a NAK(x) of a flit that is outstanding acknowledges those before it and starts a replay from x, which counts once (R129), as long as
the window stays within its limit (R137); one of the number of TX_NEXT acknowledges every flit outstanding and starts no replay; a NAK
of a number outside the outstanding flits changes nothing and logs LNK_ACK_BAD. -/
def Obligations.ReplayStartsAndEnds : Prop :=
  (
    ∀ (s : State) (p : Port),
      s.live = true → s.lnkState p = lnkUp → 0 < s.rd F.LNK_REPLAY_STATUS.OUTSTANDING p →
      s.rd F.LNK_ERR_COUNT.REPLAY_WIN p + 1 ≤ s.rd F.LNK_HEALTH.REPLAY_MAX →
      s.rd F.LNK_ERR_COUNT.REPLAY_WIN p + 1 < 2 ^ F.LNK_ERR_COUNT.REPLAY_WIN.w →
      exec (.ackTimeout p) s = .next (s.settle
        (((((s.wr F.LNK_REPLAY_STATUS.REPLAYING 1 p).modLink p
          (fun l => { l with rpos := some (s.rd F.LNK_REPLAY_STATUS.TX_OLDEST p) })).inc F.LNK_ERR_COUNT.REPLAY_TOTAL p).wr
          F.LNK_ERR_COUNT.REPLAY_WIN (s.rd F.LNK_ERR_COUNT.REPLAY_WIN p + 1) p)))) ∧
  (
    ∀ (s : State) (p : Port) (x : Nat),
      s.live = true → (s.lnkState p = lnkInit ∨ s.lnkState p = lnkUp) → x < 4096 →
      let out := s.rd F.LNK_REPLAY_STATUS.OUTSTANDING p
      let k := (x + 4096 - s.rd F.LNK_REPLAY_STATUS.TX_OLDEST p) % 4096
      let acked := if k = 0 then s else
        (((s.wr F.LNK_REPLAY_STATUS.TX_OLDEST x p).wr F.LNK_REPLAY_STATUS.OUTSTANDING (out - k) p).wr F.LNK_REPLAY_STATUS.FULL
          (b2n (out - k == 512)) p).modLink p (fun l => { l with replay := l.replay.drop k })
      (k < out → s.rd F.LNK_REPLAY_STATUS.TX_OLDEST p < 4096 →
        s.rd F.LNK_ERR_COUNT.REPLAY_WIN p + 1 ≤ s.rd F.LNK_HEALTH.REPLAY_MAX →
        s.rd F.LNK_ERR_COUNT.REPLAY_WIN p + 1 < 2 ^ F.LNK_ERR_COUNT.REPLAY_WIN.w →
        exec (.nak p x) s = .next (s.settle
          (((((acked.wr F.LNK_REPLAY_STATUS.REPLAYING 1 p).modLink p (fun l => { l with rpos := some x })).inc
            F.LNK_ERR_COUNT.REPLAY_TOTAL p).wr F.LNK_ERR_COUNT.REPLAY_WIN (s.rd F.LNK_ERR_COUNT.REPLAY_WIN p + 1) p)))) ∧
      (out < k → exec (.nak p x) s = .next (s.settle (s.raise .LNK_ACK_BAD p))) ∧
      (0 < out → k = out → s.rd F.LNK_REPLAY_STATUS.TX_OLDEST p < 4096 → exec (.nak p x) s = .next (s.settle
        ((((s.wr F.LNK_REPLAY_STATUS.TX_OLDEST x p).wr F.LNK_REPLAY_STATUS.OUTSTANDING 0 p).wr F.LNK_REPLAY_STATUS.FULL 0 p).modLink p
          (fun l => { l with replay := l.replay.drop out })))))

/-- Table 4.3, for a flit that passes FEC, CRC and R118 in UP with an ACK that is stale, on the lanes that the port receives on (R93):
a DATA flit of SEQ E that carries whole packets, or fills its body, is accepted, E advances, its SEQ is acknowledged and its packets
are staged; sequenced flits ahead of E are discarded and asked for once, those behind E are discarded silently; an IDLE of SEQ E changes
nothing, one ahead of E is asked for once, one behind E declares the link down with reason PROTO.
R102, R120, R137, Tables 4.3 and 4.7: a flit that FEC cannot mend, or one that is cut short on one lane of two, is uncorrectable: in
UP, while its window stays within the limit, it is counted in the window and in all, and asked for once; in INIT it is counted in all
and the count of good flits starts again. A flit that is cut short on every lane is no received flit. -/
def Obligations.ReceiverTakesOrDiscards : Prop :=
  (
    ∀ (s t : State) (p : Port) (r0 r1 : List Level) (raw g : Bytes) (stamp : Nat),
      s.live = true → s.lnkState p = lnkUp → s.delivers p r0 r1 raw t → flitDecode raw = some (g, 0) → flitOk (leAt g 0 4) = true →
      (bits (leAt g 0 4) 12 12 + 4096 - s.rd F.LNK_REPLAY_STATUS.TX_OLDEST p + 1) % 4096 = 0 →
      let ty := bits (leAt g 0 4) 30 2
      let seq := bits (leAt g 0 4) 0 12
      let words := bits (leAt g 0 4) 24 6
      let d := (seq + 4096 - s.rd F.LNK_REPLAY_STATUS.RX_EXPECT p) % 4096
      let asked := (t.wr F.LNK_REPLAY_STATUS.NAK_OUT 1 p).modLink p (fun l => { l with nakDue := true })
      let ahead := if s.on F.LNK_REPLAY_STATUS.NAK_OUT p then t else asked
      let go := exec (.flitReceive p (r0, r1) stamp) s
      (∀ (ps : List Bytes) (rest : Bytes), ty = 1 → d = 0 → (words = 59 ∨ rest = []) →
        cutPackets 64 ((s.link p).rx ++ ((g.drop 4).take 236).take (4 * words)) = (ps, rest, true) →
        go = .next (s.settle
          { ((((t.wr F.LNK_REPLAY_STATUS.RX_EXPECT ((seq + 1) % 4096) p).wr F.LNK_REPLAY_STATUS.NAK_OUT 0 p).modLink p
              (fun l => { l with acked := some seq, nakDue := false })).modLink p (fun l => { l with rx := rest })) with
            arrived := s.arrived ++ ps.map (fun b => (p.val, b)) })) ∧
      ((ty = 1 ∨ ty = 2) → 1 ≤ d → d ≤ 2047 → go = .next (s.settle ahead)) ∧
      ((ty = 1 ∨ ty = 2) → 2048 ≤ d → go = .next (s.settle t)) ∧
      (ty = 0 → d = 0 → go = .next (s.settle t)) ∧
      (ty = 0 → 1 ≤ d → d ≤ 2047 → go = .next (s.settle ahead)) ∧
      (ty = 0 → 2048 ≤ d → go = .next (s.settle (t.declare p rsProto)))) ∧
  (
    ∀ (s t : State) (p : Port) (r0 r1 : List Level) (stamp : Nat), s.live = true →
      let both := (s.rxAdvance (2 * p) 128).rxAdvance (2 * p + 1) 128
      let cut := (s.sp p).rxLanes = 3 ∧ s.laneWhole p 0 128 r0 ≠ s.laneWhole p 1 128 r1 ∧ t = both
      let go := exec (.flitReceive p (r0, r1) stamp) s
      (((∃ raw, s.delivers p r0 r1 raw t ∧ flitDecode raw = none) ∨ cut) →
        (s.lnkState p = lnkInit → go = .next (s.settle
          ((t.inc F.LNK_ERR_COUNT.UNCORR_TOTAL p).modLink p (fun l => { l with good := 0 })))) ∧
        (s.lnkState p = lnkUp → s.rd F.LNK_ERR_COUNT.UNCORR_WIN p + 1 ≤ s.rd F.LNK_HEALTH.UNCORR_MAX →
          s.on F.LNK_REPLAY_STATUS.NAK_OUT p = false →
          go = .next (s.settle
            ((((t.inc F.LNK_ERR_COUNT.UNCORR_TOTAL p).inc F.LNK_ERR_COUNT.UNCORR_WIN p).wr F.LNK_REPLAY_STATUS.NAK_OUT 1 p).modLink p
              (fun l => { l with nakDue := true }))))) ∧
      ((s.sp p).rxLanes = 3 → s.lnkState p = lnkUp → s.laneWhole p 0 128 r0 = false → s.laneWhole p 1 128 r1 = false →
        go = .next (s.settle both)))

/-- The ways down (R138, R139, R141, R143, Table 4.7): the port is fenced, the link enters DOWN with the reason, and its lanes go to
DETECT. NOPROG needs UP, INIT_TIMEOUT needs INIT; a received FENCE leaves its REASON, 15 where it is above 14, in PEER_REASON;
after the fourth FENCE that was sent the link enters DOWN and the lanes go where the cause of the fence said, or to TEST where MODE
reads TEST by now.
R137: at the Beat boundary that ends its health window a port in UP starts a new one with both window counters clear. R167: a word
of a CREDIT message adds COUNT to the credits held of its channel, and a word with COUNT 0 declares the link down with reason PROTO.
R146: CORRUPT on a used port asks for one wrong CRC. -/
def Obligations.LinksEndAndCount : Prop :=
  (
    ∀ (s : State) (p : Port),
      let down (s : State) (reason : Nat) : State := ((s.fence p).linkDown p reason).serTo p serDetect
      (s.live = true → s.lnkState p = lnkInit → s.serState p = serActive →
        exec (.initTimeout p) s = .next (s.settle (down s rsInit))) ∧
      (∀ noFlit : Bool, s.live = true → s.lnkState p = lnkUp → (noFlit = true ∨ 0 < s.rd F.LNK_REPLAY_STATUS.OUTSTANDING p) →
        s.serState p = serActive →
        exec (.noprogUs p noFlit) s = .next (s.settle (down s rsNoprog))) ∧
      (∀ reason : Nat, let r := s.wr F.LNK_PORT_STATUS.PEER_REASON (min reason 15) p
        s.live = true → s.lnkState p = lnkUp → s.serState p = serActive →
        exec (.fence p reason) s = .next (s.settle (down r rsPeerFence))) ∧
      (s.pins.pwrok = true → s.lnkState p = lnkFencing → (s.link p).fenceLeft = 0 → (s.link p).fenceDest ≠ serOff →
        (s.on F.SER_PORT_CTRL.MODE p = true →
          exec (.fenceComplete p) s = .next (s.settle ((s.linkDown p rsLocalFence).serTo p serTest))) ∧
        (s.on F.SER_PORT_CTRL.MODE p = false → (s.link p).fenceDest ≠ serTest →
          exec (.fenceComplete p) s = .next (s.settle ((s.linkDown p rsLocalFence).serTo p (s.link p).fenceDest))))) ∧
  (
    ∀ (s : State) (p : Port),
      (s.live = true → s.lnkState p = lnkUp → 0 < s.rd F.LNK_HEALTH.WINDOW → (s.link p).winBeats = s.rd F.LNK_HEALTH.WINDOW →
        exec (.healthWindowRestart p) s = .next (s.settle
          ((((s.wr F.LNK_ERR_COUNT.UNCORR_WIN 0 p).wr F.LNK_ERR_COUNT.REPLAY_WIN 0 p).modLink p (fun l => { l with winBeats := 0 })).modLink p
            (fun l => { l with winBeats := 0 })))) ∧
      (∀ (vn hc n : Nat), s.live = true → s.lnkState p = lnkUp → vn ≤ 4 → hc ≤ 2 → 1 ≤ n → n ≤ 4095 →
        tabGetD s.rte.cred (chKey p vn hc false) 0 + n ≤ 4095 →
        ∃ t : State, exec (.credit p (leBytes 4 (vn + hc * 8 + n * 256))) s = .next (s.settle t) ∧
          tabGetD t.rte.cred (chKey p vn hc false) 0 = tabGetD s.rte.cred (chKey p vn hc false) 0 + n ∧
          (∀ k, k ≠ chKey p vn hc false → tabGetD t.rte.cred k 0 = tabGetD s.rte.cred k 0) ∧
          t = { s with rte := { s.rte with cred := t.rte.cred, used := t.rte.used, seen := t.rte.seen } }) ∧
      (∀ (vn hc : Nat), s.live = true → s.lnkState p = lnkUp → vn ≤ 4 → hc ≤ 2 →
        exec (.credit p (leBytes 4 (vn + hc * 8))) s = .next (s.settle (s.declare p rsProto))) ∧
      (∀ who : Who, s.serves who .LNK_PORT_CTRL p = true → s.portRole p ≠ 0 →
        exec (.corrupt who p) s = .next (s.settle (s.modLink p (fun l => { l with corrupt := true })))))

/-- R151, R155, R162, R168, R169: PACKET_ARRIVE takes the oldest packet staged at the port. One on a host-facing port that claims a SRC
not served there is discarded, counted in SRC_BAD and logged, and its credits go back; one of no channel (VN above 4, or HC 3) is
discarded, counted and logged as malformed; one that its channel has no credits for is RTE_CREDIT_OVERRUN and takes the link down with
reason PROTO; one with PH 3 in a channel that has the credits is malformed and its credits go back. A unicast packet that passes all of these
and has a route is held with its hop; a multicast packet all of whose branches can be taken is held with them. While RTE is disabled,
and where nothing is staged, nothing happens. -/
def Obligations.ArrivalIsChecked : Prop :=
  ∀ (s : State) (p : Port) (b : Bytes) (rest : List (Nat × Bytes)),
    s.live = true → s.intact = true →
    let t := { s with arrived := rest }
    let det := !pkMcast b && ((s.kind p == kRow && s.xFirst (s.target b)) || (s.kind p == kCol && s.target b / 16 != s.ownPos / 16))
    (s.en uRTE = false ∨ s.arrived = [] → exec (.packetArrive p) s = .next (s.settle s)) ∧
    (s.en uRTE = true → s.lnkState p = lnkUp → s.arrived = (p.val, b) :: rest →
      (s.kind p = kHost → s.srcBad p b = true → pkVn b ≤ 4 → pkHc b ≤ 2 → exec (.packetArrive p) s = .next (s.settle
        (((t.freeCredits p (pkVn b) (pkHc b) false (pkCredits b)).inc F.RTE_DROP_COUNT.SRC_BAD).raise .RTE_SRC_BAD p))) ∧
      (s.kind p ≠ kHost → (4 < pkVn b ∨ 2 < pkHc b) → exec (.packetArrive p) s = .next (s.settle
        ((t.inc F.RTE_DROP_COUNT.MALFORMED).raise .RTE_MALFORMED))) ∧
      (s.kind p ≠ kHost → pkVn b ≤ 4 → pkHc b ≤ 2 →
        s.allocOf (chKey p (pkVn b) (pkHc b) det) < s.resident (chKey p (pkVn b) (pkHc b) det) + pkCredits b →
        exec (.packetArrive p) s = .next (s.settle ((t.raiseOcc { occ .RTE_CREDIT_OVERRUN p with
          info := pkVn b + pkHc b * 8 + b2n det * 32 + s.allocOf (chKey p (pkVn b) (pkHc b) det) % 4096 * 2 ^ 16 +
            pkCredits b % 4096 * 2 ^ 32,
          init := s.rd F.SER_PORT_STATUS.PEER_NODE p, remote := true }).declare p rsProto))) ∧
      (s.kind p ≠ kHost → pkVn b ≤ 4 → pkHc b ≤ 2 → pkPh b = 3 →
        s.resident (chKey p (pkVn b) (pkHc b) det) + pkCredits b ≤ s.allocOf (chKey p (pkVn b) (pkHc b) det) →
        exec (.packetArrive p) s = .next (s.settle
          (((t.freeCredits p (pkVn b) (pkHc b) det (pkCredits b)).inc F.RTE_DROP_COUNT.MALFORMED).raise .RTE_MALFORMED))) ∧
      ((s.kind p = kHost → s.srcBad p b = false) → badRoute b = false →
        s.resident (chKey p (pkVn b) (pkHc b) det) + pkCredits b ≤ s.allocOf (chKey p (pkVn b) (pkHc b) det) →
        let k : Pk := ⟨b, p, det, true, []⟩
        (∀ (b' : Bytes) (h : Hop) (u : State), pkMcast b = false → t.route k = (some (b', h), u) →
          exec (.packetArrive p) s = .next (s.settle
            ((u.countInject k b').modRte (fun r => { r with held := r.held ++ [{ k with b := b', hops := [h] }] })))) ∧
        (∀ hs : List Hop, pkMcast b = true → t.mcHops k = some (hs, 0) → hs ≠ [] →
          exec (.packetArrive p) s = .next (s.settle (t.modRte (fun r => { r with held := r.held ++ [{ k with hops := hs }] }))))))

/-- A packet through the router (R158, R159, R164 to R167, R172, R174): PACKET_INJECT holds a unicast packet for the node itself, of VN0,
VN3 or VN4, an agent's or the router's own notice, with PH and ING zero and the ejection port as its hop, and counts it where its VN is
adaptive (R397); a VN1 packet whose limiter has an empty bucket waits, and where no packet waits there nothing happens. A VN0 packet
that may start goes first: at the ejection port it is ejected, at a link its bytes join the transmitter's, the credits of the channel
that it enters go down by its size and are counted as used; its own channel gets its credits back. Where no packet may start,
PACKET_FORWARD changes nothing. That the credits go back as the packet starts, where R166 says when its last byte leaves, is the model's choice
(log entry 80), and so is that VN0 packets go in the order in which they came (log entry 81). -/
def Obligations.PacketTravels : Prop :=
  ∀ (s : State), s.live = true → s.en uRTE = true → s.intact = true →
    (∀ (n : Nat) (b : Bytes), pkMcast b = false → (pkVn b = 0 ∨ pkVn b = 3 ∨ pkVn b = 4) → pkDst b = s.nodeId → s.aliasAt s.ownPos = none →
      let hold (u : State) : State := (u.countInject ⟨b, ownPort, false, false, []⟩ (setPath b 0 0)).modRte (fun r =>
        { r with held := r.held ++ [⟨setPath b 0 0, ownPort, false, false, [⟨ownPort, false⟩]⟩] })
      (s.rte.agent[n]? = some b →
        exec (.packetInject n) s = .next (s.settle (hold (s.modRte (fun r => { r with agent := r.agent.eraseIdx n }))))) ∧
      (s.rte.agent.length ≤ n → s.rte.notices[n - s.rte.agent.length]? = some b →
        exec (.packetInject n) s = .next (s.settle (hold (s.modRte (fun r =>
          { r with notices := r.notices.eraseIdx (n - s.rte.agent.length) })))))) ∧
    (∀ n : Nat, s.rte.agent.length + s.rte.notices.length ≤ n → exec (.packetInject n) s = .next (s.settle s)) ∧
    (∀ (n : Nat) (b : Bytes) (l : Limiter), s.rte.agent[n]? = some b → pkMcast b = false → pkVn b = 1 →
      tabGet s.rte.limits (pkDst b) = some l → l.bucket ≤ 0 → exec (.packetInject n) s = .next (s.settle s)) ∧
    (∀ out : Fin 65, s.candidates out = [] → exec (.packetForward out none) s = .next (s.settle s)) ∧
    (∀ (i : Nat) (k : Pk), (s.candidates ownPort).find? (fun x => pkVn x.2.b == 0) = some (i, k) → k.hops = [⟨ownPort, false⟩] →
      exec (.packetForward 64 none) s = .next (s.settle
        (((s.eject k.b).modRte (fun r => { r with held := r.held.eraseIdx i })).freePk k))) ∧
    (∀ (p : Port) (i : Nat) (k : Pk) (det : Bool), (s.candidates p).find? (fun x => pkVn x.2.b == 0) = some (i, k) →
      k.hops = [⟨p, det⟩] → pkVn k.b = 0 → s.kind p ≠ kGlobal →
      let key := chKey p 0 (pkHc k.b) det
      exec (.packetForward (Fin.ofNat 65 p) none) s = .next (s.settle
        (((((s.modRte (fun r => { r with cred := tabSet r.cred key 0 (tabGetD r.cred key 0 - pkCredits k.b),
                                         used := tabSet r.used key 0 (tabGetD r.used key 0 + pkCredits k.b) })).modLink p
          (fun l => { l with tx := l.tx ++ k.b })).modRte (fun r => { r with held := r.held.eraseIdx i })).freePk k))))

/-- What RTE takes for itself (R174, R175, R182, R183): an ECHO and a MGMT_RESP are consumed; a limiter that has stood at RATE_CAP for
FREE_BEATS Beats is freed and the others stay; a request of a node that RTE_MGMT_ALLOW does not name is logged RTE_MGMT_DENIED and not
answered; a request to an offset outside the BEA, RTE and MCT windows, or to RTE_MGMT_ALLOW, is answered with STATUS 3; a read inside is
answered with STATUS 0 and the register's value, and a write that no field refuses is performed and answered with STATUS 0 and the
register's new value. That RTE_MGMT_ALLOW itself answers STATUS 3, and that the answer is sent in the request's class, are the model's
readings. -/
def Obligations.RouterServesItsPackets : Prop :=
  ∀ (s : State) (b : Bytes) (cycle sub : Nat), s.live = true →
    (s.hands uRTE 0x04 b = true → exec .echo s = .next (s.settle (s.handed 0x04 b))) ∧
    (s.hands uRTE 0x03 b = true → exec .mgmtResp s = .next (s.settle (s.handed 0x03 b))) ∧
    (∀ (node : Nat) (l : Limiter), tabGet s.rte.limits node = some l → s.rd F.RTE_LIMITER_CFG.FREE_BEATS ≤ l.capBeats →
      exec (.limiterFree node) s = .next (s.settle ((s.modRte (fun r => { r with limits := tabDel r.limits node })).wr
        F.RTE_LIMITER_STATUS.IN_USE (tabDel s.rte.limits node).length))) ∧
    (s.hands uRTE 0x01 b = true →
      let t := s.handed 0x01 b
      (t.mgmtEntry (pkSrc b) = none → exec .mgmtWrite s = .next (s.settle (t.raise .RTE_MGMT_DENIED))) ∧
      (∀ i : Fin 4, t.mgmtEntry (pkSrc b) = some i → t.mgmtSlots (pkSrc b) < 16 → mgmtReach (leAt b 12 4) = false →
        exec .mgmtWrite s = .next (s.settle (t.mgmtAnswer b 3 0))) ∧
      (∀ (i : Fin 4) (r : Reg) (k : Nat), t.mgmtEntry (pkSrc b) = some i → t.mgmtSlots (pkSrc b) < 16 →
        mgmtReach (leAt b 12 4) = true → leAt b 12 4 % 8 = 0 → pfLoc (leAt b 12 4) = .reg r k → t.serves (.mgmt i) r k = true →
        let w := t.writeReg (.mgmt i) r k (leNat ((pkPayload b).take 8))
        w.acts = t.acts → exec .mgmtWrite s = .next (s.settle (w.mgmtAnswer b 0 (w.mgmtValue i (leAt b 12 4)))))) ∧
    (s.hands uRTE 0x02 b = true →
      let t := s.handed 0x02 b
      (t.mgmtEntry (pkSrc b) = none → exec (.mgmtRead cycle sub) s = .next (s.settle (t.raise .RTE_MGMT_DENIED))) ∧
      (∀ (i : Fin 4) (r : Reg) (k : Nat), t.mgmtEntry (pkSrc b) = some i → t.mgmtSlots (pkSrc b) < 16 →
        mgmtReach (leAt b 12 4) = true → leAt b 12 4 % 8 = 0 → pfLoc (leAt b 12 4) = .reg r k → t.serves (.mgmt i) r k = true →
        r ≠ .BEA_COUNT → r ≠ .ECC_WIN → s.intact = true →
        exec (.mgmtRead cycle sub) s = .next (s.settle (t.mgmtAnswer b 0 (t.regWord (.mgmt i) r k)))))

/-- Tree commands (Table 6.6, Table 6.19, R195, R212, R213): with no command running, where Confluence is not enabled each ends with code 5; a
LOAD of a tree that is there ends with code 3, the others of one that is not there with code 4; a LOAD by a function starts the read of
the 192 bytes at MCT_TREE_ADDR with BUSY set, and one by a requester without a host ends with code 6 (log entry 20); RESET, UNLOAD and ABORT of a READY tree with no open operation end with code 0: the tree at
rest with the new epoch, released, or BROKEN with a CF_ABORT to every neighbour. While a command runs, another is refused. The read of a LOAD
that ends with a descriptor within Table 6.5 installs the tree at rest with the descriptor's epoch, on the engine with the most free space (log
entry 16), with code 0; one outside it ends with code 1, one for which no engine has room with code 2, and one that the host refuses with code 6. -/
def Obligations.TreeCommandsEnd : Prop :=
  ∀ (s : State) (who : Who) (t e : Nat) (x : Tree),
    (s.live = true → ∀ f : Fn, s.mct.cmd = some (f, t) →
      let result (s : State) (code : Nat) : State :=
        (((s.modMct (fun m => { m with cmd := none })).wr F.MCT_TREE_RESULT.BUSY 0).wr F.MCT_TREE_RESULT.CODE code).wr
          F.MCT_TREE_RESULT.TREE t
      (∀ d : Bytes, d.length = 192 →
        let go := exec (.descriptorFetchDone .tree (.ok d)) s
        let fresh : Tree := ⟨d, 0, [], [], [], [], 0, false, false, 0, []⟩
        (treeDescBad d t = true → go = .next (s.settle ((result s 1).raise .MCT_TREE_LOAD_FAIL t))) ∧
        (∀ u : State, treeDescBad d t = false → s.placeOn 1 ((leAt d 3 1 + 2) * leAt d 4 2 * 4096) = (none, u) →
          go = .next (s.settle ((result u 2).raise .MCT_TREE_LOAD_FAIL t))) ∧
        (∀ (n : Nat) (u : State), treeDescBad d t = false → s.placeOn 1 ((leAt d 3 1 + 2) * leAt d 4 2 * 4096) = (some n, u) →
          go = .next (s.settle (result ((((((u.modMct (fun m => { m with trees := tabPut m.trees t fresh })).wr F.MCT_TREE_STATUS.ENGINE
            n t).modTree t Tree.clear).wr F.MCT_TREE_STATUS.STATE tsReady t).wr F.MCT_TREE_STATUS.EPOCH (leAt d 24 2) t).wr
            F.MCT_TREE_STATUS.OP_SEQ 0 t) 0)))) ∧
      (∀ a : Ans, a = .err ∨ a = .poison →
        exec (.descriptorFetchDone .tree a) s = .next (s.settle ((result s 6).raise .MCT_TREE_LOAD_FAIL t)))) ∧
    (s.serves who .MCT_TREE_CMD 0 = true → t < 1024 → e < 65536 →
    let result (s : State) (code : Nat) : State :=
      (((s.modMct (fun m => { m with cmd := none })).wr F.MCT_TREE_RESULT.BUSY 0).wr F.MCT_TREE_RESULT.CODE code).wr
        F.MCT_TREE_RESULT.TREE t
    let s0 := s.wr F.MCT_TREE_RESULT.TREE t
    (s.on F.MCT_TREE_RESULT.BUSY = true →
      exec (.treeLoad who t) s = .next (s.settle (s.raise .CFG_REJECT)) ∧
      exec (.treeReset who t e) s = .next (s.settle (s.raise .CFG_REJECT)) ∧
      exec (.treeUnload who t) s = .next (s.settle (s.raise .CFG_REJECT)) ∧
      exec (.treeAbort who t) s = .next (s.settle (s.raise .CFG_REJECT))) ∧
    (s.on F.MCT_TREE_RESULT.BUSY = false → s.confOn = false →
      exec (.treeLoad who t) s = .next (s.settle (result s0 5)) ∧
      exec (.treeReset who t e) s = .next (s.settle (result s0 5)) ∧
      exec (.treeUnload who t) s = .next (s.settle (result s0 5)) ∧
      exec (.treeAbort who t) s = .next (s.settle (result s0 5))) ∧
    (s.on F.MCT_TREE_RESULT.BUSY = false → s.confOn = true → s.tree t = none →
      (∀ f : Fn, who = .fn f → exec (.treeLoad who t) s = .next (s.settle
        (((s0.modMct (fun m => { m with cmd := some (f, t) })).wr F.MCT_TREE_RESULT.BUSY 1).readHost f
          (s.rd F.MCT_TREE_ADDR.ADDR * 64) 192))) ∧
      (whoFn who = none → exec (.treeLoad who t) s = .next (s.settle ((result s0 6).raise .MCT_TREE_LOAD_FAIL t))) ∧
      exec (.treeReset who t e) s = .next (s.settle (result s0 4)) ∧
      exec (.treeUnload who t) s = .next (s.settle (result s0 4)) ∧
      exec (.treeAbort who t) s = .next (s.settle (result s0 4))) ∧
    (s.on F.MCT_TREE_RESULT.BUSY = false → s.confOn = true → s.tree t = some x →
      exec (.treeLoad who t) s = .next (s.settle (result s0 3)) ∧
      (x.openOps = [] →
        exec (.treeReset who t e) s = .next (s.settle (result (((((s0.treeReads t).modTree t Tree.clear).wr F.MCT_TREE_STATUS.STATE
          tsReady t).wr F.MCT_TREE_STATUS.EPOCH e t).wr F.MCT_TREE_STATUS.OP_SEQ 0 t) 0)) ∧
        exec (.treeUnload who t) s = .next (s.settle (result ((((s0.modMct (fun m => { m with trees := tabDel m.trees t })).treeReads
          t).wr F.MCT_TREE_STATUS.STATE tsFree t)) 0)) ∧
        (s.treeState t ≠ tsBroken → exec (.treeAbort who t) s = .next (s.settle (result
          (((s0.cfAborts t x none x.nextSeq ccSw).treeBreak t).raiseOcc { occ .MCT_CF_ABORT t with
            info := x.nextSeq + ccSw * 2 ^ 16 + s.epochOf t * 2 ^ 32 }) 0))))))

/-- Packets of a tree (Table 6.6, R198 to R201, R206, R210, R212): one of another epoch is dropped and counted STALE. For the epoch in
force on a tree that is not BROKEN, a chunk more than 15 operations ahead aborts the tree with MISMATCH, one for which no slot is left
aborts it with PROTO, one of an operation that is not posted yet is held, one of a posted operation with which it agrees is held for
its combination, or is a result chunk that is written where the vertex writes results; a CF_GRANT to the parent's side adds its slots to the credit
to send up; a CF_ABORT of a neighbour aborts the tree with its status marked as received, and goes on to the other neighbours. The
phase timer that has run out aborts with TIMEOUT. -/
def Obligations.TreePacketsAreJudged : Prop :=
  ∀ (s : State) (b : Bytes) (x : Tree), s.live = true →
    let t := leAt b 12 2
    let k (up : Bool) : Chunk :=
      ⟨up, if up then leAt b 22 1 else 0, leAt b 14 2, leAt b 16 4, leAt b 28 1, leAt b 23 1, bit (pkFrame b) 31, leAt b 24 4, pkPayload b⟩
    let s1 (c : Nat) : State := (s.handed c b).reads (.tree t)
    (∀ up : Bool, let c := if up then 0x88 else 0x89
      let cmd : Instr := if up then .cfUp else .cfDown
      s.hands uMCT c b = true →
      ((s1 c).cfTree b = none → exec cmd s = .next (s.settle ((s1 c).inc F.MCT_COUNT.STALE))) ∧
      ((s1 c).cfTree b = some (t, x) → (s1 c).treeState t ≠ tsBroken → (up = false ∨ (1 ≤ leAt b 22 1 ∧ leAt b 22 1 ≤ x.nchild)) →
        let held := (x.chunks.filter (fun j => j.up == up && j.child == (k up).child)).length
        (15 < ((k up).seq + 65536 - x.base) % 65536 →
          exec cmd s = .next (s.settle ((s1 c).treeAbort t (k up).seq ccMismatch))) ∧
        (((k up).seq + 65536 - x.base) % 65536 ≤ 15 → (up = true ∨ x.root = false) → x.slots ≤ held →
          exec cmd s = .next (s.settle ((s1 c).treeAbort t (k up).seq ccProto))) ∧
        (((k up).seq + 65536 - x.base) % 65536 ≤ 15 → (up = true ∨ x.root = false) → held < x.slots → x.opOf (k up).seq = none →
          exec cmd s = .next (s.settle
            (((s1 c).modTree t (fun x => { x with chunks := x.chunks ++ [k up] })).treeRefresh t))) ∧
        (∀ o : COp, ((k up).seq + 65536 - x.base) % 65536 ≤ 15 → (up = true ∨ x.root = false) → held < x.slots →
          x.opOf (k up).seq = some o → o.agrees (k up) = true →
          let v := ((s1 c).modTree t (fun x => { x with chunks := x.chunks ++ [k up] })).treeProgress t (k up).seq
          (up = true → o.op ≠ opBarrier →
            exec cmd s = .next (s.settle ((v.treeProgress t (k up).seq).treeRefresh t))) ∧
          (∀ y : Tree, up = false → v.tree t = some y → y.opOf (k up).seq = some o → o.done.contains (k up).c = false →
            exec cmd s = .next (s.settle
              (((v.writeResult t y o (k up).c (k up).b).opSettle t (k up).seq).treeRefresh t)))))) ∧
    (s.hands uMCT 0x8A b = true → (s1 0x8A).cfTree b = some (t, x) → (s1 0x8A).treeState t ≠ tsBroken → leAt b 29 1 = 0 →
      exec .cfGrant s = .next (s.settle ((s1 0x8A).modTree t (fun x => { x with upCred := x.upCred + leAt b 28 1 })))) ∧
    (s.hands uMCT 0x8B b = true → (s1 0x8B).cfTree b = some (t, x) → (s1 0x8B).treeState t ≠ tsBroken → leAt b 28 1 ≠ ccLost →
      exec .cfAbort s = .next (s.settle ((((s1 0x8B).collEndAll t (leAt b 28 1 % 128 + 128)).cfAborts t x (some (leAt b 22 1))
        (leAt b 14 2) (leAt b 28 1)).treeBreak t))) ∧
    (∀ n : Nat, s.task 0 = true → s.tree n = some x → s.treeState n = tsActive → 0 < x.phase → x.phase ≤ x.quiet →
      exec (.phaseTimeout n) s = .next (s.settle (s.treeAbort n x.base ccTimeout)))

/-- A vertex at work (R187, R198, R204, R207): CHUNK_SEND of a combined chunk to the parent spends one credit, sends CF_UP with the chunk
and takes it off the combined ones; without a credit nothing changes. CHUNK_COMBINE of chunks from every child at a vertex without a
host of its own folds them by the operation, gives each child its slot back, and holds the result for the parent; before every child's
chunk is there nothing changes. The operation then goes on as far as it can.
MC_PUT at a member (R193, R194): the oldest replica waits for its landing CQ's context, which is fetched; with no landing for the
group, or one whose CQ is in OVERFLOW, it is dropped, counted as a gap and logged, and NEXT_SEQ follows its number; on a landing whose key admits it, its bytes are
written and one completion with its number and no gap is made, when it has the number expected. Page entries that its landing needs are read
first (R260). -/
def Obligations.TreesCombineAndReplicate : Prop :=
  (
    ∀ (s : State) (t seq c : Nat) (x : Tree) (o : COp),
      s.live = true → s.intact = true → s.confOn = true → s.tree t = some x → x.opOf seq = some o →
      (∀ b : Bytes, (o.op = opAll ∨ o.op = opReduce) → tabGet o.acc c = some b → x.root = false →
        (x.upCred = 0 → exec (.chunkSend t seq c 0) s = .next (s.settle s)) ∧
        (0 < x.upCred → exec (.chunkSend t seq c 0) s = .next (s.settle
          (((((s.chunkPacket t x o 0 c b).modTree t (fun x => { x with upCred := x.upCred - 1 })).modOp t seq
            (fun o => { o with acc := tabDel o.acc c, sent := o.sent ++ [c] })).treeProgress t seq).opSettle t seq)))) ∧
      (let ks := x.kids.filterMap (fun i => x.chunks.find? (fun k => k.up && k.child == i && k.seq == seq && k.c == c))
       s.pState = 0 →
       (ks.length ≠ x.nchild → exec (.chunkCombine t seq c) s = .next (s.settle s)) ∧
       (ks.length = x.nchild → (o.op = opAll ∨ o.op = opReduce) → o.exact' = false → o.comb.contains c = false →
         c < chunksOf o.count o.upE → x.isLocal = false → x.root = false → s.working t x < x.slots → tabGet o.own c = none →
         let r := foldChunk o.dt (o.typeop / 16) (inChunk o.count o.upE c) (ks.map (·.b))
         let u := (s.modTree t (fun x => { x with chunks := x.chunks.filter (fun k => !ks.contains k) })).modOp t seq
           (fun o => { o with own := tabDel o.own c, comb := o.comb ++ [c] })
         exec (.chunkCombine t seq c) s = .next (s.settle
           ((((foldS x.kids u (fun s i => s.cfGrant t i)).modOp t seq (fun o => { o with acc := tabPut o.acc c r })).treeProgress
             t seq).opSettle t seq))))) ∧
  (
    ∀ (s : State) (b : Bytes),
      s.live = true → s.gatedUnit uHIF = false → s.rte.ejected.find? (fun b => pkKind b == 0x80) = some b →
      let g := pkDst b % 2 ^ 14
      let l := s.rd F.MCT_MC_CTL.LAND g
      let cq := s.rd F.MCT_MC_LAND.CQ l
      (s.on F.MCT_MC_LAND.VALID l = true → (s.c cq).cached = false → exec .mcPut s = .next (s.settle (s.needCtx cq))) ∧
      (s.mcRoom b = true → s.mcPages b ≠ [] → exec .mcPut s = .next (s.settle (s.pagesAsk (s.mcPages b)))) ∧
      (s.mcRoom b = true → s.mcPages b = [] → s.hands uMCT 0x80 b = true → s.intact = true →
        s.ecc.refetch.contains (s.rd F.MCT_MC_LAND.KEY l / 256 % 2 ^ 24) = false →
        let t := (s.handed 0x80 b).reads (.mcast g)
        t.rd F.MCT_MC_CTL.ROOT g ≠ t.nodeId →
        let n := t.wr F.MCT_MC_CTL.NEXT_SEQ (leAt b 12 2 + 1) g
        let l := t.rd F.MCT_MC_CTL.LAND g
        (t.on F.MCT_MC_LAND.VALID l = false ∨ n.q (n.rd F.MCT_MC_LAND.CQ l) Q.CQ_STATE = cqOver →
          exec .mcPut s = .next (s.settle ((n.inc F.MCT_COUNT.MC_GAPS).raise .MCT_MC_NO_LAND g))) ∧
        (∀ (idx : Nat) (u : State), t.on F.MCT_MC_LAND.VALID l = true → n.q (n.rd F.MCT_MC_LAND.CQ l) Q.CQ_STATE ≠ cqOver →
          (pkPayload b).length ≠ 0 → leAt b 12 2 = t.rd F.MCT_MC_CTL.NEXT_SEQ g →
          n.keyUse .mcland (n.rd F.MCT_MC_LAND.KEY l) (leAt b 16 8) (pkPayload b).length
            ⟨0, n.ownerOf (n.rd F.MCT_MC_LAND.CQ l), 0, 0, 0⟩ = (.ok idx, u) →
          exec .mcPut s = .next (s.settle ((u.place idx (leAt b 16 8) (pkPayload b)).complete
            ⟨n.rd F.MCT_MC_LAND.CQ l, leAt b 24 8, l, 0, 0x30, true, (pkPayload b).length, pkSrc b, leAt b 12 2 + g * 65536, 0, 0,
              none⟩)))))

/-- Queue commands (Tables 7.7, 7.8, 7.25, 7.26, R226, R233): each ends at once with code 5 while HIF is disabled and with code 3 for a number
that the function does not have or that the queue context table does not cover. With the context cached: a create of a number that is FREE
starts the read of the 256-byte descriptor, one of a number in use ends with code 2; Q_DESTROY of a queue in OFF frees it with the next
QGEN; CQ_RESET of a CQ in OVERFLOW that nothing waits for makes it READY; CQ_DESTROY of a READY CQ frees it, or ends with code 6 while a
queue or a landing is bound to it. The context has a new last use. Without the context the command waits for its fetch. -/
def Obligations.QueueCommandsEnd : Prop :=
  ∀ (s : State) (f : Fn) (n : Nat),
    s.serves (.fn f) .HIF_QUEUE_CMD 0 = true → s.rdI F.HIF_QUEUE_RESULT.BUSY (fnInst f) 0 = 0 → n < 2 ^ 20 →
    let cmds : List (Nat × Instr) := [(1, .qCreate f n), (2, .qDestroy f n), (3, .cqCreate f n), (4, .cqReset f n), (5, .cqDestroy f n)]
    (∀ c ∈ cmds, s.en uHIF = false → exec c.2 s = .next (s.settle (s.qcmdEnd f c.1 5 n))) ∧
    (∀ c ∈ cmds, s.en uHIF = true → s.gOf f n = none → exec c.2 s = .next (s.settle (s.qcmdEnd f c.1 3 n))) ∧
    (∀ g : Nat, s.en uHIF = true → s.gOf f n = some g →
      let i := fnInst f
      let t (c : Nat) : State := (((s.modHif (fun h => { h with cmds := h.cmds ++ [⟨f, c, n, g, false⟩] })).wrI
        F.HIF_QUEUE_RESULT.BUSY i 0 1).wrI F.HIF_QUEUE_RESULT.CMD i 0 c).wrI F.HIF_QUEUE_RESULT.NUM i 0 n
      (∀ c ∈ cmds, s.qctCovers g = false → exec c.2 s = .next (s.settle (s.qcmdEnd f c.1 3 n))) ∧
      (∀ c ∈ cmds, s.qctCovers g = true → (s.c g).cached = false → exec c.2 s = .next (s.settle ((t c.1).needCtx g))) ∧
      let t (c : Nat) : State := (t c).useCtx g
      (s.qctCovers g = true → (s.c g).cached = true →
        (s.q g Q.STATE ≠ qFree → exec (.qCreate f n) s = .next (s.settle ((t 1).qcmdEnd f 1 2 n))) ∧
        (s.q g Q.STATE = qFree → exec (.qCreate f n) s = .next (s.settle ((t 1).qcmdFetch ⟨f, 1, n, g, false⟩))) ∧
        (s.q g Q.CQ_STATE ≠ cqFree → exec (.cqCreate f n) s = .next (s.settle ((t 3).qcmdEnd f 3 2 n))) ∧
        (s.q g Q.CQ_STATE = cqFree → exec (.cqCreate f n) s = .next (s.settle ((t 3).qcmdFetch ⟨f, 3, n, g, false⟩))) ∧
        (s.q g Q.STATE = qOff → (s.c g).stub = false → exec (.qDestroy f n) s = .next (s.settle
          (((((((t 2).wr F.HIF_Q_CTRL.ENABLE 0 g).modCtx g (fun c =>
            (c.put Q.STATE qFree).put Q.QGEN ((c.f Q.QGEN + 1) % 256))).matQueueGone g true).queueGone g).post (.queueFreed g)).qcmdEnd f 2 0
            n))) ∧
        (s.q g Q.CQ_STATE = cqOver → s.cqWaiting g = false → s.boundQueues g = [] →
          exec (.cqReset f n) s = .next (s.settle (((t 4).setQ g Q.CQ_STATE cqReady).qcmdEnd f 4 0 n))) ∧
        (s.q g Q.CQ_STATE = cqReady → s.cqBound g = true → exec (.cqDestroy f n) s = .next (s.settle ((t 5).qcmdEnd f 5 6 n))) ∧
        (s.q g Q.CQ_STATE = cqReady → s.cqBound g = false →
          exec (.cqDestroy f n) s = .next (s.settle (((t 5).setQ g Q.CQ_STATE cqFree).qcmdEnd f 5 0 n)))))

/-- Doorbell pages (R228, R230, R232, R241, R242, Tables 7.7 and 7.8), for a number that the table covers and whose context is cached: a work
doorbell within the ring moves DB and asks for slots, one that does not move it changes nothing, one beyond the ring puts an ACTIVE
queue in ERROR; one of a FREE queue is counted in DB_BAD and logged. A CQ doorbell beyond PI is counted and logged; another moves CI, arms the
notify with its bit 32, and lets a waiting completion in. Each use makes the context's last use new (R228). ENABLE of a queue in OFF with its CQs usable makes it ACTIVE, and is refused while
a CQ is not, and in every other state where ENABLE does not read 1 already (R447); clearing ENABLE of an ACTIVE queue with nothing
outstanding makes it OFF. A status read that is whole answers at once, another reads zero with REG_ACCESS (R12). A doorbell, or a write of
ENABLE, for a context that is not cached waits for the fetch. -/
def Obligations.DoorbellPages : Prop :=
  ∀ (s : State) (f : Fn) (n g v : Nat), s.page f n g = true → s.qctCovers g = true →
    (∀ what : Fin 3,
      ((s.c g).cached = true → s.intact = true →
        exec (.contextStatusRead ⟨f, true⟩ n what) s = .next (s.settle ((s.useCtx g).emit (.regValue (.fn f) (s.statusWord what g))))) ∧
      exec (.contextStatusRead ⟨f, false⟩ n what) s = .next (s.settle ((s.raise .REG_ACCESS).emit (.regValue (.fn f) 0)))) ∧
    ((s.c g).cached = false →
      let waits (op : CtxOp) : State := (s.modHif (fun h => { h with pend := h.pend ++ [(g, op)] })).needCtx g
      exec (.hifSqDb f n v) s = .next (s.settle (waits (.door true v))) ∧
      exec (.hifCqDb f n v) s = .next (s.settle (waits (.door false v))) ∧
      exec (.qEnable f n) s = .next (s.settle (waits (.ctrl g true))) ∧
      exec (.qDisable f n) s = .next (s.settle (waits (.ctrl g false)))) ∧
    ((s.c g).cached = true →
      let w := v % 2 ^ 32
      let moved := diff32 w (s.q g Q.TAKEN)
      let u := s.useCtx g
      (s.q g Q.STATE = qFree → exec (.hifSqDb f n v) s = .next (s.settle (u.dbBad (s.ownerOf g) g))) ∧
      (s.q g Q.STATE ≠ qFree → moved ≤ diff32 (s.q g Q.DB) (s.q g Q.TAKEN) → exec (.hifSqDb f n v) s = .next (s.settle u)) ∧
      (s.q g Q.STATE ≠ qFree → diff32 (s.q g Q.DB) (s.q g Q.TAKEN) < moved → moved ≤ 2 ^ s.q g Q.LOG_SIZE →
        exec (.hifSqDb f n v) s = .next (s.settle ((u.setQ g Q.DB w).ringFetch g))) ∧
      (s.q g Q.STATE = qActive → diff32 (s.q g Q.DB) (s.q g Q.TAKEN) < moved → 2 ^ s.q g Q.LOG_SIZE < moved →
        exec (.hifSqDb f n v) s = .next (s.settle (u.queueError g erDbRange (s.q g Q.DB)))) ∧
      (diff32 (s.q g Q.PI) (s.q g Q.CI) < diff32 w (s.q g Q.CI) →
        exec (.hifCqDb f n v) s = .next (s.settle (u.dbBad (s.ownerOf g) g))) ∧
      (s.q g Q.CQ_STATE = cqReady → diff32 w (s.q g Q.CI) ≤ diff32 (s.q g Q.PI) (s.q g Q.CI) → (s.c g).b.length = 256 →
        (bit v 32 = false → s.hif.wait = [] → exec (.hifCqDb f n v) s = .next (s.settle (u.setQ g Q.CI w))) ∧
        (bit v 32 = true → s.hif.wait = [] → exec (.hifCqDb f n v) s = .next (s.settle
          ((u.setQ g Q.CI w).setQ g Q.CQ_FLAGS (setBit (s.q g Q.CQ_FLAGS) 0)))) ∧
        (∀ e : Cqe, bit v 32 = false → s.hif.wait = [e] → e.cq = g → (s.c g).stub = false → s.linkUpPf (s.pfOf g) = true →
          diff32 (s.q g Q.PI) w < 2 ^ s.q g Q.CQ_LOG →
          exec (.hifCqDb f n v) s = .next (s.settle (((u.setQ g Q.CI w).modHif (fun h => { h with wait := [] })).writeCqe e))))) ∧
    ((s.c g).cached = true → s.q g Q.STATE ≠ qOff →
      (s.on F.HIF_Q_CTRL.ENABLE g = true → exec (.qEnable f n) s = .next (s.settle s)) ∧
      (s.on F.HIF_Q_CTRL.ENABLE g = false → s.q g Q.STATE ≠ qActive → exec (.qEnable f n) s = .next (s.settle (s.raise .CFG_REJECT)))) ∧
    ((s.c g).cached = true → s.q g Q.STATE = qOff → s.on F.HIF_Q_CTRL.ENABLE g = false → (s.c (s.cqOf g)).cached = true →
      (s.c (s.rcqOf g)).cached = true →
      let ok (x : Nat) : Bool := s.q x Q.CQ_STATE == cqReady || s.q x Q.CQ_STATE == cqFull
      (ok (s.cqOf g) = false → exec (.qEnable f n) s = .next (s.settle (s.raise .CFG_REJECT))) ∧
      (ok (s.cqOf g) = true → ok (s.rcqOf g) = true → exec (.qEnable f n) s = .next (s.settle
        (((((s.wr F.HIF_Q_CTRL.ENABLE 1 g).dropRings g).modCtx g (fun c =>
          let c := ((c.put Q.STATE qActive).put Q.REASON 0).put Q.ERR_INDEX 0
          { c with asked := c.f Q.TAKEN, slots := [] })).ringFetch g).post (.run g))))) ∧
    ((s.c g).cached = true → s.q g Q.STATE = qActive → (s.c g).ents = [] → exec (.qDisable f n) s = .next (s.settle
      (((s.wr F.HIF_Q_CTRL.ENABLE 0 g).modCtx g (fun c => { c with slots := [], asked := c.f Q.TAKEN })).queueOff g)))

/-- Event rings, vectors and push windows (R219, R244, R253), the ring of a VF being one of its PF's: a ring's doorbell moves its CI, and is counted in DB_BAD and logged when it goes
beyond the events that are unread; the message of an armed ring with unread events is sent when MOD_TIME has passed; unmasking a vector
that pends sends its message, and one that does not pend sends nothing. A push byte waits for its half; 64 bytes of an entry of one slot at
the queue's DB, which the queue takes, are the entry at DB, and DB moves past it (R245); a half that is still incomplete at its second boundary
is dropped and counted in PUSH_DROP. -/
def Obligations.RingsVectorsAndPushes : Prop :=
  ∀ (s : State) (f : Fn),
    (∀ e v : Nat, s.serves (.fn f) .HIF_EQ_DB e = true → e < s.eqCount f →
      let i := (s.ringOf f e).1
      let r := (s.ringOf f e).2
      let ci := v % 2 ^ 32
      (s.unread i r < diff32 ci (s.rdI F.HIF_EQ_DB.CI i r) →
        exec (.hifEqDb f e v) s = .next (s.settle ((s.incI F.HIF_COUNT.DB_BAD (fnInst f) 0).raise .HIF_DB_BAD r))) ∧
      (diff32 ci (s.rdI F.HIF_EQ_DB.CI i r) ≤ s.unread i r → bit v 32 = false →
        exec (.hifEqDb f e v) s = .next (s.settle (((s.wrI F.HIF_EQ_DB.CI i r ci).flushEv i r).msiCheck i r)))) ∧
    (∀ e : Nat, s.live = true →
      let i := (s.ringOf f e).1
      let r := (s.ringOf f e).2
      s.rdI F.HIF_EQ_CFG.ENABLE i r = 1 → s.rdI F.HIF_EQ_STATUS.ARMED i r = 1 → 0 < s.unread i r →
      s.rdI F.HIF_EQ_CFG.MOD_TIME i r ≠ 0 →
      let o := s.ringOwner i r
      let v := s.rdI F.HIF_EQ_CFG.VECTOR i r
      let x := s.vec (fnInst o) v
      let t := s.wrI F.HIF_EQ_STATUS.ARMED i r 0
      (x.2.2 = false → exec (.modTimeExpire f e) s = .next (s.settle (t.emit (.msix o v x.1 x.2.1)))) ∧
      (x.2.2 = true → s.hif.pba.contains (fnInst o * 2048 + v) = false → exec (.modTimeExpire f e) s = .next (s.settle
        (t.modHif (fun h => { h with pba := h.pba ++ [fnInst o * 2048 + v] }))))) ∧
    (∀ v : Nat, s.hostAnswers f = true → s.postedCredit = true → s.spill = false → s.sleeps f (.msix v 12) = false → v < (match f with | .pf _ => 2048 | .vf _ _ => 64) →
      (s.vec (fnInst f) v).2.2 = true →
      (s.vec (fnInst f) v).1 < 2 ^ 64 → (s.vec (fnInst f) v).2.1 < 2 ^ 32 →
      let x := s.vec (fnInst f) v
      (s.hif.pba.contains (fnInst f * 2048 + v) = true →
        ∃ t' : State, exec (.msixUnmask f v) s = .next (s.settle t') ∧ t'.out = s.out ++ [.msix f v x.1 x.2.1] ∧
          t'.hif.pba = s.hif.pba.erase (fnInst f * 2048 + v) ∧ t'.vec (fnInst f) v = (x.1, x.2.1, false)) ∧
      (s.hif.pba.contains (fnInst f * 2048 + v) = false → ∃ t' : State, exec (.msixUnmask f v) s = .next (s.settle t') ∧
        t'.out = s.out ∧ t'.hif.pba = s.hif.pba ∧ t'.vec (fnInst f) v = (x.1, x.2.1, false))) ∧
    (∀ (n g o : Nat) (b : Byte), s.page f n g = true → o < 64 → tabGet (s.half g 0).bytes o = none → (s.half g 0).bytes.length < 63 →
      exec (.pushWrite f n o [b]) s = .next (s.settle (s.setHalf g 0 { s.half g 0 with bytes := tabPut (s.half g 0).bytes o b }))) ∧
    (∀ (n g : Nat) (b : Bytes), s.page f n g = true → b.length = 64 → leAt b 2 1 = 1 → s.half g 0 = ⟨[], 0⟩ →
      (s.c g).cached = true → s.q g Q.STATE = qActive → bit (s.q g Q.FLAGS) 0 = true → leAt b 4 2 = s.q g Q.DB % 65536 →
      diff32 (add32 (s.q g Q.DB) 1) (s.q g Q.TAKEN) ≤ 2 ^ s.q g Q.LOG_SIZE →
      let db := s.q g Q.DB
      exec (.pushWrite f n 0 b) s = .next (s.settle (((s.setHalf g 0 ⟨[], 0⟩).setHalf g 1 ⟨[], 0⟩).modCtx g (fun c =>
        { c.put Q.DB (add32 db 1) with
          asked := if c.asked = db then add32 db 1 else c.asked, slots := tabPut c.slots db b })))) ∧
    (∀ (g : Nat) (k : Fin 2), s.live = true → (s.half g k).bytes ≠ [] → (s.half g k).bytes.length ≠ 64 → 2 ≤ (s.half g k).beats →
      exec (.pushHalfExpire g k) s = .next (s.settle
        ((s.incI F.HIF_COUNT.PUSH_DROP (fnInst (s.ownerOf g)) 0).setHalf g k ⟨[], 0⟩)))

/-- Reads of host memory that end (R226, R228, R229, R243, Table 7.26): a queue descriptor that the host refuses ends the create with code 4
and HIF_DMA_ERR, one outside Table 7.5 with code 1; one that Tables 7.5, 8.3 and 9.3 allow makes the queue, in OFF with its connection at
rest, and one that Table 7.6 allows the CQ, READY; a context with its CTX_CRC is cached, one that the host refuses makes the number a
stub and logs HIF_DMA_ERR and HIF_CTX_ERR, and either way what waits for the context goes on; a ring read whose queue was freed or evicted since serves nothing; slots that were read join the queue's; a ring read that the
host refuses is logged and puts the ACTIVE queue in ERROR; local data that the host refuses ends its entry with LOCAL_DMA. -/
def Obligations.HostReadsEnd : Prop :=
  ∀ (s : State) (g : Nat) (b : Bytes), s.live = true →
    (∀ (f : Fn) (k : QCmd) (a : Ans), s.hif.cmds.find? (fun k => fnInst k.fn == fnInst f && k.desc) = some k →
      ((a = .err ∨ a = .poison) → exec (.descriptorFetchDone (.queue f) a) s = .next (s.settle
        ((s.raise .HIF_DMA_ERR).qcmdEnd f k.cmd 4 k.num))) ∧
      (∀ d : Bytes, d.length = 256 → k.cmd = 1 → queueDescOk d (s.qCount (s.ownerOf k.g)) = false →
        exec (.descriptorFetchDone (.queue f) (.ok d)) s = .next (s.settle (s.qcmdEnd f 1 1 k.num))) ∧
      (∀ d : Bytes, d.length = 256 → k.cmd = 1 → queueDescOk d (s.qCount (s.ownerOf k.g)) = true → s.transportOk f d = true →
        s.matchOk (s.ownerOf k.g) d = true →
        exec (.descriptorFetchDone (.queue f) (.ok d)) s = .next (s.settle ((s.modCtx k.g (fun c =>
          ({ c with b := d.take 32 ++ List.replicate 32 0 ++ (c.b.drop 64).take 64 ++ (transportInit d (c.f Q.QGEN)).drop 128,
                    asked := 0, slots := [] } : Ctx).put Q.STATE qOff)).qcmdEnd f 1 0 k.num))) ∧
      (∀ d : Bytes, d.length = 256 → k.cmd = 3 → cqDescOk d (s.eqCount (s.ownerOf k.g)) = true →
        exec (.descriptorFetchDone (.queue f) (.ok d)) s = .next (s.settle ((s.modCtx k.g (fun c =>
          ({ c with b := putBytes c.b 64 ((d.drop 64).take 16 ++ List.replicate 44 0), stub := false } : Ctx).put Q.CQ_STATE cqReady)).qcmdEnd
          f 3 0 k.num)))) ∧
    (s.hif.fetch.contains g = true → (s.hif.ctx.filter (fun e => e.2.cached)).length < 32768 →
      let t := s.modHif (fun h => { h with fetch := h.fetch.erase g })
      let goOn (t : State) : State := (((t.replay g).flushCq g).ringFetch g).post (.ctxReady g)
      (b.length = 256 → leAt b 124 4 = crc32 (b.take 124 ++ b.drop 128) → exec (.contextFetchDone g (.ok b)) s = .next (s.settle
        (goOn (t.modHif (fun h => { h with ctx := tabPut h.ctx g { Ctx.of b with lastUse := h.clock }, clock := h.clock + 1 }))))) ∧
      (exec (.contextFetchDone g .err) s = .next (s.settle (goOn (((t.raise .HIF_DMA_ERR g).makeStub g).raiseOcc { occ .HIF_CTX_ERR g with
          addr := s.qctAddr g, info := 0, init := fnOwner (.pf (Fin.ofNat 4 (s.pfOf g))) }))))) ∧
    (∀ i : Nat, s.hif.rings.find? (fun r => r.1 == g) = some (g, i, 0) → ∀ a : Ans, exec (.ringReadDone g a) s =
      .next (s.settle (s.modHif (fun h => { h with rings := h.rings.eraseP (fun x => x.1 == g) })))) ∧
    (∀ i n : Nat, s.hif.rings.find? (fun r => r.1 == g) = some (g, i, n) → n ≠ 0 → s.q g Q.STATE = qActive →
      let t := s.modHif (fun h => { h with rings := h.rings.eraseP (fun x => x.1 == g) })
      exec (.ringReadDone g (.ok b)) s = .next (s.settle ((t.modCtx g (fun c => { c with
        slots := (cutSlots n i b).foldl (fun t e => if (tabGet t e.1).isSome then t else tabPut t e.1 e.2) c.slots })).ringFetch g)) ∧
      exec (.ringReadDone g .err) s = .next (s.settle ((t.raise .HIF_DMA_ERR g).queueError g erFetch i))) ∧
    (∀ (r : Rd) (rest : List Rd) (idx : Nat) (e : Ent), s.hif.reads = r :: rest → r.job = .data g idx → s.ent g idx = some e →
      e.fin = none →
      let t := s.modHif (fun h => { h with reads := rest })
      (b.length = eLen e.b → exec (.dataReadDone 0 (.ok b)) s = .next (s.settle ((t.entData g e b).post (.run g)))) ∧
      exec (.dataReadDone 0 .err) s = .next (s.settle (((t.raise .HIF_DMA_ERR g).entFail g e 7).post (.run g))))

/-- Entries are taken (R235, R236, R238, R239, R243, R247, Table 7.11): of the queue whose turn it is, the next entry, with an opcode of
the row, is checked as it is taken; one that breaks a check ends at once and puts its queue in ERROR with that reason; one that passes
joins the queue's entries, slots are asked for, and the queue runs: with a fragment table that is read first, and for a RECV, whose key is
checked when it is taken, with the regions that it uses, or ended with LOCAL, or waiting for page entries that its check needs (R260). A RECV
and a CANCEL have their place in the take order (R299). An entry whose opcode is not assigned is taken by the NOP's
row (the model's choice of a row, log entry 98). Where the entry in turn has another opcode, and where none may be taken, nothing
changes. -/
def Obligations.EntriesAreTaken : Prop :=
  ∀ (s t : State) (g n : Nat) (b : Bytes), s.live = true → s.intact = true →
    let rows : List (Instr × (Nat → Bool)) := [(.nopEntry, fun o => o == oNop || !opAssigned o), (.putEntry, (· == oPut)),
      (.putImmEntry, (· == oPutImm)), (.getEntry, (· == oGet)), (.atomicEntry, (· == oAtomic)), (.sendEntry, (· == oSend)),
      (.recvEntry, (· == oRecv)), (.cancelEntry, (· == oCancel)), (.mcPutEntry, (· == oMcPut)), (.collectiveEntry, (· == oColl))]
    ∀ r ∈ rows,
      (s.serve r.2 = none → exec r.1 s = .next (s.settle s)) ∧
      (s.serve r.2 = some (g, n, b, t) →
        let idx := diff32 (t.q g Q.TAKEN) n
        let e : Ent := ⟨idx, n, b, true, false, none, false, none, [], [], none, none, false⟩
        let add (t : State) (e : Ent) : State := t.modCtx g (fun c => { c with ents := c.ents ++ [e] })
        let goOn (t : State) : State := (t.ringFetch g).post (.run g)
        (∀ why : Nat, t.entryBad g idx b = some why → exec r.1 s = .next (s.settle
          (goOn ((add t { e with fin := some ⟨2, 0, 0, 0, 0⟩ }).queueError g why idx)))) ∧
        (t.entryBad g idx b = none →
          (eFrag b = false → eOp b ≠ oRecv → eOp b ≠ oCancel → exec r.1 s = .next (s.settle (goOn (add t e)))) ∧
          (eFrag b = false → eOp b = oCancel → exec r.1 s = .next (s.settle (goOn ((add t e).matTaken g idx)))) ∧
          (eFrag b = true →
            let u := add t { e with ready := false }
            exec r.1 s = .next (s.settle (goOn ((u.modHif (fun h =>
              { h with reads := h.reads ++ [⟨.frag g idx, u.ownerOf g, 16 * leAt b 72 2⟩] })).readHost (u.ownerOf g) (leAt b 64 8)
              (16 * leAt b 72 2))))) ∧
          (eFrag b = false → eOp b = oRecv →
            let w := add t { e with ready := false }
            let due := w.partsDue .lwrite (w.keyCtx g) e.parts
            let landed (u : State) (f : Ent → Ent) : State := goOn ((u.modEnt g idx f).matTaken g idx)
            (due ≠ [] → exec r.1 s = .next (s.settle (goOn ((w.pagesAsk due).matTaken g idx)))) ∧
            (∀ u : State, due = [] →
              (w.partsUse .lwrite (w.keyCtx g) e.parts = (true, u) →
                exec r.1 s = .next (s.settle (landed u (fun x => { x with ready := true, regs := e.partRegs })))) ∧
              (w.partsUse .lwrite (w.keyCtx g) e.parts = (false, u) →
                exec r.1 s = .next (s.settle (landed u (fun x => { x with ready := true, fin := some ⟨0, stLocal, 0, 0, 0⟩ }))))))))

/-- The host's side changes (R218, R233, R254, R390, R410, R419): a link that was up goes down, is logged, and with no number in use nothing
else changes; a link comes up with what it negotiated, CXL.cache and CXL.mem only on an attachment that may have them; PERST_L that is
asserted takes the links of its host port down, resets its functions as by FLR, forgets what LTR they sent and the accesses that wait for a wake, drops its export's directory
entries and the host copies of its lines, and one that is released, or asserted while PWROK is low, changes only its pin; an FLR resets
the function, or the PF with its VFs: its queues, message lists and Pegs are gone, and a VF's RW registers read their reset values; a CQ that was FULL for CQ_FULL_BEATS overflows, and a shorter time changes nothing; an LTR
message of a PF is kept. -/
def Obligations.HostSideChanges : Prop :=
  ∀ (s : State),
    (∀ pf : Fin 4, s.pins.pwrok = true → s.linkUpPf pf = true → s.numbersOf (.pf pf) = [] →
      exec (.hostLinkDown pf) s = .next (s.settle (((s.wrI F.HIF_PORT_STATUS.LINK_UP pf 0 0).raise .HIF_LINK_DOWN).dropWaits [pf.val]))) ∧
    (∀ (pf : Fin 4) (rate width : Nat) (flit cxl cache mem : Bool), s.pins.pwrok = true → s.pins.perst0 = false → s.pins.perst1 = false →
      s.phase ≠ phRom → s.pfExists pf = true → rate < 2 ^ F.HIF_PORT_STATUS.RATE.w → width < 2 ^ F.HIF_PORT_STATUS.WIDTH.w →
      s.numbersOf (.pf pf) = [] → s.hif.held = [] →
      ∃ t : State, exec (.hostLinkUp pf rate width flit cxl cache mem) s = .next (s.settle t) ∧ t.linkUpPf pf = true ∧
        t.rdI F.HIF_PORT_STATUS.RATE pf 0 = rate ∧ t.rdI F.HIF_PORT_STATUS.WIDTH pf 0 = width ∧
        t.rdI F.HIF_PORT_STATUS.CACHE pf 0 = b2n (cxl && cache && pf.val % 2 == 0 && s.imageEnables uCOH) ∧
        t.rdI F.HIF_PORT_STATUS.MEM pf 0 = b2n (cxl && mem && pf.val % 2 == 0 && s.imageEnables uCOH)) ∧
    (∀ (h : Fin 2) (low : Bool),
      let t := s.modPins (fun b => if h.val = 0 then { b with perst0 := low } else { b with perst1 := low })
      (s.pins.pwrok = false → exec (.perstL h low) s = .next t) ∧
      (s.pins.pwrok = true → low = false → exec (.perstL h low) s = .next (t.settle t)) ∧
      (s.pins.pwrok = true → low = true → s.fitted (uHIF + h) = true →
        let pfs := [2 * h.val, 2 * h.val + 1].filter t.pfExists
        let down := foldS pfs t (fun s pf => s.clearInst [.HIF_PORT_STATUS] pf)
        let gone := (foldS pfs down (fun s pf => s.fnReset (.pf (Fin.ofNat 4 pf)) false)).pegPfReset pfs true
        let clear := foldS pfs gone (fun s pf => s.fnClear (.pf (Fin.ofNat 4 pf)))
        let u := ((({ clear with pwr := { clear.pwr with ltr := clear.pwr.ltr.filter (fun e => !pfs.contains e.1) } } :
          State).dropWaits pfs).exportLost h).hostCopiesLost h
        exec (.perstL h low) s = .next (t.settle u))) ∧
    (∀ (p : Fin 4) (v : Fin 512), s.hostAnswers (.vf p v) = true →
      let t := ((s.fnReset (.vf p v) true).pegVfReset (.vf p v)).clearInst flrRegs (fnInst (.vf p v))
      exec (.flr (.vf p v)) s = .next (s.settle t) ∧
      (∀ r ∈ flrRegs, ∀ d ∈ r.fields, ∀ i : Nat, t.rdI d (fnInst (.vf p v)) i = rstOf d i)) ∧
    (∀ p : Fin 4, s.hostAnswers (.pf p) = true →
      exec (.flr (.pf p)) s = .next (s.settle (((s.fnReset (.pf p) false).pegPfReset [p.val] false).fnClear (.pf p)))) ∧
    (∀ g : Nat, s.live = true → s.q g Q.CQ_STATE = cqFull →
      (s.rdI F.HIF_SCHED.CQ_FULL_BEATS (s.pfOf g) 0 ≤ s.q g Q.FULL_BEATS → exec (.cqOverflow g) s = .next (s.settle (s.cqOverflow g))) ∧
      (s.q g Q.FULL_BEATS < s.rdI F.HIF_SCHED.CQ_FULL_BEATS (s.pfOf g) 0 → exec (.cqOverflow g) s = .next (s.settle s))) ∧
    (∀ (pf : Fin 4) (en : Bool) (a b : Nat), s.hostAnswers (.pf pf) = true → exec (.ltrUpdate pf en a b) s = .next (s.settle
      (s.modPwr (fun p => { p with ltr := tabPut p.ltr pf.val (en, ltrNs a, ltrNs b) }))))

/-- Region commands (Tables 8.20 and 8.21, R256, R258 to R260): with none running, each ends with code 5 while RMA is disabled and with code 3 for
an index that the function does not have; REG_ENABLE starts the read of the 64-byte descriptor with BUSY set; REG_DISABLE of a region that
is not ENABLED ends with code 2, of an ENABLED one writes the descriptor back as CLOSING, and completes at once where nothing uses the
region, else when its users are gone: the region's entry is FREE with the next GEN, a page entry that is still being read serves nothing, and
the code is 0. Commands of other functions go on. A descriptor that the host refuses ends the enable with code 4, one outside Table 8.1, of a
region that is not FREE or of another's PD with code 1; one within them becomes an ENABLED region of the function, is written back, and the
enable ends with code 0 and its key. A page entry that was read stays with its region, and what waited for it goes on. -/
def Obligations.RegionCommandsEnd : Prop :=
  ∀ (s : State) (f : Fn),
    let mine (c : Nat) : Option RegCmd := s.rma.cmds.find? (fun k => fnInst k.fn == fnInst f && k.cmd == c)
    let busy (t : State) (c : Nat) : State := (t.wrI F.RMA_REG_RESULT.BUSY (fnInst f) 0 1).wrI F.RMA_REG_RESULT.CMD (fnInst f) 0 c
    let closed (t : State) (idx : Nat) : State :=
      let r := t.region idx
      let g := (r.f RG.GEN + 1) % 256
      (((t.modRma (fun x => { x with regions := tabDel x.regions idx })).modHif (fun h => { h with reads := h.reads.map (fun x =>
        match x.job with
        | .page i _ => if i = idx then { x with job := .gone } else x
        | _ => x) })).writeDesc idx (descPut (descPut r.d RG.GEN g) RG.STATE 0)).regEnd f 2 0 (idx * 256 + g)
    (∀ n : Nat, s.serves (.fn f) .RMA_REG_CMD 0 = true → s.rdI F.RMA_REG_RESULT.BUSY (fnInst f) 0 = 0 → n < 2 ^ 24 →
      (s.en uRMA = false →
        exec (.regEnable f n) s = .next (s.settle (s.regEndOpen f 1 5)) ∧
        exec (.regDisable f n) s = .next (s.settle (s.regEndOpen f 2 5))) ∧
      (s.en uRMA = true → s.regIndex f n = none →
        exec (.regEnable f n) s = .next (s.settle (s.regEndOpen f 1 3)) ∧
        exec (.regDisable f n) s = .next (s.settle (s.regEndOpen f 2 3))) ∧
      (∀ idx : Nat, s.en uRMA = true → s.regIndex f n = some idx →
        exec (.regEnable f n) s = .next (s.settle ((busy (s.modRma (fun r => { r with cmds := r.cmds ++ [⟨f, 1, idx⟩] })) 1).readHost
          (.pf (Fin.ofNat 4 (idx / 2 ^ 22))) (s.descAddr idx) 64)) ∧
        (tabGet s.rma.regions idx = none → exec (.regDisable f n) s = .next (s.settle (s.regEndOpen f 2 2))) ∧
        (∀ r : Region, tabGet s.rma.regions idx = some r →
          (r.f RG.STATE ≠ 1 → exec (.regDisable f n) s = .next (s.settle (s.regEnd f 2 2 (idx * 256 + r.f RG.GEN)))) ∧
          (r.f RG.STATE = 1 → mine 2 = none →
            let d := descPut r.d RG.STATE 2
            let t := (busy (s.modRma (fun y => { y with
              regions := tabPut y.regions idx { r with d := d }, cmds := y.cmds ++ [⟨f, 2, idx⟩] })) 2).writeDesc idx d
            (s.regionUsed idx = true → exec (.regDisable f n) s = .next (s.settle t)) ∧
            (s.regionUsed idx = false → exec (.regDisable f n) s = .next (s.settle (closed t idx))))))) ∧
    (∀ k : RegCmd, s.live = true → mine 2 = some k →
      (s.regionUsed k.idx = true → exec (.regDisableComplete f) s = .next (s.settle s)) ∧
      (s.regionUsed k.idx = false → exec (.regDisableComplete f) s = .next (s.settle (closed s k.idx)))) ∧
    (∀ k : RegCmd, s.live = true → mine 1 = some k →
      exec (.descriptorFetchDone (.region f) .err) s = .next (s.settle ((s.raise .HIF_DMA_ERR).regEndOpen f 1 4)) ∧
      (∀ d : Bytes, d.length = 64 →
        let key := k.idx * 256 + leAt d 26 1
        ((tabGet s.rma.regions k.idx ≠ none ∨ descOk d = false ∨ s.pdOk f (leAt d 20 2) = false) →
          exec (.descriptorFetchDone (.region f) (.ok d)) s = .next (s.settle (s.regEnd f 1 1 key))) ∧
        (tabGet s.rma.regions k.idx = none → descOk d = true → s.pdOk f (leAt d 20 2) = true →
          let on := descPut (descPut d RG.OWNER (match f with | .pf _ => 0 | .vf _ v => v.val + 1)) RG.STATE 1
          exec (.descriptorFetchDone (.region f) (.ok d)) s = .next (s.settle (((s.modRma (fun r => { r with
            regions := tabPut r.regions k.idx ⟨on, [], [], false⟩ })).writeDesc k.idx on).regEnd f 1 0 (k.idx * 256 + leAt on 26 1)))))) ∧
    (∀ (r : Rd) (rest : List Rd) (k p : Nat) (a : Ans), s.live = true → s.hif.reads = r :: rest → r.job = .page k p →
      let e : Option Nat := match a with | .ok b => some (leAt b 0 8) | _ => none
      exec (.dataReadDone 0 a) s = .next (s.settle (State.pagesThere ((s.modHif (fun h => { h with reads := rest })).modRma (fun x => { x with
        regions := tabMod x.regions k (fun r => { r with pages := tabPut r.pages p e, known := r.known ++ [p] }) })))))

/-- A request at its target (Table 8.11, R268 to R275), in the order of its steps, while no word of the context or of the region is damaged:
one that breaks R268 is malformed, one of a number that is not covered, of another QGEN or FREE is stale, and so, DEDUCED (log entry 15), is one
at a disabled unit; without the context its header is parked; from another node it is RMA_CONN_MISMATCH; in OFF it is answered BUSY, in ERROR CONN. A new PUT that its
key admits is written, its PSN settles and an ACK is due; one that fails its check is a violation with that cause; a duplicate is
acknowledged at once; a parked long PUT asks for the packet again. A new GET_REQ settles and its bytes are read, a duplicate's are read again. A PUT_IMM takes a free
hold, an ATOMIC_REQ that its key admits reads its old value; without a free hold a PUT_IMM is BUSY. A duplicate ATOMIC_REQ gets the
recorded answer. A packet whose key check needs page entries that the region cache does not hold has them read and waits at ejection
(R260). -/
def Obligations.TargetLedger : Prop :=
  ∀ (s : State) (b : Bytes), s.live = true → s.intact = true →
    let rows : List (Nat × Instr) := [(0x10, .put), (0x11, .putImm), (0x12, .getReq), (0x13, .atomicReq)]
    let g := pkDq b
    let psn := pkPsn b
    ∀ r ∈ rows, s.hands uRMA r.1 b = true →
      let t := s.handed r.1 b
      let t1 := (t.useCtx g).freeRecs g psn (pkAdist b)
      let d := diff24 psn (t.q g Q.CUM_PSN)
      let dup := d = 0 ∨ 2 ^ 23 ≤ d ∨ (d ≤ 256 ∧ bit (t.q g Q.LEDGER) (d - 1) = true)
      let fresh := 1 ≤ d ∧ d ≤ 256 ∧ bit (t.q g Q.LEDGER) (d - 1) = false
      let answers (u : State) : Prop := exec r.2 s = .next (s.settle u.agentKick)
      (rmaBad b = true → answers t.malformed) ∧
      (t.packetPages b ≠ [] → exec r.2 s = .next (s.settle ((t.pagesAsk (t.packetPages b)).modRte (fun x => { x with
        ejected := b :: x.ejected })))) ∧
      (rmaBad b = false → t.en uRMA = false → answers t.rmaStale) ∧
      (rmaBad b = false → t.en uRMA = true →
        (t.qctCovers g = false → answers t.rmaStale) ∧
        (t.qctCovers g = true → (t.c g).cached = false → answers (t.park b)) ∧
        (t.qctCovers g = true → (t.c g).cached = true →
          ((pkDqgen b ≠ t.q g Q.QGEN ∨ t.q g Q.STATE = qFree) → answers t.rmaStale) ∧
          (pkDqgen b = t.q g Q.QGEN → t.q g Q.STATE ≠ qFree → pkSrc b ≠ t.q g Q.REMOTE_NODE → answers (t.raise .RMA_CONN_MISMATCH g)) ∧
          (pkDqgen b = t.q g Q.QGEN → pkSrc b = t.q g Q.REMOTE_NODE →
            (t.q g Q.STATE = qOff → answers (t.nak g psn nkBusy 2)) ∧
            (t.q g Q.STATE = qError → answers (t.nak g psn nkConn 0)) ∧
            ((t.q g Q.STATE = qActive ∨ t.q g Q.STATE = qStopping) →
              (dup → (r.1 = 0x10 ∨ r.1 = 0x11) → answers ((t1.inc F.RMA_COUNT.DUPLICATES).ackNow g)) ∧
              (257 ≤ d → d < 2 ^ 23 → answers (t1.raise .RMA_HORIZON g)) ∧
              (fresh → r.1 = 0x10 →
                (pkWhole b = false → answers (t1.nak g psn nkResend 0)) ∧
                (∀ (cause : Nat) (u : State), pkWhole b = true → t.packetPages b = [] →
                  t1.keyUse .rwrite (pkKey b) (pkOff b) (pkData b).length (t1.keyCtx g) = (.error cause, u) →
                  answers (u.violation g d cause b)) ∧
                (∀ (idx : Nat) (u : State), pkWhole b = true →
                  t1.keyUse .rwrite (pkKey b) (pkOff b) (pkData b).length (t1.keyCtx g) = (.ok idx, u) →
                  answers (((u.place idx (pkOff b) (pkData b)).settlePsn g d).ackLater g))) ∧
              (fresh → r.1 = 0x11 → t1.q (t1.rcqOf g) Q.CQ_STATE ≠ cqOver →
                (((t1.c g).hold 0).2.1 = true → ((t1.c g).hold 1).2.1 = true → answers (t1.nak g psn nkBusy 3)) ∧
                (((t1.c g).hold 0).2.1 = false → answers (((t1.modCtx g (fun c =>
                  let x := putBytes c.b 192 (leBytes 3 psn ++ leBytes 1 1 ++ leBytes 4 (leAt (pkPayload b) 8 4) ++
                    leBytes 8 (leAt (pkPayload b) 0 8))
                  { c with b := putBytes x 155 (leBytes 1 (setBit (leAt x 155 1) 0)) })).settlePsn g d).ackLater g))) ∧
              (r.1 = 0x12 → ∀ (idx : Nat) (u : State),
                (fresh → t1.keyUse .rread (pkKey b) (pkOff b) (leAt (pkPayload b) 0 4) (t1.keyCtx g) = (.ok idx, u) →
                  answers ((u.settlePsn g d).serveGet g idx b)) ∧
                (dup → let w := t1.inc F.RMA_COUNT.DUPLICATES
                  (w.keyCheck .rread (pkKey b) (pkOff b) (leAt (pkPayload b) 0 4) (w.keyCtx g) = .ok idx →
                    answers (w.serveGet g idx b)) ∧
                  (∀ cause : Nat, t.packetPages b = [] →
                    w.keyCheck .rread (pkKey b) (pkOff b) (leAt (pkPayload b) 0 4) (w.keyCtx g) = .error cause → answers w))) ∧
              (r.1 = 0x13 → let size := sizeOf' (bits (pkMod b) 4 2)
                let aop := bits (pkMod b) 0 4
                (∀ x : ARec, dup → t1.rma.recs.find? (fun x => x.q == g && x.psn == psn) = some x →
                  answers ((t1.inc F.RMA_COUNT.DUPLICATES).atomResp x)) ∧
                (∀ (idx : Nat) (u : State), fresh →
                  t1.keyUse .ratomic (pkKey b) (pkOff b) size { t1.keyCtx g with asize := size, aop := aop } = (.ok idx, u) →
                  u.rma.recs.length + u.rma.atoms.length < 512 * (u.enginesFor 3).length →
                  let e := u.region idx
                  let a := e.addr (pkOff b)
                  let x : Atomic := ⟨g, psn, aop, size, leAt (pkPayload b) 0 size, leAt (pkPayload b) size size, idx, a, bit (e.f RG.ACCESS) 4,
                    t.cohAddr (regionFn idx e) a, false⟩
                  answers ((u.settlePsn g d).modRma (fun r => { r with atoms := r.atoms ++ [x] })).atomKick))))))

/-- The requester's window (Table 8.10, R277 to R281, R296): an answer for another QGEN, or for no PSN that is unanswered, is stale. An ACK marks
what it covers as answered, and the RTS of a rendezvous SEND among it; a NAK with status CONN or CQ gives the connection up, ACCESS logs
RMA_REMOTE_VIOLATION first, RESEND sends the packet again, BUSY sets its back-off, doubled up to six times; a response of the request's
kind lands its bytes, in the fragments of its entry or in the region that waits for them, and a rendezvous goes on. UNA_PSN then moves past
what is answered. -/
def Obligations.AnswersMoveTheWindow : Prop :=
  ∀ (s : State) (b : Bytes), s.live = true → s.intact = true → rmaBad b = false →
    let g := pkDq b
    let psn := pkPsn b
    (s.hands uRMA 0x20 b = true → let t := s.handed 0x20 b
      t.en uRMA = true →
      (t.answered b = none → exec .ack s = .next (s.settle t.rmaStale)) ∧
      (t.answered b = some g →
        let led := leNat (pkPayload b)
        let cov (p : Nat) : Bool := decide (diff24 psn p < 2 ^ 23) ||
          (decide (1 ≤ diff24 p psn ∧ diff24 p psn ≤ 256) && bit led (diff24 p psn - 1))
        let rts := ((t.c g).win.filter (fun u => u.req.kind == 0x41 && cov u.psn)).filterMap (fun u => u.req.ent)
        ((∀ u ∈ (t.c g).win, byAck u.req.kind = true → cov u.psn = true → u.done = true) → exec .ack s = .next (s.settle t.rmaStale)) ∧
        ((∃ u ∈ (t.c g).win, byAck u.req.kind = true ∧ cov u.psn = true ∧ u.done = false) →
          exec .ack s = .next (s.settle ((t.modCtx g (fun c => { c with
            win := c.win.map (fun u => if byAck u.req.kind && cov u.psn then { u with done := true, resendAt := none } else u),
            ents := c.ents.map (fun e => if rts.contains e.idx then { e with rtsDone := true } else e) })).advance g))))) ∧
    (s.hands uRMA 0x21 b = true → let t := s.handed 0x21 b
      t.en uRMA = true →
      (t.answered b = none → exec .nakPacket s = .next (s.settle t.rmaStale)) ∧
      (t.answered b = some g → t.unansOf g psn = none → exec .nakPacket s = .next (s.settle t.rmaStale)) ∧
      (∀ u : Unans, t.answered b = some g → t.unansOf g psn = some u →
        (pkMod b = nkAccess → exec .nakPacket s = .next (s.settle ((t.raise .RMA_REMOTE_VIOLATION g).giveUp g u.psn 1))) ∧
        (pkMod b = nkConn → exec .nakPacket s = .next (s.settle (t.giveUp g u.psn 2))) ∧
        (pkMod b = nkCq → exec .nakPacket s = .next (s.settle (t.giveUp g u.psn 3))) ∧
        (pkMod b = nkResend → exec .nakPacket s = .next (s.settle (t.resend g u))) ∧
        (pkMod b = nkBusy → t.q g Q.LIMITS / 16 ≠ 0 → 16 * (t.q g Q.LIMITS / 16) < (t.c g).busy + 1 →
          exec .nakPacket s = .next (s.settle (t.giveUp g u.psn 5))) ∧
        (pkMod b = nkBusy → t.q g Q.LIMITS / 16 = 0 ∨ (t.c g).busy + 1 ≤ 16 * (t.q g Q.LIMITS / 16) →
          exec .nakPacket s = .next (s.settle (t.modCtx g (fun c => { c with
            busy := c.busy + 1, win := c.win.map (fun x => if x.psn = u.psn then { x with
              resendAt := some (t.beat + t.rd F.RMA_CFG.BACKOFF_BEATS * 2 ^ min (t.c g).busy 6) } else x) })))))) ∧
    (let rows : List (Nat × Nat × Instr) := [(0x22, 0x12, .getResp), (0x23, 0x13, .atomicResp)]
      ∀ r ∈ rows, s.hands uRMA r.1 b = true → let t := s.handed r.1 b
        t.en uRMA = true →
        (t.answered b = none → exec r.2.2 s = .next (s.settle t.rmaStale)) ∧
        (t.answered b = some g → t.unansOf g psn = none → exec r.2.2 s = .next (s.settle t.rmaStale)) ∧
        (∀ u : Unans, t.answered b = some g → t.unansOf g psn = some u →
          let lands (w : State) : Prop := exec r.2.2 s = .next (s.settle (match u.req.rdv with
            | some x => ((w.markDone g u.psn).post (.rdvAnswer x)).advance g
            | none => (w.markDone g u.psn).advance g))
          (u.req.kind ≠ r.2.1 → exec r.2.2 s = .next (s.settle t.rmaStale)) ∧
          (∀ key pos len : Nat, u.req.kind = r.2.1 → u.req.land = some (key, pos, len) →
            let data := (pkPayload b).take len
            (u.req.ent = none → key ≠ 0 → lands (t.place (key / 256) pos data)) ∧
            (u.req.ent = none → key = 0 → lands t) ∧
            (∀ (i : Nat) (e : Ent), u.req.ent = some i → t.ent g i = some e → lands (t.landFrags e.frags pos data)))))

/-- The timers of a connection and the read of its state (R262, R272, R274, R279, R280, R281): an ACK that is due is sent; a connection timer
that has run out sends again what is unanswered and not backing off, counts it and starts again, or gives the connection up with cause 4
after the limit; a back-off that has ended sends its packet again; an atomic whose old value arrives is written, recorded and answered; a
record older than 128 RTO_BEATS is freed. Before its time each changes nothing. RMA_QINFO reads the queue that RMA_QINFO_SEL names; a narrow or
unaligned read of it reads zero and raises REG_ACCESS (R12). -/
def Obligations.ConnectionTimers : Prop :=
  ∀ (s : State) (g psn : Nat), s.live = true →
    (((s.c g).ackDue = false → exec (.ackDelay g) s = .next (s.settle s)) ∧
     ((s.c g).ackDue = true → s.q g Q.STATE ≠ qFree → exec (.ackDelay g) s = .next (s.settle (s.ackNow g)))) ∧
    (∀ u : Unans, (s.c g).win.find? (fun u => !u.done) = some u →
      let due := (s.c g).timer + s.rd F.RMA_CFG.RTO_BEATS * 2 ^ min (s.c g).retry 3
      (s.beat < due → exec (.rtoExpire g) s = .next (s.settle s)) ∧
      (due ≤ s.beat → s.q g Q.LIMITS % 16 < (s.c g).retry + 1 → exec (.rtoExpire g) s = .next (s.settle
        ((s.raise .RMA_RETRY_EXCEEDED g).giveUp g u.psn 4))) ∧
      (due ≤ s.beat → (s.c g).retry + 1 ≤ s.q g Q.LIMITS % 16 → exec (.rtoExpire g) s = .next (s.settle
        ((foldS ((s.c g).win.filter (fun u => !u.done && u.resendAt.isNone)) s
          (fun s u => (s.resend g u).inc F.RMA_COUNT.RETRANSMITS)).modCtx g (fun c => { c with
            retry := (s.c g).retry + 1, timer := s.beat }))))) ∧
    (∀ (u : Unans) (at' : Nat), s.unansOf g psn = some u → u.resendAt = some at' →
      (s.beat < at' → exec (.backoffExpire g psn) s = .next (s.settle s)) ∧
      (at' ≤ s.beat → exec (.backoffExpire g psn) s = .next (s.settle ((s.resend g u).modCtx g (fun c => { c with
        win := c.win.map (fun x => if x.psn = psn then { x with resendAt := none } else x) }))))) ∧
    (∀ (x : Atomic) (rest : List Atomic) (b : Bytes), s.gatedEngines = false → s.rma.atoms = x :: rest → x.coh = false → x.begun = true →
      x.hostMode = false → s.q x.q Q.STATE ≠ qFree →
      ∀ v : Nat, atomNew x.aop x.size (leAt b 0 x.size) x.op0 x.op1 = some v →
      let r : ARec := ⟨x.q, x.psn, x.size, leAt b 0 x.size, s.beat⟩
      let n := s.rma.recs ++ [r]
      exec (.atomicComplete 0 (.ok b)) s = .next (s.settle (((((s.modRma (fun m => { m with atoms := rest, recs := n })).wr
        F.RMA_STATUS.ATOMIC_RECORDS n.length).emit (.hostWrite (regionFn x.reg (s.region x.reg)) x.addr (leBytes x.size v))).atomResp r).atomKick))) ∧
    (exec (.atomicRecordExpire g psn) s =
      let left := s.rma.recs.filter (fun x => !(x.q == g && x.psn == psn && decide (128 * s.rd F.RMA_CFG.RTO_BEATS < s.beat - x.beat)))
      .next (s.settle ((s.modRma (fun r => { r with recs := left })).wr F.RMA_STATUS.ATOMIC_RECORDS left.length))) ∧
    (∀ f : Fn, s.serves (.fn f) .RMA_QINFO 0 = true → s.gOf f (s.rdI F.RMA_QINFO_SEL.NUM (fnInst f) 0) = some g → s.intact = true →
      ((s.c g).cached = true → exec (.rmaQinfo ⟨f, true⟩) s = .next (s.settle ((s.useCtx g).emit (.regValue (.fn f) (s.statusWord 3 g))))) ∧
      exec (.rmaQinfo ⟨f, false⟩) s = .next (s.settle ((s.raise .REG_ACCESS).emit (.regValue (.fn f) 0))))

/-- Match list commands (Tables 9.2, 9.17, 9.18, R284, R285, R287): each ends with code 5 while MAT is disabled; ML_CREATE takes the lowest ML that is
FREE and starts the read of its 64-byte descriptor, and ends with code 7 where none is FREE; ML_DESTROY of an ML that the function does not
own ends with code 4, of one that a queue names with code 3, and otherwise frees it with code 0; a descriptor that the host refuses ends
the create with code 6, one outside Table 9.1 or of another's PD with code 1; with the page entries of its keys there (R260), for which the
create waits, and with keys that pass their check, the ML becomes READY on the engine with the most free space (log entry 16), empty, with
code 0, or the create ends with code 2 where no engine has room. -/
def Obligations.MatchListCommandsEnd : Prop :=
  ∀ (s : State) (f : Fn) (m : Nat),
    (s.serves (.fn f) .MAT_ML_CMD 0 = true → s.rdI F.MAT_ML_RESULT.BUSY (fnInst f) 0 = 0 → m < 4096 →
      (s.en uMAT = false →
        exec (.mlCreate f) s = .next (s.settle (s.mlEndOpen f 5)) ∧ exec (.mlDestroy f m) s = .next (s.settle (s.mlEnd f 2 5 m))) ∧
      (s.en uMAT = true →
        (∀ k : Nat, k < 4096 → s.ml k = none → s.mat.cmds = [] → (∀ j, j < k → s.ml j ≠ none) →
          exec (.mlCreate f) s = .next (s.settle (((((s.modMat (fun x => { x with cmds := [⟨f, k⟩] })).wrI F.MAT_ML_RESULT.BUSY
            (fnInst f) 0 1).wrI F.MAT_ML_RESULT.CMD (fnInst f) 0 1).wrI F.MAT_ML_RESULT.ML (fnInst f) 0 k).readHost f
              (s.rdI F.MAT_ML_ADDR.ADDR (fnInst f) 0 * 64) 64))) ∧
        ((∀ j, j < 4096 → s.ml j ≠ none) → exec (.mlCreate f) s = .next (s.settle (s.mlEndOpen f 7))) ∧
        (s.ml m = none → exec (.mlDestroy f m) s = .next (s.settle (s.mlEnd f 2 4 m))) ∧
        (∀ x : Ml, s.ml m = some x →
          (fnInst x.fn ≠ fnInst f → exec (.mlDestroy f m) s = .next (s.settle (s.mlEnd f 2 4 m))) ∧
          (fnInst x.fn = fnInst f → s.mlBound m = true → exec (.mlDestroy f m) s = .next (s.settle (s.mlEnd f 2 3 m))) ∧
          (fnInst x.fn = fnInst f → s.mlBound m = false → x.allPosted = [] → x.fromSlot = [] → x.events = [] →
            exec (.mlDestroy f m) s = .next (s.settle (((s.modMat (fun y => { y with mls := tabDel y.mls m })).dropSlotReads m).mlEnd f 2 0 m)))))) ∧
    (∀ k : MlCmd, s.live = true → s.mat.cmds.find? (fun k => fnInst k.fn == fnInst f) = some k →
      s.mat.checking.any (fun c => c.1 == k.ml) = false →
      exec (.descriptorFetchDone (.list f) .err) s = .next (s.settle ((s.raise .HIF_DMA_ERR).mlEnd f 1 6 k.ml))) ∧
    (∀ (i : Nat) (d : Bytes), s.live = true → s.mat.checking = [] → s.mat.cmds.find? (fun k => fnInst k.fn == fnInst f) = some ⟨f, i⟩ →
      s.mat.cmds.find? (fun k => k.ml == i) = some ⟨f, i⟩ → d.length = 64 →
      let x := Ml.of f d
      let fits := mlDescOk d (s.qCount f) = true ∧ s.pdOk f (x.f ML.PD) = true
      let ends (t : State) : Prop := exec (.descriptorFetchDone (.list f) (.ok d)) s = .next (s.settle t)
      (¬ fits → ends (s.mlEnd f 1 1 i)) ∧
      (fits → s.mlPages x ≠ [] → ends ((s.modMat (fun y => { y with checking := [(i, d)] })).pagesAsk (s.mlPages x))) ∧
      (fits → s.mlPages x = [] → (∀ r ∈ x.ranges, ∃ k : Nat, s.keyCheck .lwrite r.1 r.2.2 r.2.1 x.keyCtx = .ok k) →
        (∀ (e : Nat) (u : State), s.placeOn 0 (64 * x.f ML.ONCHIP) = (some e, u) →
          ends ((u.modMat (fun y => { y with mls := tabPut y.mls i { x with engine := e } })).mlEnd f 1 0 i)) ∧
        (∀ u : State, s.placeOn 0 (64 * x.f ML.ONCHIP) = (none, u) → ends (u.mlEnd f 1 2 i))))

/-- Messages at their target (Table 9.7, R296 to R298, R304, R306), beyond the checks that every request meets: one that breaks R296 is
malformed; a duplicate is acknowledged; on a connection without the right to match it is a violation of cause 5; a whole header for a
list that is BROKEN, FREE or another function's is answered CONN and puts the queue in ERROR; one more than 255 numbers ahead is MAT_MSN_BAD; an RTS in order with no room is
answered BUSY 5 and, with room, settles and becomes an event of its list, and EXP_MSN moves on; one ahead with room is held; an eager
message in order with room settles and becomes an event with its data, with a slot where it needs one; a MSG_FIN settles and gives the
SEND that waits for it what was taken, or is counted STALE where none waits. A message whose list lacks page entries waits for their reads (R260).
Matching (R250, R299, R301, R302, R304, Table 9.2) on a list that is not BROKEN, in P0, with no region being fetched again: a header that an
on-chip posted entry accepts takes that entry and is delivered, or waits for its rendezvous' context, page entries of its landing
(R228, R260), or while its receive completion finds no room (log entry 116 for what waits); with nothing posted an RTS joins the unexpected list and is counted; a RECV takes the unexpected entry that it accepts, which is delivered; one with nothing unexpected is posted while
there is room, and ends LIST_FULL otherwise; a CANCEL that finds nothing ends NOT_FOUND; where only the spill ring is left to search, up to
512 bytes from its head are read, counted, and the search waits. That a refill is one such read, the posted list first, is the model's choice
(log entry 117). A spill read that the host refuses, or whose key check fails, breaks
the list; a refill of an idle list reads its ring and moves entries onto the chip in order. RENDEZVOUS_START gives the oldest waiting transfer a tracker of the
least busy engine with fewer than 256 in use, and makes its GET_REQs. -/
def Obligations.MatchingGoesOn : Prop :=
  (
    ∀ (s : State) (b : Bytes), s.live = true → s.intact = true →
      let rows : List (Nat × Instr) := [(0x40, .msgEager), (0x41, .msgRts), (0x42, .msgFin)]
      ∀ r ∈ rows, s.hands uMAT r.1 b = true →
        let t := s.handed r.1 b
        (matBad b = true → exec r.2 s = .next (s.settle t.malformed)) ∧
        (t.messagePages b ≠ [] → exec r.2 s = .next (s.settle ((t.pagesAsk (t.messagePages b)).modRte (fun x => { x with
          ejected := b :: x.ejected })))) ∧
        (∀ u : State, matBad b = false → t.targetPre b = .stop u → exec r.2 s = .next (s.settle u)) ∧
        (∀ (u : State) (g : Nat), matBad b = false → t.targetPre b = .dup u g → exec r.2 s = .next (s.settle (u.ackNow g))) ∧
        (∀ (u : State) (g d : Nat), matBad b = false → t.targetPre b = .new u g d →
          (bit (u.q g Q.RIGHTS) 3 = false → exec r.2 s = .next (s.settle (u.violation g d 5 b))) ∧
          (bit (u.q g Q.RIGHTS) 3 = true → pkWhole b = true → u.ml (u.q g Q.ML % 4096) = none → exec r.2 s = .next (s.settle
            (((u.nak g (pkPsn b) nkConn 0).setQ g Q.CAUSE stMlBroken).queueError g erTransport
              (((u.nak g (pkPsn b) nkConn 0).setQ g Q.CAUSE stMlBroken).q g Q.TAKEN)))) ∧
          (∀ x : Ml, bit (u.q g Q.RIGHTS) 3 = true → pkWhole b = true → u.ml (u.q g Q.ML % 4096) = some x → t.messagePages b = [] →
            let m := u.q g Q.ML % 4096
            let enters (v : State) (e : LEnt) (data : Option Bytes) : State :=
              ((v.modMl m (fun x => { x with events := x.events ++ [.header e data] })).setQ g Q.EXP_MSN (add24 e.msn 1)).release g m 256
            (x.broken = true ∨ fnInst x.fn ≠ fnInst (u.ownerOf g) → exec r.2 s = .next (s.settle
              (((u.nak g (pkPsn b) nkConn 0).setQ g Q.CAUSE stMlBroken).queueError g erTransport
                (((u.nak g (pkPsn b) nkConn 0).setQ g Q.CAUSE stMlBroken).q g Q.TAKEN)))) ∧
            (x.broken = false → fnInst x.fn = fnInst (u.ownerOf g) → u.en uMAT = true → r.1 = 0x41 →
              let e := headerEnt u g b
              let exp := u.q g Q.EXP_MSN
              (255 < diff24 e.msn exp →
                let v := (u.nak g (pkPsn b) nkConn 0).setQ g Q.CAUSE stConnBroken
                let w := v.raiseOcc { occ .MAT_MSN_BAD g with info := e.msn + exp * 2 ^ 24, init := pkSrc b, remote := true }
                exec r.2 s = .next (s.settle (w.queueError g erTransport (w.q g Q.TAKEN)))) ∧
              (diff24 e.msn exp = 0 → x.spillRoom = false → exec r.2 s = .next (s.settle (u.noRoom g m (pkPsn b) 5))) ∧
              (diff24 e.msn exp = 0 → x.spillRoom = true → exec r.2 s = .next (s.settle (enters ((u.settlePsn g d).ackLater g) e none))) ∧
              (1 ≤ diff24 e.msn exp → diff24 e.msn exp ≤ 255 → 2 * x.held.length < x.f ML.ONCHIP → x.entryRoom = true →
                let v := (u.settlePsn g d).ackLater g
                exec r.2 s = .next (s.settle ((v.modMl m (fun x => { x with held := x.held ++ [{ e with kind := 5 }] })).setQ g Q.HELD
                  (v.q g Q.HELD + 1))))) ∧
            (x.broken = false → fnInst x.fn = fnInst (u.ownerOf g) → u.en uMAT = true → r.1 = 0x40 →
              let e := headerEnt u g b
              let data := ((pkPayload b).drop 8).take e.len
              diff24 e.msn (u.q g Q.EXP_MSN) = 0 → x.spillRoom = true →
                (needsSlot x e = false → exec r.2 s = .next (s.settle (enters ((u.settlePsn g d).ackLater g) e (some data)))) ∧
                (∀ (k : Nat) (w : State), needsSlot x e = true → x.slots.length < x.f ML.SLOT_COUNT → u.takeSlot m x = (some k, w) →
                  exec r.2 s = .next (s.settle (enters ((w.settlePsn g d).ackLater g) { e with slot := some k } (some data))))) ∧
            (x.broken = false → fnInst x.fn = fnInst (u.ownerOf g) → u.en uMAT = true → r.1 = 0x42 →
              let v := (u.settlePsn g d).ackLater g
              let hit (e : Ent) : Bool := leAt e.b 0 1 == 0x20 && e.begun && e.fin.isNone && e.msn == some (leAt (pkPayload b) 4 3) &&
                e.taken.isNone && decide (v.q g Q.EAGER_MAX < leAt e.b 16 4)
              ((v.c g).ents.any hit = false → exec r.2 s = .next (s.settle (v.inc F.MAT_COUNT.STALE))) ∧
              ((v.c g).ents.any hit = true → exec r.2 s = .next (s.settle ((((v.modCtx g (fun c => { c with ents := c.ents.map (fun e =>
                if hit e then { e with taken := some (leAt (pkPayload b) 0 4) } else e) })).countSrdv g).finishEnts g).post (.run g)))))))) ∧
  (
    ∀ (s : State) (m : Nat) (x : Ml), s.live = true → s.intact = true → s.ecc.refetch = [] → s.pState = 0 → s.ml m = some x → x.broken = false →
      (s.mlPages x ≠ [] → ∀ c ∈ [Instr.matchEvent m, .spillReadDone m .err, .spillRefill m .err], exec c s =
        .next (s.settle (s.pagesAsk (s.mlPages x)))) ∧
      (s.mlPages x = [] → s.en uMAT = true → x.reading = none →
        (∀ (e p : LEnt) (data : Option Bytes) (rest : List MEv), x.events = .header e data :: rest →
          x.posted.find? (fun p => accepts p e.tag e.rank) = some p →
          (∀ w : State, s.needWait x (needsOf p e) = some w → exec (.matchEvent m) s = .next (s.settle (w.eventWaits m))) ∧
          (s.needWait x (needsOf p e) = none → s.recvRoom x = true ∨ (e.kind = 3 ∧ s.sameConn e = true) →
            exec (.matchEvent m) s = .next (s.settle (((s.modMl m (fun x => { x with
              posted := x.posted.eraseP (fun p => accepts p e.tag e.rank) })).eventDone m).deliver m p e data))) ∧
          (s.needWait x (needsOf p e) = none → s.recvRoom x = false → e.kind ≠ 3 → exec (.matchEvent m) s = .next (s.settle (s.eventWaits m)))) ∧
        (∀ (e : LEnt) (rest : List MEv), x.events = .header e none :: rest → e.kind = 3 → x.posted = [] → x.postedSpill = [] → x.ringFull = false →
          exec (.matchEvent m) s = .next (s.settle
            (((s.eventDone m).inc F.MAT_COUNT.UNEXPECTED).appendList m false { e with lost := false }))) ∧
        (∀ (q idx : Nat) (en : Ent) (rest : List MEv), x.events = .recv q idx :: rest → s.ent q idx = some en → x.unexp = [] →
          x.unexpSpill = [] →
          (x.canPost = true → exec (.matchEvent m) s = .next (s.settle
            (((s.eventDone m).appendList m true (recvEnt q en.b)).matEnd q idx 0))) ∧
          (x.canPost = false → exec (.matchEvent m) s = .next (s.settle ((s.eventDone m).matEnd q idx stListFull)))) ∧
        (∀ (q idx : Nat) (en : Ent) (e : LEnt) (rest : List MEv), x.events = .recv q idx :: rest → s.ent q idx = some en →
          let p := recvEnt q en.b
          x.unexp.find? (fun e => accepts p e.tag e.rank) = some e → s.needWait x (needsOf p e) = none → s.recvRoom x = true →
          exec (.matchEvent m) s = .next (s.settle ((((s.modMl m (fun x => { x with
            unexp := x.unexp.eraseP (fun e => accepts p e.tag e.rank) })).eventDone m).deliver m p e none).matEnd q idx 0))) ∧
        (∀ (q idx : Nat) (en : Ent) (rest : List MEv), x.events = .cancel q idx :: rest → s.ent q idx = some en → x.posted = [] →
          x.postedSpill = [] → exec (.matchEvent m) s = .next (s.settle ((s.eventDone m).matEnd q idx stNotFound))) ∧
        (∀ (e : LEnt) (data : Option Bytes) (rest : List MEv), x.events = .header e data :: rest → x.posted = [] → x.postedSpill ≠ [] → x.waits = false →
          exec (.matchEvent m) s = .next (s.settle (((s.inc F.MAT_COUNT.SPILL_READS).modMl m (fun x => { x with reading := some 0 })).mlRead m
            (x.f ML.SPILL_KEY) (x.spillOff true 0) (64 * x.chunk true 0)))) ∧
        (x.events = [] → exec (.matchEvent m) s = .next (s.settle s))) ∧
      (s.mlPages x = [] → (x.reading = none → ∀ a : Ans, exec (.spillReadDone m a) s = .next (s.settle s)) ∧
       (∀ i : Nat, x.reading = some i → exec (.spillReadDone m .err) s = .next (s.settle (s.mlBreak m)) ∧
         ∀ b : Bytes, exec (.spillReadDone m (.ok b)) s = .next (s.settle (s.matchEvent m (some i))))) ∧
      (s.mlPages x = [] → x.events = [] → x.waits = false →
        (x.refillable true = false → x.refillable false = false → ∀ a : Ans, exec (.spillRefill m a) s = .next (s.settle s)) ∧
        (let posted := x.refillable true
         posted = true ∨ x.refillable false = true →
          let n := x.chunk posted 0
          let off := x.spillOff posted 0
          (∀ (idx : Nat) (u : State) (b : Bytes), s.keyUse .lwrite (x.f ML.SPILL_KEY) off (64 * n) x.keyCtx = (.ok idx, u) →
            exec (.spillRefill m (.ok b)) s = .next (s.settle ((u.fetch idx off (64 * n)).refillList m posted n
              (min n (x.f ML.ONCHIP - x.onchip)))) ∧
            exec (.spillRefill m .err) s = .next (s.settle ((u.fetch idx off (64 * n)).mlBreak m))) ∧
          (∀ (c : Nat) (u : State) (b : Bytes), s.keyUse .lwrite (x.f ML.SPILL_KEY) off (64 * n) x.keyCtx = (.error c, u) →
            exec (.spillRefill m (.ok b)) s = .next (s.settle (u.mlBreak m))))) ∧
      (let free := (s.enginesFor 2).filter (fun e => decide ((s.mat.rdvs.filter (fun r => r.started && !r.sent && r.engine == e)).length < 256))
       (free = [] → exec .rendezvousStart s = .next (s.settle s)) ∧
       (∀ (r : Rdv) (e : Nat) (u : State), s.mat.rdvs.find? (fun r => !r.started && !r.over') = some r → s.leastBusy 2 free = (some e, u) →
         let ps := cutMsg r.taken
         exec .rendezvousStart s = .next (s.settle ((((u.modMat (fun x => { x with rdvs := x.rdvs.map (fun y =>
           if y.id = r.id then { y with started := true, left := ps.length, engine := e } else y) })).modCtx r.q (fun c => { c with
             todo := c.todo ++ ps.map (fun p => ⟨0x12, none, some r.id, leBytes 1 0 ++ leBytes 4 r.rts.key ++
               leBytes 8 (r.rts.off + p.1), leBytes 4 p.2 ++ leBytes 4 0, some (r.post.key, r.post.off + p.1, p.2)⟩) })).pump r.q 4096))))))

/-- Every coherence packet (R312, R321, R340): one that breaks the packet rules is malformed, one at a disabled unit is stale, one of another domain,
or of a node that is no live member, is COH_NOT_MEMBER, which is logged once a Beat for a node; none of these has another effect. -/
def Obligations.CoherencePacketsAreChecked : Prop :=
  ∀ (s : State) (b : Bytes), s.live = true → s.intact = true →
    let rows : List (Nat × Instr) := [(0x60, .rdS), (0x61, .rdX), (0x62, .upg), (0x63, .atom), (0x64, .wb), (0x65, .evict), (0x68, .fwdS),
      (0x69, .fwdX), (0x6A, .inv), (0x70, .dataS), (0x71, .dataX), (0x72, .grantX), (0x73, .invAck), (0x74, .fwdAck), (0x75, .comp),
      (0x76, .wbAck), (0x77, .retry), (0x78, .crdGrant), (0x79, .atomResp)]
    ∀ r ∈ rows, s.hands uCOH r.1 b = true →
      let t := s.handed r.1 b
      (cohBad b = true → exec r.2 s = .next (s.settle t.malformed)) ∧
      (cohBad b = false → t.en uCOH = false → exec r.2 s = .next (s.settle (t.inc F.COH_COUNT.STALE))) ∧
      (cohBad b = false → t.en uCOH = true → (t.memberOf (pkSrc b) = none ∨ leAt b 26 1 ≠ t.rd F.COH_MODE.DOMAIN) →
        (t.coh.notLogged.contains (pkSrc b) = true → exec r.2 s = .next (s.settle t)) ∧
        (t.coh.notLogged.contains (pkSrc b) = false → exec r.2 s = .next (s.settle
          ((t.modCoh (fun c => { c with notLogged := c.notLogged ++ [pkSrc b] })).raise .COH_NOT_MEMBER))))

/-- The home (R313, R314, R316, R329 to R331, R339, Table 10.6), for a packet that passes those checks: a request for a line of no export that
answers gets poisoned zeros; a request of a line with nothing in hand takes a free entry and waits its turn, and in RACE_MODE a member's
seventeenth is COH_PROTO; an ATOM where no engine serves atomics is answered NODATA. A WB of the line's owner is written to the host,
acknowledged, and the line has no owner; of another it is acknowledged as stale. An EVICT is acknowledged, and a sharer leaves. INV_ACK,
FWD_ACK and COMP count for the transaction that they name and are stale otherwise; a FWD_ACK with NODATA fails it by R333, after a FWD_S
too. -/
def Obligations.HomeDecides : Prop :=
  ∀ (s : State) (b : Bytes) (m : Nat), s.live = true → s.intact = true → cohBad b = false →
    let line := cpLine b
    let home (k : Nat) : Prop := s.hands uCOH k b = true ∧ (s.handed k b).en uCOH = true ∧ (s.handed k b).memberOf (pkSrc b) = some m ∧
      leAt b 26 1 = (s.handed k b).rd F.COH_MODE.DOMAIN
    let ack (s : State) (flags : Nat) : State := s.cohSend m 2 0x76 line (cpTxid b) m flags 0 0 []
    let reqs : List (Nat × Nat × Instr) := [(0x60, 0, .rdS), (0x61, 1, .rdX), (0x62, 2, .upg), (0x63, 3, .atom)]
    (∀ r ∈ reqs, home r.1 →
      let t := s.handed r.1 b
      (t.lineOk line = false → exec r.2.2 s = .next (s.settle (t.badExport m r.2.1 b))) ∧
      (t.lineOk line = true → r.2.1 = 3 → t.atomicsServed = false → exec r.2.2 s = .next (s.settle
        ((t.raise .COH_PROTO).sendAtomResp line m (cpTxid b) 0 (cpAop b) cfNodata 0))) ∧
      (t.lineOk line = true → (r.2.1 = 3 → t.atomicsServed = true) → (t.dirOf line).tx = none → (t.dirOf line).waiting = [] →
        let waits (u : State) (h : Nat) : State := (u.modDir line (fun d => { d with waiting := d.waiting ++
          [⟨m, cpTxid b, r.2.1, cpAop b, pkPayload b, cpFlag b cfResent, h⟩] })).homeKick
        (t.on F.COH_MODE.RACE_MODE = true → 16 ≤ t.homeUsedBy m → exec r.2.2 s = .next (s.settle (t.raise .COH_PROTO))) ∧
        (∀ (h : Nat) (u : State), t.freeHtx 0 1024 = (some h, u) →
          (t.on F.COH_MODE.RACE_MODE = true → t.homeUsedBy m < 16 → exec r.2.2 s = .next (s.settle (waits u h))) ∧
          (t.on F.COH_MODE.RACE_MODE = false → (t.dirOf line).snoops = [] → t.coh.credits = [] →
            ((t.dirOf line).way = true ∨ t.dirWays (cacheSet line) < 16) → exec r.2.2 s = .next (s.settle (waits u h)))))) ∧
    (home 0x64 → let t := s.handed 0x64 b
      ((t.dirOf line).owner ≠ some m → exec .wb s = .next (s.settle (ack t cfStaleF))) ∧
      ((t.dirOf line).tx = none → (t.dirOf line).owner = some m → exec .wb s = .next (s.settle
        (ack ((t.toHost line 2 (pkPayload b) (cpFlag b cfPoison)).closeTx line [] none) 0).homeKick))) ∧
    (home 0x65 → let t := s.handed 0x65 b
      let u := ack t 0
      ((u.dirOf line).tx = none → (u.dirOf line).sharers.contains m = false → exec .evict s = .next (s.settle u)) ∧
    (∀ x : HTx, (t.dirOf line).tx = some x → x.st ≠ 3 → exec .evict s = .next (s.settle (u.modDir line (fun d => { d with
      sharers := (t.dirOf line).sharers.filter (· != m), tx := some { x with left := x.left ++ [m] } })))) ∧
      (∀ j : Nat, j ≠ m → (t.dirOf line).tx = none → (t.dirOf line).sharers = [j, m] → exec .evict s = .next (s.settle
        (u.modDir line (fun d => { d with sharers := [j] })).homeKick))) ∧
    (home 0x73 → let t := s.handed 0x73 b
      (t.txFor b = none → exec .invAck s = .next (s.settle (t.inc F.COH_COUNT.STALE))) ∧
      (∀ x : HTx, t.txFor b = some x → x.invs.contains m = true → exec .invAck s = .next (s.settle
        (t.modTx line (fun x => { x with invs := x.invs.filter (· != m) })).homeKick))) ∧
    (home 0x74 → let t := s.handed 0x74 b
      (t.txFor b = none → exec .fwdAck s = .next (s.settle (t.inc F.COH_COUNT.STALE))) ∧
      (∀ x : HTx, t.txFor b = some x → x.fwd = true → x.owner = m → cpFlag b cfNodata = true →
        exec .fwdAck s = .next (s.settle (t.failTx line { x with fwd := false } true))) ∧
      (∀ x : HTx, t.txFor b = some x → x.fwd = true → x.owner = m → cpFlag b cfNodata = false →
        (pkLong b = false → exec .fwdAck s = .next (s.settle
          (t.modTx line (fun x => { x with fwd := false, data := none, kept := cpFlag b cfKept })).homeKick)) ∧
        (pkLong b = true → exec .fwdAck s = .next (s.settle
          ((t.toHost line 4 (pkPayload b) (cpFlag b cfPoison)).modTx line (fun x => { x with
            fwd := false, data := some (pkPayload b, cpFlag b cfPoison), kept := cpFlag b cfKept })).homeKick)))) ∧
    (home 0x75 → let t := s.handed 0x75 b
      (t.txFor b = none → exec .comp s = .next (s.settle (t.inc F.COH_COUNT.STALE))) ∧
      (∀ x : HTx, t.txFor b = some x → x.comp = true → x.mid = m → exec .comp s = .next (s.settle
        (t.modTx line (fun x => { x with comp := false })).homeKick)))

/-- The agent (R322, R326, R329, R332, R339, Table 10.7), for a packet that passes those checks: a forward of a line that it does not hold is
answered NODATA, an invalidation of one acknowledged; a forward of a line in M, and an invalidation of one in S, is recorded and the line
goes on with it; DATA_S fills a line that waits for a shared copy, DATA_X one that waits for an
exclusive one, GRANT_X one that has the data, each then sends COMP; WB_ACK ends a victim; RETRY holds the request until its
credit, CRD_GRANT sends it again CREDITED; an answer that names no open transaction is stale. -/
def Obligations.AgentFollowsTheTable : Prop :=
  ∀ (s : State) (b : Bytes) (m : Nat), s.live = true → s.intact = true → cohBad b = false →
    let line := cpLine b
    let f (k : Nat) : CFwd := ⟨k, cpMid b, cpTxid b, cpHtx b, cpFlag b cfHomereq⟩
    let agent (k : Nat) : Prop := s.hands uCOH k b = true ∧ (s.handed k b).en uCOH = true ∧ (s.handed k b).memberOf (pkSrc b) = some m ∧
      leAt b 26 1 = (s.handed k b).rd F.COH_MODE.DOMAIN
    (agent 0x68 → (s.handed 0x68 b).cline line = none →
      exec .fwdS s = .next (s.settle ((s.handed 0x68 b).fwdAck line (f 0) cfNodata []))) ∧
    (agent 0x69 → (s.handed 0x69 b).cline line = none →
      exec .fwdX s = .next (s.settle ((s.handed 0x69 b).fwdAck line (f 1) cfNodata []))) ∧
    (agent 0x6A → (s.handed 0x6A b).cline line = none → exec .inv s = .next (s.settle ((s.handed 0x6A b).invAck line (f 2)))) ∧
    (let record (t : State) (k : Nat) : State := (t.modCline line (fun c => { c with fwd := some (f k), snooped := false })).agentKick
     (agent 0x68 → (s.handed 0x68 b).lst line = some .m → exec .fwdS s = .next (s.settle (record (s.handed 0x68 b) 0))) ∧
     (agent 0x69 → (s.handed 0x69 b).lst line = some .m → exec .fwdX s = .next (s.settle (record (s.handed 0x69 b) 1))) ∧
     (agent 0x6A → (s.handed 0x6A b).lst line = some .s → exec .inv s = .next (s.settle (record (s.handed 0x6A b) 2)))) ∧
    (∀ r ∈ ([(0x70, .dataS), (0x71, .dataX), (0x72, .grantX), (0x76, .wbAck), (0x77, .retry), (0x78, .crdGrant), (0x79, .atomResp)] :
        List (Nat × Instr)), agent r.1 → (s.handed r.1 b).atxFor b = none →
      exec r.2 s = .next (s.settle ((s.handed r.1 b).inc F.COH_COUNT.STALE))) ∧
    (∀ (i : Nat) (x : ATx),
      let fill (t : State) (st : LState) : State := t.fill line st (some (pkPayload b, cpFlag b cfPoison))
      (agent 0x70 → let t := s.handed 0x70 b
        t.atxFor b = some (i, x) → t.lst line = some .isd →
        exec .dataS s = .next (s.settle ((((fill t .s).serveWaiting line).sendComp b).agentKick))) ∧
      (agent 0x71 → let t := s.handed 0x71 b
        t.atxFor b = some (i, x) → (t.lst line = some .imd ∨ t.lst line = some .sma) →
        exec .dataX s = .next (s.settle ((fill t .m).sendComp b).agentKick)) ∧
      (agent 0x72 → let t := s.handed 0x72 b
        t.atxFor b = some (i, x) → t.lst line = some .sma →
        exec .grantX s = .next (s.settle ((t.fill line .m none).sendComp b).agentKick)) ∧
      (agent 0x76 → let t := s.handed 0x76 b
        t.atxFor b = some (i, x) → t.lst line = some .mia → cpFlag b cfStaleF = false →
        exec .wbAck s = .next (s.settle (t.toI line).agentKick)) ∧
      (agent 0x77 → let t := s.handed 0x77 b
        t.atxFor b = some (i, x) → x.kind < 4 →
        exec .retry s = .next (s.settle (t.restartTx i (fun t => { t with held := true })))) ∧
      (agent 0x78 → let t := s.handed 0x78 b
        t.atxFor b = some (i, x) → x.kind < 4 →
        exec .crdGrant s = .next (s.settle
          ((t.restartTx i (fun t => { t with held := false })).sendReq i x (t.resendKind x) cfCredited))) ∧
      (agent 0x79 → let t := s.handed 0x79 b
        ∀ a : Atomic, t.atxFor b = some (i, x) →
          x.atom.bind (fun a => t.rma.atoms.find? (fun x => x.q == a.1 && x.psn == a.2)) = some a →
          cpFlag b cfPoison = false → cpFlag b cfNodata = false →
          exec .atomResp s = .next (s.settle ((t.freeTx (some i)).atomFinish a (leAt (pkPayload b) 0 a.size)).agentKick)))

/-- Hosts of a domain (R314 to R318, Table 13.6): data that a home's read waited for joins its transaction; a snoop of an address outside the
exports, and of a line that no member holds, is answered RspI at once, one of a line whose host read is outstanding RspIHitI; a
CXL.mem read outside the windows is answered with poison whose bytes are open, a write is completed and dropped, and COH_PROTO is logged once
a Beat; BIRSP records the copy that the host keeps; a decoder with one way is committed, one with more is refused. While what serves it is gated, or its attachment is in L1, a
snoop or an access of CXL.mem waits for the wake that it causes (R392, R393; log entry 129). -/
def Obligations.HostsOfADomain : Prop :=
  ∀ (s : State) (port : Fin 2), s.live = true →
    (∀ (line : Nat) (data : Bytes) (poison : Bool) (x : HTx), (s.dirOf line).tx = some x → x.read = true → data.length = 64 →
      exec (.hostDataReturn line data poison) s = .next (s.settle
        (s.modTx line (fun t => { t with read := false, data := some (data, poison) })).homeKick)) ∧
    (∀ (addr : Nat) (inv : Bool), (s.gatedUnit uCOH = true ∨ bit s.pwr.l1 (2 * port) = true) →
      exec (.hostSnoop port addr inv) s = .next (s.settle (s.sleepOn (.snoop port addr inv)))) ∧
    (∀ (tag hpa mask : Nat) (mv : Fin 3) (data : Bytes), (s.gatedEngines = true ∨ bit s.pwr.l1 (2 * port) = true) →
      exec (.memrd port tag hpa mv) s = .next (s.settle (s.sleepOn (.mem port tag hpa 0 mv [] 0))) ∧
      exec (.memwr port tag hpa mv data) s = .next (s.settle (s.sleepOn (.mem port tag hpa 1 mv data 0))) ∧
      exec (.memwrptl port tag hpa mv data mask) s = .next (s.settle (s.sleepOn (.mem port tag hpa 2 mv data mask)))) ∧
    (∀ (addr : Nat) (inv : Bool), s.intact = true → s.gatedUnit uCOH = false → bit s.pwr.l1 (2 * port) = false →
      let base := s.rd F.COH_EXPORT.BASE port * 2 ^ 28
      let off := (addr - base) / 64 * 64
      let line := (s.ownMid * 2 ^ 40 + port.val * 2 ^ 39 + off) / 64
      ((s.en uCOH = false ∨ addr < base ∨ s.rd F.COH_EXPORT.SIZE port * 2 ^ 28 ≤ off ∨ s.on F.COH_EXPORT.VALID port = false) →
        exec (.hostSnoop port addr inv) s = .next (s.settle (s.emit (.snpRsp port addr 0 [])))) ∧
      (s.en uCOH = true → base ≤ addr → off < s.rd F.COH_EXPORT.SIZE port * 2 ^ 28 → s.on F.COH_EXPORT.VALID port = true →
        (∀ x : HTx, (s.dirOf line).tx = some x → x.st = 0 → x.read = true →
          exec (.hostSnoop port addr inv) s = .next (s.settle (s.snoopAnswer line 1 []))) ∧
        ((s.dirOf line).tx = none → (s.dirOf line).sharers = [] → (s.dirOf line).owner = none →
          exec (.hostSnoop port addr inv) s = .next (s.settle (s.snoopAnswer line 0 []))) ∧
        (∀ j : Nat, (s.dirOf line).tx = none → (s.dirOf line).owner = some j →
          exec (.hostSnoop port addr inv) s = .next (s.settle
            (s.modDir line (fun d => { d with snoops := d.snoops ++ [if inv then 4 else 5] })).homeKick)))) ∧
    (∀ (tag hpa mask : Nat) (mv : Fin 3) (data : Bytes), s.gatedEngines = false → bit s.pwr.l1 (2 * port) = false → s.en uCOH = true →
      (s.windowLine port hpa = none →
        let t := if s.coh.protoLogged then s else (s.modCoh (fun c => { c with protoLogged := true })).raise .COH_PROTO
        exec (.memrd port tag hpa mv) s = .next (s.settle
          ((t.pick (2 ^ 512)).2.emit (.memData port tag (leBytes 64 (t.pick (2 ^ 512)).1) true))) ∧
        exec (.memwr port tag hpa mv data) s = .next (s.settle (t.emit (.memCmp port tag))) ∧
        exec (.memwrptl port tag hpa mv data mask) s = .next (s.settle (t.emit (.memCmp port tag)))) ∧
      (∀ l : Nat, s.windowLine port hpa = some l → s.windowOk l = true →
        let wait (kind : Nat) (d : Bytes) (m : Nat) : State :=
          (s.modCoh (fun c => { c with wait := c.wait ++ [⟨l, port, tag, hpa / 64 * 64, kind, mv, d, m⟩] })).agentKick
        exec (.memrd port tag hpa mv) s = .next (s.settle (wait 0 [] 0)) ∧
        exec (.memwr port tag hpa mv data) s = .next (s.settle (wait 1 data 0)) ∧
        exec (.memwrptl port tag hpa mv data mask) s = .next (s.settle (wait 2 data mask)))) ∧
    (∀ (hpa : Nat) (shared : Bool) (e : Nat × CLine),
      s.coh.lines.find? (fun e => e.2.snp && e.2.port == port.val && e.2.hpa == hpa / 64 * 64) = some e →
      exec (.birsp port hpa shared) s = .next (s.settle (s.modCline e.1 (fun c => { c with
        snp := false, snooped := c.fwd.isSome, host := if shared then 1 else 0 })).agentKick)) ∧
    (∀ d base size ways : Nat,
      (ways = 1 → exec (.hdmDecoderCommit port d base size ways) s = .next (s.settle
        ((s.modCoh (fun c => { c with hdm := tabPut c.hdm (8 * port.val + d) (base, size) })).emit (.hdmCommit port d true)))) ∧
      (ways ≠ 1 → exec (.hdmDecoderCommit port d base size ways) s = .next (s.settle (s.emit (.hdmCommit port d false)))))

/-- Timers and commands of a domain (R329, R333 to R337, R340, Table 10.13): before its time each timer changes nothing; a home transaction that
waits for its COMP ends without it, another fails by R333; a reserved entry that is not claimed is freed and counted stale; a request is sent again RESENT, up to its
limit. DECLARE_DEAD, FLUSH and REVIVE end with code 5 while COH is disabled, with code 1 for a member that is not VALID, with code 2 a
DECLARE_DEAD of the own MID or of a DEAD member, and a REVIVE of one that is alive or during a walk; REVIVE clears DEAD; DECLARE_DEAD sets DEAD
and RECLAIMING and runs until its walk ends, which says how many lines it poisoned (that the lines are reclaimed with the command itself is
DEDUCED, log entry 87); FLUSH runs until every line is gone. -/
def Obligations.DomainTimersAndCommands : Prop :=
  ∀ (s : State),
    (s.live = true →
      (∀ (line : Nat) (x : HTx), (s.dirOf line).tx = some x →
        (s.beat - x.opened < s.rd F.COH_FWD_TIMEOUT.FWD_BEATS → exec (.transactionTimerExpire line) s = .next (s.settle s)) ∧
        (s.rd F.COH_FWD_TIMEOUT.FWD_BEATS ≤ s.beat - x.opened → x.doomed = false → x.st = 2 → exec (.transactionTimerExpire line) s = .next (s.settle
          (s.modTx line (fun t => { t with comp := false })).homeKick)) ∧
        (s.rd F.COH_FWD_TIMEOUT.FWD_BEATS ≤ s.beat - x.opened → x.doomed = false → x.st ≠ 2 → exec (.transactionTimerExpire line) s =
          .next (s.settle (s.failTx line x false)))) ∧
      (∀ c : Credit, s.coh.credits.head? = some c →
        (s.beat - c.beat < s.rd F.COH_FWD_TIMEOUT.FWD_BEATS → exec (.creditReserveExpire 0) s = .next (s.settle s)) ∧
        (s.rd F.COH_FWD_TIMEOUT.FWD_BEATS ≤ s.beat - c.beat → exec (.creditReserveExpire 0) s = .next (s.settle
          ((s.modCoh (fun k => { k with credits := k.credits.drop 1 })).inc F.COH_COUNT.STALE).homeKick))) ∧
      (∀ (i : Nat) (x : ATx), tabGet s.coh.txs i = some x →
        (s.beat - x.timer < s.rd F.COH_FWD_TIMEOUT.REQ_BEATS → exec (.requestTimerExpire i) s = .next (s.settle s)) ∧
        (s.rd F.COH_FWD_TIMEOUT.REQ_BEATS ≤ s.beat - x.timer → s.cline x.line = none →
          x.resends + 1 ≤ s.rd F.COH_FWD_TIMEOUT.REQ_RETRY_MAX →
          exec (.requestTimerExpire i) s = .next (s.settle
            ((s.restartTx i (fun t => { t with resends := t.resends + 1 })).sendReq i x (s.resendKind x) cfResent)))) ∧
      (∀ m n who : Nat, s.coh.walk = some (m, n, who) →
        let t := (((s.modCoh (fun c => { c with walk := none })).wr F.COH_STATUS.RECLAIMING 0).wr F.COH_RESULT.LINES n).cohResult 1 0 m false
        let u := t.inc F.COH_COUNT.DEAD_LOST 0 n
        exec .declareDeadWalkEnd s = .next (s.settle (if n = 0 then u else u.raiseOcc { occ .COH_DEAD_LOSS m with info := n, init := who }))) ∧
      (∀ n : Nat, s.coh.flush = some n → s.coh.lines = [] → exec .flushEnd s = .next (s.settle
        (((s.wr F.COH_RESULT.LINES n).cohResult 2 0 (s.rd F.COH_RESULT.MEMBER) false).modCoh (fun c => { c with flush := none }))))) ∧
    (∀ (who : Who) (m : Nat), s.serves who .COH_CMD 0 = true → s.on F.COH_RESULT.BUSY = false → m < 64 →
      (s.en uCOH = false →
        exec (.declareDead who m) s = .next (s.settle (s.cohResult 1 5 m false)) ∧
        exec (.flush who) s = .next (s.settle (s.cohResult 2 5 0 false)) ∧
        exec (.revive who m) s = .next (s.settle (s.cohResult 3 5 m false))) ∧
      (s.en uCOH = true → s.on F.COH_MEMBER.VALID m = false →
        exec (.declareDead who m) s = .next (s.settle (s.cohResult 1 1 m false)) ∧
        exec (.revive who m) s = .next (s.settle (s.cohResult 3 1 m false))) ∧
      (s.en uCOH = true → s.on F.COH_MEMBER.VALID m = true → s.memberDead m = true →
        exec (.declareDead who m) s = .next (s.settle (s.cohResult 1 2 m false)) ∧
        (s.coh.walk ≠ none → exec (.revive who m) s = .next (s.settle (s.cohResult 3 2 m false))) ∧
        (s.coh.walk = none → exec (.revive who m) s = .next (s.settle ((s.wr F.COH_MEMBER.DEAD 0 m).cohResult 3 0 m false)))) ∧
      (s.en uCOH = true → s.on F.COH_MEMBER.VALID m = true → m = s.ownMid →
        exec (.declareDead who m) s = .next (s.settle (s.cohResult 1 2 m false))) ∧
      (s.en uCOH = true → s.on F.COH_MEMBER.VALID m = true → s.memberDead m = false →
        exec (.revive who m) s = .next (s.settle (s.cohResult 3 2 m false))) ∧
      (s.en uCOH = true → s.on F.COH_MEMBER.VALID m = true → s.memberDead m = false → m ≠ s.ownMid →
        s.coh.lines = [] → s.coh.wait = [] → s.rma.atoms = [] →
        s.coh.dir = [] → s.coh.retry = [] → exec (.declareDead who m) s = .next (s.settle
        ((((s.wr F.COH_MEMBER.DEAD 1 m).wr F.COH_STATUS.RECLAIMING 1).cohResult 1 0 m true).modCoh (fun c => { c with
          walk := some (m, 0, whoOwner who) })))) ∧
      (s.en uCOH = true → s.coh.lines = [] → s.coh.wait = [] → s.rma.atoms = [] → exec (.flush who) s = .next (s.settle
        ((s.cohResult 2 0 0 true).modCoh (fun c => { c with flush := some 0 })))))

/-- A free Peg (R344): PEG_TAKE and PEG_TRY are granted at once. The word that the read returns is GOT
with the marks that awaited delivery, the requester as OWNER and the new GRANTS; the marks are cleared with the grant (R352). A narrow or
unaligned read takes nothing, reads zero and raises REG_ACCESS (R12).
A Peg that another owner holds (R344, R345, R347): a read of PEG_TAKE stalls at the tail of the queue and returns nothing, a
read of PEG_TRY returns HELD with the holder and changes nothing, a WATCH joins the queue without a read that waits. A CANCEL
takes the function's watch out.
CANCEL (R347): the function's watch leaves the queue, and nothing else changes. -/
def Obligations.PegsAreTakenAndAwaited : Prop :=
  (
    ∀ (s : State) (f : Fn) (j i : Nat) (g : Nat) (ab fo : Bool),
      s.en uPEG = true → s.pegOf f j = some i → s.pegReach f i = true → s.pg i = ⟨none, g, ab, fo, []⟩ →
      let t : State := (s.setPg i ⟨some (fnOwner f), (g + 1) % 2 ^ 32, false, false, []⟩).emit
        (.pegValue f j (pegWord 1 ab fo (fnOwner f) 0 ((g + 1) % 2 ^ 32)))
      let narrow : State := (s.raise .REG_ACCESS).emit (.pegValue f j 0)
      (s.serves (.fn f) .PEG_TAKE j = true →
        exec (.pegTake ⟨f, true⟩ j) s = .next (s.settle t) ∧ exec (.pegTake ⟨f, false⟩ j) s = .next (s.settle narrow)) ∧
      (s.serves (.fn f) .PEG_TRY j = true →
        exec (.pegTry ⟨f, true⟩ j) s = .next (s.settle t) ∧ exec (.pegTry ⟨f, false⟩ j) s = .next (s.settle narrow))) ∧
  (
    ∀ (s : State) (f : Fn) (j i h : Nat) (p : PegSt),
      s.en uPEG = true → s.pegOf f j = some i → s.pegReach f i = true → s.pg i = p → p.holder = some h → h ≠ fnOwner f →
      (∀ w ∈ p.waiters, w.1 ≠ f) → s.pegRoom true = true →
      (s.serves (.fn f) .PEG_TAKE j = true →
        exec (.pegTake ⟨f, true⟩ j) s = .next (s.settle (s.setPg i { p with waiters := p.waiters ++ [(f, true)] }))) ∧
      (s.serves (.fn f) .PEG_TRY j = true →
        exec (.pegTry ⟨f, true⟩ j) s = .next (s.settle (s.emit (.pegValue f j (pegWord 2 false false h 0 p.grants))))) ∧
      (s.serves (.fn f) .PEG_WATCH j = true → s.pegWatchEn f = true →
        exec (.watch f j) s = .next (s.settle (s.setPg i { p with waiters := p.waiters ++ [(f, false)] })))) ∧
  (
    ∀ (s : State) (f : Fn) (j i : Nat),
      s.serves (.fn f) .PEG_WATCH j = true → s.pegOf f j = some i →
      exec (.cancel f j) s = .next (s.settle (s.setPg i { s.pg i with waiters := (s.pg i).waiters.erase (f, false) })))

/-- RELEASE (R349): from its owner it frees the Peg, and from any other requester it is refused with PEG_NOT_OWNER; where a
stalled read stands at the head of the queue, the Peg goes to it in the same command and its read returns GOT.
STALL_LIMIT (R345): the stalled read ends. With WATCH_EN it becomes a watch in its place and returns PENDING with its
position; otherwise the waiter is removed and the read returns TIMEOUT. -/
def Obligations.PegsAreHandedOn : Prop :=
  (
    ∀ (s : State) (f : Fn) (j i : Nat) (p : PegSt),
      s.serves (.fn f) .PEG_RELEASE j = true → s.en uPEG = true → s.pegOf f j = some i → s.pegReach f i = true → s.pg i = p →
      (p.holder ≠ some (fnOwner f) → exec (.pegRelease f j) s = .next (s.settle (s.raise .PEG_NOT_OWNER))) ∧
      (p.holder = some (fnOwner f) → p.waiters = [] →
        exec (.pegRelease f j) s = .next (s.settle (s.setPg i { p with holder := none }))) ∧
      (∀ (g : Fn) (r : List (Fn × Bool)), p.holder = some (fnOwner f) → p.waiters = (g, true) :: r →
        ∃ t : State, exec (.pegRelease f j) s = .next (s.settle t) ∧
          t.pg i = ⟨some (fnOwner g), (p.grants + 1) % 2 ^ 32, false, false, r⟩ ∧
          t.out = s.out ++ [.pegValue g (s.pegLocal g i) (pegWord 1 p.abandoned p.forced (fnOwner g) 0 ((p.grants + 1) % 2 ^ 32))] ∧
          ∀ k, k ≠ i → t.pg k = s.pg k)) ∧
  (
    ∀ (s : State) (f : Fn) (j i : Nat) (p : PegSt),
      s.live = true → s.pegOf f j = some i → s.pg i = p → (f, true) ∈ p.waiters →
      (s.pegWatchEn f = true → exec (.stallLimit f j) s = .next (s.settle
        ((s.setPg i { p with waiters := p.waiters.map (fun w => if w.1 == f then (f, false) else w) }).emit
          (.pegValue f j (pegWord 3 false false (p.holder.getD 0) (p.position f) p.grants))))) ∧
      (s.pegWatchEn f = false → exec (.stallLimit f j) s = .next (s.settle
        ((s.setPg i { p with waiters := p.waiters.erase (f, true) }).emit
          (.pegValue f j (pegWord 4 false false (p.holder.getD 0) 0 p.grants))))))

/-- The supervisor's commands (R351), from a PF that PEG_SUPERVISOR names: FORCE_RELEASE counts in FORCED, logs PEG_FORCED, marks
the Peg and takes it from its holder; FLUSH_WAITERS empties the queue, here of one stalled read, which returns TIMEOUT. -/
def Obligations.PegSupervisorActs : Prop :=
  ∀ (s : State) (pf : Fin 4) (i : Nat) (p : PegSt),
    s.serves (.fn (.pf pf)) .PEG_FORCE 0 = true → bit (s.rd F.PEG_SUPERVISOR.MASK) pf.val = true → i < 4096 → s.pg i = p →
    (∀ h, p.holder = some h → p.waiters = [] → exec (.forceRelease pf i) s = .next (s.settle
      (((s.inc F.PEG_COUNT.FORCED).raise .PEG_FORCED).setPg i { p with holder := none, forced := true }))) ∧
    (∀ g, p.waiters = [(g, true)] → exec (.flushWaiters pf i) s = .next (s.settle
      ((s.setPg i { p with waiters := [] }).emit
        (.pegValue g (s.pegLocal g i) (pegWord 4 false false (p.holder.getD 0) 0 p.grants)))))

/-- The scrubber and the SRAM window (R357, R360 to R368, Table 12.12): with ECC disabled the scrubber reads nothing; it goes on word by word, and ends a lap at the
last one; a word with one bit changed under a code that corrects is counted and logged once, and waits for its write-back; a lap at its
deadline is forced and logged once. ECC_WIN_SEL names the page; a read beyond the region, or in the SRAM of an
absent unit, returns zero, one of a whole word its bytes, and a narrow or unaligned one zero with REG_ACCESS; a write that would change
the word is refused while an owner of the region is enabled. -/
def Obligations.StoredDataIsScrubbed : Prop :=
  ∀ (s : State),
    (s.live = true → ∀ r : Fin 8,
      let w := s.scrubPos r
      let n := s.eccWords r
      let go (t : State) : State :=
        (t.modEcc (fun e => { e with pos := tabSet e.pos r 0 (w + 1) })).wr F.ECC_REGION_STATUS.PROGRESS ((w + 1) * 65536 / n) r
      (∀ (dUp cUp : Nat) (o : Option EObj), s.en uECC = false → exec (.scrubRead r dUp cUp o) s = .next (s.settle s)) ∧
      (s.en uECC = true → s.eccWord r w = none →
        (w + 1 < n → exec (.scrubRead r 0 0 none) s = .next (s.settle (go s))) ∧
        (n ≤ w + 1 → exec (.scrubRead r 0 0 none) s = .next (s.settle
          ((((s.modEcc (fun e => { e with pos := tabSet e.pos r 0 0, beats := tabSet e.beats r 0 0 })).wr F.ECC_REGION_STATUS.LAST_LAP
            (min 65535 ((s.lapBeats r + 1023) / 1024)) r).wr F.ECC_REGION_STATUS.FORCED 0 r).wr F.ECC_REGION_STATUS.PROGRESS 0 r)))) ∧
      (∀ (d : Nat) (o : Option EObj), s.en uECC = true → w + 1 < n → s.eccCode r = 1 → s.eccWord r w = some ⟨d, 0, 0, false, false, none⟩ →
        exec (.scrubRead r 1 0 o) s = .next (s.settle
          (go (((s.setWord r w ⟨d, 1, 0, false, true, o⟩).inc F.ECC_REGION_STATUS.CE_COUNT r).raise .ECC_CE)))) ∧
      (∀ k : Nat,
        ((s.eccWord r k = none ∨ ∃ x : EWord, s.eccWord r k = some x ∧ x.wb = false) →
          exec (.correctedWriteBack r k) s = .next (s.settle s)) ∧
        (∀ x : EWord, s.eccWord r k = some x → x.wb = true → s.on F.ECC_FLIP_CTRL.ARM = false →
          exec (.correctedWriteBack r k) s = .next (s.settle (s.setWord r k ⟨x.data, 0, 0, false, false, x.obj⟩)))) ∧
      ((s.en uECC = false ∨ s.lapBeats r < s.rd F.ECC_SCRUB_CFG.LAP_UNITS * 1024 ∨ s.on F.ECC_REGION_STATUS.FORCED r = true) →
        exec (.eccLapMissed r) s = .next (s.settle s)) ∧
      (s.en uECC = true → s.rd F.ECC_SCRUB_CFG.LAP_UNITS * 1024 ≤ s.lapBeats r → s.on F.ECC_REGION_STATUS.FORCED r = false →
        exec (.eccLapMissed r) s = .next (s.settle ((s.wr F.ECC_REGION_STATUS.FORCED 1 r).raise .ECC_LAP_MISSED)))) ∧
    (∀ (who : Who) (v : Nat), s.serves who .ECC_WIN_SEL 0 = true →
      exec (.eccWinSel who v) s = .next (s.settle
        ((((s.modEcc (fun e => { e with halves := [] })).wr F.ECC_WIN_SEL.RAW (bits v 63 1)).wr F.ECC_WIN_SEL.REGION (bits v 59 3)).wr
          F.ECC_WIN_SEL.PAGE (bits v 0 8)))) ∧
    (∀ (who : Who) (k v : Nat), s.serves who .ECC_WIN k = true → (∀ h ∈ s.ecc.halves, h.1 ≠ who) →
      let r := s.rd F.ECC_WIN_SEL.REGION
      (s.winOffset k = none →
        exec (.eccWinRead ⟨who, true⟩ k) s = .next (s.settle (s.emit (.regValue who 0))) ∧
        exec (.eccWinWrite who k v) s = .next (s.settle (s.raise .REG_ACCESS))) ∧
      exec (.eccWinRead ⟨who, false⟩ k) s = .next (s.settle ((s.raise .REG_ACCESS).emit (.regValue who 0))) ∧
      (∀ (o d : Nat) (x : Option EObj), s.winOffset k = some o → s.on F.ECC_WIN_SEL.RAW = false →
        s.eccWord r (o / codeBytes (s.eccCode r)) = some ⟨d, 0, 0, false, false, x⟩ →
        exec (.eccWinRead ⟨who, true⟩ k) s = .next (s.settle (s.emit (.regValue who (d / 2 ^ (8 * (o % codeBytes (s.eccCode r))) % 2 ^ 64))))) ∧
      (∀ o : Nat, s.winOffset k = some o →
        (s.ownerOn r = true →
          let cb := codeBytes (s.eccCode r)
          let x := (s.eccKnow r (o / cb)).1
          let t := (s.eccKnow r (o / cb)).2
          let held := x.look (s.eccCode r) ≤ 1 ∧ x.data / 2 ^ (8 * (o % cb)) % 2 ^ 64 = v % 2 ^ 64
          (held → exec (.eccWinWrite who k v) s = .next (s.settle t)) ∧
          (¬held → exec (.eccWinWrite who k v) s = .next (s.settle (t.raise .CFG_REJECT)))) ∧
        (s.ownerOn r = false → s.eccCode r ≠ 2 → s.on F.ECC_FLIP_CTRL.ARM = false → exec (.eccWinWrite who k v) s = .next (s.settle
          (s.setWord r (o / 8) ⟨v % 2 ^ 64, 0, 0, false, false, none⟩)))))

/-- What the collector records of an occurrence that nothing replaces (R373, R377, R379, R380): the sticky bit is set, MULTI where it was set already, the
count goes on, LAST_SEV is the severity handled; a free slot that the source holds takes its capture, a used one is marked MULTI. -/
def Obligations.OccurrencesAreRecorded : Prop :=
  ∀ (s : State) (o : Occ), srcAssigned o.src = true → o.src < 480 →
    (s.baseSev o.src ≠ sevMend ∨ s.on F.FLT_SEV.ESC_DIS o.src = true) → s.baseSev o.src < 4 →
    let n := o.src
    let t := s.record false o
    t.sticky n = true ∧ t.rd F.FLT_SEV.COUNT n = satAdd F.FLT_SEV.COUNT.w (s.rd F.FLT_SEV.COUNT n) 1 % 2 ^ F.FLT_SEV.COUNT.w ∧
    t.rd F.FLT_SEV.LAST_SEV n = s.baseSev n ∧
    (s.sticky n = true → t.on F.FLT_SEV.MULTI n = true) ∧
    (∀ k : Nat, n ≠ Src.FLT_SELF.num → s.slotOf n = some k →
      (s.on F.FLT_RICH_META.VALID k = true → t.on F.FLT_RICH_META.MULTI k = true ∧
        t.rd F.FLT_RICH_META.SOURCE k = s.rd F.FLT_RICH_META.SOURCE k ∧ t.rd F.FLT_RICH_BEAT.BEAT k = s.rd F.FLT_RICH_BEAT.BEAT k) ∧
      (s.on F.FLT_RICH_META.VALID k = false → t.on F.FLT_RICH_META.VALID k = true ∧ t.rd F.FLT_RICH_META.SOURCE k = n ∧
        t.rd F.FLT_RICH_META.SEV k = s.baseSev n ∧ t.rd F.FLT_RICH_BEAT.BEAT k = s.beat % 2 ^ F.FLT_RICH_BEAT.BEAT.w)) ∧
    (∀ m : Nat, m / 64 ≠ n / 64 → t.sticky m = s.sticky m) ∧
    t.pins = s.pins ∧ t.out = s.out ∧ t.pending = s.pending

/-- Forced occurrences, the Spillway by key, and the escalation window (R371, R376, R381, R384, R389): FLT_FORCE raises each assigned source of its mask, forced, on
FLT_FORCE_INST, and refuses the others, and where the collector finds a parity error at the access, FLT_SELF is raised before (R387); SPILL enters the Spillway with its key, as software, once; the window clears after its Beats, once the
occurrences before its end have been handled. -/
def Obligations.FaultsForcedAndSpilled : Prop :=
  ∀ (s : State),
    (∀ (who : Who) (w : Fin 8) (v : Nat), s.serves who .FLT_FORCE w = true →
      let inst := s.rd F.FLT_FORCE_INST.INSTANCE
      ∀ e ∈ [(false, s), (true, s.raise .FLT_SELF)],
        (v % 2 ^ 64 = 0 → exec (.fltForce who w ⟨v, e.1⟩) s = .next (s.settle e.2)) ∧
        (∀ b : Fin 64, v % 2 ^ 64 = 2 ^ b.val →
          (srcAssigned (64 * w.val + b.val) = true → exec (.fltForce who w ⟨v, e.1⟩) s = .next (s.settle
            (e.2.raiseOcc ⟨64 * w.val + b.val, inst, 0, 0, 0, false, 0, true⟩))) ∧
          (srcAssigned (64 * w.val + b.val) = false → exec (.fltForce who w ⟨v, e.1⟩) s = .next (s.settle (e.2.raise .CFG_REJECT))))) ∧
    (∀ (who : Who) (key : Nat), s.serves who .FLT_CTRL 0 = true → s.fits who .FLT_CTRL 0 = true →
      (key % 256 ≠ 0xA5 → exec (.spill who key) s = .next (s.settle (s.raise .CFG_REJECT))) ∧
      (key % 256 = 0xA5 → exec (.spill who key) s = .next (s.settle
        (((((s.wr F.FLT_STATUS.SPILLWAY 1).wr F.FLT_STATUS.SPILL_SOURCE 0).wr F.FLT_STATUS.SW_SPILL 1).wr F.FLT_STATUS.SELF 0).post
          .spillway)))) ∧
    (s.live = true →
      (s.escBeats < s.rd F.FLT_THRESH.ESC_WINDOW → exec .escWindowRestart s = .next (s.settle s)) ∧
      (0 < s.rd F.FLT_THRESH.ESC_WINDOW → s.rd F.FLT_THRESH.ESC_WINDOW ≤ s.escBeats → exec .escWindowRestart s = .next (s.settle
        { s.collectNow.clearWindows with escBeats := s.escBeats % s.rd F.FLT_THRESH.ESC_WINDOW })))

/-- Power states, regulators and wear (R390 to R393, R399, R403, R404): the deepest allowed state is entered where it is deeper and PWR is enabled, in P3 and P4 with the attachments that are up and enabled for L1 in L1; a wake cause
ungates its bay in P1 and starts the exit of a deeper state, whose end ungates everything and performs what waited for it, in order (R393); a
regulator fault holds the island at its last good
voltage; a Grain sample is due once in 65,536 Beats, and its input 3 is the repairs that BIST made, per mille of the spare elements (R415). -/
def Obligations.PowerStatesAndWear : Prop :=
  ∀ (s : State), s.live = true →
    ((s.en uPWR = false ∨ s.exiting = true ∨ s.deepest ≤ s.pState ∨ s.pState = 4) → exec .powerStateEntry s = .next (s.settle s)) ∧
    (s.en uPWR = true → s.exiting = false → s.pState < s.deepest → s.pState < 4 →
      (s.deepest < 3 → exec .powerStateEntry s = .next (s.settle ((s.wr F.PWR_STATE.STATE s.deepest).modPwr (fun p => { p with
        gated := if s.deepest = 1 then 65535 - p.bays % 65536 else 65535 })))) ∧
      (3 ≤ s.deepest → let (l1, t) := s.pick 16
        exec .powerStateEntry s = .next (s.settle ((t.wr F.PWR_STATE.STATE s.deepest).modPwr (fun p => { p with
          gated := 65535,
          l1 := (((bitsSet 4 l1).filter (fun a => s.pfExists a && s.linkUpPf a)).map (fun a => 2 ^ a)).sum }))))) ∧
    (∀ bay : Option (Fin 16), s.pState = 0 → exec (.wakeCause bay) s = .next (s.settle s)) ∧
    (s.pState = 1 → exec (.wakeCause none) s = .next (s.settle s)) ∧
    (∀ b : Fin 16, s.pState = 1 → exec (.wakeCause (some b)) s = .next (s.settle (s.modPwr (fun p => { p with gated := clrBit p.gated b })))) ∧
    (∀ bay : Option (Fin 16), 1 < s.pState → exec (.wakeCause bay) s = .next (s.settle (s.wr F.PWR_STATE.EXITING 1))) ∧
    (s.exiting = false → exec .wakeComplete s = .next (s.settle s)) ∧
    (s.exiting = true → exec .wakeComplete s = .next (s.settle
      (foldS s.pwr.waits (((s.wr F.PWR_STATE.EXITING 0).wr F.PWR_STATE.STATE 0).modPwr (fun p => { p with gated := 0, l1 := 0, waits := [] }))
        State.perform))) ∧
    (∀ i : Fin 4, exec (.pwrVrFault i) s = .next (s.settle
      ((s.modPwr (fun p => { p with isl := tabSet p.isl i (island i).1 (tabGetD p.good i (island i).1) })).raise .PWR_VR_FAULT i))) ∧
    (∀ (rs : List (Option Nat)) (day : Bool),
      ((s.en uGRN = false ∨ s.grn.since < 65536) → exec (.grainSample rs day) s = .next (s.settle s)) ∧
      (s.en uGRN = true → 65536 ≤ s.grn.since →
        let t1 := foldS (List.range 5) (s.modGrn (fun g => { g with since := 0 })) (fun t i => t.grainInput i
          ((rs.getD i none).map (fun v => if i = 3 then 1000 * t.grn.repairs / Config.spareElements else v)) day)
        let low := match rs.getD 3 none with
          | some _ => decide (750 ≤ 1000 * t1.grn.repairs / Config.spareElements)
          | none => t1.grn.spares
        let t2 := t1.modGrn (fun g => { g with spares := low })
        exec (.grainSample rs day) s = .next (s.settle
          (if low = true ∧ t1.grn.spares = false then t2.raise .GRN_SPARES_LOW else t2).grainReport)))

/-- The pins (R407, R409, R418, R422, R432, R450): PWROK falling resets everything but the flash, the fuses and the pins; rising, it samples the straps
and starts with ROM. WARM_RST_L asserted holds a boot that has reached BIST or LOAD in RESET with its pushed image, starts a device reset of a device
that runs, and does nothing else in the Spillway; its release lets a device in RESET go on, which begins BIST once no port still sends FENCE flits. -/
def Obligations.PinsBootAndReset : Prop :=
  ∀ (s : State),
    (∃ t : State, exec .pwrokFall s = .next t ∧ t.pins = { s.pins with pwrok := false } ∧ t.atReset ∧ t.trs.flash = s.trs.flash ∧
      t.trs.keys = s.trs.keys ∧ t.trs.floor = s.trs.floor ∧ t.trs.img = none ∧ t.trs.pushed = none ∧ t.pending = s.pending) ∧
    (∀ h a : Fin 4,
      (s.pins.pwrok = true → exec (.pwrokRise h a) s = .next s) ∧
      (s.pins.pwrok = false → exec (.pwrokRise h a) s = .next
        ({ s with pins := { s.pins with pwrok := true }, boot := { s.boot with hostBif := h, smbAddr := a } }.wr
          F.GLB_BOOT_STATUS.PHASE phRom))) ∧
    (let warm : State := { s with pins := { s.pins with warm := true } };
      (s.pins.pwrok = false → exec .warmRstLAssert s = .next warm) ∧
      (s.pins.pwrok = true → (s.spill = true ∨ s.phase = phReset ∨ s.phase = phRom ∨ s.phase = phFirmware) →
        exec .warmRstLAssert s = .next (warm.settle warm)) ∧
      (s.live = true → exec .warmRstLAssert s = .next ((warm.deviceEntry 1).settle (warm.deviceEntry 1)) ∧
        (warm.deviceEntry 1).rd F.GLB_RESET_CAUSE.CAUSE = 1 ∧ (warm.deviceEntry 1).phase = phReset ∧
        (warm.deviceEntry 1).hif.ctx = [] ∧ (warm.deviceEntry 1).peg = [] ∧ (warm.deviceEntry 1).shadow = []) ∧
      (s.pins.pwrok = true → s.spill = false → (s.phase = phBist ∨ s.phase = phLoad) →
        let t : State := { warm with trs := { s.trs with pushed := if s.trs.pushed.isSome then s.trs.pushed else s.trs.cand, cand := none } }.wr
          F.GLB_BOOT_STATUS.PHASE phReset
        exec .warmRstLAssert s = .next (t.settle t))) ∧
    (let free : State := { s with pins := { s.pins with warm := false } };
      let fences := ∃ p : Port, s.lnkState p = lnkFencing;
      (s.pins.pwrok = false → exec .warmRstLRelease s = .next free) ∧
      (s.pins.pwrok = true → exec .warmRstLRelease s = .next (free.settle free)) ∧
      (s.pins.pwrok = true → s.spill = false → s.phase = phReset →
        (¬ fences → free.rest = (free.wr F.GLB_BOOT_STATUS.PHASE phBist).mbWaits) ∧
        (fences → free.rest = free.mbWaits)))

/-- The phases of boot (R48, R409, R411 to R416): each ends only itself. ROM reports what it found and goes on to FIRMWARE; FIRMWARE takes the first slot that
passes, else RECOVERY; BIST contains what cannot be repaired; LOAD applies the first image that passes, or none, and the units
that it enables run, unless what an image raised entered the Spillway. The watchdog restarts a running Foreman. That ROM always goes on to FIRMWARE, also after
GLB_FUSE or GLB_CORE_PLL, and that the Foreman's restart selects the slot again, is DEDUCED (log entry 52). -/
def Obligations.BootPhasesFollow : Prop :=
  ∀ (s : State), s.pins.pwrok = true →
    (∀ fuse pll parity : Bool,
      (s.phase ≠ phRom → exec (.rom fuse pll parity) s = .next (s.settle s)) ∧
      (s.phase = phRom →
        let t1 := if pll then s else s.raise .GLB_CORE_PLL
        let t2 := if parity then t1.raise .GLB_CFGNET else t1
        let t3 := if fuse then t2 else t2.raise .GLB_FUSE
        exec (.rom fuse pll parity) s = .next (s.settle (t3.wr F.GLB_BOOT_STATUS.PHASE phFirmware)))) ∧
    (let run (s : State) (k : Nat) : State := ((s.wr F.GLB_BOOT_STATUS.FW_SLOT k).wrFmn F.FMN_INFO.STATE fmRunning).wrFmn F.FMN_INFO.FW_VERSION
        (leNat (s.flashRead (0x200000 * k + 16) 4));
      let next := if s.pins.warm then phReset else phBist;
      let none' := (s.raise .FMN_FW_REJECT).raise .FMN_FW_REJECT;
      let recover := ((none'.wr F.GLB_BOOT_STATUS.FW_SLOT 2).wrFmn F.FMN_INFO.STATE fmRecovery).wrFmn F.FMN_INFO.FW_VERSION 0;
      (s.phase ≠ phFirmware → exec .firmware s = .next (s.settle s)) ∧
      (s.phase = phFirmware →
        (s.fwOk 0 = true → exec .firmware s = .next (s.settle ((run s 0).wr F.GLB_BOOT_STATUS.PHASE next))) ∧
        (s.fwOk 0 = false → s.fwOk 1 = true → exec .firmware s = .next (s.settle
          ((run (s.raise .FMN_FW_REJECT) 1).wr F.GLB_BOOT_STATUS.PHASE next))) ∧
        (s.fwOk 0 = false → s.fwOk 1 = false → exec .firmware s = .next (s.settle (recover.wr F.GLB_BOOT_STATUS.PHASE next)))) ∧
      (s.rd F.FMN_INFO.STATE ≠ fmRestarting → exec .foremanRestartDone s = .next (s.settle s)) ∧
      (s.rd F.FMN_INFO.STATE = fmRestarting →
        let ends (t : State) : State := if s.phase ≠ phRunning ∧ s.spill = false then t else t.setBusy uFMN false
        (s.fwOk 0 = true → exec .foremanRestartDone s = .next (s.settle (ends (run s 0)))) ∧
        (s.fwOk 0 = false → s.fwOk 1 = true → exec .foremanRestartDone s = .next (s.settle (ends (run (s.raise .FMN_FW_REJECT) 1)))) ∧
        (s.fwOk 0 = false → s.fwOk 1 = false → exec .foremanRestartDone s = .next (s.settle (ends recover)))) ∧
      (s.rd F.FMN_INFO.STATE ≠ fmRunning → exec .watchdogExpire s = .next (s.settle s)) ∧
      (s.rd F.FMN_INFO.STATE = fmRunning → exec .watchdogExpire s = .next (s.settle
        (((s.wrFmn F.FMN_INFO.STATE fmRestarting).raise .FMN_RESTART).pegForemanReset)))) ∧
    (∀ repairs bad bays : Nat,
      ((s.phase ≠ phBist ∨ s.spill = true) → exec (.bist repairs bad bays) s = .next (s.settle s)) ∧
      (s.phase = phBist → s.spill = false →
        let us := (((bitsSet 8 bad).flatMap bistUnits).eraseDups).filter (fun u => s.fitted u)
        let ns := (bitsSet 16 bays).filter (fun n => s.fitted (24 + n))
        let t1 : State := { s with ecc := Ecc.init, enginesDown := [], boot := { s.boot with contained := 0 } }
        let t2 := (t1.wr F.GLB_BOOT_STATUS.REPAIRS (min repairs 255)).wr F.GLB_BOOT_STATUS.BAD_BAYS ((ns.map (fun n => 2 ^ n)).sum)
        let t3 := foldS (us ++ ns.map (fun n => 24 + n)) t2 (fun t i => (t.raise .GLB_BIST_FAIL i).containUnit i)
        exec (.bist repairs bad bays) s = .next (s.settle
          ({ t3 with grn := { t3.grn with repairs := repairs }, trs := { t3.trs with cand := t3.trs.pushed, pushed := none } }.wr
            F.GLB_BOOT_STATUS.PHASE phLoad)))) ∧
    (∀ ms : Nat,
      ((s.phase ≠ phLoad ∨ s.spill = true) → exec (.load ms) s = .next (s.settle s)) ∧
      (s.phase = phLoad → s.spill = false →
        let full : List (Nat × Nat × Bytes) := match s.trs.cand with
          | some b => [(orgFull, 3, b)]
          | none => []
        let tried := s.tryImages (full ++ [(orgSlot0, 1, s.slotBytes 0), (orgSlot1, 2, s.slotBytes 1)])
        let t : State := { tried.2 with trs := { tried.2.trs with cand := none } }
        (t.spill = true → exec (.load ms) s = .next (s.settle t)) ∧
        (t.spill = false → tried.1 = none → exec (.load ms) s = .next (s.settle ((t.wr F.TRS_STATUS.STATE 1).enterRunning ms).endAbsorbed)) ∧
        (∀ (i : Img) (source : Nat), t.spill = false → tried.1 = some (i, source) →
          exec (.load ms) s = .next (s.settle ((t.loadImage i source).enterRunning ms).endAbsorbed))))

/-- Resets asked for while the device runs, and what else boot watches (R74, R411, R417 to R421, R424, Table 15.13): a device reset needs its
key; a unit reset of units that have none is refused, of an absent unit absent, and another makes the unit BUSY, drops its staged values and
its ENABLE and clears its state, or restarts the Foreman, until it is complete, when an enabled unit is enabled again (a port whose lanes are
ACTIVE then starts its link: DESIGN CHOICE, log entry 141); one that a reset or boot
in progress absorbs completes with that; a port reset resets each port of its mask.
ROUTES_READY is set once. A check of a flash slot runs until it is complete. -/
def Obligations.ResetsWhileRunning : Prop :=
  ∀ (s : State) (who : Who) (v : Nat),
    (s.serves who .GLB_DEVICE_RESET 0 = true →
      (bit v 0 = false → exec (.glbDeviceReset who v) s = .next (s.settle s)) ∧
      (bit v 0 = true → bits v 56 8 ≠ 0x5A → exec (.glbDeviceReset who v) s = .next (s.settle (s.raise .CFG_REJECT))) ∧
      (bit v 0 = true → bits v 56 8 = 0x5A → exec (.glbDeviceReset who v) s = .next (s.settle (s.deviceEntry 2)))) ∧
    (s.serves who .GLB_UNIT_RESET 0 = true →
      (v % 2 ^ 19 = 0 → exec (.glbUnitReset who v) s = .next (s.settle s)) ∧
      (∀ u : Fin 19, v % 2 ^ 19 = 2 ^ u.val →
        (s.fitted u.val = true → (u.val = 0 ∨ u.val = 2 ∨ u.val = 15) →
          exec (.glbUnitReset who v) s = .next (s.settle (s.raise .CFG_REJECT))) ∧
        (s.fitted u.val = false → u.val ≠ 0 → u.val ≠ 2 → u.val ≠ 15 →
          exec (.glbUnitReset who v) s = .next (s.settle (s.raise .CFG_ABSENT))) ∧
        (s.fitted u.val = true → u.val ≠ 0 → u.val ≠ 2 → u.val ≠ 15 → s.unitBusy (unitNorm u.val) = true →
          exec (.glbUnitReset who v) s = .next (s.settle s)) ∧
        (s.fitted u.val = true → u.val ≠ 0 → u.val ≠ 2 → u.val ≠ 15 → u.val ≠ uFMN → s.unitBusy (unitNorm u.val) = false →
          let n := unitNorm u.val
          let t := (s.setBusy n true).dropShadow (groupOfUnit n)
          let t := t.wr F.BEA_COMMIT_HOLD.HOLD (clrBit (t.rd F.BEA_COMMIT_HOLD.HOLD) (groupOfUnit n))
          let t := match enableFld n with
            | some f => t.wr f 0
            | none => t
          exec (.glbUnitReset who v) s = .next (s.settle (s.rejectOnce (t.unitClear n)))) ∧
        (u.val = uFMN → s.fitted uFMN = true → s.unitBusy uFMN = false →
          let t := (s.setBusy uFMN true).dropShadow (groupOfUnit uFMN)
          let t := t.wr F.BEA_COMMIT_HOLD.HOLD (clrBit (t.rd F.BEA_COMMIT_HOLD.HOLD) (groupOfUnit uFMN))
          exec (.glbUnitReset who v) s = .next (s.settle (s.rejectOnce t.foremanRestart))))) ∧
    (s.serves who .GLB_PORT_RESET 0 = true →
      (v % 2 ^ 64 = 0 → exec (.glbPortReset who v) s = .next (s.settle s)) ∧
      (∀ p : Port, v % 2 ^ 64 = 2 ^ p.val → exec (.glbPortReset who v) s = .next (s.settle (s.rejectOnce (s.portReset p))))) ∧
    (s.serves who .GLB_BOOT_CTRL 0 = true →
      (s.rd F.GLB_BOOT_CTRL.ROUTES_READY = 0 → exec (.routesReady who false) s = .next (s.settle s) ∧
        exec (.routesReady who true) s = .next (s.settle (s.rejectOnce (s.wr F.GLB_BOOT_CTRL.ROUTES_READY 1).grantAll))) ∧
      (s.rd F.GLB_BOOT_CTRL.ROUTES_READY = 1 → exec (.routesReady who true) s = .next (s.settle s) ∧
        exec (.routesReady who false) s = .next (s.settle (s.raise .CFG_REJECT)))) ∧
    (s.serves who .TRS_SLOT_CHECK 0 = true →
      (v / 2 ^ 18 % 4 = 0 → exec (.trsSlotCheck who v) s = .next (s.settle s)) ∧
      (∀ k : Fin 2, v / 2 ^ 18 % 4 = 2 ^ k.val → exec (.trsSlotCheck who v) s = .next (s.settle
        (s.wr F.TRS_SLOT_CHECK.BUSY (setBit (s.rd F.TRS_SLOT_CHECK.BUSY) k))))) ∧
    (s.pins.pwrok = true →
      (∀ k : Fin 2,
        (bit (s.rd F.TRS_SLOT_CHECK.BUSY) k = false → exec (.slotCheckComplete k) s = .next (s.settle s)) ∧
        (bit (s.rd F.TRS_SLOT_CHECK.BUSY) k = true → ∃ n : Nat,
          exec (.slotCheckComplete k) s = .next (s.settle
            ((s.wr (if k.val = 0 then F.TRS_SLOT_CHECK.SLOT0_CHECK else F.TRS_SLOT_CHECK.SLOT1_CHECK) n).wr F.TRS_SLOT_CHECK.BUSY
              (clrBit (s.rd F.TRS_SLOT_CHECK.BUSY) k))) ∧
          (∀ i : Img, (checkImage (s.chkEnv 1048576) false (s.slotBytes k)).1 = .ok i → n = 0) ∧
          (∀ e : Reject, (checkImage (s.chkEnv 1048576) false (s.slotBytes k)).1 = .error e → n = e.check))) ∧
      (∀ u : Fin 19,
        ((s.unitBusy (unitNorm u.val) = false ∨ unitNorm u.val = uFMN ∨ (s.phase ≠ phRunning ∧ s.spill = false)) → exec (.unitResetComplete u) s = .next (s.settle s)) ∧
        (s.unitBusy (unitNorm u.val) = true → unitNorm u.val ≠ uFMN → (s.phase = phRunning ∨ s.spill = true) →
          let t := s.setBusy (unitNorm u.val) false
          ((t.unitImaged (unitNorm u.val) = true ∧ t.isContained (unitNorm u.val) = false ∧ t.spill = false) →
            exec (.unitResetComplete u) s = .next (s.settle (t.unitOn (unitNorm u.val)))) ∧
          ((t.unitImaged (unitNorm u.val) = false ∨ t.isContained (unitNorm u.val) = true ∨ t.spill = true) →
            exec (.unitResetComplete u) s = .next (s.settle t)))) ∧
      (∀ parity : Bool,
        let net (t : State) : State := if parity then t.raise .GLB_CFGNET else t
        exec (.corePllUnlock parity) s = .next (s.settle (net (s.raise .GLB_CORE_PLL))) ∧
        (s.boot.fuseBeats < 1048576 → ∀ ok : Bool, exec (.fuseRead ok parity) s = .next (s.settle s)) ∧
        (1048576 ≤ s.boot.fuseBeats →
          let t := s.modBoot (fun b => { b with fuseBeats := 0 })
          exec (.fuseRead true parity) s = .next (s.settle (net t)) ∧
          exec (.fuseRead false parity) s = .next (s.settle (net (t.raise .GLB_FUSE))))))

/-- Requests that read (R46, R385, R424, R448, Table 15.9): the Foreman answers with what Table 15.9 gives, over MCTP in one message with the request's TAG and
the response flag; what stands before the message is DEDUCED (log entry 133). An access that reaches the fault collector is checked, and a parity
error raises FLT_SELF (R387); one that reaches what a power state gates waits for the wake (R393). A range of REG_READ or an offset of REG_WRITE outside BAR0 is a bad argument (DESIGN CHOICE of a DEDUCED reading, log entry 47); in
RECOVERY a REG_WRITE reaches only what stays available. A fifth outstanding request, or a TAG in use, is answered BUSY. -/
def Obligations.MailboxReadsAndWrites : Prop :=
  ∀ (s : State) (who : Mbx) (tag : Nat),
    (s.asks who tag = true →
      let a := s.asked who tag
      let h (cmd : Nat) (payload : Bytes) : Held := ⟨who, tag, mbxMsg cmd 0 tag 0 payload, true⟩
      exec (.ident who tag) s = .next (s.mbEnd (a.mbxAnswer (h 0x01 []) mbOk
        (a.mbWords [(.GLB_IDENT, 0), (.GLB_FITTED, 0), (.GLB_BOOT_STATUS, 0)] ++ leBytes 8 (a.word .FMN_INFO 0 0)))) ∧
      exec (.telemetry who tag) s = .next (s.mbEnd (a.mbxAnswer (h 0x04 []) mbOk
        (a.mbWords [(.PWR_POWER, 0), (.PWR_TEMP, 0), (.PWR_STATE, 0), (.PWR_AVS, 0), (.PWR_AVS, 1), (.PWR_AVS, 2), (.PWR_AVS, 3)]))) ∧
      (let c := a.pick 16384;
       let u := c.2.pick 16;
       let t := (u.2.wrI F.BEA_PHASE.CYCLE 4 0 c.1).wrI F.BEA_PHASE.SUB 4 0 u.1;
       exec (.beatRead who tag) s = .next (s.mbEnd (t.mbxAnswer (h 0x05 []) mbOk
         (t.mbWords [(.BEA_COUNT, 0), (.BEA_PHASE, 0), (.BEA_STATUS, 0)])))) ∧
      (∀ (off n : Nat) (p : Bool), off < 2 ^ 64 → n < 2 ^ 32 →
        let h : Held := { h 0x02 (leBytes 8 off ++ leBytes 4 n) with blown := !p }
        let gated := ∃ k : Nat, k < 16 ∧ k < n ∧ a.locGated (pfLoc (off + 8 * k)) = true
        let m := if p = true ∧ (List.range n).any (fun k => (off + 8 * k) / 0x100000 == 13) = true then a.raise .FLT_SELF else a
        let held := a.modBoot (fun b => { b with held := [h] })
        (gated → exec (.regRead who tag ⟨off, p⟩ n) s = .next (s.settle held) ∧ held.mbReady = false) ∧
        (¬ gated →
          ((n = 0 ∨ 16 < n ∨ 0x4000000 < off + 8 * n) →
            exec (.regRead who tag ⟨off, p⟩ n) s = .next (s.mbEnd (a.mbxAnswer h mbBadArg []))) ∧
          (0 < n → n ≤ 16 → off + 8 * n ≤ 0x4000000 → exec (.regRead who tag ⟨off, p⟩ n) s = .next (s.mbEnd
            ((m.mbRead off n).2.mbxAnswer h mbOk (m.mbRead off n).1))))) ∧
      (∀ (off v : Nat) (p : Bool), off < 2 ^ 64 → v < 2 ^ 64 →
        let h : Held := { h 0x03 (leBytes 8 off ++ leBytes 8 v) with blown := !p }
        let m := if p = true ∧ off / 0x100000 = 13 then a.raise .FLT_SELF else a
        let t := m.sharedWrite .mailbox off v
        let held := a.modBoot (fun b => { b with held := [h] })
        (a.locGated (pfLoc off) = true → exec (.regWrite who tag ⟨off, p⟩ v) s = .next (s.settle held) ∧ held.mbReady = false) ∧
        (a.locGated (pfLoc off) = false →
          (0x4000000 ≤ off → exec (.regWrite who tag ⟨off, p⟩ v) s = .next (s.mbEnd (a.mbxAnswer h mbBadArg []))) ∧
          (off < 0x4000000 → a.recovery = true → a.spill = false → r388 off = false →
            exec (.regWrite who tag ⟨off, p⟩ v) s = .next (s.mbEnd (a.mbxAnswer h mbNot []))) ∧
          (off < 0x4000000 → (a.recovery = false ∨ a.spill = true ∨ r388 off = true) →
            exec (.regWrite who tag ⟨off, p⟩ v) s = .next (s.mbEnd (t.mbxAnswer h mbOk (leBytes 8 (t.valueAt off)))))))) ∧
    (∀ e : Nat, who = .mctp e → s.pins.pwrok = true → tag < 65536 →
      (4 ≤ (s.boot.outstanding.filter (fun o => o.1 == who)).length ∨ (who, tag) ∈ s.boot.outstanding) →
      exec (.ident who tag) s = .next (s.settle (s.emit (.mbxResp who
        ([0x7F, 0x00, 0xF1, 0xA0, 0xA1] ++ mbxMsg 0x01 1 tag mbBusy [])))))

/-- Requests that act (R115, R349, R351, R388, R389, R418, R420 to R422, R425, Table 15.9): SPILL with its key enters the Spillway; UNIT_RESET with a bit that has no reset is
a bad argument, and is answered when its units are reset, or when the reset that absorbs it ends, and PORT_RESET at once (when they are
answered is DEDUCED, log entry 48, but for what is absorbed, R422); LANE_POWER takes a power down in every state;
DEVICE_RESET is answered, then resets; the Foreman takes and releases a Peg as owner 0x1000; PEG_SUPERVISOR is written through the
sideband alone. In RECOVERY and in the Spillway the requests of Table 15.9 that need the running device are refused. -/
def Obligations.MailboxRequestsAct : Prop :=
  ∀ (s : State) (who : Mbx) (tag m : Nat), s.asks who tag = true → m < 2 ^ 64 →
    let a := s.asked who tag
    let h (cmd : Nat) (payload : Bytes) : Held := ⟨who, tag, mbxMsg cmd 0 tag 0 payload, true⟩
    let off := a.spill = true ∨ a.recovery = true
    (let h := h 0x06 (leBytes 1 m);
     (m = 0xA5 → exec (.mailboxSpill who tag m) s = .next (s.mbEnd ((a.enterSpill 0 true false).mbxAnswer h mbOk []))) ∧
     (m < 256 → m ≠ 0xA5 → exec (.mailboxSpill who tag m) s = .next (s.mbEnd ((a.raise .CFG_REJECT).mbxAnswer h mbBadArg [])))) ∧
    (let h := h 0x07 (leBytes 8 m);
     let t := a.unitResets m;
     ((2 ^ 19 ≤ m ∨ bit m 0 = true ∨ bit m 2 = true ∨ bit m 15 = true) →
       exec (.unitReset who tag m) s = .next (s.mbEnd (a.mbxAnswer h mbBadArg []))) ∧
     (m < 2 ^ 19 → bit m 0 = false → bit m 2 = false → bit m 15 = false → t.resetting = true → t.spill = false →
       exec (.unitReset who tag m) s = .next (s.mbEnd (t.modBoot (fun b => { b with absorbed := b.absorbed ++ [h] })))) ∧
     (m < 2 ^ 19 → bit m 0 = false → bit m 2 = false → bit m 15 = false → (t.resetting = false ∨ t.spill = true) →
       exec (.unitReset who tag m) s = .next (s.mbEnd (t.modBoot (fun b => { b with unitWait := b.unitWait ++ [(h, m)] }))))) ∧
    (let h := h 0x08 (leBytes 8 m);
     let t := foldS (bitsSet 64 m) a (fun s p => s.portReset p);
     (a.resetting = true → a.spill = false →
       exec (.portReset who tag m) s = .next (s.mbEnd (a.modBoot (fun b => { b with absorbed := b.absorbed ++ [h] })))) ∧
     ((a.resetting = false ∨ a.spill = true) → (t.resetting = false ∨ t.spill = true) → exec (.portReset who tag m) s = .next (s.mbEnd (t.mbxAnswer h mbOk [])))) ∧
    (∀ down : Nat, down < 256 →
      let h := h 0x09 (leBytes 8 m ++ leBytes 1 down)
      (1 < down → exec (.lanePower who tag m down) s = .next (s.mbEnd (a.mbxAnswer h mbBadArg []))) ∧
      (down = 1 → exec (.lanePower who tag m down) s = .next (s.mbEnd
        ((foldS ((bitsSet 64 m).filter (fun p => a.resetting || a.portRole p != 0)) a (fun s p => s.powerDown p)).mbxAnswer h mbOk []))) ∧
      (down = 0 → off → exec (.lanePower who tag m down) s = .next (s.mbEnd (a.mbxAnswer h mbNot []))) ∧
      (down = 0 → ¬ off → a.resetting = true → exec (.lanePower who tag m down) s = .next (s.mbEnd (a.mbxAnswer h mbOk []))) ∧
      (down = 0 → ¬ off → a.resetting = false → exec (.lanePower who tag m down) s = .next (s.mbEnd
        ((foldS ((bitsSet 64 m).filter (fun p => a.portRole p != 0)) a (fun s p => s.powerUp p)).mbxAnswer h mbOk [])))) ∧
    (let t := a.mbxAnswer (h 0x0A []) mbOk [];
     (off → exec (.deviceReset who tag) s = .next (s.mbEnd (a.mbxAnswer (h 0x0A []) mbNot []))) ∧
     (¬ off → t.resetting = true → exec (.deviceReset who tag) s = .next (s.mbEnd t)) ∧
     (¬ off → t.live = true → exec (.deviceReset who tag) s = .next (s.mbEnd (t.deviceEntry 3)))) ∧
    (∀ i : Nat, i < 65536 →
      let ht := h 0x28 (leBytes 2 i)
      let hr := h 0x29 (leBytes 2 i)
      (off → exec (.mailboxPegTake who tag i) s = .next (s.mbEnd (a.mbxAnswer ht mbNot [])) ∧
        exec (.mailboxPegRelease who tag i) s = .next (s.mbEnd (a.mbxAnswer hr mbNot []))) ∧
      (¬ off → 4096 ≤ i → exec (.mailboxPegTake who tag i) s = .next (s.mbEnd (a.mbxAnswer ht mbBadArg [])) ∧
        exec (.mailboxPegRelease who tag i) s = .next (s.mbEnd (a.mbxAnswer hr mbBadArg []))) ∧
      (∀ (g : Nat) (ab fo : Bool), ¬ off → i < 4096 → a.en uPEG = true → a.pg i = ⟨none, g, ab, fo, []⟩ →
        exec (.mailboxPegTake who tag i) s = .next (s.mbEnd
          ((a.setPg i ⟨some 0x1000, (g + 1) % 2 ^ 32, false, false, []⟩).mbxAnswer ht mbOk
            (leBytes 8 (pegWord 1 ab fo 0x1000 0 ((g + 1) % 2 ^ 32)))))) ∧
      (¬ off → i < 4096 → (a.pg i).holder ≠ some 0x1000 →
        exec (.mailboxPegRelease who tag i) s = .next (s.mbEnd ((a.raise .PEG_NOT_OWNER).mbxAnswer hr mbOk []))) ∧
      (¬ off → i < 4096 → (a.pg i).holder = some 0x1000 → (a.pg i).waiters = [] →
        exec (.mailboxPegRelease who tag i) s = .next (s.mbEnd ((a.setPg i { a.pg i with holder := none }).mbxAnswer hr mbOk [])))) ∧
    (let h := h 0x2A (leBytes 1 m);
     (∀ p : Fin 4, who = .window p → exec (.pegSupervisor who tag m) s = .next (s.mbEnd (a.mbxAnswer h mbRefused []))) ∧
     (∀ e : Nat, who = .mctp e →
       (off → exec (.pegSupervisor who tag m) s = .next (s.mbEnd (a.mbxAnswer h mbNot []))) ∧
       (¬ off → 16 ≤ m → m < 256 → exec (.pegSupervisor who tag m) s = .next (s.mbEnd (a.mbxAnswer h mbBadArg []))) ∧
       (¬ off → m < 16 → a.serves .mailbox .PEG_SUPERVISOR 0 = true → m ≠ a.rd F.PEG_SUPERVISOR.MASK →
         exec (.pegSupervisor who tag m) s = .next (s.mbEnd ((a.wr F.PEG_SUPERVISOR.MASK m).mbxAnswer h mbOk [])))))

/-- Flash and fuses (R70, R71, R74, R413, R424, Tables 15.3 and 15.9): reads and writes beyond the flash, and an erase that is not of a block, are bad arguments; the running slot
and the reserved part are refused; a write clears bits; an erase is answered when it is done and leaves ones. A key slot takes its hash once, a slot whose
key signed the image is not revoked, the floor does not fall and does not pass the image or the firmware in force; the fuses are written only through the
sideband. That another hash for a programmed slot is answered with STATUS 6, and that fuses which read back wrong hold a free value, is DEDUCED
(log entry 53). SLOT_CHECK answers the check that fails. -/
def Obligations.FlashAndFusesHold : Prop :=
  ∀ (s : State) (who : Mbx) (tag : Nat) (blown : Bool), s.asks who tag = true →
    let a := s.asked who tag
    let h (cmd : Nat) (payload : Bytes) : Held := ⟨who, tag, mbxMsg cmd 0 tag 0 payload, true⟩
    let hb (cmd : Nat) (payload : Bytes) : Held := ⟨who, tag, mbxMsg cmd 0 tag 0 payload, blown⟩
    (∀ o n : Nat, o < 2 ^ 32 → n < 2 ^ 32 →
      let hr := h 0x10 (leBytes 4 o ++ leBytes 4 n)
      ((n = 0 ∨ 1008 < n ∨ 0x800000 < o + n) → exec (.flashRead who tag o n) s = .next (s.mbEnd (a.mbxAnswer hr mbBadArg []))) ∧
      (0 < n → n ≤ 1008 → o + n ≤ 0x800000 → exec (.flashRead who tag o n) s = .next (s.mbEnd (a.mbxAnswer hr mbOk (a.flashRead o n))))) ∧
    (∀ o : Nat, o < 2 ^ 32 →
      let he := h 0x11 (leBytes 4 o)
      ((o % 65536 ≠ 0 ∨ 0x800000 ≤ o) → exec (.flashErase who tag o) s = .next (s.mbEnd (a.mbxAnswer he mbBadArg []))) ∧
      (o % 65536 = 0 → o < 0x800000 → a.flashRefused o = true →
        exec (.flashErase who tag o) s = .next (s.mbEnd (a.mbxAnswer he mbRefused []))) ∧
      (o % 65536 = 0 → o < 0x800000 → a.flashRefused o = false →
        exec (.flashErase who tag o) s = .next (s.mbEnd (a.modBoot (fun b => { b with flashBusy := some he })))) ∧
      (∀ d : Bytes, 0 < d.length → d.length ≤ 1000 →
        let hw := h 0x12 (leBytes 4 o ++ d)
        (0x800000 < o + d.length → exec (.flashWrite who tag o d) s = .next (s.mbEnd (a.mbxAnswer hw mbBadArg []))) ∧
        (o + d.length ≤ 0x800000 → (a.flashRefused o = true ∨ a.flashRefused (o + d.length - 1) = true) →
          exec (.flashWrite who tag o d) s = .next (s.mbEnd (a.mbxAnswer hw mbRefused []))) ∧
        (o + d.length ≤ 0x800000 → a.flashRefused o = false → a.flashRefused (o + d.length - 1) = false →
          (exec (.flashWrite who tag o d) s = .next (s.mbEnd ((a.flashProgram o d).mbxAnswer hw mbOk []))) ∧
          (∀ v : Byte, d = [v] → a.flashByte o &&& v = v → a.flashProgram o d = a.flashPut o [v])))) ∧
    (∀ k : Nat, k < 256 →
      let hc := h 0x13 (leBytes 1 k)
      (1 < k → exec (.slotCheck who tag k) s = .next (s.mbEnd (a.mbxAnswer hc mbBadArg []))) ∧
      (∀ i : Img, k ≤ 1 → (checkImage (a.chkEnv 1048576) false (a.slotBytes k)).1 = .ok i →
        exec (.slotCheck who tag k) s = .next (s.mbEnd (a.mbxAnswer hc mbOk (leBytes 1 0)))) ∧
      (∀ e : Reject, k ≤ 1 → (checkImage (a.chkEnv 1048576) false (a.slotBytes k)).1 = .error e →
        exec (.slotCheck who tag k) s = .next (s.mbEnd (a.mbxAnswer hc mbOk (leBytes 1 e.check))))) ∧
    (∀ (k : Nat) (hash : Bytes), k < 256 → hash.length = 48 →
      let hk := hb 0x20 (leBytes 1 k ++ hash)
      let hv := hb 0x21 (leBytes 1 k)
      let hf := hb 0x22 (leBytes 1 k)
      (∀ p : Fin 4, who = .window p →
        exec (.fuseKey who tag k hash blown) s = .next (s.mbEnd (a.mbxAnswer hk mbRefused [])) ∧
        exec (.fuseRevoke who tag k blown) s = .next (s.mbEnd (a.mbxAnswer hv mbRefused [])) ∧
        exec (.fuseFloor who tag k blown) s = .next (s.mbEnd (a.mbxAnswer hf mbRefused []))) ∧
      (∀ e : Nat, who = .mctp e → (a.spill = true ∨ a.recovery = true) →
        exec (.fuseKey who tag k hash blown) s = .next (s.mbEnd (a.mbxAnswer hk mbNot [])) ∧
        exec (.fuseRevoke who tag k blown) s = .next (s.mbEnd (a.mbxAnswer hv mbNot [])) ∧
        exec (.fuseFloor who tag k blown) s = .next (s.mbEnd (a.mbxAnswer hf mbNot []))) ∧
      (∀ e : Nat, who = .mctp e → a.spill = false → a.recovery = false →
        (3 < k → exec (.fuseKey who tag k hash blown) s = .next (s.mbEnd (a.mbxAnswer hk mbBadArg [])) ∧
          exec (.fuseRevoke who tag k blown) s = .next (s.mbEnd (a.mbxAnswer hv mbBadArg []))) ∧
        (k ≤ 3 → tabGet a.trs.keys k = none → blown = true → exec (.fuseKey who tag k hash blown) s = .next (s.mbEnd
          ((a.modTrs (fun t => { t with keys := tabPut t.keys k ⟨hash, false⟩ })).mbxAnswer hk mbOk []))) ∧
        (k ≤ 3 → tabGet a.trs.keys k = none → blown = false →
          let x := a.pick (2 ^ 384)
          exec (.fuseKey who tag k hash blown) s = .next (s.mbEnd
            ((x.2.modTrs (fun t => { t with keys := tabPut t.keys k ⟨leBytes 48 x.1, false⟩ })).mbxAnswer hk mbFlash []))) ∧
        (k ≤ 3 → a.trs.img.any (fun i => i.keySlot == k) = false → blown = false →
          exec (.fuseRevoke who tag k blown) s = .next (s.mbEnd (a.mbxAnswer hv mbFlash []))) ∧
        (∀ x : KeySlot, k ≤ 3 → tabGet a.trs.keys k = some x →
          exec (.fuseKey who tag k hash blown) s = .next (s.mbEnd (a.mbxAnswer hk (if x.hash = hash then mbOk else mbFlash) [])) ∧
          (blown = true → (a.trs.img.any (fun i => i.keySlot == k)) = false → exec (.fuseRevoke who tag k blown) s = .next (s.mbEnd
            ((a.modTrs (fun t => { t with keys := tabPut t.keys k ⟨x.hash, true⟩ })).mbxAnswer hv mbOk [])))) ∧
        (k ≤ 3 → a.trs.img.any (fun i => i.keySlot == k) = true →
          exec (.fuseRevoke who tag k blown) s = .next (s.mbEnd (a.mbxAnswer hv mbRefused []))) ∧
        ((64 < k ∨ k < a.trs.floor) → exec (.fuseFloor who tag k blown) s = .next (s.mbEnd (a.mbxAnswer hf mbBadArg []))) ∧
        (k ≤ 64 → a.trs.floor ≤ k →
          let above := a.trs.img.any (fun i => decide (i.sec < k)) || a.fwSec.any (fun j => decide (j < k))
          (above = true → exec (.fuseFloor who tag k blown) s = .next (s.mbEnd (a.mbxAnswer hf mbRefused []))) ∧
          (above = false → blown = true → exec (.fuseFloor who tag k blown) s = .next (s.mbEnd
            ((a.modTrs (fun t => { t with floor := k })).mbxAnswer hf mbOk []))) ∧
          (above = false → blown = false →
            let x := a.pick 65
            exec (.fuseFloor who tag k blown) s = .next (s.mbEnd
              ((x.2.modTrs (fun t => { t with floor := max t.floor x.1 })).mbxAnswer hf mbFlash [])))))) ∧
    (s.boot.flashBusy = none → exec .flashEraseDone s = .next (s.settle s)) ∧
    (∀ (t : State) (e : Held), t.pins.pwrok = true → t.boot.flashBusy = some e →
      let o := leAt e.msg 8 4
      exec .flashEraseDone t = .next (t.settle
        (({ t with trs := { t.trs with flash := t.trs.flash.filter (fun c => decide (c.1 < o) || decide (o + 65536 ≤ c.1)) },
                   boot := { t.boot with flashBusy := none } } : State).mbxAnswer e mbOk [])))

/-- Pushes and the window (R49, R74 to R76, R424, R425, Table 2.22): PUSH_BEGIN opens a push unless one is open, the device is closed to pushes, or a hot image waits;
PUSH_DATA takes ascending, contiguous bytes; PUSH_END of what is not whole is a bad argument and leaves the push open (DEDUCED, log entry 47); a hot
image that passes every check is staged; a full one that passes the first five waits for LOAD, with NOW for a device reset at once. GO hands the message of a PF's window to
the Foreman, and is refused while the window is BUSY. -/
def Obligations.PushesAndTheWindow : Prop :=
  ∀ (s : State) (who : Mbx) (tag : Nat),
    (s.asks who tag = true →
      let a := s.asked who tag
      let off := a.spill = true ∨ a.recovery = true
      let h (cmd flags : Nat) (payload : Bytes) : Held := ⟨who, tag, mbxMsg cmd flags tag 0 payload, true⟩
      (∀ hot len : Nat, hot < 256 → len < 2 ^ 32 →
        let h := h 0x18 0 (leBytes 1 hot ++ leBytes 4 len)
        (off → exec (.pushBegin who tag hot len) s = .next (s.mbEnd (a.mbxAnswer h mbNot []))) ∧
        (¬ off →
          ((1 < hot ∨ len = 0 ∨ 1048576 < len) → exec (.pushBegin who tag hot len) s = .next (s.mbEnd (a.mbxAnswer h mbBadArg []))) ∧
          (hot ≤ 1 → 0 < len → len ≤ 1048576 →
            (a.trs.push.isSome = true → exec (.pushBegin who tag hot len) s = .next (s.mbEnd (a.mbxAnswer h mbBusy []))) ∧
            (a.trs.push = none → (a.on F.TRS_STATUS.PUSH_CLOSED = true ∨ (hot = 1 ∧ a.rd F.TRS_HOT_STATUS.STATE = 1)) →
              exec (.pushBegin who tag hot len) s = .next (s.mbEnd ((a.raise .TRS_BUSY).mbxAnswer h mbBusy []))) ∧
            (a.trs.push = none → a.on F.TRS_STATUS.PUSH_CLOSED = false → (hot = 0 ∨ a.rd F.TRS_HOT_STATUS.STATE ≠ 1) →
              exec (.pushBegin who tag hot len) s = .next (s.mbEnd
                ((a.modTrs (fun t => { t with push := some ⟨hot == 1, len, []⟩ })).mbxAnswer h mbOk [])))))) ∧
      (∀ (o : Nat) (d : Bytes), o < 2 ^ 32 → 0 < d.length → d.length ≤ 1000 → ¬ off →
        let h := h 0x19 0 (leBytes 4 o ++ d)
        (a.trs.push = none → exec (.pushData who tag o d) s = .next (s.mbEnd (a.mbxAnswer h mbBadArg []))) ∧
        (∀ p : Push, a.trs.push = some p →
          ((o ≠ p.data.length ∨ p.len < o + d.length) → exec (.pushData who tag o d) s = .next (s.mbEnd (a.mbxAnswer h mbBadArg []))) ∧
          (o = p.data.length → o + d.length ≤ p.len → exec (.pushData who tag o d) s = .next (s.mbEnd
            ((a.modTrs (fun t => { t with push := some { p with data := p.data ++ d } })).mbxAnswer h mbOk []))))) ∧
      (∀ now : Bool, ¬ off →
        let h := h 0x1A (2 * b2n now) []
        (a.trs.push = none → exec (.pushEnd who tag now) s = .next (s.mbEnd (a.mbxAnswer h mbBadArg []))) ∧
        (∀ p : Push, a.trs.push = some p →
          let t := a.modTrs (fun t => { t with push := none })
          (p.data.length ≠ p.len → exec (.pushEnd who tag now) s = .next (s.mbEnd (a.mbxAnswer h mbBadArg []))) ∧
          (p.data.length = p.len → p.hot = true →
            (∀ (i : Img) (n : Nat), checkImage (t.chkEnv p.data.length) true p.data = (.ok i, n) →
              exec (.pushEnd who tag now) s = .next (s.mbEnd
                ((((t.skips n).wr F.TRS_HOT_STATUS.STATE 1).modTrs (fun t => { t with staged := some i })).mbxAnswer h mbOk [0]))) ∧
            (∀ (e : Reject) (n : Nat), checkImage (t.chkEnv p.data.length) true p.data = (.error e, n) →
              exec (.pushEnd who tag now) s = .next (s.mbEnd ((t.skips n).pushFail h orgHot p.data e)))) ∧
          (p.data.length = p.len → p.hot = false →
            (∀ e : Reject, checkHead (t.chkEnv p.data.length) p.data = some e →
              exec (.pushEnd who tag now) s = .next (s.mbEnd (t.pushFail h orgFull p.data e))) ∧
            (checkHead (t.chkEnv p.data.length) p.data = none →
              let u := (t.modTrs (fun t => { t with pushed := some p.data })).mbxAnswer h mbOk [0]
              (now = false → exec (.pushEnd who tag now) s = .next (s.mbEnd u)) ∧
              (now = true → u.phase = phRunning → exec (.pushEnd who tag now) s = .next (s.mbEnd (u.post .deviceReset)))))))) ∧
    (∀ p : Fin 4, s.serves (.fn (.pf p)) .FMN_MB_CTRL 0 = true →
      let all := (List.range 128).flatMap (fun k => leBytes 8 (s.rdI F.FMN_REQ.DATA p.val k))
      let msg := all.take (8 + leAt all 6 2)
      let t := leAt msg 2 2
      (s.rdI F.FMN_MB_STATUS.BUSY p.val 0 = 1 → exec (.go p) s = .next (s.settle (s.raise .CFG_REJECT))) ∧
      (s.rdI F.FMN_MB_STATUS.BUSY p.val 0 = 0 → (s.boot.outstanding.filter (fun o => o.1 == Mbx.window p)) = [] →
        exec (.go p) s = .next (s.settle (((s.wrI F.FMN_MB_STATUS.BUSY p.val 0 1).wrI F.FMN_MB_STATUS.DONE p.val 0 0).modBoot
          (fun b => { b with outstanding := b.outstanding ++ [(.window p, t)], held := b.held ++ [⟨.window p, t, msg, true⟩] })))))

/-- The sideband and the test port (R423, R440, R441): MCTP control commands are answered while the Foreman's firmware runs, an address that may not be assigned is
invalid data (the layout of the responses is PRESUMED from DSP0236, log entry 45); SETDASA to the strapped address and ENTDAA give the I3C address once. JTAG
instructions load while TRST_L is high; the four that take the output pins act as BYPASS while the device is powered and not reset; HIGHZ tri-states the pins, the others drive them from
the boundary register, and what they capture of the pins is free (log entry 4); IDCODE shifts out; TRST_L low selects IDCODE (PRESUMED from IEEE 1149.1, log entry 44). -/
def Obligations.SidebandAndTestPort : Prop :=
  ∀ (s : State) (src : Nat),
    (s.pins.pwrok = true → (s.rd F.FMN_INFO.STATE = fmRunning ∨ s.rd F.FMN_INFO.STATE = fmRecovery) →
      (∀ eid : Nat,
        ((eid = 0 ∨ 255 ≤ eid) → exec (.setEndpointId src eid) s = .next (s.settle (s.emit (.mctpResp src 2 [])))) ∧
        (0 < eid → eid < 255 → exec (.setEndpointId src eid) s = .next (s.settle
          ((s.wrFmn F.FMN_INFO.EID eid).emit (.mctpResp src 0 [0, eid, 0]))))) ∧
      exec (.getEndpointId src) s = .next (s.settle (s.emit (.mctpResp src 0 [s.rd F.FMN_INFO.EID, 0, 0]))) ∧
      exec (.getMessageTypeSupport src) s = .next (s.settle (s.emit (.mctpResp src 0 [1, 0x7F]))) ∧
      (∀ ty : Nat,
        let n := s.pick 256
        let v := n.2.pick (2 ^ (32 * n.1))
        exec (.getMctpVersionSupport src ty) s = .next (s.settle
          (v.2.emit (.mctpResp src 0 (n.1 :: (leBytes (4 * n.1) v.1).map (fun b => b.toNat)))))) ∧
      (∀ sel : Nat,
        (sel ≠ 0 → exec (.getVendorDefinedMessage src sel) s = .next (s.settle (s.emit (.mctpResp src 2 [])))) ∧
        (sel = 0 →
          let v := s.pick 65536
          exec (.getVendorDefinedMessage src sel) s = .next (s.settle
            (v.2.emit (.mctpResp src 0 [0xFF, 1, 0x00, 0xF1, 0xA0, 0xA1, v.1 / 256, v.1 % 256])))))) ∧
    (s.pins.pwrok = true → ∀ static dyn : Nat,
      ((static ≠ s.staticAddr ∨ s.boot.i3cAddr ≠ none) → exec (.setdasa static dyn) s = .next (s.settle s)) ∧
      (s.boot.i3cAddr = none →
        exec (.setdasa s.staticAddr dyn) s = .next (s.settle { s with boot := { s.boot with i3cAddr := some dyn } }) ∧
        exec (.entdaa dyn) s = .next (s.settle { s with boot := { s.boot with i3cAddr := some dyn } })) ∧
      (s.boot.i3cAddr ≠ none → exec (.entdaa dyn) s = .next (s.settle s))) ∧
    (let load (i : Nat) (w : Nat) : State := { s with boot := { s.boot with jtag := i }, out := s.out ++ [.jtag i w] };
     (s.pins.trstLow = true → exec .bypass s = .next s ∧ exec .idcode s = .next s ∧ exec .highz s = .next s) ∧
     (s.pins.trstLow = false →
       exec .bypass s = .next (load 0 0) ∧ exec .idcode s = .next (load 1 idcodeWord) ∧
       (∀ pins preload : Nat, exec (.samplePreload pins preload) s = .next
         { s with boot := { s.boot with jtag := 2, bsr := preload }, out := s.out ++ [.jtag 2 pins] }) ∧
       (s.pins.pwrok = true → s.pins.warm = false →
         exec .extest s = .next (load 0 0) ∧ exec .highz s = .next (load 0 0) ∧ exec .extestPulse s = .next (load 0 0) ∧
         exec .extestTrain s = .next (load 0 0)) ∧
       ((s.pins.pwrok = false ∨ s.pins.warm = true) →
         let drives (i : Nat) : State :=
           let u : State := { s with boot := { s.boot with jtag := i }, out := s.out ++ [.scanPins (some s.boot.bsr)] }
           (u.pick (2 ^ Config.scanCells)).2.emit (.jtag i (u.pick (2 ^ Config.scanCells)).1)
         exec .extest s = .next (drives 3) ∧ exec .extestPulse s = .next (drives 5) ∧ exec .extestTrain s = .next (drives 6) ∧
         exec .highz s = .next { s with boot := { s.boot with jtag := 4 }, out := s.out ++ [.scanPins none, .jtag 4 0] })) ∧
     exec (.trstL true) s = .next { s with pins := { s.pins with trstLow := true }, boot := { s.boot with jtag := 1 } } ∧
     exec (.trstL false) s = .next { s with pins := { s.pins with trstLow := false } })

/-- One step takes the command at the front of the queue and runs it on the state with the queue's rest; an empty queue idles (the
idling is DESIGN CHOICE, log entry 1). -/
def Obligations.StepRunsTheFrontCommand : Prop :=
  (∀ (c : Instr) (s : State), step { s with pending := c :: s.pending } = exec c s) ∧ ∀ s : State, s.pending = [] → step s = .next s

/-- Reset leaves every register at its reset value, nothing staged, nothing waiting, PWROK low, and the device as it is without power (values that the
spec does not give are the log's, entries 38 and 42). -/
def Obligations.ResetLeavesTheDeviceCold : Prop :=
  (∀ (d : Fld) (inst i : Nat), State.reset.rdI d inst i = rstOf d i ∧ State.reset.shadowI d inst i = rstOf d i) ∧
  State.reset.pins.pwrok = false ∧ State.reset.pending = [] ∧ State.reset.atReset ∧ State.reset.coldInv ∧
  State.reset.rd F.GLB_IDENT.DEVICE = 0xF1A0 ∧ State.reset.phase = phReset ∧ State.reset.live = false ∧
  State.reset.ba = baFree ∧ State.reset.boot.foremanLog = [] ∧ State.reset.trs.img = none

/-- Every command answers a next state, in every state (no rule of the spec stops the block), and leaves the queue of commands that wait as it is; only
the pins' own commands change a pin. -/
def Obligations.EveryCommandAnswers : Prop :=
  ∀ (c : Instr) (s : State), ∃ t : State, exec c s = .next t ∧ t.pending = s.pending ∧ (movesPins c = false → t.pins = s.pins)

/-- Without power good nothing acts but the pins and the test port (R407, R409, R441); the events of links, packets, engines, timers and host reads
change nothing before RUNNING and in the Spillway (R418, Table 13.5). -/
def Obligations.NothingActsUnpowered : Prop :=
  ∀ (c : Instr) (s : State),
    (s.pins.pwrok = false → movesPins c = false → usesTestPort c = false → exec c s = .next s) ∧
    (s.live = false → needsRunning c = true → exec c s = .next s) ∧
    (s.pins.pwrok = false → movesPins c = false → ∃ t : State, exec c s = .next t ∧ t.regs = s.regs ∧ t.shadow = s.shadow ∧ t.trs = s.trs ∧
      t.hif = s.hif ∧ t.rte = s.rte ∧ t.coh = s.coh ∧ t.peg = s.peg)

/-- The device without power good is at reset, whatever steps led there (R407, Table 15.7): every step keeps it so. -/
def Obligations.ColdStaysCold : Prop :=
  ∀ s t : State, s.coldInv → step s = .next t → t.coldInv
end

