-- ==== Sys2Proof/Decode.lean ====
section
/-! DEFINITION. Words that spell a command: the table of operations and events gives no row any bits. -/

namespace Sys2Proof

/-- No row of the table has bits, so no word spells a command (log entry 2). -/
def decodeTableWord (_nbits _w : Nat) : Option Instr := none

end Sys2Proof
end

