-- ==== Sys2Proof/Laws/Settle.lean ====
section
/-! SUPPORT. The laws of the end of a command: what settling keeps, when it changes nothing, and what each group of commands
answers. -/

namespace Sys2Proof.Machine

@[simp] theorem settle_pins (s t : State) : (s.settle t).pins = s.pins := rfl

@[simp] theorem settle_pending (s t : State) : (s.settle t).pending = s.pending := rfl

/-- Where no piece of work and no mailbox request is left, work ends with what comes after them. -/
theorem settleN_idle {t : State} (n : Nat) (ha : t.acts = []) (hm : t.mbReady = false)
    (hr : t.rest.acts = []) : State.settleN (n + 1) t = t.rest := by
  simp [State.settleN, ha, hm, hr]

/-- Where nothing is left to do, settling changes nothing. -/
theorem settle_of_settled (s t : State) (h : t.settled = true) :
    s.settle t = { t with pins := s.pins, pending := s.pending } := by
  simp only [State.settled, Bool.and_eq_true, decide_eq_true_eq, List.isEmpty_iff, Bool.not_eq_true'] at h
  obtain ⟨⟨⟨⟨⟨ha, hm⟩, hr⟩, hw⟩, hu⟩, hl⟩ := h
  have hl : t.linkWake (t.out.drop s.out.length) = t := by simp [State.linkWake, beq_iff_eq.mp hl]
  have hn : State.settleN 4096 t = t := by rw [settleN_idle 4095 ha hm (by rw [hr]; exact ha), hr]
  simp only [State.settle, State.settleFrom, hn, hl, hw, hu, Bool.false_eq_true, if_false]

/-- What a command of a device with power good answers. -/
theorem powered_on {s : State} (f : State → State) (h : s.pins.pwrok = true) : powered s f = .next (s.settle (f s)) := by
  simp [powered, h]

theorem powered_off {s : State} (f : State → State) (h : s.pins.pwrok = false) : powered s f = .next s := by
  simp [powered, h]

/-- What a command that acts only while the device runs answers. -/
theorem running_live {s : State} (f : State → State) (h : s.live = true) : running s f = .next (s.settle (f s)) := by
  simp [running, h]

theorem running_idle {s : State} (f : State → State) (h : s.live = false) : running s f = .next s := by
  simp [running, h]

/-- A device that runs has power good, is in phase RUNNING and not in the Spillway. -/
theorem live_iff (s : State) : s.live = true ↔ s.pins.pwrok = true ∧ s.phase = phRunning ∧ s.spill = false := by
  simp [State.live, and_assoc]

end Sys2Proof.Machine
end

