-- ==== Sys2Proof/Laws/Access.lean ====
section
/-! SUPPORT. The laws of register accesses: a command that is one write of a register, and what a write that raises nothing
leaves. -/

namespace Sys2Proof.Machine

theorem not_resetting_of_live {s : State} (h : s.live = true) : s.resetting = false := by
  obtain ⟨-, hp, -⟩ := (live_iff s).1 h
  simp [State.resetting, hp]

theorem spill_of_live {s : State} (h : s.live = true) : s.spill = false := ((live_iff s).1 h).2.2
theorem pwrok_of_live {s : State} (h : s.live = true) : s.pins.pwrok = true := ((live_iff s).1 h).1

theorem live_of_serves {s : State} {who : Who} {r : Reg} {i : Nat} (h : s.serves who r i = true) : s.live = true := by
  simp only [State.serves, Bool.and_eq_true] at h
  exact h.1.1.1.1.1.1

/-- A block is served while the device runs. -/
theorem blkServed_of_live {s : State} (b : Nat) (h : s.live = true) : s.blkServed b = true := by
  simp [State.blkServed, spill_of_live h, not_resetting_of_live h]

/-- A whole, aligned write to a register that is served is performed on it. -/
theorem regAccess_of_serves {s : State} {who : Who} {r : Reg} {i : Nat} (w : Nat) (h : s.serves who r i = true) :
    s.regAccess who r i w = s.writeReg who r i w := by
  have hl := live_of_serves h
  simp only [State.serves, Bool.and_eq_true, Bool.not_eq_true', decide_eq_true_eq] at h
  obtain ⟨⟨⟨⟨⟨-, -⟩, ha⟩, hb⟩, -⟩, hf⟩ := h
  have hx : ((whoFn who).isNone && r.fnOnly) = false := by
    cases who <;> simp_all [whoFn]
  simp [State.regAccess, hx, spill_of_live hl, blkServed_of_live _ hl, ha, hb]

theorem aligned_sum (b o t : Nat) (ho : o % 8 = 0) (ht : t % 8 = 0) : (b * 0x100000 + o + t) % 8 = 0 := by omega

/-- Registers lie on multiples of 8, in every map. -/
theorem regOffset_aligned (who : Who) (r : Reg) (i : Nat) (h : r.place.off % 8 = 0) (hs : r.place.stride % 8 = 0) :
    regOffset who r i % 8 = 0 := by
  have h2 : r.place.stride * i % 8 = 0 := by
    rw [Nat.mul_mod, hs]; simp
  exact aligned_sum _ _ _ h h2

theorem place_aligned (r : Reg) : r.place.off % 8 = 0 ∧ r.place.stride % 8 = 0 := by
  cases r <;> decide

/-- A command that is one write of a served register. -/
theorem regCmd_of_serves {s : State} {who : Who} {r : Reg} {i : Nat} (w : Nat) (h : s.serves who r i = true) :
    s.regCmd who r i w = s.writeReg who r i w := by
  have hw := regAccess_of_serves w h
  have hal := regOffset_aligned who r i (place_aligned r).1 (place_aligned r).2
  simp only [State.serves, Bool.and_eq_true, Bool.not_eq_true', decide_eq_true_eq] at h
  obtain ⟨⟨⟨⟨⟨-, hp⟩, -⟩, -⟩, hg⟩, hf⟩ := h
  unfold State.regCmd State.busWrite
  cases who with
  | fn f =>
    simp only [State.lies] at hp
    simp only [Bool.and_eq_true, Bool.not_eq_true'] at hf
    obtain ⟨⟨hf, hc⟩, hz⟩ := hf
    simp only [State.fnWrite, hf, hc, hp, hal, State.sleeps, hz, hg]
    simpa [State.locWrite] using hw
  | mailbox =>
    simp only [State.lies] at hp
    simp only [State.sharedWrite, hp, hal]
    simpa [State.locWrite] using hw
  | mgmt k =>
    simp only [State.lies] at hp
    simp only [State.sharedWrite, hp, hal]
    simpa [State.locWrite] using hw

/-- A write that hands over work without a second CFG_REJECT keeps what it did. -/
theorem rejectOnce_of_append {s t : State} (l : List Act) (h : t.acts = s.acts ++ l) (hl : onceReject false l = l) :
    s.rejectOnce t = t := by
  unfold State.rejectOnce
  simp only [h, List.take_left, List.drop_left, hl]
  rw [← h]

/-- A write that raises nothing keeps what it did. -/
theorem rejectOnce_of_acts {s t : State} (h : t.acts = s.acts) : s.rejectOnce t = t :=
  rejectOnce_of_append [] (by simp [h]) rfl

/-- What a register read by a function answers where the register is served. -/
theorem fnRead_of_serves {s : State} {f : Fn} {r : Reg} {i : Nat} (z g : State → State) (h : s.serves (.fn f) r i = true) :
    s.fnRead f r true z g = g s := by
  have hl := live_of_serves h
  simp only [State.serves, Bool.and_eq_true, Bool.not_eq_true', decide_eq_true_eq] at h
  obtain ⟨⟨⟨⟨-, ha⟩, -⟩, -⟩, ⟨hf, -⟩, -⟩ := h
  simp [State.fnRead, hf, ha, State.readable, spill_of_live hl, not_resetting_of_live hl]

end Sys2Proof.Machine
end

