-- ==== Sys2Proof/Laws/Dispatch.lean ====
section
/-! SUPPORT. What each command's meaning is to the whole device: work of a powered device, work of a running one, or a change of a pin
or of the test port. -/

namespace Sys2Proof.Machine

/-- What the arm of a command is, by what its meaning is. -/
theorem form_of_arm {P : Host.Outcome State Fault Refusal → Prop} {a b : Host.Outcome State Fault Refusal} (h : a = b) (hb : P b) : P a :=
  h ▸ hb

/-- An event of the running device is work that needs it running. -/
theorem exec_running (c : Instr) (s : State) (h : needsRunning c = true) : ∃ f, exec c s = running s f := by
  cases c with
  | registerWrite => cases h
  | unitEnable => cases h
  | unitDisable => cases h
  | beatBoundary => cases h
  | powerStateEntry  => exact form_of_arm (P := fun x => ∃ f, x = running s f) (b := execPowerStateEntry s) rfl ⟨_, by rfl⟩
  | armedCommit  => exact form_of_arm (P := fun x => ∃ f, x = running s f) (b := execArmedCommit s) rfl ⟨_, by rfl⟩
  | beaCommitArm => cases h
  | beaCommitAt => cases h
  | beaCount => cases h
  | beatXchgSend a => exact form_of_arm (P := fun x => ∃ f, x = running s f) (b := execBeatXchgSend a s) rfl ⟨_, by rfl⟩
  | beatXchgRequest a b c => exact form_of_arm (P := fun x => ∃ f, x = running s f) (b := execBeatXchgRequest a b c s) rfl ⟨_, by rfl⟩
  | beatXchgResponse a b c => exact form_of_arm (P := fun x => ∃ f, x = running s f) (b := execBeatXchgResponse a b c s) rfl ⟨_, by rfl⟩
  | upstreamLost  => exact form_of_arm (P := fun x => ∃ f, x = running s f) (b := execUpstreamLost s) rfl ⟨_, by rfl⟩
  | holdoverLimit  => exact form_of_arm (P := fun x => ∃ f, x = running s f) (b := execHoldoverLimit s) rfl ⟨_, by rfl⟩
  | masterAliveMissing  => exact form_of_arm (P := fun x => ∃ f, x = running s f) (b := execMasterAliveMissing s) rfl ⟨_, by rfl⟩
  | listenWindowEnd  => exact form_of_arm (P := fun x => ∃ f, x = running s f) (b := execListenWindowEnd s) rfl ⟨_, by rfl⟩
  | ppsEdge => cases h
  | beatRefLost => cases h
  | pwrokRise => cases h
  | pwrokFall => cases h
  | rom => cases h
  | firmware => cases h
  | bist => cases h
  | load => cases h
  | warmRstLAssert => cases h
  | warmRstLRelease => cases h
  | glbDeviceReset => cases h
  | glbUnitReset => cases h
  | unitResetComplete => cases h
  | glbPortReset => cases h
  | corePllUnlock => cases h
  | fuseRead => cases h
  | watchdogExpire => cases h
  | foremanRestartDone => cases h
  | routesReady => cases h
  | pushBegin => cases h
  | pushData => cases h
  | pushEnd => cases h
  | trsSlotCheck => cases h
  | slotCheckComplete => cases h
  | ident => cases h
  | regRead => cases h
  | regWrite => cases h
  | telemetry => cases h
  | beatRead => cases h
  | mailboxSpill => cases h
  | unitReset => cases h
  | portReset => cases h
  | lanePower => cases h
  | deviceReset => cases h
  | flashRead => cases h
  | flashErase => cases h
  | flashWrite => cases h
  | slotCheck => cases h
  | fuseKey => cases h
  | fuseRevoke => cases h
  | fuseFloor => cases h
  | mailboxPegTake => cases h
  | mailboxPegRelease => cases h
  | pegSupervisor => cases h
  | setEndpointId => cases h
  | getEndpointId => cases h
  | getMctpVersionSupport => cases h
  | getMessageTypeSupport => cases h
  | getVendorDefinedMessage => cases h
  | go => cases h
  | calibrationDone a b c => exact form_of_arm (P := fun x => ∃ f, x = running s f) (b := execCalibrationDone a b c s) rfl ⟨_, by rfl⟩
  | capabilitySet a b c d => exact form_of_arm (P := fun x => ∃ f, x = running s f) (b := execCapabilitySet a b c d s) rfl ⟨_, by rfl⟩
  | countdownEnd a => exact form_of_arm (P := fun x => ∃ f, x = running s f) (b := execCountdownEnd a s) rfl ⟨_, by rfl⟩
  | capsTimeout a => exact form_of_arm (P := fun x => ∃ f, x = running s f) (b := execCapsTimeout a s) rfl ⟨_, by rfl⟩
  | trainUsEnd a b c => exact form_of_arm (P := fun x => ∃ f, x = running s f) (b := execTrainUsEnd a b c s) rfl ⟨_, by rfl⟩
  | checkUsEnd a b c => exact form_of_arm (P := fun x => ∃ f, x = running s f) (b := execCheckUsEnd a b c s) rfl ⟨_, by rfl⟩
  | resultBlock a b c => exact form_of_arm (P := fun x => ∃ f, x = running s f) (b := execResultBlock a b c s) rfl ⟨_, by rfl⟩
  | resultWaitEnd a => exact form_of_arm (P := fun x => ∃ f, x = running s f) (b := execResultWaitEnd a s) rfl ⟨_, by rfl⟩
  | retryMs a => exact form_of_arm (P := fun x => ∃ f, x = running s f) (b := execRetryMs a s) rfl ⟨_, by rfl⟩
  | laneLockLost a b => exact form_of_arm (P := fun x => ∃ f, x = running s f) (b := execLaneLockLost a b s) rfl ⟨_, by rfl⟩
  | pllUnlock => cases h
  | pllLock => cases h
  | restart => cases h
  | modeTest => cases h
  | modeOperate => cases h
  | powerDown => cases h
  | ffeReq a b c d e => exact form_of_arm (P := fun x => ∃ f, x = running s f) (b := execFfeReq a b c d e s) rfl ⟨_, by rfl⟩
  | ffeAck a b c => exact form_of_arm (P := fun x => ∃ f, x = running s f) (b := execFfeAck a b c s) rfl ⟨_, by rfl⟩
  | widthReq a b c d e => exact form_of_arm (P := fun x => ∃ f, x = running s f) (b := execWidthReq a b c d e s) rfl ⟨_, by rfl⟩
  | widthAck a b c d => exact form_of_arm (P := fun x => ∃ f, x = running s f) (b := execWidthAck a b c d s) rfl ⟨_, by rfl⟩
  | widthReqRepeat a => exact form_of_arm (P := fun x => ∃ f, x = running s f) (b := execWidthReqRepeat a s) rfl ⟨_, by rfl⟩
  | widthChange a => exact form_of_arm (P := fun x => ∃ f, x = running s f) (b := execWidthChange a s) rfl ⟨_, by rfl⟩
  | widthMarker a => exact form_of_arm (P := fun x => ∃ f, x = running s f) (b := execWidthMarker a s) rfl ⟨_, by rfl⟩
  | reacquisition a => exact form_of_arm (P := fun x => ∃ f, x = running s f) (b := execReacquisition a s) rfl ⟨_, by rfl⟩
  | reacquisitionEnd a b c d => exact form_of_arm (P := fun x => ∃ f, x = running s f) (b := execReacquisitionEnd a b c d s) rfl ⟨_, by rfl⟩
  | eqFreezeEnd a => exact form_of_arm (P := fun x => ∃ f, x = running s f) (b := execEqFreezeEnd a s) rfl ⟨_, by rfl⟩
  | inject => cases h
  | clear => cases h
  | checkerLock a b c d => exact form_of_arm (P := fun x => ∃ f, x = running s f) (b := execCheckerLock a b c d s) rfl ⟨_, by rfl⟩
  | flitReceive a b c => exact form_of_arm (P := fun x => ∃ f, x = running s f) (b := execFlitReceive a b c s) rfl ⟨_, by rfl⟩
  | nak a b => exact form_of_arm (P := fun x => ∃ f, x = running s f) (b := execNak a b s) rfl ⟨_, by rfl⟩
  | fence a b => exact form_of_arm (P := fun x => ∃ f, x = running s f) (b := execFence a b s) rfl ⟨_, by rfl⟩
  | credit a b => exact form_of_arm (P := fun x => ∃ f, x = running s f) (b := execCredit a b s) rfl ⟨_, by rfl⟩
  | flitTransmit => cases h
  | nakRetry a => exact form_of_arm (P := fun x => ∃ f, x = running s f) (b := execNakRetry a s) rfl ⟨_, by rfl⟩
  | ackTimeout a => exact form_of_arm (P := fun x => ∃ f, x = running s f) (b := execAckTimeout a s) rfl ⟨_, by rfl⟩
  | healthWindowRestart a => exact form_of_arm (P := fun x => ∃ f, x = running s f) (b := execHealthWindowRestart a s) rfl ⟨_, by rfl⟩
  | noprogUs a b => exact form_of_arm (P := fun x => ∃ f, x = running s f) (b := execNoprogUs a b s) rfl ⟨_, by rfl⟩
  | initTimeout a => exact form_of_arm (P := fun x => ∃ f, x = running s f) (b := execInitTimeout a s) rfl ⟨_, by rfl⟩
  | fenceComplete => cases h
  | corrupt => cases h
  | packetArrive a => exact form_of_arm (P := fun x => ∃ f, x = running s f) (b := execPacketArrive a s) rfl ⟨_, by rfl⟩
  | packetInject a => exact form_of_arm (P := fun x => ∃ f, x = running s f) (b := execPacketInject a s) rfl ⟨_, by rfl⟩
  | packetForward a b => exact form_of_arm (P := fun x => ∃ f, x = running s f) (b := execPacketForward a b s) rfl ⟨_, by rfl⟩
  | limiterFree a => exact form_of_arm (P := fun x => ∃ f, x = running s f) (b := execLimiterFree a s) rfl ⟨_, by rfl⟩
  | echo  => exact form_of_arm (P := fun x => ∃ f, x = running s f) (b := execEcho s) rfl ⟨_, by rfl⟩
  | mgmtWrite  => exact form_of_arm (P := fun x => ∃ f, x = running s f) (b := execMgmtWrite s) rfl ⟨_, by rfl⟩
  | mgmtRead a b => exact form_of_arm (P := fun x => ∃ f, x = running s f) (b := execMgmtRead a b s) rfl ⟨_, by rfl⟩
  | mgmtResp  => exact form_of_arm (P := fun x => ∃ f, x = running s f) (b := execMgmtResp s) rfl ⟨_, by rfl⟩
  | mcPutEntry  => exact form_of_arm (P := fun x => ∃ f, x = running s f) (b := execMcPutEntry s) rfl ⟨_, by rfl⟩
  | mcPut  => exact form_of_arm (P := fun x => ∃ f, x = running s f) (b := execMcPut s) rfl ⟨_, by rfl⟩
  | collectiveEntry  => exact form_of_arm (P := fun x => ∃ f, x = running s f) (b := execCollectiveEntry s) rfl ⟨_, by rfl⟩
  | cfUp  => exact form_of_arm (P := fun x => ∃ f, x = running s f) (b := execCfUp s) rfl ⟨_, by rfl⟩
  | cfDown  => exact form_of_arm (P := fun x => ∃ f, x = running s f) (b := execCfDown s) rfl ⟨_, by rfl⟩
  | cfGrant  => exact form_of_arm (P := fun x => ∃ f, x = running s f) (b := execCfGrant s) rfl ⟨_, by rfl⟩
  | cfAbort  => exact form_of_arm (P := fun x => ∃ f, x = running s f) (b := execCfAbort s) rfl ⟨_, by rfl⟩
  | chunkCombine a b c => exact form_of_arm (P := fun x => ∃ f, x = running s f) (b := execChunkCombine a b c s) rfl ⟨_, by rfl⟩
  | chunkSend a b c d => exact form_of_arm (P := fun x => ∃ f, x = running s f) (b := execChunkSend a b c d s) rfl ⟨_, by rfl⟩
  | phaseTimeout a => exact form_of_arm (P := fun x => ∃ f, x = running s f) (b := execPhaseTimeout a s) rfl ⟨_, by rfl⟩
  | treeLoad => cases h
  | treeReset => cases h
  | treeUnload => cases h
  | treeAbort => cases h
  | descriptorFetchDone a b => exact form_of_arm (P := fun x => ∃ f, x = running s f) (b := execDescriptorFetchDone a b s) rfl ⟨_, by rfl⟩
  | contextFetchDone a b => exact form_of_arm (P := fun x => ∃ f, x = running s f) (b := execContextFetchDone a b s) rfl ⟨_, by rfl⟩
  | contextStatusRead => cases h
  | qCreate => cases h
  | qDestroy => cases h
  | cqCreate => cases h
  | cqReset => cases h
  | cqDestroy => cases h
  | qEnable => cases h
  | qDisable => cases h
  | hifSqDb => cases h
  | hifCqDb => cases h
  | hifEqDb => cases h
  | pushWrite => cases h
  | pushHalfExpire a b => exact form_of_arm (P := fun x => ∃ f, x = running s f) (b := execPushHalfExpire a b s) rfl ⟨_, by rfl⟩
  | ringReadDone a b => exact form_of_arm (P := fun x => ∃ f, x = running s f) (b := execRingReadDone a b s) rfl ⟨_, by rfl⟩
  | dataReadDone a b => exact form_of_arm (P := fun x => ∃ f, x = running s f) (b := execDataReadDone a b s) rfl ⟨_, by rfl⟩
  | nopEntry  => exact form_of_arm (P := fun x => ∃ f, x = running s f) (b := execNopEntry s) rfl ⟨_, by rfl⟩
  | cqOverflow a => exact form_of_arm (P := fun x => ∃ f, x = running s f) (b := execCqOverflow a s) rfl ⟨_, by rfl⟩
  | modTimeExpire a b => exact form_of_arm (P := fun x => ∃ f, x = running s f) (b := execModTimeExpire a b s) rfl ⟨_, by rfl⟩
  | msixUnmask => cases h
  | hostLinkDown => cases h
  | flr => cases h
  | perstL => cases h
  | ltrUpdate => cases h
  | regEnable => cases h
  | regDisable => cases h
  | regDisableComplete a => exact form_of_arm (P := fun x => ∃ f, x = running s f) (b := execRegDisableComplete a s) rfl ⟨_, by rfl⟩
  | rmaQinfo => cases h
  | putEntry  => exact form_of_arm (P := fun x => ∃ f, x = running s f) (b := execPutEntry s) rfl ⟨_, by rfl⟩
  | putImmEntry  => exact form_of_arm (P := fun x => ∃ f, x = running s f) (b := execPutImmEntry s) rfl ⟨_, by rfl⟩
  | getEntry  => exact form_of_arm (P := fun x => ∃ f, x = running s f) (b := execGetEntry s) rfl ⟨_, by rfl⟩
  | atomicEntry  => exact form_of_arm (P := fun x => ∃ f, x = running s f) (b := execAtomicEntry s) rfl ⟨_, by rfl⟩
  | put  => exact form_of_arm (P := fun x => ∃ f, x = running s f) (b := execPut s) rfl ⟨_, by rfl⟩
  | putImm  => exact form_of_arm (P := fun x => ∃ f, x = running s f) (b := execPutImm s) rfl ⟨_, by rfl⟩
  | getReq  => exact form_of_arm (P := fun x => ∃ f, x = running s f) (b := execGetReq s) rfl ⟨_, by rfl⟩
  | atomicReq  => exact form_of_arm (P := fun x => ∃ f, x = running s f) (b := execAtomicReq s) rfl ⟨_, by rfl⟩
  | atomicComplete a b => exact form_of_arm (P := fun x => ∃ f, x = running s f) (b := execAtomicComplete a b s) rfl ⟨_, by rfl⟩
  | ackDelay a => exact form_of_arm (P := fun x => ∃ f, x = running s f) (b := execAckDelay a s) rfl ⟨_, by rfl⟩
  | ack  => exact form_of_arm (P := fun x => ∃ f, x = running s f) (b := execAck s) rfl ⟨_, by rfl⟩
  | nakPacket  => exact form_of_arm (P := fun x => ∃ f, x = running s f) (b := execNakPacket s) rfl ⟨_, by rfl⟩
  | getResp  => exact form_of_arm (P := fun x => ∃ f, x = running s f) (b := execGetResp s) rfl ⟨_, by rfl⟩
  | atomicResp  => exact form_of_arm (P := fun x => ∃ f, x = running s f) (b := execAtomicResp s) rfl ⟨_, by rfl⟩
  | rtoExpire a => exact form_of_arm (P := fun x => ∃ f, x = running s f) (b := execRtoExpire a s) rfl ⟨_, by rfl⟩
  | backoffExpire a b => exact form_of_arm (P := fun x => ∃ f, x = running s f) (b := execBackoffExpire a b s) rfl ⟨_, by rfl⟩
  | atomicRecordExpire a b => exact form_of_arm (P := fun x => ∃ f, x = running s f) (b := execAtomicRecordExpire a b s) rfl ⟨_, by rfl⟩
  | mlCreate => cases h
  | mlDestroy => cases h
  | sendEntry  => exact form_of_arm (P := fun x => ∃ f, x = running s f) (b := execSendEntry s) rfl ⟨_, by rfl⟩
  | recvEntry  => exact form_of_arm (P := fun x => ∃ f, x = running s f) (b := execRecvEntry s) rfl ⟨_, by rfl⟩
  | cancelEntry  => exact form_of_arm (P := fun x => ∃ f, x = running s f) (b := execCancelEntry s) rfl ⟨_, by rfl⟩
  | msgEager  => exact form_of_arm (P := fun x => ∃ f, x = running s f) (b := execMsgEager s) rfl ⟨_, by rfl⟩
  | msgRts  => exact form_of_arm (P := fun x => ∃ f, x = running s f) (b := execMsgRts s) rfl ⟨_, by rfl⟩
  | msgFin  => exact form_of_arm (P := fun x => ∃ f, x = running s f) (b := execMsgFin s) rfl ⟨_, by rfl⟩
  | matchEvent a => exact form_of_arm (P := fun x => ∃ f, x = running s f) (b := execMatchEvent a s) rfl ⟨_, by rfl⟩
  | spillReadDone a b => exact form_of_arm (P := fun x => ∃ f, x = running s f) (b := execSpillReadDone a b s) rfl ⟨_, by rfl⟩
  | spillRefill a b => exact form_of_arm (P := fun x => ∃ f, x = running s f) (b := execSpillRefill a b s) rfl ⟨_, by rfl⟩
  | rendezvousStart  => exact form_of_arm (P := fun x => ∃ f, x = running s f) (b := execRendezvousStart s) rfl ⟨_, by rfl⟩
  | rdS  => exact form_of_arm (P := fun x => ∃ f, x = running s f) (b := execRdS s) rfl ⟨_, by rfl⟩
  | rdX  => exact form_of_arm (P := fun x => ∃ f, x = running s f) (b := execRdX s) rfl ⟨_, by rfl⟩
  | upg  => exact form_of_arm (P := fun x => ∃ f, x = running s f) (b := execUpg s) rfl ⟨_, by rfl⟩
  | atom  => exact form_of_arm (P := fun x => ∃ f, x = running s f) (b := execAtom s) rfl ⟨_, by rfl⟩
  | wb  => exact form_of_arm (P := fun x => ∃ f, x = running s f) (b := execWb s) rfl ⟨_, by rfl⟩
  | evict  => exact form_of_arm (P := fun x => ∃ f, x = running s f) (b := execEvict s) rfl ⟨_, by rfl⟩
  | fwdS  => exact form_of_arm (P := fun x => ∃ f, x = running s f) (b := execFwdS s) rfl ⟨_, by rfl⟩
  | fwdX  => exact form_of_arm (P := fun x => ∃ f, x = running s f) (b := execFwdX s) rfl ⟨_, by rfl⟩
  | inv  => exact form_of_arm (P := fun x => ∃ f, x = running s f) (b := execInv s) rfl ⟨_, by rfl⟩
  | dataS  => exact form_of_arm (P := fun x => ∃ f, x = running s f) (b := execDataS s) rfl ⟨_, by rfl⟩
  | dataX  => exact form_of_arm (P := fun x => ∃ f, x = running s f) (b := execDataX s) rfl ⟨_, by rfl⟩
  | grantX  => exact form_of_arm (P := fun x => ∃ f, x = running s f) (b := execGrantX s) rfl ⟨_, by rfl⟩
  | invAck  => exact form_of_arm (P := fun x => ∃ f, x = running s f) (b := execInvAck s) rfl ⟨_, by rfl⟩
  | fwdAck  => exact form_of_arm (P := fun x => ∃ f, x = running s f) (b := execFwdAck s) rfl ⟨_, by rfl⟩
  | comp  => exact form_of_arm (P := fun x => ∃ f, x = running s f) (b := execComp s) rfl ⟨_, by rfl⟩
  | wbAck  => exact form_of_arm (P := fun x => ∃ f, x = running s f) (b := execWbAck s) rfl ⟨_, by rfl⟩
  | retry  => exact form_of_arm (P := fun x => ∃ f, x = running s f) (b := execRetry s) rfl ⟨_, by rfl⟩
  | crdGrant  => exact form_of_arm (P := fun x => ∃ f, x = running s f) (b := execCrdGrant s) rfl ⟨_, by rfl⟩
  | atomResp  => exact form_of_arm (P := fun x => ∃ f, x = running s f) (b := execAtomResp s) rfl ⟨_, by rfl⟩
  | hostDataReturn a b c => exact form_of_arm (P := fun x => ∃ f, x = running s f) (b := execHostDataReturn a b c s) rfl ⟨_, by rfl⟩
  | hostSnoop => cases h
  | memrd => cases h
  | memwr => cases h
  | memwrptl => cases h
  | birsp a b c => exact form_of_arm (P := fun x => ∃ f, x = running s f) (b := execBirsp a b c s) rfl ⟨_, by rfl⟩
  | hdmDecoderCommit => cases h
  | transactionTimerExpire a => exact form_of_arm (P := fun x => ∃ f, x = running s f) (b := execTransactionTimerExpire a s) rfl ⟨_, by rfl⟩
  | requestTimerExpire a => exact form_of_arm (P := fun x => ∃ f, x = running s f) (b := execRequestTimerExpire a s) rfl ⟨_, by rfl⟩
  | creditReserveExpire a => exact form_of_arm (P := fun x => ∃ f, x = running s f) (b := execCreditReserveExpire a s) rfl ⟨_, by rfl⟩
  | declareDead => cases h
  | declareDeadWalkEnd  => exact form_of_arm (P := fun x => ∃ f, x = running s f) (b := execDeclareDeadWalkEnd s) rfl ⟨_, by rfl⟩
  | flush => cases h
  | flushEnd  => exact form_of_arm (P := fun x => ∃ f, x = running s f) (b := execFlushEnd s) rfl ⟨_, by rfl⟩
  | revive => cases h
  | pegTake => cases h
  | pegTry => cases h
  | pegRelease => cases h
  | watch => cases h
  | cancel => cases h
  | forceRelease => cases h
  | flushWaiters => cases h
  | stallLimit a b => exact form_of_arm (P := fun x => ∃ f, x = running s f) (b := execStallLimit a b s) rfl ⟨_, by rfl⟩
  | scrubRead a b c d => exact form_of_arm (P := fun x => ∃ f, x = running s f) (b := execScrubRead a b c d s) rfl ⟨_, by rfl⟩
  | correctedWriteBack a b => exact form_of_arm (P := fun x => ∃ f, x = running s f) (b := execCorrectedWriteBack a b s) rfl ⟨_, by rfl⟩
  | eccLapMissed a => exact form_of_arm (P := fun x => ∃ f, x = running s f) (b := execEccLapMissed a s) rfl ⟨_, by rfl⟩
  | eccWinRead => cases h
  | eccWinWrite => cases h
  | eccWinSel => cases h
  | fltForce => cases h
  | spill => cases h
  | escWindowRestart  => exact form_of_arm (P := fun x => ∃ f, x = running s f) (b := execEscWindowRestart s) rfl ⟨_, by rfl⟩
  | wakeCause a => exact form_of_arm (P := fun x => ∃ f, x = running s f) (b := execWakeCause a s) rfl ⟨_, by rfl⟩
  | wakeComplete  => exact form_of_arm (P := fun x => ∃ f, x = running s f) (b := execWakeComplete s) rfl ⟨_, by rfl⟩
  | pwrVrFault a => exact form_of_arm (P := fun x => ∃ f, x = running s f) (b := execPwrVrFault a s) rfl ⟨_, by rfl⟩
  | grainSample a b => exact form_of_arm (P := fun x => ∃ f, x = running s f) (b := execGrainSample a b s) rfl ⟨_, by rfl⟩
  | bypass => cases h
  | idcode => cases h
  | samplePreload => cases h
  | extest => cases h
  | highz => cases h
  | extestPulse => cases h
  | extestTrain => cases h
  | trstL => cases h
  | hostLinkUp => cases h
  | beatRefLock => cases h
  | setdasa => cases h
  | entdaa => cases h
  | flashEraseDone => cases h

/-- Every other command, but for the pins' and the test port's, is work of a device with power good. -/
theorem exec_powered (c : Instr) (s : State) (hm : movesPins c = false) (ht : usesTestPort c = false) (hn : needsRunning c = false) :
    ∃ f, exec c s = powered s f := by
  cases c with
  | registerWrite a b c d e f => exact form_of_arm (P := fun x => ∃ f, x = powered s f) (b := execRegisterWrite a b c d e f s) rfl ⟨_, by rfl⟩
  | unitEnable a b => exact form_of_arm (P := fun x => ∃ f, x = powered s f) (b := execUnitEnable a b s) rfl ⟨_, by rfl⟩
  | unitDisable a b => exact form_of_arm (P := fun x => ∃ f, x = powered s f) (b := execUnitDisable a b s) rfl ⟨_, by rfl⟩
  | beatBoundary a => exact form_of_arm (P := fun x => ∃ f, x = powered s f) (b := execBeatBoundary a s) rfl ⟨_, by rfl⟩
  | powerStateEntry => cases hn
  | armedCommit => cases hn
  | beaCommitArm a b => exact form_of_arm (P := fun x => ∃ f, x = powered s f) (b := execBeaCommitArm a b s) rfl ⟨_, by rfl⟩
  | beaCommitAt a b => exact form_of_arm (P := fun x => ∃ f, x = powered s f) (b := execBeaCommitAt a b s) rfl ⟨_, by rfl⟩
  | beaCount a b c => exact form_of_arm (P := fun x => ∃ f, x = powered s f) (b := execBeaCount a b c s) rfl ⟨_, by rfl⟩
  | beatXchgSend => cases hn
  | beatXchgRequest => cases hn
  | beatXchgResponse => cases hn
  | upstreamLost => cases hn
  | holdoverLimit => cases hn
  | masterAliveMissing => cases hn
  | listenWindowEnd => cases hn
  | ppsEdge a b c => exact form_of_arm (P := fun x => ∃ f, x = powered s f) (b := execPpsEdge a b c s) rfl ⟨_, by rfl⟩
  | beatRefLost  => exact form_of_arm (P := fun x => ∃ f, x = powered s f) (b := execBeatRefLost s) rfl ⟨_, by rfl⟩
  | pwrokRise => cases hm
  | pwrokFall => cases hm
  | rom a b c => exact form_of_arm (P := fun x => ∃ f, x = powered s f) (b := execRom a b c s) rfl ⟨_, by rfl⟩
  | firmware  => exact form_of_arm (P := fun x => ∃ f, x = powered s f) (b := execFirmware s) rfl ⟨_, by rfl⟩
  | bist a b c => exact form_of_arm (P := fun x => ∃ f, x = powered s f) (b := execBist a b c s) rfl ⟨_, by rfl⟩
  | load a => exact form_of_arm (P := fun x => ∃ f, x = powered s f) (b := execLoad a s) rfl ⟨_, by rfl⟩
  | warmRstLAssert => cases hm
  | warmRstLRelease => cases hm
  | glbDeviceReset a b => exact form_of_arm (P := fun x => ∃ f, x = powered s f) (b := execGlbDeviceReset a b s) rfl ⟨_, by rfl⟩
  | glbUnitReset a b => exact form_of_arm (P := fun x => ∃ f, x = powered s f) (b := execGlbUnitReset a b s) rfl ⟨_, by rfl⟩
  | unitResetComplete a => exact form_of_arm (P := fun x => ∃ f, x = powered s f) (b := execUnitResetComplete a s) rfl ⟨_, by rfl⟩
  | glbPortReset a b => exact form_of_arm (P := fun x => ∃ f, x = powered s f) (b := execGlbPortReset a b s) rfl ⟨_, by rfl⟩
  | corePllUnlock a => exact form_of_arm (P := fun x => ∃ f, x = powered s f) (b := execCorePllUnlock a s) rfl ⟨_, by rfl⟩
  | fuseRead a b => exact form_of_arm (P := fun x => ∃ f, x = powered s f) (b := execFuseRead a b s) rfl ⟨_, by rfl⟩
  | watchdogExpire  => exact form_of_arm (P := fun x => ∃ f, x = powered s f) (b := execWatchdogExpire s) rfl ⟨_, by rfl⟩
  | foremanRestartDone  => exact form_of_arm (P := fun x => ∃ f, x = powered s f) (b := execForemanRestartDone s) rfl ⟨_, by rfl⟩
  | routesReady a b => exact form_of_arm (P := fun x => ∃ f, x = powered s f) (b := execRoutesReady a b s) rfl ⟨_, by rfl⟩
  | pushBegin a b c d => exact form_of_arm (P := fun x => ∃ f, x = powered s f) (b := execPushBegin a b c d s) rfl ⟨_, by rfl⟩
  | pushData a b c d => exact form_of_arm (P := fun x => ∃ f, x = powered s f) (b := execPushData a b c d s) rfl ⟨_, by rfl⟩
  | pushEnd a b c => exact form_of_arm (P := fun x => ∃ f, x = powered s f) (b := execPushEnd a b c s) rfl ⟨_, by rfl⟩
  | trsSlotCheck a b => exact form_of_arm (P := fun x => ∃ f, x = powered s f) (b := execTrsSlotCheck a b s) rfl ⟨_, by rfl⟩
  | slotCheckComplete a => exact form_of_arm (P := fun x => ∃ f, x = powered s f) (b := execSlotCheckComplete a s) rfl ⟨_, by rfl⟩
  | ident a b => exact form_of_arm (P := fun x => ∃ f, x = powered s f) (b := execIdent a b s) rfl ⟨_, by rfl⟩
  | regRead a b c d => exact form_of_arm (P := fun x => ∃ f, x = powered s f) (b := execRegRead a b c d s) rfl ⟨_, by rfl⟩
  | regWrite a b c d => exact form_of_arm (P := fun x => ∃ f, x = powered s f) (b := execRegWrite a b c d s) rfl ⟨_, by rfl⟩
  | telemetry a b => exact form_of_arm (P := fun x => ∃ f, x = powered s f) (b := execTelemetry a b s) rfl ⟨_, by rfl⟩
  | beatRead a b => exact form_of_arm (P := fun x => ∃ f, x = powered s f) (b := execBeatRead a b s) rfl ⟨_, by rfl⟩
  | mailboxSpill a b c => exact form_of_arm (P := fun x => ∃ f, x = powered s f) (b := execMailboxSpill a b c s) rfl ⟨_, by rfl⟩
  | unitReset a b c => exact form_of_arm (P := fun x => ∃ f, x = powered s f) (b := execUnitReset a b c s) rfl ⟨_, by rfl⟩
  | portReset a b c => exact form_of_arm (P := fun x => ∃ f, x = powered s f) (b := execPortReset a b c s) rfl ⟨_, by rfl⟩
  | lanePower a b c d => exact form_of_arm (P := fun x => ∃ f, x = powered s f) (b := execLanePower a b c d s) rfl ⟨_, by rfl⟩
  | deviceReset a b => exact form_of_arm (P := fun x => ∃ f, x = powered s f) (b := execDeviceReset a b s) rfl ⟨_, by rfl⟩
  | flashRead a b c d => exact form_of_arm (P := fun x => ∃ f, x = powered s f) (b := execFlashRead a b c d s) rfl ⟨_, by rfl⟩
  | flashErase a b c => exact form_of_arm (P := fun x => ∃ f, x = powered s f) (b := execFlashErase a b c s) rfl ⟨_, by rfl⟩
  | flashWrite a b c d => exact form_of_arm (P := fun x => ∃ f, x = powered s f) (b := execFlashWrite a b c d s) rfl ⟨_, by rfl⟩
  | slotCheck a b c => exact form_of_arm (P := fun x => ∃ f, x = powered s f) (b := execSlotCheck a b c s) rfl ⟨_, by rfl⟩
  | fuseKey a b c d e => exact form_of_arm (P := fun x => ∃ f, x = powered s f) (b := execFuseKey a b c d e s) rfl ⟨_, by rfl⟩
  | fuseRevoke a b c d => exact form_of_arm (P := fun x => ∃ f, x = powered s f) (b := execFuseRevoke a b c d s) rfl ⟨_, by rfl⟩
  | fuseFloor a b c d => exact form_of_arm (P := fun x => ∃ f, x = powered s f) (b := execFuseFloor a b c d s) rfl ⟨_, by rfl⟩
  | mailboxPegTake a b c => exact form_of_arm (P := fun x => ∃ f, x = powered s f) (b := execMailboxPegTake a b c s) rfl ⟨_, by rfl⟩
  | mailboxPegRelease a b c => exact form_of_arm (P := fun x => ∃ f, x = powered s f) (b := execMailboxPegRelease a b c s) rfl ⟨_, by rfl⟩
  | pegSupervisor a b c => exact form_of_arm (P := fun x => ∃ f, x = powered s f) (b := execPegSupervisor a b c s) rfl ⟨_, by rfl⟩
  | setEndpointId a b => exact form_of_arm (P := fun x => ∃ f, x = powered s f) (b := execSetEndpointId a b s) rfl ⟨_, by rfl⟩
  | getEndpointId a => exact form_of_arm (P := fun x => ∃ f, x = powered s f) (b := execGetEndpointId a s) rfl ⟨_, by rfl⟩
  | getMctpVersionSupport a b => exact form_of_arm (P := fun x => ∃ f, x = powered s f) (b := execGetMctpVersionSupport a b s) rfl ⟨_, by rfl⟩
  | getMessageTypeSupport a => exact form_of_arm (P := fun x => ∃ f, x = powered s f) (b := execGetMessageTypeSupport a s) rfl ⟨_, by rfl⟩
  | getVendorDefinedMessage a b => exact form_of_arm (P := fun x => ∃ f, x = powered s f) (b := execGetVendorDefinedMessage a b s) rfl ⟨_, by rfl⟩
  | go a => exact form_of_arm (P := fun x => ∃ f, x = powered s f) (b := execGo a s) rfl ⟨_, by rfl⟩
  | calibrationDone => cases hn
  | capabilitySet => cases hn
  | countdownEnd => cases hn
  | capsTimeout => cases hn
  | trainUsEnd => cases hn
  | checkUsEnd => cases hn
  | resultBlock => cases hn
  | resultWaitEnd => cases hn
  | retryMs => cases hn
  | laneLockLost => cases hn
  | pllUnlock a => exact form_of_arm (P := fun x => ∃ f, x = powered s f) (b := execPllUnlock a s) rfl ⟨_, by rfl⟩
  | pllLock a => exact form_of_arm (P := fun x => ∃ f, x = powered s f) (b := execPllLock a s) rfl ⟨_, by rfl⟩
  | restart a b => exact form_of_arm (P := fun x => ∃ f, x = powered s f) (b := execRestart a b s) rfl ⟨_, by rfl⟩
  | modeTest a b => exact form_of_arm (P := fun x => ∃ f, x = powered s f) (b := execModeTest a b s) rfl ⟨_, by rfl⟩
  | modeOperate a b => exact form_of_arm (P := fun x => ∃ f, x = powered s f) (b := execModeOperate a b s) rfl ⟨_, by rfl⟩
  | powerDown a b => exact form_of_arm (P := fun x => ∃ f, x = powered s f) (b := execPowerDown a b s) rfl ⟨_, by rfl⟩
  | ffeReq => cases hn
  | ffeAck => cases hn
  | widthReq => cases hn
  | widthAck => cases hn
  | widthReqRepeat => cases hn
  | widthChange => cases hn
  | widthMarker => cases hn
  | reacquisition => cases hn
  | reacquisitionEnd => cases hn
  | eqFreezeEnd => cases hn
  | inject a b => exact form_of_arm (P := fun x => ∃ f, x = powered s f) (b := execInject a b s) rfl ⟨_, by rfl⟩
  | clear a b => exact form_of_arm (P := fun x => ∃ f, x = powered s f) (b := execClear a b s) rfl ⟨_, by rfl⟩
  | checkerLock => cases hn
  | flitReceive => cases hn
  | nak => cases hn
  | fence => cases hn
  | credit => cases hn
  | flitTransmit a b => exact form_of_arm (P := fun x => ∃ f, x = powered s f) (b := execFlitTransmit a b s) rfl ⟨_, by rfl⟩
  | nakRetry => cases hn
  | ackTimeout => cases hn
  | healthWindowRestart => cases hn
  | noprogUs => cases hn
  | initTimeout => cases hn
  | fenceComplete a => exact form_of_arm (P := fun x => ∃ f, x = powered s f) (b := execFenceComplete a s) rfl ⟨_, by rfl⟩
  | corrupt a b => exact form_of_arm (P := fun x => ∃ f, x = powered s f) (b := execCorrupt a b s) rfl ⟨_, by rfl⟩
  | packetArrive => cases hn
  | packetInject => cases hn
  | packetForward => cases hn
  | limiterFree => cases hn
  | echo => cases hn
  | mgmtWrite => cases hn
  | mgmtRead => cases hn
  | mgmtResp => cases hn
  | mcPutEntry => cases hn
  | mcPut => cases hn
  | collectiveEntry => cases hn
  | cfUp => cases hn
  | cfDown => cases hn
  | cfGrant => cases hn
  | cfAbort => cases hn
  | chunkCombine => cases hn
  | chunkSend => cases hn
  | phaseTimeout => cases hn
  | treeLoad a b => exact form_of_arm (P := fun x => ∃ f, x = powered s f) (b := execTreeLoad a b s) rfl ⟨_, by rfl⟩
  | treeReset a b c => exact form_of_arm (P := fun x => ∃ f, x = powered s f) (b := execTreeReset a b c s) rfl ⟨_, by rfl⟩
  | treeUnload a b => exact form_of_arm (P := fun x => ∃ f, x = powered s f) (b := execTreeUnload a b s) rfl ⟨_, by rfl⟩
  | treeAbort a b => exact form_of_arm (P := fun x => ∃ f, x = powered s f) (b := execTreeAbort a b s) rfl ⟨_, by rfl⟩
  | descriptorFetchDone => cases hn
  | contextFetchDone => cases hn
  | contextStatusRead a b c => exact form_of_arm (P := fun x => ∃ f, x = powered s f) (b := execContextStatusRead a b c s) rfl ⟨_, by rfl⟩
  | qCreate a b => exact form_of_arm (P := fun x => ∃ f, x = powered s f) (b := execQCreate a b s) rfl ⟨_, by rfl⟩
  | qDestroy a b => exact form_of_arm (P := fun x => ∃ f, x = powered s f) (b := execQDestroy a b s) rfl ⟨_, by rfl⟩
  | cqCreate a b => exact form_of_arm (P := fun x => ∃ f, x = powered s f) (b := execCqCreate a b s) rfl ⟨_, by rfl⟩
  | cqReset a b => exact form_of_arm (P := fun x => ∃ f, x = powered s f) (b := execCqReset a b s) rfl ⟨_, by rfl⟩
  | cqDestroy a b => exact form_of_arm (P := fun x => ∃ f, x = powered s f) (b := execCqDestroy a b s) rfl ⟨_, by rfl⟩
  | qEnable a b => exact form_of_arm (P := fun x => ∃ f, x = powered s f) (b := execQEnable a b s) rfl ⟨_, by rfl⟩
  | qDisable a b => exact form_of_arm (P := fun x => ∃ f, x = powered s f) (b := execQDisable a b s) rfl ⟨_, by rfl⟩
  | hifSqDb a b c => exact form_of_arm (P := fun x => ∃ f, x = powered s f) (b := execHifSqDb a b c s) rfl ⟨_, by rfl⟩
  | hifCqDb a b c => exact form_of_arm (P := fun x => ∃ f, x = powered s f) (b := execHifCqDb a b c s) rfl ⟨_, by rfl⟩
  | hifEqDb a b c => exact form_of_arm (P := fun x => ∃ f, x = powered s f) (b := execHifEqDb a b c s) rfl ⟨_, by rfl⟩
  | pushWrite a b c d => exact form_of_arm (P := fun x => ∃ f, x = powered s f) (b := execPushWrite a b c d s) rfl ⟨_, by rfl⟩
  | pushHalfExpire => cases hn
  | ringReadDone => cases hn
  | dataReadDone => cases hn
  | nopEntry => cases hn
  | cqOverflow => cases hn
  | modTimeExpire => cases hn
  | msixUnmask a b => exact form_of_arm (P := fun x => ∃ f, x = powered s f) (b := execMsixUnmask a b s) rfl ⟨_, by rfl⟩
  | hostLinkDown a => exact form_of_arm (P := fun x => ∃ f, x = powered s f) (b := execHostLinkDown a s) rfl ⟨_, by rfl⟩
  | flr a => exact form_of_arm (P := fun x => ∃ f, x = powered s f) (b := execFlr a s) rfl ⟨_, by rfl⟩
  | perstL => cases hm
  | ltrUpdate a b c d => exact form_of_arm (P := fun x => ∃ f, x = powered s f) (b := execLtrUpdate a b c d s) rfl ⟨_, by rfl⟩
  | regEnable a b => exact form_of_arm (P := fun x => ∃ f, x = powered s f) (b := execRegEnable a b s) rfl ⟨_, by rfl⟩
  | regDisable a b => exact form_of_arm (P := fun x => ∃ f, x = powered s f) (b := execRegDisable a b s) rfl ⟨_, by rfl⟩
  | regDisableComplete => cases hn
  | rmaQinfo a => exact form_of_arm (P := fun x => ∃ f, x = powered s f) (b := execRmaQinfo a s) rfl ⟨_, by rfl⟩
  | putEntry => cases hn
  | putImmEntry => cases hn
  | getEntry => cases hn
  | atomicEntry => cases hn
  | put => cases hn
  | putImm => cases hn
  | getReq => cases hn
  | atomicReq => cases hn
  | atomicComplete => cases hn
  | ackDelay => cases hn
  | ack => cases hn
  | nakPacket => cases hn
  | getResp => cases hn
  | atomicResp => cases hn
  | rtoExpire => cases hn
  | backoffExpire => cases hn
  | atomicRecordExpire => cases hn
  | mlCreate a => exact form_of_arm (P := fun x => ∃ f, x = powered s f) (b := execMlCreate a s) rfl ⟨_, by rfl⟩
  | mlDestroy a b => exact form_of_arm (P := fun x => ∃ f, x = powered s f) (b := execMlDestroy a b s) rfl ⟨_, by rfl⟩
  | sendEntry => cases hn
  | recvEntry => cases hn
  | cancelEntry => cases hn
  | msgEager => cases hn
  | msgRts => cases hn
  | msgFin => cases hn
  | matchEvent => cases hn
  | spillReadDone => cases hn
  | spillRefill => cases hn
  | rendezvousStart => cases hn
  | rdS => cases hn
  | rdX => cases hn
  | upg => cases hn
  | atom => cases hn
  | wb => cases hn
  | evict => cases hn
  | fwdS => cases hn
  | fwdX => cases hn
  | inv => cases hn
  | dataS => cases hn
  | dataX => cases hn
  | grantX => cases hn
  | invAck => cases hn
  | fwdAck => cases hn
  | comp => cases hn
  | wbAck => cases hn
  | retry => cases hn
  | crdGrant => cases hn
  | atomResp => cases hn
  | hostDataReturn => cases hn
  | hostSnoop a b c => exact form_of_arm (P := fun x => ∃ f, x = powered s f) (b := execHostSnoop a b c s) rfl ⟨_, by rfl⟩
  | memrd a b c d => exact form_of_arm (P := fun x => ∃ f, x = powered s f) (b := execMemrd a b c d s) rfl ⟨_, by rfl⟩
  | memwr a b c d e => exact form_of_arm (P := fun x => ∃ f, x = powered s f) (b := execMemwr a b c d e s) rfl ⟨_, by rfl⟩
  | memwrptl a b c d e f => exact form_of_arm (P := fun x => ∃ f, x = powered s f) (b := execMemwrptl a b c d e f s) rfl ⟨_, by rfl⟩
  | birsp => cases hn
  | hdmDecoderCommit a b c d e => exact form_of_arm (P := fun x => ∃ f, x = powered s f) (b := execHdmDecoderCommit a b c d e s) rfl ⟨_, by rfl⟩
  | transactionTimerExpire => cases hn
  | requestTimerExpire => cases hn
  | creditReserveExpire => cases hn
  | declareDead a b => exact form_of_arm (P := fun x => ∃ f, x = powered s f) (b := execDeclareDead a b s) rfl ⟨_, by rfl⟩
  | declareDeadWalkEnd => cases hn
  | flush a => exact form_of_arm (P := fun x => ∃ f, x = powered s f) (b := execFlush a s) rfl ⟨_, by rfl⟩
  | flushEnd => cases hn
  | revive a b => exact form_of_arm (P := fun x => ∃ f, x = powered s f) (b := execRevive a b s) rfl ⟨_, by rfl⟩
  | pegTake a b => exact form_of_arm (P := fun x => ∃ f, x = powered s f) (b := execPegTake a b s) rfl ⟨_, by rfl⟩
  | pegTry a b => exact form_of_arm (P := fun x => ∃ f, x = powered s f) (b := execPegTry a b s) rfl ⟨_, by rfl⟩
  | pegRelease a b => exact form_of_arm (P := fun x => ∃ f, x = powered s f) (b := execPegRelease a b s) rfl ⟨_, by rfl⟩
  | watch a b => exact form_of_arm (P := fun x => ∃ f, x = powered s f) (b := execWatch a b s) rfl ⟨_, by rfl⟩
  | cancel a b => exact form_of_arm (P := fun x => ∃ f, x = powered s f) (b := execCancel a b s) rfl ⟨_, by rfl⟩
  | forceRelease a b => exact form_of_arm (P := fun x => ∃ f, x = powered s f) (b := execForceRelease a b s) rfl ⟨_, by rfl⟩
  | flushWaiters a b => exact form_of_arm (P := fun x => ∃ f, x = powered s f) (b := execFlushWaiters a b s) rfl ⟨_, by rfl⟩
  | stallLimit => cases hn
  | scrubRead => cases hn
  | correctedWriteBack => cases hn
  | eccLapMissed => cases hn
  | eccWinRead a b => exact form_of_arm (P := fun x => ∃ f, x = powered s f) (b := execEccWinRead a b s) rfl ⟨_, by rfl⟩
  | eccWinWrite a b c => exact form_of_arm (P := fun x => ∃ f, x = powered s f) (b := execEccWinWrite a b c s) rfl ⟨_, by rfl⟩
  | eccWinSel a b => exact form_of_arm (P := fun x => ∃ f, x = powered s f) (b := execEccWinSel a b s) rfl ⟨_, by rfl⟩
  | fltForce a b c => exact form_of_arm (P := fun x => ∃ f, x = powered s f) (b := execFltForce a b c s) rfl ⟨_, by rfl⟩
  | spill a b => exact form_of_arm (P := fun x => ∃ f, x = powered s f) (b := execSpill a b s) rfl ⟨_, by rfl⟩
  | escWindowRestart => cases hn
  | wakeCause => cases hn
  | wakeComplete => cases hn
  | pwrVrFault => cases hn
  | grainSample => cases hn
  | bypass => cases ht
  | idcode => cases ht
  | samplePreload => cases ht
  | extest => cases ht
  | highz => cases ht
  | extestPulse => cases ht
  | extestTrain => cases ht
  | trstL => cases hm
  | hostLinkUp a b c d e f g => exact form_of_arm (P := fun x => ∃ f, x = powered s f) (b := execHostLinkUp a b c d e f g s) rfl ⟨_, by rfl⟩
  | beatRefLock  => exact form_of_arm (P := fun x => ∃ f, x = powered s f) (b := execBeatRefLock s) rfl ⟨_, by rfl⟩
  | setdasa a b => exact form_of_arm (P := fun x => ∃ f, x = powered s f) (b := execSetdasa a b s) rfl ⟨_, by rfl⟩
  | entdaa a => exact form_of_arm (P := fun x => ∃ f, x = powered s f) (b := execEntdaa a s) rfl ⟨_, by rfl⟩
  | flashEraseDone  => exact form_of_arm (P := fun x => ∃ f, x = powered s f) (b := execFlashEraseDone s) rfl ⟨_, by rfl⟩

end Sys2Proof.Machine
end

