-- ==== Sys2Proof/Laws/Fields.lean ====
section
/-! SUPPORT. The laws of fields in a word: what a field reads after another is replaced, and that a command that writes one
field of a register leaves the register's other fields. -/

namespace Sys2Proof.Machine

/-- Two fields of a word share no bit. -/
def apart (a b : Fld) : Bool := decide (a.lo + a.w ≤ b.lo) || decide (b.lo + b.w ≤ a.lo)

theorem putBits_eq (x lo w v : Nat) :
    putBits x lo w v = x % 2 ^ lo + 2 ^ lo * (v % 2 ^ w + 2 ^ w * (x / 2 ^ lo / 2 ^ w)) := by
  have h1 : x = x % 2 ^ lo + 2 ^ lo * (x / 2 ^ lo) := (Nat.mod_add_div x (2 ^ lo)).symm
  have h2 : x / 2 ^ lo = x / 2 ^ lo % 2 ^ w + 2 ^ w * (x / 2 ^ lo / 2 ^ w) := (Nat.mod_add_div _ (2 ^ w)).symm
  unfold putBits bits
  generalize x / 2 ^ lo / 2 ^ w = q at *
  generalize x / 2 ^ lo % 2 ^ w = m at *
  generalize x % 2 ^ lo = c at *
  rw [h2] at h1
  rw [h1]
  have e : c + 2 ^ lo * (m + 2 ^ w * q) - m * 2 ^ lo = c + 2 ^ lo * (2 ^ w * q) := by
    rw [Nat.mul_add, ← Nat.add_assoc, Nat.mul_comm m]; omega
  rw [e]; ring

/-- A field that was replaced reads its new value. -/
theorem bits_putBits_same (x lo w v : Nat) : bits (putBits x lo w v) lo w = v % 2 ^ w := by
  rw [putBits_eq]
  unfold bits
  rw [Nat.add_mul_div_left _ _ (Nat.two_pow_pos lo), Nat.div_eq_of_lt (Nat.mod_lt _ (Nat.two_pow_pos lo)), Nat.zero_add,
    Nat.add_mul_mod_self_left, Nat.mod_mod]

/-- A field below one that was replaced reads as before. -/
theorem bits_putBits_below (x lo w v lo' w' : Nat) (h : lo' + w' ≤ lo) : bits (putBits x lo w v) lo' w' = bits x lo' w' := by
  rw [putBits_eq]
  unfold bits
  obtain ⟨k, rfl⟩ := Nat.exists_eq_add_of_le h
  have key : ∀ y : Nat, (x % 2 ^ (lo' + w' + k) + 2 ^ (lo' + w' + k) * y) / 2 ^ lo' % 2 ^ w' = x / 2 ^ lo' % 2 ^ w' := by
    intro y
    have a : x / 2 ^ lo' % 2 ^ w' = x % 2 ^ (lo' + w') / 2 ^ lo' := by
      rw [Nat.pow_add, Nat.mod_mul_right_div_self]
    have b : ∀ z : Nat, z / 2 ^ lo' % 2 ^ w' = z % 2 ^ (lo' + w') / 2 ^ lo' := by
      intro z; rw [Nat.pow_add, Nat.mod_mul_right_div_self]
    rw [b, a]
    congr 1
    rw [Nat.pow_add 2 (lo' + w') k, Nat.mul_assoc, Nat.add_mul_mod_self_left, Nat.mod_mul_right_mod]
  exact key _

/-- A field above one that was replaced reads as before. -/
theorem bits_putBits_above (x lo w v lo' w' : Nat) (h : lo + w ≤ lo') : bits (putBits x lo w v) lo' w' = bits x lo' w' := by
  rw [putBits_eq]
  unfold bits
  obtain ⟨k, rfl⟩ := Nat.exists_eq_add_of_le h
  have b : ∀ z : Nat, z / 2 ^ (lo + w + k) = z / 2 ^ lo / 2 ^ w / 2 ^ k := by
    intro z; rw [Nat.pow_add, Nat.pow_add, Nat.div_div_eq_div_mul, Nat.div_div_eq_div_mul]; ring_nf
  rw [b, b x]
  rw [Nat.add_mul_div_left _ _ (Nat.two_pow_pos lo), Nat.div_eq_of_lt (Nat.mod_lt _ (Nat.two_pow_pos lo)), Nat.zero_add,
    Nat.add_mul_div_left _ _ (Nat.two_pow_pos w), Nat.div_eq_of_lt (Nat.mod_lt _ (Nat.two_pow_pos w)), Nat.zero_add]

/-- A field apart from the one that was replaced reads as before. -/
theorem bits_fieldIn_apart {a b : Fld} (x v : Nat) (h : apart a b = true) :
    bits (fieldIn x a v) b.lo b.w = bits x b.lo b.w := by
  simp only [apart, Bool.or_eq_true, decide_eq_true_eq] at h
  unfold fieldIn
  rcases h with h | h
  · exact bits_putBits_above _ _ _ _ _ _ h
  · exact bits_putBits_below _ _ _ _ _ _ h

/-- What a word that holds the RW fields of a list reads in one of them. -/
theorem bits_heldWord (l : List Fld) (g : Fld → Nat) (x : Nat) (e : Fld)
    (h : ∀ a ∈ l, a ≠ e → apart a e = true) (hm : e ∈ l ∨ bits x e.lo e.w = if e.acc = .RW then g e % 2 ^ e.w else 0)
    (hx : bits x e.lo e.w = 0 ∨ bits x e.lo e.w = if e.acc = .RW then g e % 2 ^ e.w else 0) :
    bits (l.foldl (fun x a => if a.acc = .RW then fieldIn x a (g a) else x) x) e.lo e.w =
      if e.acc = .RW then g e % 2 ^ e.w else 0 := by
  induction l generalizing x with
  | nil => simpa using hm
  | cons a r ih =>
    simp only [List.foldl_cons]
    by_cases hae : a = e
    · subst hae
      by_cases hr : a.acc = .RW
      · rw [if_pos hr]
        have hb : bits (fieldIn x a (g a)) a.lo a.w = if a.acc = .RW then g a % 2 ^ a.w else 0 := by
          rw [if_pos hr]; exact bits_putBits_same _ _ _ _
        exact ih _ (fun b hb => h b (List.mem_cons_of_mem _ hb)) (.inr hb) (.inr hb)
      · rw [if_neg hr]
        have hb : bits x a.lo a.w = if a.acc = .RW then g a % 2 ^ a.w else 0 := by
          rcases hx with hx | hx
          · rw [hx, if_neg hr]
          · exact hx
        exact ih _ (fun b hb => h b (List.mem_cons_of_mem _ hb)) (.inr hb) (.inr hb)
    · have hb : bits (if a.acc = .RW then fieldIn x a (g a) else x) e.lo e.w = bits x e.lo e.w := by
        split
        · exact bits_fieldIn_apart _ _ (h a (by simp) hae)
        · rfl
      refine ih _ (fun b hb => h b (List.mem_cons_of_mem _ hb)) ?_ (by rw [hb]; exact hx)
      rcases hm with hm | hm
      · exact .inl (by simpa [Ne.symm hae] using hm)
      · exact .inr (by rw [hb]; exact hm)

/-- The fields of a register share no bit. -/
def Reg.tidy (r : Reg) : Bool := r.fields.all (fun a => r.fields.all (fun b => decide (a = b) || apart a b))

theorem apart_of_tidy {r : Reg} (h : r.tidy = true) {a b : Fld} (ha : a ∈ r.fields) (hb : b ∈ r.fields) (hn : a ≠ b) :
    apart a b = true := by
  simp only [Reg.tidy, List.all_eq_true, Bool.or_eq_true, decide_eq_true_eq] at h
  exact (h a ha b hb).resolve_left hn

/-- No two fields of a register share a bit, in the whole map. -/
theorem reg_tidy (r : Reg) : r.tidy = true := by cases r <;> decide

/-- A one-field write leaves every other field as it is held, and carries the field's own value. -/
theorem bits_fieldWord (s : State) (who : Who) {r : Reg} (d : Fld) (hr : d.reg = r) (i v : Nat) (hd : d ∈ r.fields)
    (e : Fld) (he : e ∈ r.fields) :
    bits (s.fieldWord who d i v) e.lo e.w =
      if e = d then v % 2 ^ d.w else if e.acc = .RW then s.heldVal e (s.cellOf who r i).1 (s.cellOf who r i).2 % 2 ^ e.w else 0 := by
  subst hr
  have z : ∀ lo w, bits 0 lo w = 0 := by intro lo w; simp [bits]
  unfold State.fieldWord
  by_cases h : e = d
  · subst h
    rw [if_pos rfl]
    exact bits_putBits_same _ _ _ _
  · rw [if_neg h, bits_fieldIn_apart _ _ (apart_of_tidy (reg_tidy _) hd he (Ne.symm h))]
    exact bits_heldWord _ (fun e => s.heldVal e (s.cellOf who d.reg i).1 (s.cellOf who d.reg i).2) 0 e
      (fun a ha hn => apart_of_tidy (reg_tidy _) ha he hn) (.inl he) (.inl (z _ _))

/-- A register that is no event ring's is its requester's own, at its index (R219). -/
@[simp] theorem cellOf_of_not_ring (s : State) (who : Who) (r : Reg) (i : Nat) (h : r.ring = false) :
    s.cellOf who r i = (instOf who r, i) := by
  unfold State.cellOf
  split <;> simp [h]

theorem reg_nodup (r : Reg) : r.fields.Nodup := by cases r <;> decide

theorem foldl_one {α β : Type} (f : α → β → α) (l : List β) (d : β) (a : α) (hn : l.Nodup) (hd : d ∈ l)
    (h : ∀ x, ∀ e ∈ l, e ≠ d → f x e = x) : l.foldl f a = f a d := by
  induction l generalizing a with
  | nil => simp at hd
  | cons b r ih =>
    simp only [List.foldl_cons]
    rw [List.nodup_cons] at hn
    by_cases hb : b = d
    · subst hb
      have : ∀ x, r.foldl f x = x := by
        intro x
        have hr : ∀ e ∈ r, e ≠ b := fun e he heq => hn.1 (heq ▸ he)
        clear ih hn hd
        induction r generalizing x with
        | nil => rfl
        | cons c t iht =>
          rw [List.foldl_cons, h x c (by simp) (hr c (by simp))]
          exact iht (fun x e he hne => h x e (by rcases List.mem_cons.1 he with rfl | he <;> simp [*]) hne) x
            (fun e he => hr e (by simp [he]))
      exact this _
    · rw [h a b (by simp) hb]
      exact ih a hn.2 (by simpa [Ne.symm hb] using hd) (fun x e he hne => h x e (by simp [he]) hne)

/-- A one-field write meets one field: the register's others stay as they are held (HIF_EQ_CFG does more, once all its fields are
written). -/
theorem putFields_fieldWord (s : State) (who : Who) {r : Reg} (d : Fld) (hr : d.reg = r) (i v : Nat) (hd : d ∈ r.fields)
    (hf : s.fits who r i = true) (hq : r ≠ .HIF_EQ_CFG) :
    s.putFields who r (s.cellOf who r i).1 (s.cellOf who r i).2 (s.fieldWord who d i v) =
      s.putField who (s.cellOf who r i).1 (s.cellOf who r i).2 (s.fieldWord who d i v) (s, false) d := by
  unfold State.putFields
  simp only [hq, if_false]
  refine foldl_one _ _ d _ (reg_nodup r) hd (fun x e he hne => ?_)
  simp only [State.fits, List.all_eq_true, decide_eq_true_eq] at hf
  have hb := bits_fieldWord s who d hr i v hd e he
  rw [if_neg hne] at hb
  unfold State.putField
  simp only [hb]
  cases h : e.acc <;> simp [Nat.mod_eq_of_lt (hf e he)]

end Sys2Proof.Machine
end

