-- ==== Sys2Proof/Laws/Table.lean ====
section
/-! SUPPORT. The laws of tables: what is read after a change, and the canonical form that every change keeps. -/

namespace Sys2Proof.Machine

variable {v : Type}

@[simp] theorem tabGet_put_same (t : Tab v) (i : Nat) (y : v) : tabGet (tabPut t i y) i = some y := by
  induction t with
  | nil => simp [tabPut, tabGet]
  | cons e r ih =>
    obtain ⟨k, x⟩ := e
    unfold tabPut
    split
    · simp [tabGet]
    · split
      · simp [tabGet]
      · simp [tabGet, *]

theorem tabGet_put_ne (t : Tab v) {i j : Nat} (y : v) (h : j ≠ i) : tabGet (tabPut t i y) j = tabGet t j := by
  induction t with
  | nil => simp [tabPut, tabGet, h]
  | cons e r ih =>
    obtain ⟨k, x⟩ := e
    unfold tabPut
    split
    · simp [tabGet, h]
    · split
      · subst_vars; simp [tabGet, h]
      · simp [tabGet, ih]

theorem tabGet_del_ne (t : Tab v) {i j : Nat} (h : j ≠ i) : tabGet (tabDel t i) j = tabGet t j := by
  induction t with
  | nil => simp [tabDel]
  | cons e r ih =>
    obtain ⟨k, x⟩ := e
    unfold tabDel
    split
    · subst_vars; simp [tabGet, h, ih]
    · simp [tabGet, ih]

/-- Putting twice at one key is putting the second value. -/
@[simp] theorem tabPut_put (t : Tab v) (i : Nat) (x y : v) : tabPut (tabPut t i x) i y = tabPut t i y := by
  induction t with
  | nil => simp [tabPut]
  | cons e r ih =>
    obtain ⟨k, z⟩ := e
    rcases Nat.lt_trichotomy i k with h | h | h
    · simp [tabPut, h]
    · simp [tabPut, h]
    · have h1 : ¬ i < k := by omega
      have h2 : ¬ i = k := by omega
      simp [tabPut, h1, h2, ih]

/-- In canonical form every key after the first is above it. -/
theorem tabWf_cons {k : Nat} {x : v} {t : Tab v} (h : tabWf ((k, x) :: t) = true) :
    tabWf t = true ∧ ∀ e ∈ t, k < e.1 := by
  induction t generalizing k x with
  | nil => simp [tabWf]
  | cons e r ih =>
    obtain ⟨k', y⟩ := e
    simp only [tabWf, Bool.and_eq_true, decide_eq_true_eq] at h
    refine ⟨h.2, fun e he => ?_⟩
    rcases List.mem_cons.1 he with rfl | he
    · exact h.1
    · exact Nat.lt_trans h.1 ((ih h.2).2 e he)

theorem tabWf_of_cons {k : Nat} {x : v} {t : Tab v} (h : tabWf t = true) (hk : ∀ e ∈ t, k < e.1) :
    tabWf ((k, x) :: t) = true := by
  cases t with
  | nil => rfl
  | cons e r => obtain ⟨k', y⟩ := e; simp only [tabWf, Bool.and_eq_true, decide_eq_true_eq]; exact ⟨hk (k', y) (by simp), h⟩

theorem tabGet_none_of_lt {t : Tab v} {i : Nat} (h : ∀ e ∈ t, i < e.1) : tabGet t i = none := by
  induction t with
  | nil => rfl
  | cons e r ih =>
    obtain ⟨k, x⟩ := e
    have hk : i < k := h (k, x) (by simp)
    have : ¬ i = k := by omega
    simp [tabGet, this, ih (fun e he => h e (by simp [he]))]

theorem tabPut_keys {t : Tab v} {i : Nat} {y : v} {e : Nat × v} (h : e ∈ tabPut t i y) : e = (i, y) ∨ e ∈ t := by
  induction t with
  | nil => simpa [tabPut] using h
  | cons a r ih =>
    obtain ⟨k, x⟩ := a
    unfold tabPut at h
    split at h
    · rcases List.mem_cons.1 h with h | h
      · exact .inl h
      · exact .inr h
    · split at h
      · rcases List.mem_cons.1 h with h | h
        · exact .inl h
        · exact .inr (by simp [h])
      · rcases List.mem_cons.1 h with h | h
        · exact .inr (by simp [h])
        · rcases ih h with h | h
          · exact .inl h
          · exact .inr (by simp [h])

theorem tabDel_keys {t : Tab v} {i : Nat} {e : Nat × v} (h : e ∈ tabDel t i) : e ∈ t := by
  induction t with
  | nil => simp [tabDel] at h
  | cons a r ih =>
    obtain ⟨k, x⟩ := a
    unfold tabDel at h
    split at h
    · simp [ih h]
    · rcases List.mem_cons.1 h with h | h
      · simp [h]
      · simp [ih h]

theorem tabWf_put {t : Tab v} (i : Nat) (y : v) (h : tabWf t = true) : tabWf (tabPut t i y) = true := by
  induction t with
  | nil => rfl
  | cons e r ih =>
    obtain ⟨k, x⟩ := e
    obtain ⟨hr, hk⟩ := tabWf_cons h
    unfold tabPut
    split
    · rename_i hlt
      refine tabWf_of_cons h (fun e he => ?_)
      rcases List.mem_cons.1 he with rfl | he
      · exact hlt
      · exact Nat.lt_trans hlt (hk e he)
    · split
      · subst_vars; exact tabWf_of_cons hr hk
      · refine tabWf_of_cons (ih hr) (fun e he => ?_)
        rcases tabPut_keys he with rfl | he
        · simp only; omega
        · exact hk e he

theorem tabWf_del {t : Tab v} (i : Nat) (h : tabWf t = true) : tabWf (tabDel t i) = true := by
  induction t with
  | nil => rfl
  | cons e r ih =>
    obtain ⟨k, x⟩ := e
    obtain ⟨hr, hk⟩ := tabWf_cons h
    unfold tabDel
    split
    · exact ih hr
    · exact tabWf_of_cons (ih hr) (fun e he => hk e (tabDel_keys he))

/-- Every change of a table keeps the canonical form. -/
theorem tabWf_set [DecidableEq v] {t : Tab v} (i : Nat) (d y : v) (h : tabWf t = true) : tabWf (tabSet t i d y) = true := by
  unfold tabSet
  split
  · exact tabWf_del i h
  · exact tabWf_put i y h

@[simp] theorem tabGet_del_same (t : Tab v) (i : Nat) : tabGet (tabDel t i) i = none := by
  induction t with
  | nil => rfl
  | cons e r ih =>
    obtain ⟨k, x⟩ := e
    unfold tabDel
    split
    · exact ih
    · rename_i hne
      simp [tabGet, hne, ih]

/-- A value that is set is read. -/
@[simp] theorem tabGetD_set_same [DecidableEq v] (t : Tab v) (i : Nat) (d y : v) : tabGetD (tabSet t i d y) i d = y := by
  unfold tabGetD tabSet
  split
  · subst_vars; simp
  · simp

/-- Other keys keep their values. -/
theorem tabGetD_set_ne [DecidableEq v] (t : Tab v) {i j : Nat} (d y e : v) (h : j ≠ i) :
    tabGetD (tabSet t i d y) j e = tabGetD t j e := by
  unfold tabGetD tabSet
  split
  · rw [tabGet_del_ne t h]
  · rw [tabGet_put_ne t y h]

end Sys2Proof.Machine
end

