-- ==== Sys2Proof/Laws/Peg.lean ====
section
/-! SUPPORT. The laws of the Pegs' table. -/

namespace Sys2Proof.Machine

/-- A Peg is read as it was set. -/
@[simp] theorem pg_setPg (s : State) (i : Nat) (p : PegSt) : (s.setPg i p).pg i = p := tabGetD_set_same s.peg i .init p

/-- Other Pegs stay as they are. -/
theorem pg_setPg_ne (s : State) {i k : Nat} (p : PegSt) (h : k ≠ i) : (s.setPg i p).pg k = s.pg k :=
  tabGetD_set_ne s.peg .init p .init h

/-- A free Peg without waiters is handed to nobody. -/
theorem pegHand_of_empty {s : State} {i : Nat} (h : (s.pg i).waiters = []) : s.pegHand i = s := by
  simp [State.pegHand, h]

/-- A free Peg goes to the stalled read at the head of its queue. -/
theorem pegHand_of_stalled {s : State} {i : Nat} {f : Fn} {r : List (Fn × Bool)} (h : (s.pg i).waiters = (f, true) :: r) :
    s.pegHand i = (s.setPg i ⟨some (fnOwner f), ((s.pg i).grants + 1) % 2 ^ 32, false, false, r⟩).emit
      (.pegValue f ((s.setPg i ⟨some (fnOwner f), ((s.pg i).grants + 1) % 2 ^ 32, false, false, r⟩).pegLocal f i)
        (pegWord pgGot (s.pg i).abandoned (s.pg i).forced (fnOwner f) 0 (((s.pg i).grants + 1) % 2 ^ 32))) := by
  simp [State.pegHand, h, PegSt.grant, gotWord]

/-- Where the function's window lies does not depend on the Pegs. -/
theorem pegLocal_setPg (s : State) (f : Fn) (i j : Nat) (p : PegSt) : (s.setPg j p).pegLocal f i = s.pegLocal f i := by
  cases f <;> rfl

end Sys2Proof.Machine
end

