-- ==== Sys2Proof/Laws/State.lean ====
section
/-! SUPPORT. What each named update of the state leaves as it was, one lemma for each field, and what registers read after one. -/

namespace Sys2Proof.Machine

/-! ### State.emit -/

@[simp] theorem emit_regs (s : State) (o : Out) : (s.emit o).regs = s.regs := rfl
@[simp] theorem emit_shadow (s : State) (o : Out) : (s.emit o).shadow = s.shadow := rfl
@[simp] theorem emit_acts (s : State) (o : Out) : (s.emit o).acts = s.acts := rfl
@[simp] theorem emit_free (s : State) (o : Out) : (s.emit o).free = s.free := rfl
@[simp] theorem emit_bea (s : State) (o : Out) : (s.emit o).bea = s.bea := rfl
@[simp] theorem emit_trs (s : State) (o : Out) : (s.emit o).trs = s.trs := rfl
@[simp] theorem emit_pins (s : State) (o : Out) : (s.emit o).pins = s.pins := rfl
@[simp] theorem emit_boot (s : State) (o : Out) : (s.emit o).boot = s.boot := rfl
@[simp] theorem emit_lnk (s : State) (o : Out) : (s.emit o).lnk = s.lnk := rfl
@[simp] theorem emit_ser (s : State) (o : Out) : (s.emit o).ser = s.ser := rfl
@[simp] theorem emit_lane (s : State) (o : Out) : (s.emit o).lane = s.lane := rfl
@[simp] theorem emit_portOff (s : State) (o : Out) : (s.emit o).portOff = s.portOff := rfl
@[simp] theorem emit_arrived (s : State) (o : Out) : (s.emit o).arrived = s.arrived := rfl
@[simp] theorem emit_rte (s : State) (o : Out) : (s.emit o).rte = s.rte := rfl
@[simp] theorem emit_hif (s : State) (o : Out) : (s.emit o).hif = s.hif := rfl
@[simp] theorem emit_rma (s : State) (o : Out) : (s.emit o).rma = s.rma := rfl
@[simp] theorem emit_mat (s : State) (o : Out) : (s.emit o).mat = s.mat := rfl
@[simp] theorem emit_mct (s : State) (o : Out) : (s.emit o).mct = s.mct := rfl
@[simp] theorem emit_coh (s : State) (o : Out) : (s.emit o).coh = s.coh := rfl
@[simp] theorem emit_peg (s : State) (o : Out) : (s.emit o).peg = s.peg := rfl
@[simp] theorem emit_ecc (s : State) (o : Out) : (s.emit o).ecc = s.ecc := rfl
@[simp] theorem emit_pwr (s : State) (o : Out) : (s.emit o).pwr = s.pwr := rfl
@[simp] theorem emit_grn (s : State) (o : Out) : (s.emit o).grn = s.grn := rfl
@[simp] theorem emit_enginesDown (s : State) (o : Out) : (s.emit o).enginesDown = s.enginesDown := rfl
@[simp] theorem emit_escBeats (s : State) (o : Out) : (s.emit o).escBeats = s.escBeats := rfl
@[simp] theorem emit_pending (s : State) (o : Out) : (s.emit o).pending = s.pending := rfl

/-! ### State.post -/

@[simp] theorem post_regs (s : State) (a : Act) : (s.post a).regs = s.regs := rfl
@[simp] theorem post_shadow (s : State) (a : Act) : (s.post a).shadow = s.shadow := rfl
@[simp] theorem post_out (s : State) (a : Act) : (s.post a).out = s.out := rfl
@[simp] theorem post_free (s : State) (a : Act) : (s.post a).free = s.free := rfl
@[simp] theorem post_bea (s : State) (a : Act) : (s.post a).bea = s.bea := rfl
@[simp] theorem post_trs (s : State) (a : Act) : (s.post a).trs = s.trs := rfl
@[simp] theorem post_pins (s : State) (a : Act) : (s.post a).pins = s.pins := rfl
@[simp] theorem post_boot (s : State) (a : Act) : (s.post a).boot = s.boot := rfl
@[simp] theorem post_lnk (s : State) (a : Act) : (s.post a).lnk = s.lnk := rfl
@[simp] theorem post_ser (s : State) (a : Act) : (s.post a).ser = s.ser := rfl
@[simp] theorem post_lane (s : State) (a : Act) : (s.post a).lane = s.lane := rfl
@[simp] theorem post_portOff (s : State) (a : Act) : (s.post a).portOff = s.portOff := rfl
@[simp] theorem post_arrived (s : State) (a : Act) : (s.post a).arrived = s.arrived := rfl
@[simp] theorem post_rte (s : State) (a : Act) : (s.post a).rte = s.rte := rfl
@[simp] theorem post_hif (s : State) (a : Act) : (s.post a).hif = s.hif := rfl
@[simp] theorem post_rma (s : State) (a : Act) : (s.post a).rma = s.rma := rfl
@[simp] theorem post_mat (s : State) (a : Act) : (s.post a).mat = s.mat := rfl
@[simp] theorem post_mct (s : State) (a : Act) : (s.post a).mct = s.mct := rfl
@[simp] theorem post_coh (s : State) (a : Act) : (s.post a).coh = s.coh := rfl
@[simp] theorem post_peg (s : State) (a : Act) : (s.post a).peg = s.peg := rfl
@[simp] theorem post_ecc (s : State) (a : Act) : (s.post a).ecc = s.ecc := rfl
@[simp] theorem post_pwr (s : State) (a : Act) : (s.post a).pwr = s.pwr := rfl
@[simp] theorem post_grn (s : State) (a : Act) : (s.post a).grn = s.grn := rfl
@[simp] theorem post_enginesDown (s : State) (a : Act) : (s.post a).enginesDown = s.enginesDown := rfl
@[simp] theorem post_escBeats (s : State) (a : Act) : (s.post a).escBeats = s.escBeats := rfl
@[simp] theorem post_pending (s : State) (a : Act) : (s.post a).pending = s.pending := rfl

/-! ### State.raise -/

@[simp] theorem raise_regs (s : State) (c : Src) (i : Nat) : (s.raise c i).regs = s.regs := rfl
@[simp] theorem raise_shadow (s : State) (c : Src) (i : Nat) : (s.raise c i).shadow = s.shadow := rfl
@[simp] theorem raise_out (s : State) (c : Src) (i : Nat) : (s.raise c i).out = s.out := rfl
@[simp] theorem raise_free (s : State) (c : Src) (i : Nat) : (s.raise c i).free = s.free := rfl
@[simp] theorem raise_bea (s : State) (c : Src) (i : Nat) : (s.raise c i).bea = s.bea := rfl
@[simp] theorem raise_trs (s : State) (c : Src) (i : Nat) : (s.raise c i).trs = s.trs := rfl
@[simp] theorem raise_pins (s : State) (c : Src) (i : Nat) : (s.raise c i).pins = s.pins := rfl
@[simp] theorem raise_boot (s : State) (c : Src) (i : Nat) : (s.raise c i).boot = s.boot := rfl
@[simp] theorem raise_lnk (s : State) (c : Src) (i : Nat) : (s.raise c i).lnk = s.lnk := rfl
@[simp] theorem raise_ser (s : State) (c : Src) (i : Nat) : (s.raise c i).ser = s.ser := rfl
@[simp] theorem raise_lane (s : State) (c : Src) (i : Nat) : (s.raise c i).lane = s.lane := rfl
@[simp] theorem raise_portOff (s : State) (c : Src) (i : Nat) : (s.raise c i).portOff = s.portOff := rfl
@[simp] theorem raise_arrived (s : State) (c : Src) (i : Nat) : (s.raise c i).arrived = s.arrived := rfl
@[simp] theorem raise_rte (s : State) (c : Src) (i : Nat) : (s.raise c i).rte = s.rte := rfl
@[simp] theorem raise_hif (s : State) (c : Src) (i : Nat) : (s.raise c i).hif = s.hif := rfl
@[simp] theorem raise_rma (s : State) (c : Src) (i : Nat) : (s.raise c i).rma = s.rma := rfl
@[simp] theorem raise_mat (s : State) (c : Src) (i : Nat) : (s.raise c i).mat = s.mat := rfl
@[simp] theorem raise_mct (s : State) (c : Src) (i : Nat) : (s.raise c i).mct = s.mct := rfl
@[simp] theorem raise_coh (s : State) (c : Src) (i : Nat) : (s.raise c i).coh = s.coh := rfl
@[simp] theorem raise_peg (s : State) (c : Src) (i : Nat) : (s.raise c i).peg = s.peg := rfl
@[simp] theorem raise_ecc (s : State) (c : Src) (i : Nat) : (s.raise c i).ecc = s.ecc := rfl
@[simp] theorem raise_pwr (s : State) (c : Src) (i : Nat) : (s.raise c i).pwr = s.pwr := rfl
@[simp] theorem raise_grn (s : State) (c : Src) (i : Nat) : (s.raise c i).grn = s.grn := rfl
@[simp] theorem raise_enginesDown (s : State) (c : Src) (i : Nat) : (s.raise c i).enginesDown = s.enginesDown := rfl
@[simp] theorem raise_escBeats (s : State) (c : Src) (i : Nat) : (s.raise c i).escBeats = s.escBeats := rfl
@[simp] theorem raise_pending (s : State) (c : Src) (i : Nat) : (s.raise c i).pending = s.pending := rfl

/-! ### State.wrI -/

@[simp] theorem wrI_shadow (s : State) (d : Fld) (a i x : Nat) : (s.wrI d a i x).shadow = s.shadow := rfl
@[simp] theorem wrI_acts (s : State) (d : Fld) (a i x : Nat) : (s.wrI d a i x).acts = s.acts := rfl
@[simp] theorem wrI_out (s : State) (d : Fld) (a i x : Nat) : (s.wrI d a i x).out = s.out := rfl
@[simp] theorem wrI_free (s : State) (d : Fld) (a i x : Nat) : (s.wrI d a i x).free = s.free := rfl
@[simp] theorem wrI_bea (s : State) (d : Fld) (a i x : Nat) : (s.wrI d a i x).bea = s.bea := rfl
@[simp] theorem wrI_trs (s : State) (d : Fld) (a i x : Nat) : (s.wrI d a i x).trs = s.trs := rfl
@[simp] theorem wrI_pins (s : State) (d : Fld) (a i x : Nat) : (s.wrI d a i x).pins = s.pins := rfl
@[simp] theorem wrI_boot (s : State) (d : Fld) (a i x : Nat) : (s.wrI d a i x).boot = s.boot := rfl
@[simp] theorem wrI_lnk (s : State) (d : Fld) (a i x : Nat) : (s.wrI d a i x).lnk = s.lnk := rfl
@[simp] theorem wrI_ser (s : State) (d : Fld) (a i x : Nat) : (s.wrI d a i x).ser = s.ser := rfl
@[simp] theorem wrI_lane (s : State) (d : Fld) (a i x : Nat) : (s.wrI d a i x).lane = s.lane := rfl
@[simp] theorem wrI_portOff (s : State) (d : Fld) (a i x : Nat) : (s.wrI d a i x).portOff = s.portOff := rfl
@[simp] theorem wrI_arrived (s : State) (d : Fld) (a i x : Nat) : (s.wrI d a i x).arrived = s.arrived := rfl
@[simp] theorem wrI_rte (s : State) (d : Fld) (a i x : Nat) : (s.wrI d a i x).rte = s.rte := rfl
@[simp] theorem wrI_hif (s : State) (d : Fld) (a i x : Nat) : (s.wrI d a i x).hif = s.hif := rfl
@[simp] theorem wrI_rma (s : State) (d : Fld) (a i x : Nat) : (s.wrI d a i x).rma = s.rma := rfl
@[simp] theorem wrI_mat (s : State) (d : Fld) (a i x : Nat) : (s.wrI d a i x).mat = s.mat := rfl
@[simp] theorem wrI_mct (s : State) (d : Fld) (a i x : Nat) : (s.wrI d a i x).mct = s.mct := rfl
@[simp] theorem wrI_coh (s : State) (d : Fld) (a i x : Nat) : (s.wrI d a i x).coh = s.coh := rfl
@[simp] theorem wrI_peg (s : State) (d : Fld) (a i x : Nat) : (s.wrI d a i x).peg = s.peg := rfl
@[simp] theorem wrI_ecc (s : State) (d : Fld) (a i x : Nat) : (s.wrI d a i x).ecc = s.ecc := rfl
@[simp] theorem wrI_pwr (s : State) (d : Fld) (a i x : Nat) : (s.wrI d a i x).pwr = s.pwr := rfl
@[simp] theorem wrI_grn (s : State) (d : Fld) (a i x : Nat) : (s.wrI d a i x).grn = s.grn := rfl
@[simp] theorem wrI_enginesDown (s : State) (d : Fld) (a i x : Nat) : (s.wrI d a i x).enginesDown = s.enginesDown := rfl
@[simp] theorem wrI_escBeats (s : State) (d : Fld) (a i x : Nat) : (s.wrI d a i x).escBeats = s.escBeats := rfl
@[simp] theorem wrI_pending (s : State) (d : Fld) (a i x : Nat) : (s.wrI d a i x).pending = s.pending := rfl

/-! ### State.wr -/

@[simp] theorem wr_shadow (s : State) (d : Fld) (x i : Nat) : (s.wr d x i).shadow = s.shadow := rfl
@[simp] theorem wr_acts (s : State) (d : Fld) (x i : Nat) : (s.wr d x i).acts = s.acts := rfl
@[simp] theorem wr_out (s : State) (d : Fld) (x i : Nat) : (s.wr d x i).out = s.out := rfl
@[simp] theorem wr_free (s : State) (d : Fld) (x i : Nat) : (s.wr d x i).free = s.free := rfl
@[simp] theorem wr_bea (s : State) (d : Fld) (x i : Nat) : (s.wr d x i).bea = s.bea := rfl
@[simp] theorem wr_trs (s : State) (d : Fld) (x i : Nat) : (s.wr d x i).trs = s.trs := rfl
@[simp] theorem wr_pins (s : State) (d : Fld) (x i : Nat) : (s.wr d x i).pins = s.pins := rfl
@[simp] theorem wr_boot (s : State) (d : Fld) (x i : Nat) : (s.wr d x i).boot = s.boot := rfl
@[simp] theorem wr_lnk (s : State) (d : Fld) (x i : Nat) : (s.wr d x i).lnk = s.lnk := rfl
@[simp] theorem wr_ser (s : State) (d : Fld) (x i : Nat) : (s.wr d x i).ser = s.ser := rfl
@[simp] theorem wr_lane (s : State) (d : Fld) (x i : Nat) : (s.wr d x i).lane = s.lane := rfl
@[simp] theorem wr_portOff (s : State) (d : Fld) (x i : Nat) : (s.wr d x i).portOff = s.portOff := rfl
@[simp] theorem wr_arrived (s : State) (d : Fld) (x i : Nat) : (s.wr d x i).arrived = s.arrived := rfl
@[simp] theorem wr_rte (s : State) (d : Fld) (x i : Nat) : (s.wr d x i).rte = s.rte := rfl
@[simp] theorem wr_hif (s : State) (d : Fld) (x i : Nat) : (s.wr d x i).hif = s.hif := rfl
@[simp] theorem wr_rma (s : State) (d : Fld) (x i : Nat) : (s.wr d x i).rma = s.rma := rfl
@[simp] theorem wr_mat (s : State) (d : Fld) (x i : Nat) : (s.wr d x i).mat = s.mat := rfl
@[simp] theorem wr_mct (s : State) (d : Fld) (x i : Nat) : (s.wr d x i).mct = s.mct := rfl
@[simp] theorem wr_coh (s : State) (d : Fld) (x i : Nat) : (s.wr d x i).coh = s.coh := rfl
@[simp] theorem wr_peg (s : State) (d : Fld) (x i : Nat) : (s.wr d x i).peg = s.peg := rfl
@[simp] theorem wr_ecc (s : State) (d : Fld) (x i : Nat) : (s.wr d x i).ecc = s.ecc := rfl
@[simp] theorem wr_pwr (s : State) (d : Fld) (x i : Nat) : (s.wr d x i).pwr = s.pwr := rfl
@[simp] theorem wr_grn (s : State) (d : Fld) (x i : Nat) : (s.wr d x i).grn = s.grn := rfl
@[simp] theorem wr_enginesDown (s : State) (d : Fld) (x i : Nat) : (s.wr d x i).enginesDown = s.enginesDown := rfl
@[simp] theorem wr_escBeats (s : State) (d : Fld) (x i : Nat) : (s.wr d x i).escBeats = s.escBeats := rfl
@[simp] theorem wr_pending (s : State) (d : Fld) (x i : Nat) : (s.wr d x i).pending = s.pending := rfl

/-! ### State.inc -/

@[simp] theorem inc_shadow (s : State) (d : Fld) (i k : Nat) : (s.inc d i k).shadow = s.shadow := rfl
@[simp] theorem inc_acts (s : State) (d : Fld) (i k : Nat) : (s.inc d i k).acts = s.acts := rfl
@[simp] theorem inc_out (s : State) (d : Fld) (i k : Nat) : (s.inc d i k).out = s.out := rfl
@[simp] theorem inc_free (s : State) (d : Fld) (i k : Nat) : (s.inc d i k).free = s.free := rfl
@[simp] theorem inc_bea (s : State) (d : Fld) (i k : Nat) : (s.inc d i k).bea = s.bea := rfl
@[simp] theorem inc_trs (s : State) (d : Fld) (i k : Nat) : (s.inc d i k).trs = s.trs := rfl
@[simp] theorem inc_pins (s : State) (d : Fld) (i k : Nat) : (s.inc d i k).pins = s.pins := rfl
@[simp] theorem inc_boot (s : State) (d : Fld) (i k : Nat) : (s.inc d i k).boot = s.boot := rfl
@[simp] theorem inc_lnk (s : State) (d : Fld) (i k : Nat) : (s.inc d i k).lnk = s.lnk := rfl
@[simp] theorem inc_ser (s : State) (d : Fld) (i k : Nat) : (s.inc d i k).ser = s.ser := rfl
@[simp] theorem inc_lane (s : State) (d : Fld) (i k : Nat) : (s.inc d i k).lane = s.lane := rfl
@[simp] theorem inc_portOff (s : State) (d : Fld) (i k : Nat) : (s.inc d i k).portOff = s.portOff := rfl
@[simp] theorem inc_arrived (s : State) (d : Fld) (i k : Nat) : (s.inc d i k).arrived = s.arrived := rfl
@[simp] theorem inc_rte (s : State) (d : Fld) (i k : Nat) : (s.inc d i k).rte = s.rte := rfl
@[simp] theorem inc_hif (s : State) (d : Fld) (i k : Nat) : (s.inc d i k).hif = s.hif := rfl
@[simp] theorem inc_rma (s : State) (d : Fld) (i k : Nat) : (s.inc d i k).rma = s.rma := rfl
@[simp] theorem inc_mat (s : State) (d : Fld) (i k : Nat) : (s.inc d i k).mat = s.mat := rfl
@[simp] theorem inc_mct (s : State) (d : Fld) (i k : Nat) : (s.inc d i k).mct = s.mct := rfl
@[simp] theorem inc_coh (s : State) (d : Fld) (i k : Nat) : (s.inc d i k).coh = s.coh := rfl
@[simp] theorem inc_peg (s : State) (d : Fld) (i k : Nat) : (s.inc d i k).peg = s.peg := rfl
@[simp] theorem inc_ecc (s : State) (d : Fld) (i k : Nat) : (s.inc d i k).ecc = s.ecc := rfl
@[simp] theorem inc_pwr (s : State) (d : Fld) (i k : Nat) : (s.inc d i k).pwr = s.pwr := rfl
@[simp] theorem inc_grn (s : State) (d : Fld) (i k : Nat) : (s.inc d i k).grn = s.grn := rfl
@[simp] theorem inc_enginesDown (s : State) (d : Fld) (i k : Nat) : (s.inc d i k).enginesDown = s.enginesDown := rfl
@[simp] theorem inc_escBeats (s : State) (d : Fld) (i k : Nat) : (s.inc d i k).escBeats = s.escBeats := rfl
@[simp] theorem inc_pending (s : State) (d : Fld) (i k : Nat) : (s.inc d i k).pending = s.pending := rfl

/-! ### State.stage -/

@[simp] theorem stage_regs (s : State) (d : Fld) (x i : Nat) : (s.stage d x i).regs = s.regs := rfl
@[simp] theorem stage_acts (s : State) (d : Fld) (x i : Nat) : (s.stage d x i).acts = s.acts := rfl
@[simp] theorem stage_out (s : State) (d : Fld) (x i : Nat) : (s.stage d x i).out = s.out := rfl
@[simp] theorem stage_free (s : State) (d : Fld) (x i : Nat) : (s.stage d x i).free = s.free := rfl
@[simp] theorem stage_bea (s : State) (d : Fld) (x i : Nat) : (s.stage d x i).bea = s.bea := rfl
@[simp] theorem stage_trs (s : State) (d : Fld) (x i : Nat) : (s.stage d x i).trs = s.trs := rfl
@[simp] theorem stage_pins (s : State) (d : Fld) (x i : Nat) : (s.stage d x i).pins = s.pins := rfl
@[simp] theorem stage_boot (s : State) (d : Fld) (x i : Nat) : (s.stage d x i).boot = s.boot := rfl
@[simp] theorem stage_lnk (s : State) (d : Fld) (x i : Nat) : (s.stage d x i).lnk = s.lnk := rfl
@[simp] theorem stage_ser (s : State) (d : Fld) (x i : Nat) : (s.stage d x i).ser = s.ser := rfl
@[simp] theorem stage_lane (s : State) (d : Fld) (x i : Nat) : (s.stage d x i).lane = s.lane := rfl
@[simp] theorem stage_portOff (s : State) (d : Fld) (x i : Nat) : (s.stage d x i).portOff = s.portOff := rfl
@[simp] theorem stage_arrived (s : State) (d : Fld) (x i : Nat) : (s.stage d x i).arrived = s.arrived := rfl
@[simp] theorem stage_rte (s : State) (d : Fld) (x i : Nat) : (s.stage d x i).rte = s.rte := rfl
@[simp] theorem stage_hif (s : State) (d : Fld) (x i : Nat) : (s.stage d x i).hif = s.hif := rfl
@[simp] theorem stage_rma (s : State) (d : Fld) (x i : Nat) : (s.stage d x i).rma = s.rma := rfl
@[simp] theorem stage_mat (s : State) (d : Fld) (x i : Nat) : (s.stage d x i).mat = s.mat := rfl
@[simp] theorem stage_mct (s : State) (d : Fld) (x i : Nat) : (s.stage d x i).mct = s.mct := rfl
@[simp] theorem stage_coh (s : State) (d : Fld) (x i : Nat) : (s.stage d x i).coh = s.coh := rfl
@[simp] theorem stage_peg (s : State) (d : Fld) (x i : Nat) : (s.stage d x i).peg = s.peg := rfl
@[simp] theorem stage_ecc (s : State) (d : Fld) (x i : Nat) : (s.stage d x i).ecc = s.ecc := rfl
@[simp] theorem stage_pwr (s : State) (d : Fld) (x i : Nat) : (s.stage d x i).pwr = s.pwr := rfl
@[simp] theorem stage_grn (s : State) (d : Fld) (x i : Nat) : (s.stage d x i).grn = s.grn := rfl
@[simp] theorem stage_enginesDown (s : State) (d : Fld) (x i : Nat) : (s.stage d x i).enginesDown = s.enginesDown := rfl
@[simp] theorem stage_escBeats (s : State) (d : Fld) (x i : Nat) : (s.stage d x i).escBeats = s.escBeats := rfl
@[simp] theorem stage_pending (s : State) (d : Fld) (x i : Nat) : (s.stage d x i).pending = s.pending := rfl

/-! ### State.setLink -/

@[simp] theorem setLink_regs (s : State) (p : Nat) (l : Link) : (s.setLink p l).regs = s.regs := rfl
@[simp] theorem setLink_shadow (s : State) (p : Nat) (l : Link) : (s.setLink p l).shadow = s.shadow := rfl
@[simp] theorem setLink_acts (s : State) (p : Nat) (l : Link) : (s.setLink p l).acts = s.acts := rfl
@[simp] theorem setLink_out (s : State) (p : Nat) (l : Link) : (s.setLink p l).out = s.out := rfl
@[simp] theorem setLink_free (s : State) (p : Nat) (l : Link) : (s.setLink p l).free = s.free := rfl
@[simp] theorem setLink_bea (s : State) (p : Nat) (l : Link) : (s.setLink p l).bea = s.bea := rfl
@[simp] theorem setLink_trs (s : State) (p : Nat) (l : Link) : (s.setLink p l).trs = s.trs := rfl
@[simp] theorem setLink_pins (s : State) (p : Nat) (l : Link) : (s.setLink p l).pins = s.pins := rfl
@[simp] theorem setLink_boot (s : State) (p : Nat) (l : Link) : (s.setLink p l).boot = s.boot := rfl
@[simp] theorem setLink_ser (s : State) (p : Nat) (l : Link) : (s.setLink p l).ser = s.ser := rfl
@[simp] theorem setLink_lane (s : State) (p : Nat) (l : Link) : (s.setLink p l).lane = s.lane := rfl
@[simp] theorem setLink_portOff (s : State) (p : Nat) (l : Link) : (s.setLink p l).portOff = s.portOff := rfl
@[simp] theorem setLink_arrived (s : State) (p : Nat) (l : Link) : (s.setLink p l).arrived = s.arrived := rfl
@[simp] theorem setLink_rte (s : State) (p : Nat) (l : Link) : (s.setLink p l).rte = s.rte := rfl
@[simp] theorem setLink_hif (s : State) (p : Nat) (l : Link) : (s.setLink p l).hif = s.hif := rfl
@[simp] theorem setLink_rma (s : State) (p : Nat) (l : Link) : (s.setLink p l).rma = s.rma := rfl
@[simp] theorem setLink_mat (s : State) (p : Nat) (l : Link) : (s.setLink p l).mat = s.mat := rfl
@[simp] theorem setLink_mct (s : State) (p : Nat) (l : Link) : (s.setLink p l).mct = s.mct := rfl
@[simp] theorem setLink_coh (s : State) (p : Nat) (l : Link) : (s.setLink p l).coh = s.coh := rfl
@[simp] theorem setLink_peg (s : State) (p : Nat) (l : Link) : (s.setLink p l).peg = s.peg := rfl
@[simp] theorem setLink_ecc (s : State) (p : Nat) (l : Link) : (s.setLink p l).ecc = s.ecc := rfl
@[simp] theorem setLink_pwr (s : State) (p : Nat) (l : Link) : (s.setLink p l).pwr = s.pwr := rfl
@[simp] theorem setLink_grn (s : State) (p : Nat) (l : Link) : (s.setLink p l).grn = s.grn := rfl
@[simp] theorem setLink_enginesDown (s : State) (p : Nat) (l : Link) : (s.setLink p l).enginesDown = s.enginesDown := rfl
@[simp] theorem setLink_escBeats (s : State) (p : Nat) (l : Link) : (s.setLink p l).escBeats = s.escBeats := rfl
@[simp] theorem setLink_pending (s : State) (p : Nat) (l : Link) : (s.setLink p l).pending = s.pending := rfl

/-! ### State.setSp -/

@[simp] theorem setSp_regs (s : State) (p : Nat) (x : SerPort) : (s.setSp p x).regs = s.regs := rfl
@[simp] theorem setSp_shadow (s : State) (p : Nat) (x : SerPort) : (s.setSp p x).shadow = s.shadow := rfl
@[simp] theorem setSp_acts (s : State) (p : Nat) (x : SerPort) : (s.setSp p x).acts = s.acts := rfl
@[simp] theorem setSp_out (s : State) (p : Nat) (x : SerPort) : (s.setSp p x).out = s.out := rfl
@[simp] theorem setSp_free (s : State) (p : Nat) (x : SerPort) : (s.setSp p x).free = s.free := rfl
@[simp] theorem setSp_bea (s : State) (p : Nat) (x : SerPort) : (s.setSp p x).bea = s.bea := rfl
@[simp] theorem setSp_trs (s : State) (p : Nat) (x : SerPort) : (s.setSp p x).trs = s.trs := rfl
@[simp] theorem setSp_pins (s : State) (p : Nat) (x : SerPort) : (s.setSp p x).pins = s.pins := rfl
@[simp] theorem setSp_boot (s : State) (p : Nat) (x : SerPort) : (s.setSp p x).boot = s.boot := rfl
@[simp] theorem setSp_lnk (s : State) (p : Nat) (x : SerPort) : (s.setSp p x).lnk = s.lnk := rfl
@[simp] theorem setSp_lane (s : State) (p : Nat) (x : SerPort) : (s.setSp p x).lane = s.lane := rfl
@[simp] theorem setSp_portOff (s : State) (p : Nat) (x : SerPort) : (s.setSp p x).portOff = s.portOff := rfl
@[simp] theorem setSp_arrived (s : State) (p : Nat) (x : SerPort) : (s.setSp p x).arrived = s.arrived := rfl
@[simp] theorem setSp_rte (s : State) (p : Nat) (x : SerPort) : (s.setSp p x).rte = s.rte := rfl
@[simp] theorem setSp_hif (s : State) (p : Nat) (x : SerPort) : (s.setSp p x).hif = s.hif := rfl
@[simp] theorem setSp_rma (s : State) (p : Nat) (x : SerPort) : (s.setSp p x).rma = s.rma := rfl
@[simp] theorem setSp_mat (s : State) (p : Nat) (x : SerPort) : (s.setSp p x).mat = s.mat := rfl
@[simp] theorem setSp_mct (s : State) (p : Nat) (x : SerPort) : (s.setSp p x).mct = s.mct := rfl
@[simp] theorem setSp_coh (s : State) (p : Nat) (x : SerPort) : (s.setSp p x).coh = s.coh := rfl
@[simp] theorem setSp_peg (s : State) (p : Nat) (x : SerPort) : (s.setSp p x).peg = s.peg := rfl
@[simp] theorem setSp_ecc (s : State) (p : Nat) (x : SerPort) : (s.setSp p x).ecc = s.ecc := rfl
@[simp] theorem setSp_pwr (s : State) (p : Nat) (x : SerPort) : (s.setSp p x).pwr = s.pwr := rfl
@[simp] theorem setSp_grn (s : State) (p : Nat) (x : SerPort) : (s.setSp p x).grn = s.grn := rfl
@[simp] theorem setSp_enginesDown (s : State) (p : Nat) (x : SerPort) : (s.setSp p x).enginesDown = s.enginesDown := rfl
@[simp] theorem setSp_escBeats (s : State) (p : Nat) (x : SerPort) : (s.setSp p x).escBeats = s.escBeats := rfl
@[simp] theorem setSp_pending (s : State) (p : Nat) (x : SerPort) : (s.setSp p x).pending = s.pending := rfl

/-! ### State.setLane -/

@[simp] theorem setLane_regs (s : State) (l : Nat) (x : LaneSt) : (s.setLane l x).regs = s.regs := rfl
@[simp] theorem setLane_shadow (s : State) (l : Nat) (x : LaneSt) : (s.setLane l x).shadow = s.shadow := rfl
@[simp] theorem setLane_acts (s : State) (l : Nat) (x : LaneSt) : (s.setLane l x).acts = s.acts := rfl
@[simp] theorem setLane_out (s : State) (l : Nat) (x : LaneSt) : (s.setLane l x).out = s.out := rfl
@[simp] theorem setLane_free (s : State) (l : Nat) (x : LaneSt) : (s.setLane l x).free = s.free := rfl
@[simp] theorem setLane_bea (s : State) (l : Nat) (x : LaneSt) : (s.setLane l x).bea = s.bea := rfl
@[simp] theorem setLane_trs (s : State) (l : Nat) (x : LaneSt) : (s.setLane l x).trs = s.trs := rfl
@[simp] theorem setLane_pins (s : State) (l : Nat) (x : LaneSt) : (s.setLane l x).pins = s.pins := rfl
@[simp] theorem setLane_boot (s : State) (l : Nat) (x : LaneSt) : (s.setLane l x).boot = s.boot := rfl
@[simp] theorem setLane_lnk (s : State) (l : Nat) (x : LaneSt) : (s.setLane l x).lnk = s.lnk := rfl
@[simp] theorem setLane_ser (s : State) (l : Nat) (x : LaneSt) : (s.setLane l x).ser = s.ser := rfl
@[simp] theorem setLane_portOff (s : State) (l : Nat) (x : LaneSt) : (s.setLane l x).portOff = s.portOff := rfl
@[simp] theorem setLane_arrived (s : State) (l : Nat) (x : LaneSt) : (s.setLane l x).arrived = s.arrived := rfl
@[simp] theorem setLane_rte (s : State) (l : Nat) (x : LaneSt) : (s.setLane l x).rte = s.rte := rfl
@[simp] theorem setLane_hif (s : State) (l : Nat) (x : LaneSt) : (s.setLane l x).hif = s.hif := rfl
@[simp] theorem setLane_rma (s : State) (l : Nat) (x : LaneSt) : (s.setLane l x).rma = s.rma := rfl
@[simp] theorem setLane_mat (s : State) (l : Nat) (x : LaneSt) : (s.setLane l x).mat = s.mat := rfl
@[simp] theorem setLane_mct (s : State) (l : Nat) (x : LaneSt) : (s.setLane l x).mct = s.mct := rfl
@[simp] theorem setLane_coh (s : State) (l : Nat) (x : LaneSt) : (s.setLane l x).coh = s.coh := rfl
@[simp] theorem setLane_peg (s : State) (l : Nat) (x : LaneSt) : (s.setLane l x).peg = s.peg := rfl
@[simp] theorem setLane_ecc (s : State) (l : Nat) (x : LaneSt) : (s.setLane l x).ecc = s.ecc := rfl
@[simp] theorem setLane_pwr (s : State) (l : Nat) (x : LaneSt) : (s.setLane l x).pwr = s.pwr := rfl
@[simp] theorem setLane_grn (s : State) (l : Nat) (x : LaneSt) : (s.setLane l x).grn = s.grn := rfl
@[simp] theorem setLane_enginesDown (s : State) (l : Nat) (x : LaneSt) : (s.setLane l x).enginesDown = s.enginesDown := rfl
@[simp] theorem setLane_escBeats (s : State) (l : Nat) (x : LaneSt) : (s.setLane l x).escBeats = s.escBeats := rfl
@[simp] theorem setLane_pending (s : State) (l : Nat) (x : LaneSt) : (s.setLane l x).pending = s.pending := rfl

/-! ### State.setPg -/

@[simp] theorem setPg_regs (s : State) (i : Nat) (p : PegSt) : (s.setPg i p).regs = s.regs := rfl
@[simp] theorem setPg_shadow (s : State) (i : Nat) (p : PegSt) : (s.setPg i p).shadow = s.shadow := rfl
@[simp] theorem setPg_acts (s : State) (i : Nat) (p : PegSt) : (s.setPg i p).acts = s.acts := rfl
@[simp] theorem setPg_out (s : State) (i : Nat) (p : PegSt) : (s.setPg i p).out = s.out := rfl
@[simp] theorem setPg_free (s : State) (i : Nat) (p : PegSt) : (s.setPg i p).free = s.free := rfl
@[simp] theorem setPg_bea (s : State) (i : Nat) (p : PegSt) : (s.setPg i p).bea = s.bea := rfl
@[simp] theorem setPg_trs (s : State) (i : Nat) (p : PegSt) : (s.setPg i p).trs = s.trs := rfl
@[simp] theorem setPg_pins (s : State) (i : Nat) (p : PegSt) : (s.setPg i p).pins = s.pins := rfl
@[simp] theorem setPg_boot (s : State) (i : Nat) (p : PegSt) : (s.setPg i p).boot = s.boot := rfl
@[simp] theorem setPg_lnk (s : State) (i : Nat) (p : PegSt) : (s.setPg i p).lnk = s.lnk := rfl
@[simp] theorem setPg_ser (s : State) (i : Nat) (p : PegSt) : (s.setPg i p).ser = s.ser := rfl
@[simp] theorem setPg_lane (s : State) (i : Nat) (p : PegSt) : (s.setPg i p).lane = s.lane := rfl
@[simp] theorem setPg_portOff (s : State) (i : Nat) (p : PegSt) : (s.setPg i p).portOff = s.portOff := rfl
@[simp] theorem setPg_arrived (s : State) (i : Nat) (p : PegSt) : (s.setPg i p).arrived = s.arrived := rfl
@[simp] theorem setPg_rte (s : State) (i : Nat) (p : PegSt) : (s.setPg i p).rte = s.rte := rfl
@[simp] theorem setPg_hif (s : State) (i : Nat) (p : PegSt) : (s.setPg i p).hif = s.hif := rfl
@[simp] theorem setPg_rma (s : State) (i : Nat) (p : PegSt) : (s.setPg i p).rma = s.rma := rfl
@[simp] theorem setPg_mat (s : State) (i : Nat) (p : PegSt) : (s.setPg i p).mat = s.mat := rfl
@[simp] theorem setPg_mct (s : State) (i : Nat) (p : PegSt) : (s.setPg i p).mct = s.mct := rfl
@[simp] theorem setPg_coh (s : State) (i : Nat) (p : PegSt) : (s.setPg i p).coh = s.coh := rfl
@[simp] theorem setPg_ecc (s : State) (i : Nat) (p : PegSt) : (s.setPg i p).ecc = s.ecc := rfl
@[simp] theorem setPg_pwr (s : State) (i : Nat) (p : PegSt) : (s.setPg i p).pwr = s.pwr := rfl
@[simp] theorem setPg_grn (s : State) (i : Nat) (p : PegSt) : (s.setPg i p).grn = s.grn := rfl
@[simp] theorem setPg_enginesDown (s : State) (i : Nat) (p : PegSt) : (s.setPg i p).enginesDown = s.enginesDown := rfl
@[simp] theorem setPg_escBeats (s : State) (i : Nat) (p : PegSt) : (s.setPg i p).escBeats = s.escBeats := rfl
@[simp] theorem setPg_pending (s : State) (i : Nat) (p : PegSt) : (s.setPg i p).pending = s.pending := rfl

/-! ### Registers -/

@[simp] theorem rd_emit (s : State) (o : Out) (d : Fld) (i : Nat) : (s.emit o).rd d i = s.rd d i := rfl
@[simp] theorem rd_post (s : State) (a : Act) (d : Fld) (i : Nat) : (s.post a).rd d i = s.rd d i := rfl
@[simp] theorem rd_raise (s : State) (c : Src) (j : Nat) (d : Fld) (i : Nat) : (s.raise c j).rd d i = s.rd d i := rfl

@[simp] theorem rd_setLink (s : State) (p : Nat) (l : Link) (d : Fld) (i : Nat) : (s.setLink p l).rd d i = s.rd d i := rfl
@[simp] theorem rd_modLink (s : State) (p : Nat) (f : Link → Link) (d : Fld) (i : Nat) : (s.modLink p f).rd d i = s.rd d i := rfl
@[simp] theorem rd_setSp (s : State) (p : Nat) (x : SerPort) (d : Fld) (i : Nat) : (s.setSp p x).rd d i = s.rd d i := rfl
@[simp] theorem rd_modSp (s : State) (p : Nat) (f : SerPort → SerPort) (d : Fld) (i : Nat) : (s.modSp p f).rd d i = s.rd d i := rfl
@[simp] theorem rd_setLane (s : State) (p : Nat) (x : LaneSt) (d : Fld) (i : Nat) : (s.setLane p x).rd d i = s.rd d i := rfl
@[simp] theorem rd_modLane (s : State) (p : Nat) (f : LaneSt → LaneSt) (d : Fld) (i : Nat) : (s.modLane p f).rd d i = s.rd d i := rfl
@[simp] theorem rd_setPg (s : State) (p : Nat) (x : PegSt) (d : Fld) (i : Nat) : (s.setPg p x).rd d i = s.rd d i := rfl
@[simp] theorem rd_stage (s : State) (e : Fld) (x j : Nat) (d : Fld) (i : Nat) : (s.stage e x j).rd d i = s.rd d i := rfl
@[simp] theorem rd_modBoot (s : State) (f : Boot → Boot) (d : Fld) (i : Nat) : (s.modBoot f).rd d i = s.rd d i := rfl
@[simp] theorem rd_modRte (s : State) (f : Rte → Rte) (d : Fld) (i : Nat) : (s.modRte f).rd d i = s.rd d i := rfl
@[simp] theorem rd_modHif (s : State) (f : Hif → Hif) (d : Fld) (i : Nat) : (s.modHif f).rd d i = s.rd d i := rfl
@[simp] theorem rd_modRma (s : State) (f : Rma → Rma) (d : Fld) (i : Nat) : (s.modRma f).rd d i = s.rd d i := rfl
@[simp] theorem rd_modCoh (s : State) (f : Coh → Coh) (d : Fld) (i : Nat) : (s.modCoh f).rd d i = s.rd d i := rfl
@[simp] theorem rd_modPwr (s : State) (f : Pwr → Pwr) (d : Fld) (i : Nat) : (s.modPwr f).rd d i = s.rd d i := rfl
@[simp] theorem rd_modTrs (s : State) (f : Trs → Trs) (d : Fld) (i : Nat) : (s.modTrs f).rd d i = s.rd d i := rfl

/-- A field reads what was written, in its width. -/
theorem rdI_wrI_same (s : State) (d : Fld) (a i x : Nat) : (s.wrI d a i x).rdI d a i = x % 2 ^ d.w :=
  tabGetD_set_same s.regs _ _ _

@[simp] theorem rd_wr_same (s : State) (d : Fld) (i x : Nat) : (s.wr d x i).rd d i = x % 2 ^ d.w := rdI_wrI_same s d 0 i x

/-- The keys of two fields differ when register, bit place, instance or index differ. -/
theorem fkey_inj {d e : Fld} {a i b j : Nat} (h : fkey d a i = fkey e b j) :
    d.reg.code = e.reg.code ∧ d.lo = e.lo ∧ a = b ∧ i = j := by
  simp only [fkey, Nat.pair_eq_pair] at h
  exact ⟨h.1.1, h.1.2, h.2.1, h.2.2⟩

/-- A write of one field changes no other field, instance or index. -/
theorem rdI_wrI_ne (s : State) {d e : Fld} {a i b j : Nat} (x : Nat)
    (h : ¬ (e.reg.code = d.reg.code ∧ e.lo = d.lo ∧ b = a ∧ j = i)) : (s.wrI d a i x).rdI e b j = s.rdI e b j :=
  tabGetD_set_ne s.regs _ _ _ (fun hk => h (fkey_inj hk))

theorem rd_wr_ne (s : State) {d e : Fld} {i j : Nat} (x : Nat)
    (h : ¬ (e.reg.code = d.reg.code ∧ e.lo = d.lo ∧ j = i)) : (s.wr d x i).rd e j = s.rd e j :=
  rdI_wrI_ne s x (fun hk => h ⟨hk.1, hk.2.1, hk.2.2.2⟩)

/-- A write by function instance 0 is a write of the shared register. -/
@[simp] theorem wrI_zero (s : State) (d : Fld) (i x : Nat) : s.wrI d 0 i x = s.wr d x i := rfl
@[simp] theorem rdI_zero (s : State) (d : Fld) (i : Nat) : s.rdI d 0 i = s.rd d i := rfl

/-- A field of another register keeps its value; the premise is closed by deciding it. -/
theorem rd_wr_reg (s : State) {d e : Fld} (i j x : Nat) (h : e.reg.code ≠ d.reg.code) : (s.wr d x i).rd e j = s.rd e j :=
  rd_wr_ne s x (fun hk => h hk.1)

/-- A field at another place keeps its value. -/
theorem rd_wr_lo (s : State) {d e : Fld} (i j x : Nat) (h : e.lo ≠ d.lo) : (s.wr d x i).rd e j = s.rd e j :=
  rd_wr_ne s x (fun hk => h hk.2.1)

/-- A field of another index keeps its value. -/
theorem rd_wr_idx (s : State) {d e : Fld} {i j : Nat} (x : Nat) (h : j ≠ i) : (s.wr d x i).rd e j = s.rd e j :=
  rd_wr_ne s x (fun hk => h hk.2.2)

/-- The link of a port, read as it was set; the other ports' stay. -/
@[simp] theorem link_setLink (s : State) (p : Nat) (l : Link) : (s.setLink p l).link p = l := tabGetD_set_same s.lnk _ _ _
theorem link_setLink_ne (s : State) {p q : Nat} (l : Link) (h : q ≠ p) : (s.setLink p l).link q = s.link q :=
  tabGetD_set_ne s.lnk _ _ _ h
@[simp] theorem link_modLink (s : State) (p : Nat) (f : Link → Link) : (s.modLink p f).link p = f (s.link p) := link_setLink _ _ _

/-- The bring-up of a port, read as it was set; the other ports' stay. -/
@[simp] theorem sp_setSp (s : State) (p : Nat) (x : SerPort) : (s.setSp p x).sp p = x := tabGetD_set_same s.ser _ _ _
theorem sp_setSp_ne (s : State) {p q : Nat} (x : SerPort) (h : q ≠ p) : (s.setSp p x).sp q = s.sp q :=
  tabGetD_set_ne s.ser _ _ _ h
@[simp] theorem sp_modSp (s : State) (p : Nat) (f : SerPort → SerPort) : (s.modSp p f).sp p = f (s.sp p) := sp_setSp _ _ _

@[simp] theorem laneSt_setLane (s : State) (l : Nat) (x : LaneSt) : (s.setLane l x).laneSt l = x := tabGetD_set_same s.lane _ _ _

/-! ### Other reads -/

@[simp] theorem link_emit (s : State) (o : Out) (i : Nat) : (s.emit o).link i = s.link i := rfl
@[simp] theorem link_post (s : State) (a : Act) (i : Nat) : (s.post a).link i = s.link i := rfl
@[simp] theorem link_raise (s : State) (c : Src) (k : Nat) (i : Nat) : (s.raise c k).link i = s.link i := rfl
@[simp] theorem link_wrI (s : State) (d : Fld) (a k x : Nat) (i : Nat) : (s.wrI d a k x).link i = s.link i := rfl
@[simp] theorem link_wr (s : State) (d : Fld) (x k : Nat) (i : Nat) : (s.wr d x k).link i = s.link i := rfl
@[simp] theorem link_inc (s : State) (d : Fld) (k n : Nat) (i : Nat) : (s.inc d k n).link i = s.link i := rfl
@[simp] theorem link_stage (s : State) (d : Fld) (x k : Nat) (i : Nat) : (s.stage d x k).link i = s.link i := rfl
@[simp] theorem link_modSp (s : State) (q : Nat) (f : SerPort → SerPort) (i : Nat) : (s.modSp q f).link i = s.link i := rfl
@[simp] theorem link_setSp (s : State) (q : Nat) (x : SerPort) (i : Nat) : (s.setSp q x).link i = s.link i := rfl
@[simp] theorem link_modLane (s : State) (q : Nat) (f : LaneSt → LaneSt) (i : Nat) : (s.modLane q f).link i = s.link i := rfl
@[simp] theorem sp_emit (s : State) (o : Out) (i : Nat) : (s.emit o).sp i = s.sp i := rfl
@[simp] theorem sp_post (s : State) (a : Act) (i : Nat) : (s.post a).sp i = s.sp i := rfl
@[simp] theorem sp_raise (s : State) (c : Src) (k : Nat) (i : Nat) : (s.raise c k).sp i = s.sp i := rfl
@[simp] theorem sp_wrI (s : State) (d : Fld) (a k x : Nat) (i : Nat) : (s.wrI d a k x).sp i = s.sp i := rfl
@[simp] theorem sp_wr (s : State) (d : Fld) (x k : Nat) (i : Nat) : (s.wr d x k).sp i = s.sp i := rfl
@[simp] theorem sp_inc (s : State) (d : Fld) (k n : Nat) (i : Nat) : (s.inc d k n).sp i = s.sp i := rfl
@[simp] theorem sp_stage (s : State) (d : Fld) (x k : Nat) (i : Nat) : (s.stage d x k).sp i = s.sp i := rfl
@[simp] theorem sp_modLink (s : State) (q : Nat) (f : Link → Link) (i : Nat) : (s.modLink q f).sp i = s.sp i := rfl
@[simp] theorem sp_setLink (s : State) (q : Nat) (l : Link) (i : Nat) : (s.setLink q l).sp i = s.sp i := rfl
@[simp] theorem sp_modLane (s : State) (q : Nat) (f : LaneSt → LaneSt) (i : Nat) : (s.modLane q f).sp i = s.sp i := rfl
@[simp] theorem laneSt_emit (s : State) (o : Out) (i : Nat) : (s.emit o).laneSt i = s.laneSt i := rfl
@[simp] theorem laneSt_post (s : State) (a : Act) (i : Nat) : (s.post a).laneSt i = s.laneSt i := rfl
@[simp] theorem laneSt_raise (s : State) (c : Src) (k : Nat) (i : Nat) : (s.raise c k).laneSt i = s.laneSt i := rfl
@[simp] theorem laneSt_wrI (s : State) (d : Fld) (a k x : Nat) (i : Nat) : (s.wrI d a k x).laneSt i = s.laneSt i := rfl
@[simp] theorem laneSt_wr (s : State) (d : Fld) (x k : Nat) (i : Nat) : (s.wr d x k).laneSt i = s.laneSt i := rfl
@[simp] theorem laneSt_inc (s : State) (d : Fld) (k n : Nat) (i : Nat) : (s.inc d k n).laneSt i = s.laneSt i := rfl
@[simp] theorem laneSt_stage (s : State) (d : Fld) (x k : Nat) (i : Nat) : (s.stage d x k).laneSt i = s.laneSt i := rfl
@[simp] theorem laneSt_modLink (s : State) (q : Nat) (f : Link → Link) (i : Nat) : (s.modLink q f).laneSt i = s.laneSt i := rfl
@[simp] theorem laneSt_setLink (s : State) (q : Nat) (l : Link) (i : Nat) : (s.setLink q l).laneSt i = s.laneSt i := rfl
@[simp] theorem laneSt_modSp (s : State) (q : Nat) (f : SerPort → SerPort) (i : Nat) : (s.modSp q f).laneSt i = s.laneSt i := rfl
@[simp] theorem laneSt_setSp (s : State) (q : Nat) (x : SerPort) (i : Nat) : (s.setSp q x).laneSt i = s.laneSt i := rfl
@[simp] theorem pg_emit (s : State) (o : Out) (i : Nat) : (s.emit o).pg i = s.pg i := rfl
@[simp] theorem pg_post (s : State) (a : Act) (i : Nat) : (s.post a).pg i = s.pg i := rfl
@[simp] theorem pg_raise (s : State) (c : Src) (k : Nat) (i : Nat) : (s.raise c k).pg i = s.pg i := rfl
@[simp] theorem pg_wrI (s : State) (d : Fld) (a k x : Nat) (i : Nat) : (s.wrI d a k x).pg i = s.pg i := rfl
@[simp] theorem pg_wr (s : State) (d : Fld) (x k : Nat) (i : Nat) : (s.wr d x k).pg i = s.pg i := rfl
@[simp] theorem pg_inc (s : State) (d : Fld) (k n : Nat) (i : Nat) : (s.inc d k n).pg i = s.pg i := rfl
@[simp] theorem pg_stage (s : State) (d : Fld) (x k : Nat) (i : Nat) : (s.stage d x k).pg i = s.pg i := rfl
@[simp] theorem pg_modLink (s : State) (q : Nat) (f : Link → Link) (i : Nat) : (s.modLink q f).pg i = s.pg i := rfl
@[simp] theorem pg_setLink (s : State) (q : Nat) (l : Link) (i : Nat) : (s.setLink q l).pg i = s.pg i := rfl
@[simp] theorem pg_modSp (s : State) (q : Nat) (f : SerPort → SerPort) (i : Nat) : (s.modSp q f).pg i = s.pg i := rfl
@[simp] theorem pg_setSp (s : State) (q : Nat) (x : SerPort) (i : Nat) : (s.setSp q x).pg i = s.pg i := rfl
@[simp] theorem pg_modLane (s : State) (q : Nat) (f : LaneSt → LaneSt) (i : Nat) : (s.modLane q f).pg i = s.pg i := rfl

end Sys2Proof.Machine
end

