-- ==== Sys2Proof/Laws/Units.lean ====
section
/-! SUPPORT. What a unit takes from the router, and what a field command writes. -/

namespace Sys2Proof.Machine

/-- The packet at hand is taken, and the unit works on it with the packet gone. -/
theorem unitPacket_of_hands {s : State} {u k : Nat} {b : Bytes} (f : State → Bytes → State) (h : s.hands u k b = true) :
    s.unitPacket u k f = f (s.handed k b) b := by
  simp only [State.hands, Bool.and_eq_true, Bool.not_eq_true', beq_iff_eq] at h
  obtain ⟨⟨hg, hk⟩, hf⟩ := h
  have hf : s.rte.ejected.find? (fun b => pkKind b == k && !s.refetching b && !s.pageWaits b && !s.holdWaits b) = some b := hf
  unfold State.unitPacket State.take
  simp only [hg, hk, Bool.or_self, Bool.false_eq_true, if_false, hf]
  rfl

/-- The packet at hand is of its KIND. -/
theorem kind_of_hands {s : State} {u k : Nat} {b : Bytes} (h : s.hands u k b = true) : pkKind b = k := by
  simp only [State.hands, Bool.and_eq_true, Bool.not_eq_true', beq_iff_eq] at h
  have := List.find?_some h.2
  simp only [State.ready, Bool.and_eq_true, beq_iff_eq] at this
  exact this.1.1.1

theorem page_parts {s : State} {f : Fn} {n g : Nat} (h : s.page f n g = true) :
    s.live = true ∧ s.en uHIF = true ∧ s.hostAnswers f = true ∧ s.postedCredit = true ∧ s.gOf f n = some g ∧ s.unitBusy uHIF = false ∧
    s.gatedUnit uHIF = false ∧ s.linkAsleep f = false := by
  simpa [State.page, and_assoc] using h

/-- The page and the register of a place in BAR2. -/
theorem pageLoc_pageAddr (r : Reg) (n : Nat) (ho : r.place.off < 4096) (hr : regIn r.place.off pageRegs = some (r, 0)) :
    pageLoc (pageAddr r n) = .page n (some r) := by
  have h1 : pageAddr r n / 4096 = n := by
    unfold pageAddr
    rw [Nat.mul_add_div (by decide), Nat.div_eq_of_lt ho, Nat.add_zero]
  have h2 : pageAddr r n % 4096 = r.place.off := by
    unfold pageAddr
    rw [Nat.mul_add_mod, Nat.mod_eq_of_lt ho]
  simp only [pageLoc, h1, h2, hr, Option.map_some]

theorem pageAddr_aligned (r : Reg) (n : Nat) (h : r.place.off % 8 = 0) : pageAddr r n % 8 = 0 := by
  unfold pageAddr
  generalize r.place.off = o at *
  omega

/-- A whole write to a register of a doorbell page that a function reaches. -/
theorem pageWrite_of_page {s : State} {f : Fn} {n g : Nat} (r : Reg) (w : Nat) (ho : r.place.off < 4096)
    (hr : regIn r.place.off pageRegs = some (r, 0)) (h : s.page f n g = true) :
    s.fnWrite f .bar2 (pageAddr r n) 8 w =
      match r with
      | .HIF_SQ_DB => s.door true f n w
      | .HIF_CQ_DB => s.door false f n w
      | .HIF_Q_CTRL => s.queueCtrl g (bit w 0)
      | _ => s := by
  obtain ⟨hl, he, ha, hc, hg, hb, hw, hz⟩ := page_parts h
  have hal := pageAddr_aligned r n (place_aligned r).1
  have hu : unitOfGroup 7 = uHIF := rfl
  have hloc : s.fnLoc f .bar2 (pageAddr r n) = .page n (some r) := pageLoc_pageAddr r n ho hr
  simp only [State.fnWrite, ha, hc, Bool.not_true, Bool.or_self, Bool.false_eq_true, if_false, hloc, State.pagesOn, hl, he, Bool.and_self, hal,
    BEq.rfl, if_true, State.pageWrite, hg, hb,
    State.sleeps, State.locGated, Loc.blk, hu, hw, hz, Bool.and_false]
  cases r <;> rfl

end Sys2Proof.Machine
end

