-- ==== Sys2Proof/WellFormed.lean ====
section
/-! DEFINITION. Which commands are well formed: every operand has the width, and every run of bytes the length, that the rule of
its row gives it. The meanings are total all the same. -/

namespace Sys2Proof

/-- A number fits in a field of `n` bits. -/
def fitsIn (n x : Nat) : Bool := decide (x < 2 ^ n)

/-- A number fits in a two's complement field of `n` bits. -/
def signedIn (n : Nat) (x : Int) : Bool := decide (-(2 ^ (n - 1) : Nat) ≤ x) && decide (x < (2 ^ (n - 1) : Nat))

/-- Symbols that a receiver decides: PAM4 levels (R81). -/
def levelsWf (l : List Level) : Bool := l.all (fun x => x == -3 || x == -1 || x == 1 || x == 3)

/-- A check against PRBS13 starts at a register of the generator of x^13 + x^12 + x^2 + x + 1 (R88). -/
def PrbsRx.wf (r : PrbsRx) : Bool := fitsIn 13 r.start && levelsWf r.syms

/-- Trained values fit SER_CTLE and SER_DFE_TAPS (Table 3.7). -/
def EqVals.wf (e : EqVals) : Bool := fitsIn 4 e.peak && fitsIn 3 e.dcGain && e.taps.length == 12 && e.taps.all (signedIn 5)

/-- The fields of a BEAT_XCHG message (Table 4.6). -/
def Xchg.wf (m : Xchg) : Bool :=
  fitsIn 8 m.xid && fitsIn 8 m.prio && fitsIn 8 m.distance && fitsIn 8 m.period && fitsIn 17 m.masterId && fitsIn 32 m.alive &&
  fitsIn 64 m.count && fitsIn 64 m.t1 && fitsIn 64 m.t2 && fitsIn 64 m.t3

/-- What is measured in a Beat: 24 junction sensors, at most one slack for each of the four islands, tasks of Table 1.4. -/
def BeatIn.wf (m : BeatIn) : Bool :=
  m.sensors.length == 24 && decide (m.slack.length ≤ 4) && fitsIn 16 m.bays && m.epoch.all (fun e => decide (e.1 < 64)) &&
  m.visits.all (fun v => v.errs.length == 14) && m.traffic.all (fun t => decide (t.1 < 64)) && m.busy.all (fun b => decide (b.2.1 < 256)) &&
  m.overrun.all (fun k => decide (0 < k ∧ k ≤ 16)) && m.prbs.all (fun l => levelsWf l.2)

/-- The command is well formed. -/
def Instr.wf (c : Instr) : Bool :=
  match c with
  | .registerWrite _ _ addr size value _ =>
    (size == 1 || size == 2 || size == 4 || size == 8) && fitsIn (8 * size) value && decide (addr + size ≤ 2 ^ 32)
  | .unitEnable _ _ => true
  | .unitDisable _ _ => true
  | .beatBoundary m => m.wf
  | .powerStateEntry => true
  | .armedCommit => true
  | .beaCommitArm _ value => fitsIn 64 value
  | .beaCommitAt _ value => fitsIn 64 value
  | .beaCount _ cycle sub => fitsIn 14 cycle && fitsIn 4 sub
  | .beatXchgSend _ => true
  | .beatXchgRequest _ m t2 => m.wf && fitsIn 64 t2
  | .beatXchgResponse _ m t4 => m.wf && fitsIn 64 t4
  | .upstreamLost => true
  | .holdoverLimit => true
  | .masterAliveMissing => true
  | .listenWindowEnd => true
  | .ppsEdge cycle sub _ => fitsIn 14 cycle && fitsIn 4 sub
  | .beatRefLost => true
  | .pwrokRise _ _ => true
  | .pwrokFall => true
  | .rom _ _ _ => true
  | .firmware => true
  | .bist _ bad bays => fitsIn 8 bad && fitsIn 16 bays
  | .load _ => true
  | .warmRstLAssert => true
  | .warmRstLRelease => true
  | .glbDeviceReset _ value => fitsIn 64 value
  | .glbUnitReset _ value => fitsIn 64 value
  | .unitResetComplete _ => true
  | .glbPortReset _ value => fitsIn 64 value
  | .corePllUnlock _ => true
  | .fuseRead _ _ => true
  | .watchdogExpire => true
  | .foremanRestartDone => true
  | .routesReady _ _ => true
  | .pushBegin _ tag hot len => fitsIn 16 tag && fitsIn 8 hot && fitsIn 32 len
  | .pushData _ tag off data => fitsIn 16 tag && fitsIn 32 off && data.length != 0 && decide (data.length ≤ 1000)
  | .pushEnd _ tag _ => fitsIn 16 tag
  | .trsSlotCheck _ value => fitsIn 64 value
  | .slotCheckComplete _ => true
  | .ident _ tag => fitsIn 16 tag
  | .regRead _ tag off count => fitsIn 16 tag && fitsIn 64 off.val && fitsIn 32 count
  | .regWrite _ tag off value => fitsIn 16 tag && fitsIn 64 off.val && fitsIn 64 value
  | .telemetry _ tag => fitsIn 16 tag
  | .beatRead _ tag => fitsIn 16 tag
  | .mailboxSpill _ tag key => fitsIn 16 tag && fitsIn 8 key
  | .unitReset _ tag mask => fitsIn 16 tag && fitsIn 64 mask
  | .portReset _ tag mask => fitsIn 16 tag && fitsIn 64 mask
  | .lanePower _ tag mask down => fitsIn 16 tag && fitsIn 64 mask && fitsIn 8 down
  | .deviceReset _ tag => fitsIn 16 tag
  | .flashRead _ tag off len => fitsIn 16 tag && fitsIn 32 off && fitsIn 32 len
  | .flashErase _ tag off => fitsIn 16 tag && fitsIn 32 off
  | .flashWrite _ tag off data => fitsIn 16 tag && fitsIn 32 off && data.length != 0 && decide (data.length ≤ 1000)
  | .slotCheck _ tag slot => fitsIn 16 tag && fitsIn 8 slot
  | .fuseKey _ tag slot hash _ => fitsIn 16 tag && fitsIn 8 slot && hash.length == 48
  | .fuseRevoke _ tag slot _ => fitsIn 16 tag && fitsIn 8 slot
  | .fuseFloor _ tag floor _ => fitsIn 16 tag && fitsIn 8 floor
  | .mailboxPegTake _ tag peg => fitsIn 16 tag && fitsIn 16 peg
  | .mailboxPegRelease _ tag peg => fitsIn 16 tag && fitsIn 16 peg
  | .pegSupervisor _ tag mask => fitsIn 16 tag && fitsIn 8 mask
  | .setEndpointId src eid => fitsIn 8 src && fitsIn 8 eid
  | .getEndpointId src => fitsIn 8 src
  | .getMctpVersionSupport src ty => fitsIn 8 src && fitsIn 8 ty
  | .getMessageTypeSupport src => fitsIn 8 src
  | .getVendorDefinedMessage src sel => fitsIn 8 src && fitsIn 8 sel
  | .go _ => true
  | .calibrationDone _ _ _ => true
  | .capabilitySet _ _ raw peak => raw.levels.length == 256 && levelsWf raw.levels && fitsIn 16 raw.mv && fitsIn 4 peak
  | .countdownEnd _ => true
  | .capsTimeout _ => true
  | .trainUsEnd _ e0 e1 => e0.wf && e1.wf
  | .checkUsEnd _ r0 r1 => r0.wf && r1.wf
  | .resultBlock _ _ raw => (raw.length == 256 || raw.length == 128) && levelsWf raw
  | .resultWaitEnd _ => true
  | .retryMs _ => true
  | .laneLockLost _ k => fitsIn 16 k.mv
  | .pllUnlock _ => true
  | .pllLock _ => true
  | .restart _ _ => true
  | .modeTest _ _ => true
  | .modeOperate _ _ => true
  | .powerDown _ _ => true
  | .ffeReq _ lane seq dpre dpost => fitsIn 8 lane && fitsIn 8 seq && signedIn 8 dpre && signedIn 8 dpost
  | .ffeAck _ lane seq => fitsIn 8 lane && fitsIn 8 seq
  | .widthReq _ lane seq width atBeat => fitsIn 8 lane && fitsIn 8 seq && fitsIn 8 width && fitsIn 32 atBeat
  | .widthAck _ lane seq status => fitsIn 8 lane && fitsIn 8 seq && fitsIn 8 status
  | .widthReqRepeat _ => true
  | .widthChange _ => true
  | .widthMarker _ => true
  | .reacquisition _ => true
  | .reacquisitionEnd _ start syms e => (PrbsRx.mk start syms).wf && e.wf
  | .eqFreezeEnd _ => true
  | .inject _ _ => true
  | .clear _ _ => true
  | .checkerLock _ before during after => levelsWf (before ++ during ++ after)
  | .flitReceive _ rx stamp => levelsWf rx.1 && levelsWf rx.2 && fitsIn 64 stamp
  | .nak _ x => fitsIn 32 x
  | .fence _ reason => fitsIn 32 reason
  | .credit _ words => words.length % 4 == 0 && words.length != 0 && decide (words.length ≤ 64)
  | .flitTransmit _ stamp => fitsIn 64 stamp
  | .nakRetry _ => true
  | .ackTimeout _ => true
  | .healthWindowRestart _ => true
  | .noprogUs _ _ => true
  | .initTimeout _ => true
  | .fenceComplete _ => true
  | .corrupt _ _ => true
  | .packetArrive _ => true
  | .packetInject _ => true
  | .packetForward _ lost => lost.all (fun w => fitsIn 23 w)
  | .limiterFree node => fitsIn 17 node
  | .echo => true
  | .mgmtWrite => true
  | .mgmtRead cycle sub => fitsIn 14 cycle && fitsIn 4 sub
  | .mgmtResp => true
  | .mcPutEntry => true
  | .mcPut => true
  | .collectiveEntry => true
  | .cfUp => true
  | .cfDown => true
  | .cfGrant => true
  | .cfAbort => true
  | .chunkCombine t seq _ => fitsIn 10 t && fitsIn 16 seq
  | .chunkSend t seq _ _ => fitsIn 10 t && fitsIn 16 seq
  | .phaseTimeout t => fitsIn 10 t
  | .treeLoad _ t => fitsIn 10 t
  | .treeReset _ t epoch => fitsIn 10 t && fitsIn 16 epoch
  | .treeUnload _ t => fitsIn 10 t
  | .treeAbort _ t => fitsIn 10 t
  | .descriptorFetchDone _ _ => true
  | .contextFetchDone g _ => fitsIn 20 g
  | .contextStatusRead _ n _ => fitsIn 20 n
  | .qCreate _ n => fitsIn 20 n
  | .qDestroy _ n => fitsIn 20 n
  | .cqCreate _ n => fitsIn 20 n
  | .cqReset _ n => fitsIn 20 n
  | .cqDestroy _ n => fitsIn 20 n
  | .qEnable _ n => fitsIn 20 n
  | .qDisable _ n => fitsIn 20 n
  | .hifSqDb _ n value => fitsIn 20 n && fitsIn 64 value
  | .hifCqDb _ n value => fitsIn 20 n && fitsIn 64 value
  | .hifEqDb _ e value => fitsIn 16 e && fitsIn 64 value
  | .pushWrite _ n off data => fitsIn 20 n && data.length != 0 && decide (off + data.length ≤ 128)
  | .pushHalfExpire g _ => fitsIn 20 g
  | .ringReadDone g _ => fitsIn 20 g
  | .dataReadDone _ _ => true
  | .nopEntry => true
  | .cqOverflow g => fitsIn 20 g
  | .modTimeExpire _ e => fitsIn 16 e
  | .msixUnmask _ v => fitsIn 11 v
  | .hostLinkDown _ => true
  | .flr _ => true
  | .perstL _ _ => true
  | .ltrUpdate _ _ snoop nosnoop => fitsIn 16 snoop && fitsIn 16 nosnoop
  | .regEnable _ idx => fitsIn 24 idx
  | .regDisable _ idx => fitsIn 24 idx
  | .regDisableComplete _ => true
  | .rmaQinfo _ => true
  | .putEntry => true
  | .putImmEntry => true
  | .getEntry => true
  | .atomicEntry => true
  | .put => true
  | .putImm => true
  | .getReq => true
  | .atomicReq => true
  | .atomicComplete _ _ => true
  | .ackDelay g => fitsIn 20 g
  | .ack => true
  | .nakPacket => true
  | .getResp => true
  | .atomicResp => true
  | .rtoExpire g => fitsIn 20 g
  | .backoffExpire g psn => fitsIn 20 g && fitsIn 24 psn
  | .atomicRecordExpire g psn => fitsIn 20 g && fitsIn 24 psn
  | .mlCreate _ => true
  | .mlDestroy _ m => fitsIn 12 m
  | .sendEntry => true
  | .recvEntry => true
  | .cancelEntry => true
  | .msgEager => true
  | .msgRts => true
  | .msgFin => true
  | .matchEvent m => fitsIn 12 m
  | .spillReadDone m _ => fitsIn 12 m
  | .spillRefill m _ => fitsIn 12 m
  | .rendezvousStart => true
  | .rdS => true
  | .rdX => true
  | .upg => true
  | .atom => true
  | .wb => true
  | .evict => true
  | .fwdS => true
  | .fwdX => true
  | .inv => true
  | .dataS => true
  | .dataX => true
  | .grantX => true
  | .invAck => true
  | .fwdAck => true
  | .comp => true
  | .wbAck => true
  | .retry => true
  | .crdGrant => true
  | .atomResp => true
  | .hostDataReturn line data _ => data.length == 64 && fitsIn 46 line
  | .hostSnoop _ addr _ => fitsIn 52 addr
  | .memrd _ tag hpa _ => fitsIn 16 tag && fitsIn 52 hpa
  | .memwr _ tag hpa _ data => fitsIn 16 tag && fitsIn 52 hpa && data.length == 64
  | .memwrptl _ tag hpa _ data mask => fitsIn 16 tag && fitsIn 52 hpa && data.length == 64 && fitsIn 64 mask
  | .birsp _ hpa _ => fitsIn 52 hpa
  | .hdmDecoderCommit _ d base size ways => decide (d < 8) && fitsIn 52 base && decide (size ≤ 2 ^ 52) && ways != 0
  | .transactionTimerExpire line => fitsIn 46 line
  | .requestTimerExpire _ => true
  | .creditReserveExpire _ => true
  | .declareDead _ m => fitsIn 6 m
  | .declareDeadWalkEnd => true
  | .flush _ => true
  | .flushEnd => true
  | .revive _ m => fitsIn 6 m
  | .pegTake _ j => fitsIn 12 j
  | .pegTry _ j => fitsIn 12 j
  | .pegRelease _ j => fitsIn 12 j
  | .watch _ j => fitsIn 12 j
  | .cancel _ j => fitsIn 12 j
  | .forceRelease _ i => fitsIn 12 i
  | .flushWaiters _ i => fitsIn 12 i
  | .stallLimit _ j => fitsIn 12 j
  | .scrubRead _ dUp cUp _ => fitsIn 128 dUp && fitsIn 17 cUp
  | .correctedWriteBack _ w => fitsIn 23 w
  | .eccLapMissed _ => true
  | .eccWinRead _ k => fitsIn 15 k
  | .eccWinWrite _ k value => fitsIn 15 k && fitsIn 64 value
  | .eccWinSel _ value => fitsIn 64 value
  | .fltForce _ _ value => fitsIn 64 value.val
  | .spill _ key => fitsIn 8 key
  | .escWindowRestart => true
  | .wakeCause _ => true
  | .wakeComplete => true
  | .pwrVrFault _ => true
  | .grainSample rs _ => rs.length == 5
  | .bypass => true
  | .idcode => true
  | .samplePreload _ _ => true
  | .extest => true
  | .highz => true
  | .extestPulse => true
  | .extestTrain => true
  | .trstL _ => true
  | .hostLinkUp _ rate width _ _ _ _ => fitsIn 4 rate && fitsIn 5 width
  | .beatRefLock => true
  | .setdasa static dyn => fitsIn 7 static && fitsIn 7 dyn
  | .entdaa dyn => fitsIn 7 dyn
  | .flashEraseDone => true

end Sys2Proof
end

