-- ==== Sys2Proof/Tests/Slice0.lean ====
section
/-! SUPPORT. Tests: an ill-formed command for each check that refuses one, a witness of the hypotheses of each statement, and single steps
whose results the spec gives. -/

set_option Elab.async false

namespace Sys2Proof.Machine.Test

/-- The device runs: power good, no reset held, phase RUNNING, no image in force. -/
def live : State :=
  { State.reset with pins := ⟨true, false, false, false, false⟩ }.wr F.GLB_BOOT_STATUS.PHASE phRunning

/-- The PORTS member of an image that gives every port one ROLE, two lanes and the step of 106 Gb/s. -/
def withPorts (s : State) (role : Nat) : State :=
  s.modTrs (fun t => { t with img := some ⟨0, 0, 0, [], [(0x8003, List.replicate 64 (leBytes 2 (role + 2 * 4 + 2 * 16)) |>.flatten)]⟩ })

/-- A port whose lanes are ACTIVE and whose link is UP, with a peer that keeps the Beat. -/
def up (s : State) (p : Nat) : State :=
  ((s.wr F.SER_PORT_STATUS.STATE serActive p).wr F.LNK_PORT_STATUS.STATE lnkUp p).wr F.SER_PORT_STATUS.PEER_BEAT 1 p

abbrev pf0 : Fn := .pf 0
abbrev who0 : Who := .fn pf0

/-! ### Registers and the Beat -/

theorem hyp_WritesGoFieldByField :
    (live.serves who0 .RTE_LIMITER_CFG 0 = true ∧ Reg.plain .RTE_LIMITER_CFG = true ∧ F.RTE_LIMITER_CFG.RATE_MIN ∈ Reg.fields .RTE_LIMITER_CFG ∧
      F.RTE_LIMITER_CFG.RATE_MIN.acc = .RW ∧ bits 0 48 16 ≠ live.heldVal F.RTE_LIMITER_CFG.RATE_MIN 0 0 ∧
      live.fieldBad who0 F.RTE_LIMITER_CFG.RATE_MIN 0 (bits 0 48 16) 0 = true) ∧
    (bits (16 * 2 ^ 48) 48 16 ≠ live.heldVal F.RTE_LIMITER_CFG.RATE_MIN 0 0 ∧
      live.fieldBad who0 F.RTE_LIMITER_CFG.RATE_MIN 0 (bits (16 * 2 ^ 48) 48 16) (16 * 2 ^ 48) = false ∧ F.RTE_LIMITER_CFG.RATE_MIN.cls = .B) ∧
    (live.serves who0 .FLT_NOTIFY 0 = true ∧ Reg.plain .FLT_NOTIFY = true) ∧
    (live.serves who0 .FLT_STICKY 7 = true ∧ Reg.plain .FLT_STICKY = true ∧ F.FLT_STICKY.STICKY.acc = .RW1C) ∧
    (live.serves (.fn (.vf 2 511)) .RMA_QINFO_SEL 0 = true ∧ Reg.plain .RMA_QINFO_SEL = true) ∧
    ((live.unusedOut .RTE_LIMITER_CFG 0 || live.ringOut who0 .RTE_LIMITER_CFG 0) = false ∧
      live.serves who0 .HIF_EQ_BASE 2047 = true ∧ Reg.plain .HIF_EQ_BASE = true ∧ live.ringOut who0 .HIF_EQ_BASE 2047 = false) ∧
    (live.serves (.fn (.vf 2 511)) .HIF_EQ_BASE 0 = true ∧ live.ringOut (.fn (.vf 2 511)) .HIF_EQ_BASE 0 = true) ∧
    (live.serves who0 .LNK_ERR_COUNT 63 = true ∧ Reg.plain .LNK_ERR_COUNT = true ∧ live.unusedOut .LNK_ERR_COUNT 63 = true) := by
  and_intros <;> decide +kernel

theorem hyp_WritesThatAreNotPerformed :
    (live.live = true ∧ live.hostAnswers pf0 = true ∧ live.postedCredit = true) ∧
    live.fnLoc pf0 .bar0 0x500048 = .reg .RTE_LIMITER_CFG 0 ∧
    live.regAbsent .RTE_LIMITER_CFG = false ∧
    ((live.wr F.GLB_UNIT_RESET.BUSY 0x20).unitBusy (unitOfGroup (Reg.place .RTE_LIMITER_CFG).blk) = true ∧
      (live.wr F.GLB_UNIT_RESET.BUSY 0x20).live = true) ∧
    (({ live with boot := { live.boot with variant := 1 } } : State).regAbsent .COH_MODE = true ∧
      ({ live with boot := { live.boot with variant := 1 } } : State).hostAnswers pf0 = true ∧
      live.fnLoc pf0 .bar0 0xA00010 = .reg .COH_MODE 0) ∧
    live.fnLoc pf0 .bar0 0x1100000 = .hole 17 := by
  and_intros <;> decide +kernel

theorem hyp_UnitsTurnOnAndOff :
    (∀ u ∈ [3, 4, 5, 6, 8, 10, 11, 12, 13, 14, 16, 17], (enableFld u).isSome = true ∧ ∀ d ∈ enableFld u,
      live.serves who0 d.reg 0 = true ∧ live.fits who0 d.reg 0 = true ∧ live.rd d = 0 ∧
      (live.wr d 1).serves who0 d.reg 0 = true ∧ (live.wr d 1).fits who0 d.reg 0 = true ∧ (live.wr d 1).rd d = 1) ∧
    live.enableBad 3 = true ∧ live.enableBad 17 = false := by
  and_intros <;> decide +kernel

/-- A boundary in which nothing is measured. -/
def quiet : BeatIn := ⟨[], [], [], [], 0, List.replicate 24 300, [], [], 0, false, false, 0, [], false, []⟩

/-- A device whose Beat is in a state. -/
def beatIn (n : Nat) : State := live.wr F.BEA_STATUS.STATE n

/-- The Spillway is entered. -/
def spilled : State := live.wr F.FLT_STATUS.SPILLWAY 1

/-- Group 5 is armed with one value staged. -/
def armed : State :=
  (({ beatIn baMaster with shadow := [(fkey F.RTE_LIMITER_CFG.AI 0 0, ⟨F.RTE_LIMITER_CFG.AI, 0, 0, 9⟩)] }.wr F.BEA_COMMIT_ARM.ARM 1).wr
    F.BEA_COMMIT_ARM.MASK 32).wr F.BEA_COMMIT_HOLD.HOLD 32

theorem hyp_BoundaryAndArmedCommits :
    (live.pins.pwrok = true ∧ quiet.parity = false ∧ live.live = true) ∧
    ((live.wr F.GLB_BOOT_STATUS.PHASE phLoad).phase ≠ phRunning ∧ live.spill = false ∧ quiet.overrun = []) ∧
    (spilled.pins.pwrok = true ∧ spilled.spill = true) ∧
    (live.bea.late = [] ∧ (live.modBea (fun b => { b with late := [16] })).bea.late = [16]) ∧
    (live.serves who0 .BEA_COMMIT_ARM 0 = true ∧ live.serves who0 .BEA_COMMIT_AT 0 = true) ∧
    (armed.on F.BEA_COMMIT_ARM.ARM = true ∧ armed.serves who0 .BEA_COMMIT_ARM 0 = true ∧ bit (2 ^ 63 + 2) 63 = true ∧
      (2 ^ 63 + 2) % 2 ^ 17 ≠ armed.rd F.BEA_COMMIT_ARM.MASK ∧ bit (2 ^ 63 - 1) 63 = false) ∧
    (live.on F.BEA_COMMIT_ARM.ARM = false ∧ live.ba = baFree ∧ (beatIn baAcquire).ba = baAcquire ∧ (beatIn baLocked).ba ≠ baFree ∧
      (beatIn baLocked).ba ≠ baAcquire) ∧
    (((beatIn baLocked).wr F.BEA_COMMIT_AT.TARGET 1).beat < ((beatIn baLocked).wr F.BEA_COMMIT_AT.TARGET 1).rd F.BEA_COMMIT_AT.TARGET ∧
      (beatIn baLocked).rd F.BEA_COMMIT_AT.TARGET ≤ (beatIn baLocked).beat) ∧
    (live.beat < 1 ∧ 0 ≤ armed.beat) ∧
    (armed.live = true ∧ F.RTE_LIMITER_CFG.AI.group = 5 ∧ armed.shadow = [(fkey F.RTE_LIMITER_CFG.AI 0 0, ⟨F.RTE_LIMITER_CFG.AI, 0, 0, 9⟩)] ∧
      armed.bea.armLate = false ∧ armed.eccWatch = false ∧ armed.rd F.BEA_COMMIT_AT.TARGET ≤ armed.beat ∧ armed.rd F.BEA_COMMIT_ARM.MASK = 2 ^ 5) ∧
    live.serves who0 .BEA_COUNT 0 = true ∧ live.hostAnswers (.vf 0 0) = true := by
  and_intros <;> decide +kernel

/-- Port 9 carries exchanges, and has asked with identifier 7. -/
def asked9 : State :=
  (up (withPorts (live.wr F.BEA_CONFIG.PERIOD_UNITS 20) 1) 9).modBea (fun b => { b with xids := [(9, 7)] })

theorem hyp_ExchangesAlignTheBeat :
    (live.live = true ∧ live.beatPort 63 = false) ∧
    (tabGet (asked9.modBea (fun b => { b with sentAt := [(9, 1)], ticks := 64 })).bea.sentAt 9 = some 1 ∧
      asked9.xchgEvery 9 = 64 ∧ 64 < 1 + 64 ∧ tabGet asked9.bea.sentAt 9 = none) ∧
    ((asked9.wr F.BEA_STATUS.UP_VALID 1).on F.BEA_STATUS.UP_VALID = true ∧
      ((asked9.wr F.BEA_STATUS.UP_VALID 1).wr F.BEA_STATUS.UPSTREAM 9).rd F.BEA_STATUS.UPSTREAM = 9 ∧ asked9.rd F.BEA_STATUS.UPSTREAM ≠ 9) ∧
    ((20 : Nat) ≠ 21 ∧ asked9.ba ≠ baMaster ∧ ((asked9.wr F.BEA_CONFIG.ROLE 2).wr F.BEA_STATUS.STATE baMaster).ba = baMaster ∧
      0 < ((asked9.wr F.BEA_CONFIG.ROLE 2).wr F.BEA_STATUS.STATE baMaster).ownPrio) ∧
    (asked9.live = true ∧ asked9.beatPort 9 = true ∧ tabGet asked9.bea.xids 9 = some 7 ∧ tabGet asked9.bea.xids 9 ≠ some 8) ∧
    asked9.on F.BEA_STATUS.UP_VALID = false ∧
    (asked9.rd F.BEA_CONFIG.PERIOD_UNITS = 20 ∧ 1 < 2 ∧ 6 ≤ 6) ∧
    ((asked9.wr F.BEA_STATUS.STATE baLocked).ba = baLocked ∧ (asked9.wr F.BEA_STATUS.UPSTREAM 10).rd F.BEA_STATUS.UPSTREAM ≠ 9) ∧
    (asked9.ba = baFree ∧ (asked9.wr F.BEA_CONFIG.ROLE 0).role ≠ 1) := by
  and_intros <;> decide +kernel

theorem hyp_AlignmentStatesChange :
    (asked9.bea.upQuiet < 16 ∧ (asked9.wr F.BEA_STATUS.UPSTREAM 9).beatPort ((asked9.wr F.BEA_STATUS.UPSTREAM 9).rd F.BEA_STATUS.UPSTREAM) = true) ∧
    ((((beatIn baLocked).modBea (fun b => { b with upQuiet := 16 })).live = true) ∧ (beatIn baLocked).ba = baLocked ∧ (beatIn baLocked).bea.cands = []) ∧
    ((beatIn baHoldover).ba = baHoldover ∧ 0 < ((beatIn baHoldover).wr F.BEA_HOLDOVER.LIMIT_S 1).rd F.BEA_HOLDOVER.LIMIT_S * 10000000000) ∧
    (((beatIn baHoldover).wr F.BEA_HOLDOVER.LIMIT_S 1).modBea (fun b => { b with holdTime := 10000000000 })).rd F.BEA_HOLDOVER.LIMIT_S *
      10000000000 ≤ 10000000000 ∧
    (live.role ≠ 2 ∧ live.role ≠ 1) ∧
    (((beatIn baLocked).wr F.BEA_CONFIG.ROLE 2).role = 2 ∧ ((beatIn baLocked).wr F.BEA_CONFIG.ROLE 2).ba = baLocked ∧
      16 ≤ ((beatIn baLocked).modBea (fun b => { b with aliveQuiet := 16 })).bea.aliveQuiet) ∧
    ((live.wr F.BEA_CONFIG.ROLE 1).role = 1 ∧ live.ba = baFree ∧ live.bea.heard = false ∧
      (live.modBea (fun b => { b with sinceLoad := some 64 })).bea.sinceLoad = some 64) ∧
    ((live.wr F.BEA_PPS_PHASE.VALID 1).on F.BEA_PPS_PHASE.VALID = true ∧ live.on F.BEA_PPS_PHASE.VALID = false ∧ 900 ≤ 900) ∧
    ((beatIn baMaster).ba = baMaster ∧ ((beatIn baMaster).wr F.BEA_CONFIG.EXT_REF 1).on F.BEA_CONFIG.EXT_REF = true) ∧
    ((live.wr F.BEA_STATUS.REF_LOCK 1).on F.BEA_STATUS.REF_LOCK = true ∧ live.on F.BEA_STATUS.REF_LOCK = false) := by
  and_intros <;> decide +kernel
/-! ### Lanes and links -/

/-- A running device with every chiplet's PLL locked and ports of one ROLE. -/
def wired (role : Nat) : State := withPorts (live.wr F.SER_PLL_STATUS.LOCK 15) role

/-- Port `p` is in a lane state, with what its bring-up holds. -/
def inSer (role p st : Nat) (x : SerPort := SerPort.init) : State := ((wired role).wr F.SER_PORT_STATUS.STATE st p).setSp p x

/-- A capability set of node 5, port 3 (Table 3.2), with its CRC. -/
def capsOf (head : Bytes) : Bytes := head ++ leBytes 4 (crc32 head)
/-- What one lane has heard: a LANE_ID, with its count of sets with ACK, once the set that carries 0 has gone. -/
def heard (id : Nat) : CapLane := { CapLane.init with id := some id, counted := true }

def caps : Bytes := capsOf (leBytes 4 0x3CA55AC3 ++ [1, 6, 2, 2, 5, 0, 0, 0, 3] ++ List.replicate 15 0)

theorem hyp_BringUpStarts :
    ((inSer 1 0 serWait { SerPort.init with calib := some serDetect }).live = true ∧
      (inSer 1 0 serWait { SerPort.init with calib := some serDetect }).pllLocked 0 = true ∧
      ((inSer 1 0 serWait { SerPort.init with calib := some serDetect }).sp 0).calib = some serDetect ∧
      (wired 1).needsCal 0 = true ∧ (wired 1).needsCal 1 = true) ∧
    (∀ s ∈ [((inSer 1 63 serWait).wr F.SER_LANE_STATUS.CAL_OK 1 126).wr F.SER_LANE_STATUS.FAILED 1 127], s.live = true ∧
      s.serState 63 = serWait ∧ s.pllLocked 63 = true ∧ (s.sp 63).calib = none ∧ s.needsCal 126 = false ∧ s.needsCal 127 = false ∧
      s.rd F.SER_PORT_CTRL.MODE 63 = 0) ∧
    ((inSer 3 4 serCaps).serState 4 = serCaps ∧ (inSer 3 4 serCaps).roleFits 4 = true ∧ (inSer 1 4 serCaps).roleFits 4 = false) ∧
    ((inSer 1 4 serTrain { SerPort.init with checked := true }).serState 4 = serTrain ∧
      ((inSer 1 4 serTrain { SerPort.init with checked := true }).sp 4).agreedStep = 0 ∧
      0 < ((inSer 1 4 serTrain { SerPort.init with checked := true, agreedStep := 1 }).sp 4).agreedStep) ∧
    ((inSer 1 4 serDetect).serState 4 = serDetect ∧ (inSer 1 4 serDetect).on F.SER_LANE_STATUS.FAILED 9 = false ∧
      bit ((inSer 1 4 serDetect).rd F.SER_PORT_STATUS.POL_INV 4) 1 = false ∧ ((inSer 1 4 serDetect).sp 4).c1.counted = false ∧
      unsymbols 0 false (symbols 0 caps) = caps ∧ leAt caps 0 4 = 0x3CA55AC3 ∧ capSetOk caps = true ∧
      unsymbols 0 false (symbols 0 (caps.take 31 ++ [0])) = caps.take 31 ++ [0] ∧ capSetOk (caps.take 31 ++ [0]) = false ∧
      leAt (caps.take 31 ++ [0]) 0 4 = 0x3CA55AC3) := by
  and_intros <;> decide +kernel

/-- The result block of lane 0 whose PASS names lane 0 (Table 3.3). -/
def passed0 : Bytes := capsOf (leBytes 4 0x5AC33CA5 ++ [0, 1, 0] ++ List.replicate 21 0)

theorem hyp_TrainingEndsInActive :
    (∀ x ∈ [{ SerPort.init with c0 := heard 0, c1 := heard 1 }], (inSer 3 5 serCaps x).live = true ∧
      (inSer 3 5 serCaps x).serState 5 = serCaps ∧ ((inSer 3 5 serCaps x).sp 5).c0.counted = true ∧
      ((inSer 3 5 serCaps x).sp 5).idOf 0 = some 0 ∧ ((inSer 3 5 serCaps x).sp 5).idOf 1 = some 1) ∧
    (∀ x ∈ [{ SerPort.init with training := 1, c0 := heard 1 }], (inSer 1 5 serTrain x).serState 5 = serTrain ∧
      ((inSer 1 5 serTrain x).sp 5).trained = false ∧
      ((inSer 1 5 serTrain x).sp 5).checked = false ∧ ((inSer 1 5 serTrain x).sp 5).training = 1 ∧ ((inSer 1 5 serTrain x).sp 5).idOf 0 = some 1 ∧
      prbsErrors ((inSer 1 5 serTrain x).sp 5).agreedStep (bit ((inSer 1 5 serTrain x).rd F.SER_PORT_STATUS.POL_INV 5) 0) ⟨1, []⟩ ≤
        (inSer 1 5 serTrain x).rd F.SER_BRINGUP_CFG.ERR_MAX ∧
      ((inSer 1 5 serTrain x).wr F.SER_LANE_STATUS.CDR_LOCK 1 10).on F.SER_LANE_STATUS.CDR_LOCK 10 = true) ∧
    (∀ x ∈ [{ SerPort.init with checked := true, ownPass := 1, agreedWidth := 1 }], (inSer 1 5 serTrain x).live = true ∧
      (inSer 1 5 serTrain x).serState 5 = serTrain ∧ ((inSer 1 5 serTrain x).sp 5).checked = true ∧
      ((inSer 1 5 serTrain x).sp 5).ownPass = 1 ∧ ((inSer 1 5 serTrain x).sp 5).agreedWidth = 1 ∧
      bit ((inSer 1 5 serTrain x).rd F.SER_PORT_STATUS.POL_INV 5) 0 = false) ∧
    (unsymbols 0 false (symbols 0 passed0) = passed0 ∧ leAt passed0 4 1 < 2 ∧ leAt passed0 0 4 = 0x5AC33CA5 ∧ leAt passed0 28 4 = crc32 (passed0.take 28) ∧ leAt passed0 7 21 = 0 ∧ leAt passed0 5 1 = 1) := by
  and_intros <;> decide +kernel

theorem hyp_InitStartsClean :
    ((inSer 1 63 serActive).wr F.LNK_CTRL.ENABLE 1).lnkState 63 = lnkDown ∧ ((inSer 1 63 serActive).wr F.LNK_CTRL.ENABLE 1).en uLNK = true ∧
    ((inSer 1 63 serActive).wr F.LNK_CTRL.ENABLE 1).serState 63 = serActive := by
  and_intros <;> decide +kernel

theorem hyp_PortsLockAndObey :
    (∀ s ∈ [((inSer 1 2 serActive).wr F.SER_PORT_STATUS.LANES 3 2).wr F.SER_LANE_STATUS.CDR_LOCK 1 5], s.live = true ∧
      s.serState 2 = serActive ∧ s.rd F.SER_PORT_STATUS.LANES 2 = 3 ∧ s.on F.SER_LANE_STATUS.CDR_LOCK 5 = true) ∧
    (live.pins.pwrok = true ∧ bit ((wired 1).rd F.SER_PLL_STATUS.LOCK) 3 = true ∧ ∀ i < 16, (wired 1).serState (48 + i) = serOff) ∧
    (∀ s ∈ [((inSer 1 63 serWait).wr F.SER_LANE_STATUS.CAL_OK 1 126).wr F.SER_LANE_STATUS.FAILED 1 127],
      s.serves who0 .SER_PORT_CTRL 63 = true ∧ s.fits who0 .SER_PORT_CTRL 63 = true ∧ s.portRole 63 ≠ 0 ∧ (s.sp 63).calib = none ∧
      s.serState 63 = serWait ∧ s.pllLocked 63 = true ∧ s.needsCal 126 = false ∧ s.needsCal 127 = false ∧
      s.rd F.SER_PORT_CTRL.MODE 63 = 0 ∧ s.rd F.SER_PORT_CTRL.POWER_DOWN 63 = 0) ∧
    (∀ s ∈ [(inSer 1 0 serTest).wr F.SER_PORT_CTRL.MODE 1 0], s.serves .mailbox .SER_PORT_CTRL 0 = true ∧
      s.fits .mailbox .SER_PORT_CTRL 0 = true ∧ (s.sp 0).calib = none ∧ s.serState 0 = serTest ∧ s.rd F.SER_PORT_CTRL.MODE 0 = 1) := by
  and_intros <;> decide +kernel

/-- Port 8 is UP with one bring-up state. -/
def up8 (x : SerPort := SerPort.init) : State := (up (wired 1) 8).setSp 8 x

/-- The equalization loop runs. -/
def looped : State := (((up8).wr F.SER_CTRL.ENABLE 1).wr F.BEA_CONFIG.TASK_EN 8).wr F.GRN_CTRL.ENABLE 1

theorem hyp_LaneMessages :
    ((up8).live = true ∧ (up8).lnkState 8 = lnkUp ∧ ((up8).wr F.SER_EQ_OVERRIDE.FFE_OVR 1 17).on F.SER_EQ_OVERRIDE.FFE_OVR 17 = true ∧
      -1 ≤ (-1 : Int) ∧ 1 < 2) ∧
    ((looped).eqLoop = true ∧ (looped).eqHeld 17 .SER_FFE = false ∧ (0 : Int) ≤ (looped).shadowOf F.SER_FFE.PRE 17 + 0 ∧
      ((looped).shadowOf F.SER_FFE.PRE 17 : Int) + 0 ≤ 12 ∧ (0 : Int) ≤ (looped).shadowOf F.SER_FFE.POST 17 + 1 ∧
      ((looped).shadowOf F.SER_FFE.POST 17 : Int) + 1 ≤ 20) ∧
    (((up8).modLane (2 * 8 + ((up8).sp 8).hears 1) (fun x => { x with reqSeq := some 3 })).laneSt (2 * 8 + ((up8).sp 8).hears 1)).reqSeq = some 3 ∧
    (((up8).modLane (2 * 8 + ((up8).sp 8).hears 1) (fun x => { x with reqSeq := some 3 })).laneSt (2 * 8 + ((up8).sp 8).hears 1)).frozen = 0 ∧
    ((up8).beatAhead 1 = true ∧ (up8).beatAhead 0 = false) ∧
    ((up8).wr F.SER_PORT_CTRL.TARGET_WIDTH 1 8).rd F.SER_PORT_CTRL.TARGET_WIDTH 8 ≠ 2 ∧
    ((up8 { SerPort.init with widthReq := some ⟨4, 2, 0, 16, none⟩ }).sp 8).widthReq = some ⟨4, 2, 0, 16, none⟩ ∧
    (∀ s ∈ [((up8 { SerPort.init with widthReq := some ⟨4, 2, 0, 16, some 0⟩ }).wr F.BEA_COUNT.COUNT 64).wr F.SER_PORT_CTRL.TARGET_WIDTH 2 8],
      (s.sp 8).widthReq = some ⟨4, 2, 0, 16, some 0⟩ ∧ 0 + 64 ≤ s.beat ∧ s.serState 8 = serActive ∧
      s.laneGone 8 = false ∧ s.offerWidth 8 ≠ s.rd F.SER_PORT_STATUS.WIDTH 8) ∧
    (∀ s ∈ [((up8 { SerPort.init with widthReq := some ⟨4, 1, 0, 16, some 0⟩ }).wr F.BEA_COUNT.COUNT 64).wr F.SER_PORT_STATUS.WIDTH 2 8],
      (s.sp 8).widthReq = some ⟨4, 1, 0, 16, some 0⟩ ∧ 0 + 64 ≤ s.beat ∧ s.serState 8 = serActive ∧ s.laneGone 8 = true) ∧
    (∀ s ∈ [(up8 { SerPort.init with txChange := some (0, 1, 1), rxChange := some (1, 1), rxLanes := 3 }).wr F.SER_PORT_STATUS.LANES 3 8],
      (s.sp 8).txChange = some (0, 1, 1) ∧ 0 ≤ s.beat ∧ s.serState 8 = serActive ∧ s.rd F.SER_PORT_STATUS.LANES 8 = 3 ∧
      (s.sp 8).rxChange = some (1, 1) ∧ (s.sp 8).rxLanes = 3) ∧
    (∀ s ∈ [(up8 { SerPort.init with txChange := some (0, 2, 0), rxChange := some (2, 0), rxLanes := 1 }).wr F.SER_PORT_STATUS.LANES 1 8],
      (s.sp 8).txChange = some (0, 2, 0) ∧ s.serState 8 = serActive ∧ s.rd F.SER_PORT_STATUS.LANES 8 = 1 ∧
      (s.sp 8).rxChange = some (2, 0) ∧ (s.sp 8).rxLanes = 1) := by
  and_intros <;> decide +kernel

/-- Port 8 is UP on its lane 0 alone. -/
def one8 (x : SerPort := SerPort.init) : State := (((up8 x).wr F.SER_PORT_STATUS.WIDTH 1 8).wr F.SER_PORT_STATUS.LANES 1 8).wr F.SER_PORT_CTRL.TARGET_WIDTH 2 8

/-- The result block of lane 1 whose PASS names lane 1. -/
def passed1 : Bytes := capsOf (leBytes 4 0x5AC33CA5 ++ [1, 2, 0] ++ List.replicate 21 0)

theorem hyp_LanesReacquireAndTest :
    ((one8 { SerPort.init with reacqBeats := 1024 }).live = true ∧ (one8 { SerPort.init with reacqBeats := 1024 }).serState 8 = serActive ∧
      (one8 { SerPort.init with reacqBeats := 1024 }).rd F.SER_PORT_STATUS.WIDTH 8 < (one8 { SerPort.init with reacqBeats := 1024 }).offerWidth 8 ∧
      1024 ≤ ((one8 { SerPort.init with reacqBeats := 1024 }).sp 8).reacqBeats ∧ bit ((one8).rd F.SER_PORT_STATUS.LANES 8) 0 = true ∧
      (one8).on F.SER_LANE_STATUS.FAILED 17 = false) ∧
    (∀ x ∈ [{ SerPort.init with reacq := some 1, c1 := heard 1, reacqOwn := some true }], (one8 x).serState 8 = serActive ∧
      ((one8 x).sp 8).reacq = some 1 ∧ ((one8 x).sp 8).idOf 1 = some 1 ∧ ((one8 x).sp 8).reacqPeer = none ∧
      ((one8 x).sp 8).reacqOwn = some true ∧ prbsErrors ((one8 x).rd F.SER_PORT_STATUS.STEP 8) false ⟨1, []⟩ ≤ (one8 x).rd F.SER_BRINGUP_CFG.ERR_MAX ∧
      resultPass (unsymbols ((one8 x).rd F.SER_PORT_STATUS.STEP 8) (bit ((one8 x).rd F.SER_PORT_STATUS.POL_INV 8) 1) (symbols 0 passed1)) = some 2) ∧
    ((one8.laneSt 127).frozen = 0 ∧ one8.on F.SER_EQ_OVERRIDE.FREEZE 127 = false) ∧
    (∀ s ∈ [((inSer 1 63 serTest).wr F.SER_TEST.GEN_EN 1 127).wr F.SER_TEST.CHK_EN 1 127], s.serves who0 .SER_TEST 127 = true ∧
      s.fits who0 .SER_TEST 127 = true ∧ s.laneInTest 127 = true ∧ s.on F.SER_TEST.GEN_EN 127 = true ∧ s.rd F.SER_TEST.LOOP 127 ≠ 3 ∧ s.on F.SER_TEST.CHK_EN 127 = true) ∧
    (∀ s ∈ [(inSer 1 63 serTest).wr F.SER_TEST.LOOP 3 127], s.live = true ∧ s.laneInTest 127 = true ∧ s.rd F.SER_TEST.LOOP 127 = 3) ∧
    (∀ n ∈ [0, 1, 2], ∀ g ∈ [0, 1], ∀ s ∈ [((inSer 1 63 serTest).wr F.SER_TEST.LOOP n 127).wr F.SER_TEST.GEN_EN g 127], s.live = true ∧
      s.laneInTest 127 = true ∧ s.rd F.SER_TEST.LOOP 127 = n ∧ s.on F.SER_TEST.GEN_EN 127 = decide (g = 1)) ∧
    ((up8).serves who0 .SER_TEST 16 = true ∧ (up8).fits who0 .SER_TEST 16 = true ∧ (up8).laneInTest 16 = false) := by
  and_intros <;> decide +kernel

/-- Port 8 is UP with two flits outstanding, the older of number 0xFFE. -/
def two8 : State :=
  ((((up8).wr F.LNK_REPLAY_STATUS.OUTSTANDING 2 8).wr F.LNK_REPLAY_STATUS.TX_OLDEST 0xFFE 8).wr F.LNK_REPLAY_STATUS.NAK_OUT 1 8).modLink 8
    (fun l => { l with nakDue := true })

theorem hyp_NakIsSentAgain :
    (two8.live = true ∧ two8.lnkState 8 = lnkUp ∧ two8.on F.LNK_REPLAY_STATUS.NAK_OUT 8 = true) ∧
    (two8.pins.pwrok = true ∧ (two8.link 8).nakDue = true ∧ (two8.link 8).rpos = none) := by
  and_intros <;> decide +kernel

theorem hyp_ReplayStartsAndEnds :
    (two8.live = true ∧ two8.lnkState 8 = lnkUp ∧ 0 < two8.rd F.LNK_REPLAY_STATUS.OUTSTANDING 8 ∧
      two8.rd F.LNK_ERR_COUNT.REPLAY_WIN 8 + 1 ≤ two8.rd F.LNK_HEALTH.REPLAY_MAX ∧
      two8.rd F.LNK_ERR_COUNT.REPLAY_WIN 8 + 1 < 2 ^ F.LNK_ERR_COUNT.REPLAY_WIN.w) ∧
    (two8.rd F.LNK_REPLAY_STATUS.OUTSTANDING 8 < (1 + 4096 - two8.rd F.LNK_REPLAY_STATUS.TX_OLDEST 8) % 4096) ∧
    ((0 + 4096 - two8.rd F.LNK_REPLAY_STATUS.TX_OLDEST 8) % 4096 = two8.rd F.LNK_REPLAY_STATUS.OUTSTANDING 8 ∧
      two8.rd F.LNK_REPLAY_STATUS.TX_OLDEST 8 < 4096) := by
  and_intros <;> decide +kernel

/-- The flit of a TYPE with SEQ 0 that carries 0xFFF as its ACK, FEC and CRC included. -/
def flitOf (ty words : Nat) : Bytes := flitEncode (ty * 2 ^ 30 + words * 2 ^ 24 + 0xFFF * 2 ^ 12) (List.replicate (4 * words) 0) false

/-- The levels in which a lane at S0 with a fresh scrambler carries bytes. -/
def carried (b : Bytes) : List Level := levelsOf 0 (scramble scrambler.ones (bitsOf b)).1

/-- Port 8 is UP and receives on some of its lanes, which hold lock. -/
def hears8 (lanes : Nat) : State :=
  ((up8 { SerPort.init with rxLanes := lanes }).wr F.SER_LANE_STATUS.CDR_LOCK 1 16).wr F.SER_LANE_STATUS.CDR_LOCK 1 17

theorem hyp_delivers_one : (hears8 1).delivers 8 (carried (flitOf 1 1)) [] (flitOf 1 1) ((hears8 1).rxAdvance 16 256) :=
  .inl ⟨by decide +kernel, by decide +kernel, by decide +kernel, rfl⟩

theorem hyp_delivers_other : (hears8 2).delivers 8 [] (carried (flitOf 1 1)) (flitOf 1 1) ((hears8 2).rxAdvance 17 256) :=
  .inr (.inl ⟨by decide +kernel, by decide +kernel, by decide +kernel, rfl⟩)

/-- The bytes 0 to 127 stand for each half of a flit. -/
def half : Bytes := (List.range 128).map (BitVec.ofNat 8)

theorem hyp_cut : (hears8 3).laneWhole 8 0 128 (carried half) ≠ (hears8 3).laneWhole 8 1 128 [] ∧
    (hears8 3).laneWhole 8 0 128 [] = false ∧ (hears8 3).laneWhole 8 1 128 [] = false := by
  and_intros <;> decide +kernel

theorem hyp_delivers_two : (hears8 3).delivers 8 (carried half) (carried half) (unstripe half half)
    (((hears8 3).rxAdvance 16 128).rxAdvance 17 128) :=
  .inr (.inr ⟨by decide +kernel, by decide +kernel, by decide +kernel, by decide +kernel, rfl⟩)

theorem hyp_ReceiverTakesOrDiscards :
    ((up8).live = true ∧ (up8).lnkState 8 = lnkUp) ∧
    ((flitDecode (flitOf 1 1)).map (fun g => (g.2, flitOk (leAt g.1 0 4), leAt g.1 0 4)) = some (0, true, 2 ^ 30 + 2 ^ 24 + 0xFFF * 2 ^ 12) ∧
      (flitDecode (flitOf 0 0)).map (fun g => (g.2, flitOk (leAt g.1 0 4), leAt g.1 0 4)) = some (0, true, 0xFFF * 2 ^ 12)) ∧
    (∀ x ∈ [(4095, 1), (2049, 2047), (2048, 2048), (1, 4095), (0, 0)],
      (0 + 4096 - ((up8).wr F.LNK_REPLAY_STATUS.RX_EXPECT x.1 8).rd F.LNK_REPLAY_STATUS.RX_EXPECT 8) % 4096 = x.2 ∧
      (0xFFF + 4096 - ((up8).wr F.LNK_REPLAY_STATUS.RX_EXPECT x.1 8).rd F.LNK_REPLAY_STATUS.TX_OLDEST 8 + 1) % 4096 = 0) ∧
    (flitDecode (List.replicate 256 1) = none ∧ ((inSer 1 8 serActive).wr F.LNK_PORT_STATUS.STATE lnkInit 8).live = true ∧
      ((inSer 1 8 serActive).wr F.LNK_PORT_STATUS.STATE lnkInit 8).lnkState 8 = lnkInit) ∧
    (cutPackets 64 (((up8).link 8).rx ++ []) = ([], [], true) ∧ (hears8 1).live = true ∧ (hears8 1).lnkState 8 = lnkUp) ∧
    ((up8).rd F.LNK_ERR_COUNT.UNCORR_WIN 8 + 1 ≤ (up8).rd F.LNK_HEALTH.UNCORR_MAX ∧ (up8).on F.LNK_REPLAY_STATUS.NAK_OUT 8 = false) := by
  and_intros <;> decide +kernel

theorem hyp_LinksEndAndCount :
    (∀ s ∈ [(inSer 1 8 serActive).wr F.LNK_PORT_STATUS.STATE lnkInit 8], s.live = true ∧ s.lnkState 8 = lnkInit ∧ s.serState 8 = serActive) ∧
    (two8.live = true ∧ two8.lnkState 8 = lnkUp ∧ 0 < two8.rd F.LNK_REPLAY_STATUS.OUTSTANDING 8 ∧ two8.serState 8 = serActive) ∧
    (∀ s ∈ [(up8.wr F.LNK_PORT_STATUS.STATE lnkFencing 8).modLink 8 (fun l => { l with fenceDest := serDetect })], s.pins.pwrok = true ∧
      s.lnkState 8 = lnkFencing ∧ (s.link 8).fenceLeft = 0 ∧ (s.link 8).fenceDest ≠ serOff ∧
      s.on F.SER_PORT_CTRL.MODE 8 = false ∧ (s.link 8).fenceDest ≠ serTest) ∧
    (∀ s ∈ [((up8.wr F.LNK_PORT_STATUS.STATE lnkFencing 8).wr F.SER_PORT_CTRL.MODE 1 8).modLink 8 (fun l => { l with fenceDest := serTest })], s.on F.SER_PORT_CTRL.MODE 8 = true ∧
      (s.link 8).fenceLeft = 0 ∧ (s.link 8).fenceDest ≠ serOff) ∧
    (∀ s ∈ [(up8.modLink 8 (fun l => { l with winBeats := 0x100000 }))], 0 < s.rd F.LNK_HEALTH.WINDOW ∧
      (s.link 8).winBeats = s.rd F.LNK_HEALTH.WINDOW) ∧
    (tabGetD (up8).rte.cred (chKey 8 4 2 false) 0 + 4095 ≤ 4095 ∧ 4 ≤ 4 ∧ 2 ≤ 2) ∧
    ((up8).serves who0 .LNK_PORT_CTRL 8 = true ∧ (up8).portRole 8 ≠ 0) := by
  and_intros <;> decide +kernel
/-! ### Routing, multicast and trees -/

/-- A running router with one image-less position 0 of group 0. -/
def routing : State := live.wr F.RTE_CTRL.ENABLE 1

/-- A packet from node 1: destination, VN, KIND, header bytes 12 to 31, payload. -/
def pk (dst vn kind : Nat) (hdr payload : Bytes) : Bytes := mkPacket dst 1 vn 0 kind 0 hdr payload

/-- A packet that a unit takes next. -/
def got (s : State) (b : Bytes) : State := s.modRte (fun r => { r with ejected := [b] })

/-- One packet staged at port 4 of a KIND. -/
def staged (kind : Nat) (b : Bytes) : State := { (up routing 4).wr F.RTE_PORT_STATUS.KIND kind 4 with arrived := [(4, b)] }

theorem hyp_ArrivalIsChecked :
    (live.live = true ∧ live.en uRTE = false ∧ routing.live = true ∧ routing.arrived = []) ∧
    (∀ b ∈ [pk 0 1 0x10 [] []], (staged kHost b).live = true ∧ (staged kHost b).en uRTE = true ∧ (staged kHost b).lnkState 4 = lnkUp ∧ (staged kHost b).kind 4 = kHost ∧
      (staged kHost b).srcBad 4 b = true ∧ pkVn b ≤ 4 ∧ pkHc b ≤ 2) ∧
    ((staged kRow (pk 0 5 0x10 [] [])).kind 4 ≠ kHost ∧ 4 < pkVn (pk 0 5 0x10 [] []) ∧
      2 < pkHc (pkSet (pk 0 1 0x10 [] []) 37 2 3)) ∧
    (∀ b ∈ [pkSet (pk 0 4 0x10 [] []) 37 2 2], pkVn b = 4 ∧ pkHc b = 2 ∧ (staged kRow b).allocOf (chKey 4 4 2 false) <
      (staged kRow b).resident (chKey 4 4 2 false) + pkCredits b) ∧
    (∀ b ∈ [pkSet (pk 0 1 0x10 [] []) 48 2 3], pkPh b = 3 ∧ pkVn b ≤ 4 ∧ pkHc b ≤ 2 ∧
      ((staged kRow b).modRte (fun r => { r with alloc := [(chKey 4 1 0 false, 1)] })).resident (chKey 4 1 0 false) + pkCredits b ≤
        ((staged kRow b).modRte (fun r => { r with alloc := [(chKey 4 1 0 false, 1)] })).allocOf (chKey 4 1 0 false)) ∧
    (∀ b ∈ [pk 0 1 0x10 [] []], (staged kRow b).intact = true ∧ (staged kRow b).kind 4 ≠ kHost ∧ badRoute b = false ∧ pkMcast b = false ∧
      ({ staged kRow b with arrived := [] }.route ⟨b, 4, false, true, []⟩).1 = some (b, ⟨ownPort, false⟩)) ∧
    (∀ b ∈ [pkSet (pk 3 1 0x80 [] []) 56 1 1], badRoute b = false ∧ pkMcast b = true ∧
      ((((staged kRow b).wr F.MCT_MC_CTL.VALID 1 3).wr F.MCT_MC_CTL.EJECT 1 3).wr F.MCT_CTRL.ENABLE 1).mcHops ⟨b, 4, false, true, []⟩ =
        some ([⟨ownPort, false⟩], 0)) := by
  and_intros <;> decide +kernel

/-- A device whose agents have one packet to send. -/
def sending (b : Bytes) : State := routing.modRte (fun r => { r with agent := [b] })

/-- A notice of the router waits at the injection port. -/
def noticing (b : Bytes) : State := routing.modRte (fun r => { r with notices := [b] })

/-- Port 8 is UP with one credit of channel VN0, class 0, and one packet waits for an output. -/
def waiting (out : Nat) : State :=
  ((up (routing.wr F.RTE_PORT_STATUS.KIND kRow 8) 8).wr F.RTE_PORT_STATUS.DEAD 0 8).modRte (fun r => { r with
    held := [⟨pk 0 0 0x01 [] [], ownPort, false, false, [⟨out, false⟩]⟩], cred := [(chKey 8 0 0 false, 1)] })

theorem hyp_PacketTravels :
    (∀ v ∈ [0, 3, 4], (sending (pk 0 v 1 [] [])).live = true ∧ (sending (pk 0 v 1 [] [])).en uRTE = true ∧
      (sending (pk 0 v 1 [] [])).rte.agent[0]? = some (pk 0 v 1 [] []) ∧ (noticing (pk 0 v 1 [] [])).rte.agent.length ≤ 0 ∧
      (noticing (pk 0 v 1 [] [])).rte.notices[0 - (noticing (pk 0 v 1 [] [])).rte.agent.length]? = some (pk 0 v 1 [] []) ∧ pkMcast (pk 0 v 1 [] []) = false ∧ pkVn (pk 0 v 1 [] []) = v ∧
      pkDst (pk 0 v 1 [] []) = routing.nodeId ∧ routing.aliasAt routing.ownPos = none) ∧
    (pkVn (pk 9 1 0x10 [] []) = 1 ∧ tabGet ((sending (pk 9 1 0x10 [] [])).modRte (fun r => { r with limits := [(9, ⟨8, 0, false, 0⟩)] })).rte.limits
      (pkDst (pk 9 1 0x10 [] [])) = some ⟨8, 0, false, 0⟩ ∧ (⟨8, 0, false, 0⟩ : Limiter).bucket ≤ 0) ∧
    routing.rte.agent.length + routing.rte.notices.length ≤ 0 ∧ routing.candidates 64 = [] ∧
    (∀ k ∈ [(⟨pk 0 0 0x01 [] [], ownPort, false, false, [⟨64, false⟩]⟩ : Pk)], (waiting 64).en uRTE = true ∧
      ((waiting 64).candidates ownPort).find? (fun x => pkVn x.2.b == 0) = some (0, k) ∧ k.hops = [⟨ownPort, false⟩]) ∧
    (∀ k ∈ [(⟨pk 0 0 0x01 [] [], ownPort, false, false, [⟨8, false⟩]⟩ : Pk)], (waiting 8).live = true ∧
      ((waiting 8).candidates 8).find? (fun x => pkVn x.2.b == 0) = some (0, k) ∧ k.hops = [⟨8, false⟩] ∧ pkVn k.b = 0 ∧
      (waiting 8).kind 8 ≠ kGlobal) := by
  and_intros <;> decide +kernel

/-- A manager at node 1 is admitted by entry 3. -/
def managed : State := (routing.wr F.RTE_MGMT_ALLOW.VALID 1 3).wr F.RTE_MGMT_ALLOW.NODE 1 3

/-- A management request for an offset. -/
def mgmt (kind off : Nat) : Bytes := pk 0 0 kind (leBytes 4 off) (if kind = 1 then leBytes 8 5 else [])

theorem hyp_RouterServesItsPackets :
    ((got routing (pk 0 2 4 [] [])).live = true ∧ (got routing (pk 0 2 4 [] [])).hands uRTE 0x04 (pk 0 2 4 [] []) = true ∧
      (got routing (pk 0 0 3 [] [])).hands uRTE 0x03 (pk 0 0 3 [] []) = true) ∧
    (∀ s ∈ [routing.modRte (fun r => { r with limits := [(7, ⟨8, 0, false, 64⟩)] })], tabGet s.rte.limits 7 = some ⟨8, 0, false, 64⟩ ∧
      s.rd F.RTE_LIMITER_CFG.FREE_BEATS ≤ 64) ∧
    (∀ k ∈ [1, 2], (got routing (mgmt k 0)).hands uRTE k (mgmt k 0) = true ∧
      ((got routing (mgmt k 0)).handed k (mgmt k 0)).mgmtEntry (pkSrc (mgmt k 0)) = none) ∧
    (∀ k ∈ [1, 2], ((got managed (mgmt k 0)).handed k (mgmt k 0)).mgmtEntry (pkSrc (mgmt k 0)) = some 3 ∧
      ((got managed (mgmt k 0)).handed k (mgmt k 0)).mgmtSlots (pkSrc (mgmt k 0)) < 16 ∧ mgmtReach (leAt (mgmt k 0) 12 4) = false) ∧
    (∀ k ∈ [1, 2], ∀ t ∈ [(got managed (mgmt k 0x500048)).handed k (mgmt k 0x500048)], mgmtReach (leAt (mgmt k 0x500048) 12 4) = true ∧
      leAt (mgmt k 0x500048) 12 4 % 8 = 0 ∧ pfLoc (leAt (mgmt k 0x500048) 12 4) = .reg .RTE_LIMITER_CFG 0 ∧
      t.serves (.mgmt 3) .RTE_LIMITER_CFG 0 = true ∧ t.mgmtSlots 1 < 16) ∧
    (∀ t ∈ [(got managed (mgmt 1 0x200010)).handed 1 (mgmt 1 0x200010)], (t.writeReg (.mgmt 3) .BEA_COUNT 0 5).acts = t.acts ∧
      t.serves (.mgmt 3) .BEA_COUNT 0 = true) := by
  and_intros <;> decide +kernel

/-- A tree with two children, four slots and a phase of five Beats; flags: 1 root, 2 with a host of its own. -/
def treeOf (flags : Nat) : Tree :=
  let d := [0, 0, BitVec.ofNat 8 flags, 2] ++ leBytes 2 4 ++ [0, 0] ++ leBytes 4 9 ++ List.replicate 8 0 ++ leBytes 4 5
  Tree.clear ⟨d ++ List.replicate (192 - d.length) 0, 0, [], [], [], [], 0, false, false, 0, []⟩

/-- Confluence is enabled, and tree 1023 is loaded. -/
def confluent (x : Option Tree) : State :=
  let s := (routing.wr F.MCT_CTRL.ENABLE 1).wr F.TRS_ENABLE.ENABLE 0x7C087
  match x with
  | none => s
  | some x => (s.modMct (fun m => { m with trees := [(1023, x)] })).wr F.MCT_TREE_STATUS.STATE tsReady 1023

theorem hyp_TreeCommandsEnd :
    ((routing.wr F.MCT_TREE_RESULT.BUSY 1).serves who0 .MCT_TREE_CMD 0 = true ∧ (routing.wr F.MCT_TREE_RESULT.BUSY 1).on F.MCT_TREE_RESULT.BUSY = true) ∧
    (routing.serves who0 .MCT_TREE_CMD 0 = true ∧ routing.on F.MCT_TREE_RESULT.BUSY = false ∧ routing.confOn = false) ∧
    ((confluent none).serves who0 .MCT_TREE_CMD 0 = true ∧ (confluent none).confOn = true ∧ (confluent none).tree 0 = none) ∧
    ((confluent (some (treeOf 0))).tree 1023 = some (treeOf 0) ∧ (treeOf 0).openOps = [] ∧
      (confluent (some (treeOf 0))).treeState 1023 ≠ tsBroken) := by
  and_intros <;> decide +kernel

/-- A packet of tree 1023: KIND, OP_SEQ, CHILD, header byte 28. -/
def cf (kind seq child b28 : Nat) : Bytes :=
  pk 0 4 kind (leBytes 2 1023 ++ leBytes 2 seq ++ leBytes 4 0 ++ leBytes 2 0 ++ leBytes 1 child ++ leBytes 5 0 ++ leBytes 1 b28) []

/-- An open ALLREDUCE of one 32-bit integer, of sequence 0. -/
def oneOp (acc : Tab Bytes) : COp :=
  ⟨0, 0, 0, [0, 0, 0, 0, 0, 0, 0, 0, 1, 0, 0, 0] ++ List.replicate 52 0, [], 0, [], acc, [], [], [], [], [], false⟩
def chunkOf (child : Nat) : Chunk := ⟨true, child, 0, 0, 0, 0, false, 1, [1, 0, 0, 0]⟩

/-- The chunk of that operation. -/
def cfOne (kind child : Nat) : Bytes :=
  pk 0 4 kind (leBytes 2 1023 ++ leBytes 2 0 ++ leBytes 4 0 ++ leBytes 2 0 ++ leBytes 1 child ++
    leBytes 1 (oneOp []).typeop ++ leBytes 4 (oneOp []).count ++ leBytes 1 (oneOp []).op) [1, 0, 0, 0]

theorem hyp_TreePacketsAreJudged :
    (∀ k ∈ [0x88, 0x89], (got routing (cf k 0 1 0)).live = true ∧ (got routing (cf k 0 1 0)).hands uMCT k (cf k 0 1 0) = true ∧
      (((got routing (cf k 0 1 0)).handed k (cf k 0 1 0)).reads (.tree 1023)).cfTree (cf k 0 1 0) = none) ∧
    (∀ b ∈ [cf 0x88 16 2 0, cf 0x88 15 2 0], ∀ s ∈ [got (confluent (some (treeOf 0))) b], s.hands uMCT 0x88 b = true ∧
      ((s.handed 0x88 b).reads (.tree 1023)).cfTree b = some (1023, treeOf 0) ∧
      ((s.handed 0x88 b).reads (.tree 1023)).treeState 1023 ≠ tsBroken ∧ 1 ≤ leAt b 22 1 ∧ leAt b 22 1 ≤ (treeOf 0).nchild) ∧
    (∀ b ∈ [cfOne 0x88 1, cfOne 0x89 0], ∀ s ∈ [got (confluent (some { treeOf 0 with ops := [oneOp []] })) b],
      s.live = true ∧ s.hands uMCT (pkKind b) b = true ∧
      ((s.handed (pkKind b) b).reads (.tree 1023)).cfTree b = some (1023, { treeOf 0 with ops := [oneOp []] }) ∧
      (oneOp []).agrees ⟨true, 0, 0, 0, leAt b 28 1, leAt b 23 1, bit (pkFrame b) 31, leAt b 24 4, pkPayload b⟩ = true) ∧
    ((treeOf 0).root = false ∧ 0 < (treeOf 0).slots ∧ ({ treeOf 0 with ops := [oneOp []] } : Tree).opOf 0 = some (oneOp []) ∧
      (oneOp []).op ≠ opBarrier ∧ (oneOp []).done.contains 0 = false) ∧
    (15 < (leAt (cf 0x88 16 2 0) 14 2 + 65536 - (treeOf 0).base) % 65536 ∧ (leAt (cf 0x88 15 2 0) 14 2 + 65536 - (treeOf 0).base) % 65536 ≤ 15) ∧
    (0 < (treeOf 0).slots ∧ (treeOf 0).opOf 15 = none ∧ (treeOf 0).root = false ∧
      4 ≤ (List.replicate 4 (⟨true, 2, 0, 0, 0, 0, false, 0, []⟩ : Chunk)).length) ∧
    (∀ s ∈ [got (confluent (some (treeOf 0))) (cf 0x8A 0 0 1)], s.hands uMCT 0x8A (cf 0x8A 0 0 1) = true ∧
      ((s.handed 0x8A (cf 0x8A 0 0 1)).reads (.tree 1023)).cfTree (cf 0x8A 0 0 1) = some (1023, treeOf 0) ∧ leAt (cf 0x8A 0 0 1) 29 1 = 0) ∧
    (∀ s ∈ [got (confluent (some (treeOf 0))) (cf 0x8B 0 1 6)], s.hands uMCT 0x8B (cf 0x8B 0 1 6) = true ∧
      ((s.handed 0x8B (cf 0x8B 0 1 6)).reads (.tree 1023)).cfTree (cf 0x8B 0 1 6) = some (1023, treeOf 0) ∧ leAt (cf 0x8B 0 1 6) 28 1 ≠ ccLost) ∧
    (∀ s ∈ [((confluent (some { treeOf 0 with quiet := 5 })).wr F.MCT_TREE_STATUS.STATE tsActive 1023).wr F.BEA_CONFIG.TASK_EN 0xFFFF], s.task 0 = true ∧
      s.tree 1023 = some { treeOf 0 with quiet := 5 } ∧ s.treeState 1023 = tsActive ∧ 0 < (treeOf 0).phase ∧ (treeOf 0).phase ≤ 5) := by
  and_intros <;> decide +kernel

def working (x : Tree) : State := confluent (some x)

/-- A replica of group 3 with number 1, and the landing of the group: its CQ 0 cached and READY, its region of PF 0's entry 1. -/
def replica : Bytes := pk 3 1 0x80 (leBytes 2 1 ++ leBytes 2 0 ++ leBytes 8 0 ++ leBytes 8 0) [7, 0, 0, 0, 0, 0, 0, 0]
def regionOf (acc : Nat) : Region :=
  ⟨leBytes 8 0x1000 ++ leBytes 8 4096 ++ leBytes 4 0 ++ leBytes 2 0 ++ leBytes 1 (32 + acc) ++ leBytes 1 12 ++ leBytes 2 0 ++ leBytes 1 0 ++
    leBytes 1 1 ++ List.replicate 36 0, [], [], false⟩
def landing : State :=
  let s := (routing.modRma (fun r => { r with regions := [(1, regionOf 15)] })).wrI F.RMA_RT_BASE.LOG_LIMIT 0 0 4
  let s := (s.wr F.MCT_MC_CTL.VALID 1 3).wr F.MCT_MC_CTL.ROOT 9 3
  let s := (((s.wr F.MCT_MC_CTL.LAND 2 3).wr F.MCT_MC_CTL.NEXT_SEQ 1 3).wr F.MCT_MC_LAND.VALID 1 2).wr F.MCT_MC_LAND.KEY 256 2
  got (s.modCtx 0 (fun c => { c.put Q.CQ_STATE cqReady with cached := true })) replica

theorem hyp_TreesCombineAndReplicate :
    (∀ x ∈ [{ treeOf 0 with ops := [oneOp [(0, [5, 0, 0, 0])]], upCred := 1 }], (working x).live = true ∧ (working x).confOn = true ∧
      (working x).tree 1023 = some x ∧ x.opOf 0 = some (oneOp [(0, [5, 0, 0, 0])]) ∧ (oneOp []).op = opAll ∧
      tabGet (oneOp [(0, [5, 0, 0, 0])]).acc 0 = some [5, 0, 0, 0] ∧ x.root = false ∧ 0 < x.upCred ∧ { x with upCred := 0 }.upCred = 0) ∧
    (∀ x ∈ [{ treeOf 0 with ops := [oneOp []], chunks := [chunkOf 1, chunkOf 2] }], (working x).pState = 0 ∧ x.opOf 0 = some (oneOp []) ∧
      (x.kids.filterMap (fun i => x.chunks.find? (fun k => k.up && k.child == i && k.seq == 0 && k.c == 0))).length = x.nchild ∧
      (oneOp []).exact' = false ∧ (oneOp []).comb.contains 0 = false ∧ 0 < chunksOf (oneOp []).count (oneOp []).upE ∧ x.isLocal = false ∧
      x.root = false ∧ (working x).working 1023 x < x.slots ∧ tabGet (oneOp []).own 0 = none) ∧
    (∀ x ∈ [{ treeOf 0 with ops := [oneOp []], chunks := [chunkOf 2] }],
      (x.kids.filterMap (fun i => x.chunks.find? (fun k => k.up && k.child == i && k.seq == 0 && k.c == 0))).length ≠ x.nchild) ∧
    (landing.live = true ∧ landing.gatedUnit uHIF = false ∧ landing.rte.ejected.find? (fun b => pkKind b == 0x80) = some replica ∧
      landing.on F.MCT_MC_LAND.VALID (landing.rd F.MCT_MC_CTL.LAND (pkDst replica % 2 ^ 14)) = true) ∧
    (({ landing with hif := Hif.init }.c 0).cached = false) ∧
    (landing.mcRoom replica = true ∧ landing.hands uMCT 0x80 replica = true) ∧
    (∀ t ∈ [(landing.handed 0x80 replica).reads (.mcast 3)], t.rd F.MCT_MC_CTL.ROOT 3 ≠ t.nodeId ∧ (pkPayload replica).length ≠ 0 ∧
      leAt replica 12 2 = t.rd F.MCT_MC_CTL.NEXT_SEQ 3 ∧ ((t.wr F.MCT_MC_CTL.NEXT_SEQ 2 3).keyUse .mcland
        ((t.wr F.MCT_MC_CTL.NEXT_SEQ 2 3).rd F.MCT_MC_LAND.KEY 2) (leAt replica 16 8) (pkPayload replica).length
        ⟨0, t.ownerOf 0, 0, 0, 0⟩).1 = .ok 1 ∧ landing.intact = true ∧ landing.ecc.refetch.contains (landing.rd F.MCT_MC_LAND.KEY 2 / 256 % 2 ^ 24) = false ∧
      t.q 0 Q.CQ_STATE ≠ cqOver ∧ (t.wr F.MCT_MC_LAND.VALID 0 2).on F.MCT_MC_LAND.VALID 2 = false) := by
  and_intros <;> decide +kernel
/-! ### Host interface and remote memory access -/

/-- HIF, RMA and MAT are enabled; the QCT of PF 0 covers 16 numbers, its Region Table 16 entries. -/
def hosted : State :=
  (((((routing.wr F.HIF_CTRL.ENABLE 1).wr F.RMA_CTRL.ENABLE 1).wr F.MAT_CTRL.ENABLE 1).wrI F.HIF_QCT_BASE.LOG_LIMIT 0 0 4).wrI
    F.RMA_RT_BASE.LOG_LIMIT 0 0 4).wrI F.HIF_PORT_STATUS.LINK_UP 0 0 1

/-- Number 15 of PF 0 is cached, with fields of its context set. -/
def with15 (fs : List ((Nat × Nat) × Nat)) : State :=
  hosted.modCtx 15 (fun c => fs.foldl (fun c x => c.put x.1 x.2) { c with cached := true })

theorem hyp_QueueCommandsEnd :
    (hosted.serves who0 .HIF_QUEUE_CMD 0 = true ∧ hosted.rdI F.HIF_QUEUE_RESULT.BUSY (fnInst pf0) 0 = 0) ∧
    (routing.en uHIF = false ∧ routing.serves who0 .HIF_QUEUE_CMD 0 = true) ∧
    (hosted.en uHIF = true ∧ hosted.gOf pf0 (2 ^ 20 - 1) = none ∧ hosted.gOf pf0 16 = some 16 ∧ hosted.qctCovers 16 = false ∧
      hosted.gOf pf0 15 = some 15 ∧ hosted.qctCovers 15 = true ∧ (hosted.c 15).cached = false) ∧
    ((with15 []).c 15).cached = true ∧ (with15 []).q 15 Q.STATE = qFree ∧ (with15 []).q 15 Q.CQ_STATE = cqFree ∧
    ((with15 [(Q.STATE, qOff)]).q 15 Q.STATE = qOff ∧ qOff ≠ qFree ∧ ((with15 [(Q.STATE, qOff)]).c 15).stub = false) ∧
    ((with15 [(Q.CQ_STATE, cqOver)]).q 15 Q.CQ_STATE = cqOver ∧ (with15 [(Q.CQ_STATE, cqOver)]).cqWaiting 15 = false ∧
      (with15 [(Q.CQ_STATE, cqOver)]).boundQueues 15 = [] ∧ cqOver ≠ cqFree) ∧
    ((with15 [(Q.CQ_STATE, cqReady), (Q.STATE, qOff), (Q.CQ, 15)]).cqBound 15 = true ∧
      (with15 [(Q.CQ_STATE, cqReady)]).q 15 Q.CQ_STATE = cqReady ∧ (with15 [(Q.CQ_STATE, cqReady)]).cqBound 15 = false) := by
  and_intros <;> decide +kernel

/-- An ACTIVE queue 15 of 64 slots whose CQ is its own number; VF 0 of PF 0 owns numbers 0 to 15. -/
def active15 (fs : List ((Nat × Nat) × Nat)) : State :=
  (with15 ([(Q.STATE, qActive), (Q.LOG_SIZE, 6), (Q.CQ, 15), (Q.RCQ, 15), (Q.CQ_STATE, cqReady), (Q.CQ_LOG, 6), (Q.WEIGHT, 1),
    (Q.MAX_OUT, 1)] ++ fs)).wrI F.HIF_VF_MAP.QCOUNT 0 0 16

theorem hyp_DoorbellPages :
    (hosted.page pf0 15 15 = true ∧ hosted.qctCovers 15 = true ∧ (hosted.c 15).cached = false) ∧
    ((with15 []).page pf0 15 15 = true ∧ ((with15 []).c 15).cached = true ∧ (with15 []).intact = true) ∧
    ((active15 []).q 15 Q.STATE ≠ qFree ∧ diff32 0 ((active15 []).q 15 Q.TAKEN) ≤ diff32 ((active15 []).q 15 Q.DB) ((active15 []).q 15 Q.TAKEN)) ∧
    (diff32 ((active15 []).q 15 Q.DB) ((active15 []).q 15 Q.TAKEN) < diff32 64 ((active15 []).q 15 Q.TAKEN) ∧
      diff32 64 ((active15 []).q 15 Q.TAKEN) ≤ 2 ^ (active15 []).q 15 Q.LOG_SIZE) ∧
    ((active15 []).q 15 Q.STATE = qActive ∧ 2 ^ (active15 []).q 15 Q.LOG_SIZE < diff32 65 ((active15 []).q 15 Q.TAKEN)) ∧
    diff32 ((active15 []).q 15 Q.PI) ((active15 []).q 15 Q.CI) < diff32 1 ((active15 []).q 15 Q.CI) ∧
    ((active15 []).q 15 Q.CQ_STATE = cqReady ∧ diff32 1 ((active15 [(Q.PI, 1)]).q 15 Q.CI) ≤
      diff32 ((active15 [(Q.PI, 1)]).q 15 Q.PI) ((active15 [(Q.PI, 1)]).q 15 Q.CI) ∧ bit 1 32 = false ∧ (active15 []).hif.wait = [] ∧
      ((active15 []).c 15).b.length = 256) ∧
    ((with15 []).q 15 Q.STATE ≠ qOff ∧ (with15 []).q 15 Q.STATE ≠ qActive ∧ (with15 []).on F.HIF_Q_CTRL.ENABLE 15 = false ∧
      ((with15 [(Q.STATE, qError)]).wr F.HIF_Q_CTRL.ENABLE 1 15).on F.HIF_Q_CTRL.ENABLE 15 = true ∧
      ((with15 [(Q.STATE, qError)]).wr F.HIF_Q_CTRL.ENABLE 1 15).q 15 Q.STATE = qError) ∧
    ((with15 [(Q.STATE, qOff)]).q 15 Q.STATE = qOff ∧
      ((with15 [(Q.STATE, qOff)]).q ((with15 [(Q.STATE, qOff)]).cqOf 15) Q.CQ_STATE == cqReady) = false ∧
      ((with15 [(Q.STATE, qOff), (Q.CQ, 15), (Q.RCQ, 15), (Q.CQ_STATE, cqFull)]).q
        ((with15 [(Q.STATE, qOff), (Q.CQ, 15), (Q.RCQ, 15), (Q.CQ_STATE, cqFull)]).rcqOf 15) Q.CQ_STATE == cqFull) = true) ∧
    ((active15 []).c 15).ents = [] := by
  and_intros <;> decide +kernel

/-- Ring 0 of PF 0 is enabled, armed, with one unread event, a delay and vector 2047. -/
def ring : State :=
  ((((hosted.wrI F.HIF_EQ_CFG.ENABLE 0 0 1).wrI F.HIF_EQ_STATUS.ARMED 0 0 1).wrI F.HIF_EQ_STATUS.PI 0 0 1).wrI F.HIF_EQ_CFG.MOD_TIME 0 0 1).wrI
    F.HIF_EQ_CFG.VECTOR 0 0 2047
def vector (mask : Bool) (pba : List Nat) : State :=
  ring.modHif (fun h => { h with msix := [(2047, (0x1000, 5, mask))], pba := pba })

theorem hyp_RingsVectorsAndPushes :
    (ring.serves who0 .HIF_EQ_DB 2047 = true ∧ 2047 < ring.eqCount pf0 ∧ ring.unread 0 2047 < diff32 1 (ring.rdI F.HIF_EQ_DB.CI 0 2047)) ∧
    (ring.serves who0 .HIF_EQ_DB 0 = true ∧ diff32 1 (ring.rdI F.HIF_EQ_DB.CI 0 0) ≤ ring.unread 0 0 ∧ bit 1 32 = false) ∧
    (ring.live = true ∧ ring.rdI F.HIF_EQ_CFG.ENABLE 0 0 = 1 ∧ ring.rdI F.HIF_EQ_STATUS.ARMED 0 0 = 1 ∧ 0 < ring.unread 0 0 ∧
      ring.rdI F.HIF_EQ_CFG.MOD_TIME 0 0 ≠ 0 ∧ ((vector false []).vec 0 2047).2.2 = false ∧ ((vector true []).vec 0 2047).2.2 = true ∧
      (vector true []).hif.pba.contains (0 * 2048 + 2047) = false) ∧
    ((vector true [2047]).hostAnswers pf0 = true ∧ (vector true [2047]).postedCredit = true ∧ ((vector true [2047]).vec 0 2047).1 < 2 ^ 64 ∧ ((vector true [2047]).vec 0 2047).2.1 < 2 ^ 32 ∧
      (vector true [2047]).hif.pba.contains (0 * 2048 + 2047) = true) ∧
    (hosted.page pf0 15 15 = true ∧ tabGet (hosted.half 15 0).bytes 63 = none ∧ (hosted.half 15 0).bytes.length < 63) ∧
    (∀ s ∈ [hosted.setHalf 15 1 ⟨[(0, 7)], 2⟩], s.live = true ∧ (s.half 15 1).bytes ≠ [] ∧ (s.half 15 1).bytes.length ≠ 64 ∧
      2 ≤ (s.half 15 1).beats) := by
  and_intros <;> decide +kernel

/-- A queue command of PF 0 reads its descriptor. -/
def reading (cmd : Nat) : State := hosted.modHif (fun h => { h with cmds := [⟨pf0, cmd, 15, 15, true⟩] })
def cqDesc : Bytes := List.replicate 72 0 ++ [6] ++ List.replicate 183 0
def nopEnt (f : Option Fin') : Ent := ⟨0, 1, List.replicate 64 0, true, true, f, false, none, [], [], none, none, false⟩

theorem hyp_HostReadsEnd :
    ((reading 1).live = true ∧ (reading 1).hif.cmds.find? (fun k => fnInst k.fn == fnInst pf0 && k.desc) = some ⟨pf0, 1, 15, 15, true⟩ ∧
      (List.replicate 256 (0 : Byte)).length = 256 ∧ queueDescOk (List.replicate 256 0) ((reading 1).qCount ((reading 1).ownerOf 15)) = false ∧
      cqDesc.length = 256 ∧ cqDescOk cqDesc ((reading 3).eqCount ((reading 3).ownerOf 15)) = true) ∧
    (∀ s ∈ [hosted.modHif (fun h => { h with fetch := [15] })], s.hif.fetch.contains 15 = true ∧
      (s.hif.ctx.filter (fun e => e.2.cached)).length < 32768 ∧ s.hif.pend = [] ∧ s.hif.wait = []) ∧
    ((qctBytes (List.replicate 256 0)).length = 256 ∧ leAt (qctBytes (List.replicate 256 0)) 124 4 =
      crc32 ((qctBytes (List.replicate 256 0)).take 124 ++ (qctBytes (List.replicate 256 0)).drop 128)) ∧
    (∀ s ∈ [(active15 []).modHif (fun h => { h with rings := [(15, 0, 1)] })], s.hif.rings.find? (fun r => r.1 == 15) = some (15, 0, 1) ∧
      s.q 15 Q.STATE = qActive) ∧
    (∀ s ∈ [((active15 []).modCtx 15 (fun c => { c with ents := [nopEnt none] })).modHif (fun h => { h with reads := [⟨.data 15 0, pf0, 0⟩] })],
      s.hif.reads = [⟨.data 15 0, pf0, 0⟩] ∧ s.ent 15 0 = some (nopEnt none) ∧ (nopEnt none).fin = none ∧ ([] : Bytes).length = eLen (nopEnt none).b) := by
  and_intros <;> decide +kernel

/-- Queue 15 has one entry of an opcode to take, in one slot. -/
def entryOf (op : Nat) : Bytes := [BitVec.ofNat 8 op, 0, 1] ++ List.replicate 61 0
def toTake (op : Nat) : State :=
  ((active15 [(Q.DB, 1)]).modCtx 15 (fun c => { c with slots := [(0, entryOf op)] })).modMct (fun x => { x with bucket := 1 })

theorem hyp_EntriesAreTaken :
    (hosted.live = true ∧ hosted.serve (fun o => [oNop].contains o) = none) ∧
    (∀ op ∈ [oNop, oPut, oPutImm, oGet, oAtomic, oSend, oRecv, oCancel, oMcPut, oColl],
      ((toTake op).serve (fun o => [op].contains o)).map (fun x => (x.1, x.2.1, x.2.2.1, x.2.2.2.q 15 Q.TAKEN)) = some (15, 1, entryOf op, 1)) ∧
    (∀ x ∈ (toTake oNop).serve (fun o => [oNop].contains o), x.2.2.2.entryBad 15 0 x.2.2.1 = none ∧ eFrag x.2.2.1 = false ∧ eOp x.2.2.1 ≠ oRecv) ∧
    (∀ x ∈ (toTake oAtomic).serve (fun o => [oAtomic].contains o), x.2.2.2.entryBad 15 0 x.2.2.1 = some erBlock) := by
  and_intros <;> decide +kernel

theorem hyp_EntriesAreTaken_parts :
    (((toTake 0x3F).serve (fun o => o == oNop || !opAssigned o)).map (fun x => (x.1, x.2.1, x.2.2.1)) = some (15, 1, entryOf 0x3F)) ∧
    (∀ e ∈ [[BitVec.ofNat 8 oGet, 8, 2] ++ List.replicate 125 (0 : Byte)], eFrag e = true ∧ eFrag (entryOf oRecv) = false ∧ eOp (entryOf oRecv) = oRecv) ∧
    ((hosted.partsUse .lwrite ((active15 []).keyCtx 15) [(0, 0, 0)]).1 = true ∧
      (hosted.partsUse .lwrite ((active15 []).keyCtx 15) [(14 * 256, 64, 0)]).1 = false) := by
  and_intros <;> decide +kernel

theorem hyp_HostSideChanges :
    (hosted.pins.pwrok = true ∧ hosted.linkUpPf 0 = true ∧ hosted.numbersOf pf0 = []) ∧
    (hosted.pins.perst0 = false ∧ hosted.pins.perst1 = false ∧ hosted.phase ≠ phRom ∧ hosted.pfExists 2 = true ∧ hosted.hif.held = []) ∧
    (State.reset.pins.pwrok = false ∧ hosted.fitted (uHIF + 0) = true ∧ hosted.fitted (uHIF + 1) = true) ∧
    hosted.hostAnswers pf0 = true ∧ hosted.hostAnswers (.vf 2 511) = true ∧
    (∀ s ∈ [with15 [(Q.CQ_STATE, cqFull), (Q.FULL_BEATS, 1000)]], s.live = true ∧ s.q 15 Q.CQ_STATE = cqFull ∧
      s.rdI F.HIF_SCHED.CQ_FULL_BEATS (s.pfOf 15) 0 ≤ s.q 15 Q.FULL_BEATS) ∧
    (with15 [(Q.CQ_STATE, cqFull), (Q.FULL_BEATS, 999)]).q 15 Q.FULL_BEATS < hosted.rdI F.HIF_SCHED.CQ_FULL_BEATS 0 0 := by
  and_intros <;> decide +kernel

/-- Entry 15 of PF 0's Region Table is ENABLED, and in use or not. -/
def region15 (used : Bool) : State :=
  hosted.modRma (fun r => { r with regions := [(15, regionOf 15)], serves := if used then [⟨15, 1, 64, 15⟩] else [] })

theorem hyp_RegionCommandsEnd :
    (hosted.serves who0 .RMA_REG_CMD 0 = true ∧ hosted.rdI F.RMA_REG_RESULT.BUSY (fnInst pf0) 0 = 0 ∧ live.en uRMA = false ∧
      live.serves who0 .RMA_REG_CMD 0 = true) ∧
    (hosted.en uRMA = true ∧ hosted.regIndex pf0 16 = none ∧ hosted.regIndex pf0 15 = some 15 ∧ tabGet hosted.rma.regions 15 = none) ∧
    (tabGet (region15 true).rma.regions 15 = some (regionOf 15) ∧ (regionOf 15).f RG.STATE = 1 ∧ (region15 true).regionUsed 15 = true ∧
      (region15 true).rma.cmds = []) ∧
    (∀ s ∈ [(region15 false).modRma (fun r => { r with cmds := [⟨pf0, 2, 15⟩] })],
      s.rma.cmds.find? (fun k => fnInst k.fn == fnInst pf0 && k.cmd == 2) = some ⟨pf0, 2, 15⟩ ∧ s.regionUsed 15 = false) ∧
    (∀ s ∈ [hosted.modRma (fun r => { r with cmds := [⟨pf0, 1, 15⟩] })], (∀ d ∈ [descPut (descPut (regionOf 15).d RG.STATE 0) RG.SHIFT 0], d.length = 64 ∧
      descOk d = true ∧ s.pdOk pf0 (leAt d 20 2) = true) ∧ tabGet s.rma.regions 15 = none ∧
      s.rma.cmds.find? (fun k => fnInst k.fn == fnInst pf0 && k.cmd == 1) = some ⟨pf0, 1, 15⟩) := by
  and_intros <;> decide +kernel

/-- A request of node 1 for queue 15 with a PSN, its key of entry 15. -/
def req (kind psn md : Nat) (payload : Bytes) : Bytes :=
  pk 0 1 kind (leBytes 4 15 ++ leBytes 3 psn ++ leBytes 1 md ++ leBytes 4 (if kind = 0x11 then 0 else 15 * 256)) payload

/-- One well-formed request of each row with a PSN. -/
def reqs (psn : Nat) : List (Nat × Bytes) :=
  [(0x10, req 0x10 psn 0 (leBytes 8 7)), (0x11, req 0x11 psn 0 (leBytes 16 0)), (0x12, req 0x12 psn 0 (leBytes 8 64)),
   (0x13, req 0x13 psn 16 (leBytes 16 1))]

/-- The connection of queue 15 with node 1, and its region; CUM_PSN 0. -/
def target (fs : List ((Nat × Nat) × Nat)) : State :=
  (active15 ([(Q.REMOTE_NODE, 1), (Q.RIGHTS, 15)] ++ fs)).modRma (fun r => { r with regions := [(15, regionOf 15)] })

/-- The state in which a request is taken, before the records that it leaves behind are freed and after. -/
def taken (s : State) (x : Nat × Bytes) : State := (got s x.2).handed x.1 x.2
def taken1 (s : State) (x : Nat × Bytes) : State := (taken s x).freeRecs 15 (pkPsn x.2) (pkAdist x.2)

/-- Bay 0 is enabled, and its engines do every function. -/
def joiner (s : State) : State :=
  (s.modTrs (fun t => { t with img := some ⟨0, 0, 0, [], [(0x8005, List.replicate 16 0xFF)]⟩ })).wr F.TRS_ENABLE.ENABLE 0x107C007

theorem hyp_TargetLedger :
    (∀ x ∈ reqs 1, (got (target []) x.2).live = true ∧ (got (target []) x.2).intact = true ∧ (got (target []) x.2).hands uRMA x.1 x.2 = true ∧
      rmaBad x.2 = false ∧ (taken (target []) x).en uRMA = true ∧ (taken live x).en uRMA = false ∧ (taken (target []) x).qctCovers (pkDq x.2) = true ∧
      ((taken (target []) x).c (pkDq x.2)).cached = true ∧ ((taken hosted x).c (pkDq x.2)).cached = false ∧
      (taken (target []) x).q 15 Q.STATE = qActive ∧ pkDqgen x.2 = (taken (target []) x).q 15 Q.QGEN ∧
      pkSrc x.2 = (taken (target []) x).q 15 Q.REMOTE_NODE) ∧
    (rmaBad (req 0x10 1 0x80 (leBytes 8 7)) = true ∧ rmaBad (req 0x12 1 1 (leBytes 8 64)) = true) ∧
    (∀ x ∈ reqs 1, (taken (target [(Q.QGEN, 1)]) x).q 15 Q.QGEN ≠ pkDqgen x.2 ∧ (taken (target [(Q.REMOTE_NODE, 2)]) x).q 15 Q.REMOTE_NODE ≠ pkSrc x.2 ∧
      (taken (target [(Q.STATE, qOff)]) x).q 15 Q.STATE = qOff ∧ (taken (target [(Q.STATE, qError)]) x).q 15 Q.STATE = qError ∧
      hosted.qctCovers 16 = false) ∧
    (∀ x ∈ reqs 0, diff24 (pkPsn x.2) ((target []).q 15 Q.CUM_PSN) = 0) ∧ (∀ x ∈ reqs (2 ^ 23), 2 ^ 23 ≤ diff24 (pkPsn x.2) ((target []).q 15 Q.CUM_PSN)) ∧
    (∀ x ∈ reqs 257, 257 ≤ diff24 (pkPsn x.2) ((target []).q 15 Q.CUM_PSN)) ∧
    (∀ x ∈ reqs 256, diff24 (pkPsn x.2) ((target []).q 15 Q.CUM_PSN) = 256 ∧ bit ((target []).q 15 Q.LEDGER) 255 = false ∧
      bit ((target [(Q.LEDGER, 2 ^ 255)]).q 15 Q.LEDGER) 255 = true) ∧
    (pkWhole (req 0x10 1 0 (leBytes 8 7)) = true ∧ pkWhole ((req 0x10 1 0 (leBytes 64 7)).take 32) = false) ∧
    (∀ t ∈ [taken1 (target []) (0x10, req 0x10 1 0 (leBytes 8 7))], t.keyCheck .rwrite (15 * 256) 0 8 (t.keyCtx 15) = .ok 15 ∧
      t.keyCheck .rwrite (14 * 256) 0 8 (t.keyCtx 15) = .error 1) ∧
    (∀ t ∈ [taken1 (target []) (0x11, req 0x11 1 0 (leBytes 16 0))], t.q (t.rcqOf 15) Q.CQ_STATE ≠ cqOver ∧ ((t.c 15).hold 0).2.1 = false) ∧
    (∀ t ∈ [(target []).modCtx 15 (fun c => { c with b := putBytes (putBytes c.b 195 [1]) 211 [1] })],
      ((t.c 15).hold 0).2.1 = true ∧ ((t.c 15).hold 1).2.1 = true) ∧
    (∀ t ∈ [taken1 (target []) (0x12, req 0x12 1 0 (leBytes 8 64))], t.keyCheck .rread (15 * 256) 0 64 (t.keyCtx 15) = .ok 15) ∧
    (∀ t ∈ [taken1 (joiner (target [])) (0x13, req 0x13 1 16 (leBytes 16 1))],
      t.keyCheck .ratomic (15 * 256) 0 8 { t.keyCtx 15 with asize := 8, aop := 0 } = .ok 15 ∧
      t.rma.recs.length + t.rma.atoms.length < 512 * (t.enginesFor 3).length ∧
      t.cohAddr (regionFn 15 (t.region 15)) ((t.region 15).addr 0) = false ∧ bit ((t.region 15).f RG.ACCESS) 4 = false) ∧
    (∀ t ∈ [taken1 ((target [(Q.CUM_PSN, 1)]).modRma (fun r => { r with recs := [⟨15, 1, 8, 5, 0⟩] })) (0x13, req 0x13 1 16 (leBytes 16 1))],
      t.rma.recs.find? (fun x => x.q == 15 && x.psn == 1) = some ⟨15, 1, 8, 5, 0⟩) := by
  and_intros <;> decide +kernel

/-- An answer for queue 15. -/
def ans (kind psn md : Nat) (payload : Bytes) : Bytes := pk 0 2 kind (leBytes 4 15 ++ leBytes 3 psn ++ leBytes 1 md) payload
def answers : List (Nat × Bytes) :=
  [(0x20, ans 0x20 1 0 (leBytes 32 0)), (0x21, ans 0x21 1 1 []), (0x22, ans 0x22 1 0 (leBytes 8 7)), (0x23, ans 0x23 1 16 (leBytes 8 7))]

/-- Queue 15 has sent one request of a KIND with PSN 1. -/
def sent (kind : Nat) (land : Option (Nat × Nat × Nat)) (resend : Option Nat) : Unans := ⟨1, ⟨kind, none, none, [], [], land⟩, false, resend, 0⟩
def window (u : Unans) : State := (target []).modCtx 15 (fun c => { c with win := [u], ackDue := true, timer := 0 })

theorem hyp_AnswersMoveTheWindow :
    (∀ x ∈ answers, rmaBad x.2 = false ∧ (got (target []) x.2).hands uRMA x.1 x.2 = true ∧ (got (target []) x.2).live = true ∧
      (got (target []) x.2).intact = true ∧ (taken (target []) x).en uRMA = true ∧ (taken hosted x).answered x.2 = none ∧
      (taken (target []) x).answered x.2 = some 15 ∧ (taken (target []) x).unansOf 15 (pkPsn x.2) = none ∧
      (taken (window (sent 0x10 none none)) x).unansOf 15 (pkPsn x.2) = some (sent 0x10 none none)) ∧
    (∀ u ∈ ((window (sent 0x10 none none)).c 15).win, u.req.kind ≠ 0x41 ∧ byAck u.req.kind = true ∧ u.done = false ∧ u.psn = 1 ∧
      diff24 (pkPsn (ans 0x20 1 0 (leBytes 32 0))) u.psn < 2 ^ 23) ∧ ((target []).c 15).win = [] ∧
    (∀ m ∈ [nkAccess, nkConn, nkBusy, nkResend, nkCq], pkMod (ans 0x21 1 m []) = m ∧ rmaBad (ans 0x21 1 m []) = false) ∧
    (window (sent 0x10 none none)).q 15 Q.LIMITS / 16 = 0 ∧
    (∀ u ∈ [{ sent 0x12 (some (0, 0, 8)) none with req := { (sent 0x12 (some (0, 0, 8)) none).req with ent := some 0 } }],
      (window u).unansOf 15 1 = some u ∧ ((window u).modCtx 15 (fun c => { c with ents := [nopEnt none] })).ent 15 0 = some (nopEnt none)) ∧
    ((target [(Q.LIMITS, 16)]).q 15 Q.LIMITS / 16 = 1 ∧ 16 * 1 < 16 + 1 ∧
      (((target [(Q.LIMITS, 16)]).modCtx 15 (fun c => { c with busy := 16 })).c 15).busy = 16) ∧
    (∀ k ∈ [(0x22, 0x12), (0x23, 0x13)], ∀ u ∈ [sent k.2 (some (15 * 256, 0, 8)) none], u.req.land = some (15 * 256, 0, 8) ∧ u.req.kind = k.2 ∧
      u.req.ent = none ∧ u.req.rdv = none ∧ 15 * 256 ≠ 0 ∧ (window u).unansOf 15 1 = some u) := by
  and_intros <;> decide +kernel

theorem hyp_ConnectionTimers :
    ((hosted.c 15).ackDue = false ∧ hosted.live = true ∧ ((window (sent 0x10 none none)).c 15).ackDue = true ∧
      (window (sent 0x10 none none)).q 15 Q.STATE ≠ qFree) ∧
    (∀ s ∈ [window (sent 0x10 none none)], (s.c 15).win.find? (fun u => !u.done) = some (sent 0x10 none none) ∧
      s.beat < (s.c 15).timer + s.rd F.RMA_CFG.RTO_BEATS * 2 ^ min (s.c 15).retry 3) ∧
    (∀ s ∈ [(window (sent 0x10 none none)).wr F.BEA_COUNT.COUNT 65535],
      (s.c 15).timer + s.rd F.RMA_CFG.RTO_BEATS * 2 ^ min (s.c 15).retry 3 ≤ s.beat ∧ s.q 15 Q.LIMITS % 16 < (s.c 15).retry + 1) ∧
    ((target [(Q.LIMITS, 1)]).c 15).retry + 1 ≤ (target [(Q.LIMITS, 1)]).q 15 Q.LIMITS % 16 ∧
    (∀ s ∈ [window (sent 0x10 none (some 1))], s.unansOf 15 1 = some (sent 0x10 none (some 1)) ∧ s.beat < 1) ∧
    (∀ s ∈ [window (sent 0x10 none (some 0))], s.unansOf 15 1 = some (sent 0x10 none (some 0)) ∧ 0 ≤ s.beat) ∧
    (∀ s ∈ [(target []).modRma (fun r => { r with atoms := [⟨15, 1, 0, 8, 5, 0, 15, 0x1000, false, false, true⟩] })], s.gatedEngines = false ∧
      s.rma.atoms = [⟨15, 1, 0, 8, 5, 0, 15, 0x1000, false, false, true⟩] ∧ s.q 15 Q.STATE ≠ qFree ∧
      atomNew 0 8 (leAt (leBytes 8 (2 ^ 64 - 1)) 0 8) 5 0 = some 4) ∧
    (∀ s ∈ [(with15 []).wrI F.RMA_QINFO_SEL.NUM 0 0 15], s.serves who0 .RMA_QINFO 0 = true ∧
      s.gOf pf0 (s.rdI F.RMA_QINFO_SEL.NUM (fnInst pf0) 0) = some 15 ∧ s.intact = true ∧ (s.c 15).cached = true) := by
  and_intros <;> decide +kernel

/-! ### Message matching -/

/-- A match list of PF 0 of four on-chip entries and a spill ring of 64 unexpected ones. -/
def list : Ml :=
  let d := leBytes 8 0 ++ leBytes 2 4 ++ [0, 6] ++ List.replicate 52 0
  ⟨pf0, d, 0, false, [], [], [], [], [], [], [], none, 0, 0, [], false⟩
def listed (x : Ml) : State := hosted.modMat (fun m => { m with mls := [(4095, x)] })

/-- Every match list is taken. -/
def full : State := hosted.modMat (fun m => { m with mls := (List.range 4096).map (fun j => (j, list)) })

theorem tabGet_range {α : Type} (x : α) (j : Nat) : ∀ l : List Nat, j ∈ l → tabGet (l.map (fun j => (j, x))) j = some x
  | [], h => absurd h (by simp)
  | k :: l, h => by
    by_cases e : k = j
    · simp [tabGet, e]
    · have h' : j ∈ l := by
        rcases List.mem_cons.mp h with h | h
        · exact absurd h.symm e
        · exact h
      have := tabGet_range x j l h'
      simp_all [tabGet]

theorem full_ml (j : Nat) (h : j < 4096) : full.ml j = some list := by
  simp only [State.ml, full, State.modMat]
  exact tabGet_range list j _ (List.mem_range.mpr h)

theorem hyp_MatchListCommandsEnd :
    (hosted.serves who0 .MAT_ML_CMD 0 = true ∧ hosted.rdI F.MAT_ML_RESULT.BUSY (fnInst pf0) 0 = 0 ∧ hosted.en uMAT = true ∧
      live.serves who0 .MAT_ML_CMD 0 = true ∧ live.en uMAT = false) ∧
    (hosted.ml 0 = none ∧ hosted.mat.cmds = [] ∧ ∀ j, j < 0 → hosted.ml j ≠ none) ∧
    (full.serves who0 .MAT_ML_CMD 0 = true ∧ ∀ j, j < 4096 → full.ml j ≠ none) ∧
    ((listed list).ml 4095 = some list ∧ fnInst list.fn ≠ fnInst (.vf 0 0) ∧ fnInst list.fn = fnInst pf0 ∧ (listed list).mlBound 4095 = false ∧
      list.allPosted = [] ∧ list.fromSlot = []) ∧
    ((target [(Q.ML, 4095)]).modMat (fun m => { m with mls := [(4095, list)] })).mlBound 4095 = true ∧
    (hosted.modMat (fun m => { m with cmds := [⟨pf0, 4095⟩] })).mat.cmds.find? (fun k => fnInst k.fn == fnInst pf0) = some ⟨pf0, 4095⟩ := by
  refine ⟨?_, ?_, ⟨by decide +kernel, fun j h => ?_⟩, ?_, ?_, ?_⟩
  · decide +kernel
  · exact ⟨by decide +kernel, by decide +kernel, fun j h => absurd h (by simp)⟩
  · rw [full_ml j h]; exact Option.some_ne_none _
  all_goals decide +kernel

/-- A message of queue 15 with PSN 1 and an MSN. -/
def msg (kind msn : Nat) : Bytes :=
  pk 0 1 kind (leBytes 4 15 ++ leBytes 3 1 ++ leBytes 1 0 ++ leBytes (if kind = 0x42 then 12 else 3) (if kind = 0x42 then 0 else msn))
    (leBytes (if kind = 0x41 then 16 else 8) 0)
def messages : List (Nat × Bytes) := [(0x40, msg 0x40 0), (0x41, msg 0x41 0), (0x42, msg 0x42 0)]

/-- The connection of queue 15 with its match list. -/
def matching (fs : List ((Nat × Nat) × Nat)) (x : Ml) : State := (target ([(Q.ML, 4095)] ++ fs)).modMat (fun m => { m with mls := [(4095, x)] })

/-- How a message stands at its target: 0 ended, 1 a duplicate, 2 new, with its distance and whether its queue may match. -/
def stands (s : State) (b : Bytes) : Nat × Nat × Bool :=
  match s.targetPre b with
  | .stop _ => (0, 0, false)
  | .dup _ _ => (1, 0, false)
  | .new u g d => (2, d, bit (u.q g Q.RIGHTS) 3)

def entOf (kind tag : Nat) : LEnt := ⟨kind, false, false, none, 0, tag, 0, 0, 0, 0, 0, 0, 1, 15, false⟩

/-- A match list of the function that owns number 15 there. -/
def owned : Ml := { list with fn := .vf 0 0 }

/-- An eager message of queue 15, PSN 1 and MSN 0, of eight bytes. -/
def eager : Bytes := pk 0 1 0x40 (leBytes 4 15 ++ leBytes 3 1 ++ leBytes 1 0 ++ leBytes 3 0) (leBytes 8 8 ++ leBytes 8 7)

/-- A SEND of sixteen bytes whose rendezvous waits for MSG_FIN 0. -/
def rdvSend : Ent :=
  { nopEnt none with b := [0x20, 0, 1] ++ List.replicate 13 (0 : Byte) ++ leBytes 4 16 ++ List.replicate 44 0, msn := some 0 }

theorem hyp_MatchingGoesOn_more :
    (∀ x ∈ [{ owned with d := putBytes (putBytes owned.d 28 (leBytes 2 64)) 30 (leBytes 2 1) }],
      needsSlot x (headerEnt (matching [] x) 15 eager) = true ∧ x.slots.length < x.f ML.SLOT_COUNT ∧ needsSlot owned (headerEnt (matching [] owned) 15 eager) = false ∧
      diff24 (headerEnt (matching [] x) 15 eager).msn ((matching [] x).q 15 Q.EXP_MSN) = 0 ∧ owned.spillRoom = true) ∧
    (2 * list.held.length < list.f ML.ONCHIP ∧ list.entryRoom = true ∧ diff24 255 0 = 255 ∧ 1 ≤ diff24 1 0) ∧
    (leAt rdvSend.b 0 1 = 0x20 ∧ rdvSend.begun = true ∧ rdvSend.fin = none ∧ rdvSend.msn = some 0 ∧ rdvSend.taken = none ∧
      (target []).q 15 Q.EAGER_MAX < leAt rdvSend.b 16 4) ∧
    ((listed list).recvRoom list = true ∧ (entOf 3 5).kind = 3 ∧ (listed list).sameConn { entOf 3 5 with user := 15 } = false ∧
      ((listed list).modCtx 0 (fun c => c.put Q.CQ_STATE cqReady)).recvRoom list = true ∧
      (((listed list).modCtx 0 (fun c => c.put Q.CQ_STATE cqFull)).modHif (fun h => { h with
        wait := List.replicate 64 ⟨0, 0, 0, 0, 0, true, 0, 0, 0, 0, 0, none⟩ })).recvRoom list = false) ∧
    (list.ringFull = false ∧ list.waits = false ∧ (listed list).ecc.refetch = []) ∧
    (∀ x ∈ [{ list with unexp := [entOf 3 0], events := [.recv 15 0] }], (x.unexp.find? (fun e => accepts (recvEnt 15 (nopEnt none).b) e.tag e.rank)).isSome = true) ∧
    (∀ x ∈ [{ list with events := [.cancel 15 0] }], x.posted = [] ∧ x.postedSpill = []) ∧
    (list.refillable true = false ∧ list.refillable false = false ∧ ({ list with postedSpill := [entOf 1 6] } : Ml).refillable true = true ∧
      ({ list with unexpSpill := [entOf 3 6] } : Ml).refillable false = true) ∧
    (∀ x ∈ [{ list with postedSpill := [entOf 1 6], d := putBytes (putBytes list.d 12 (leBytes 4 (15 * 256))) 10 [6] }],
      ∀ s ∈ [(listed x).modRma (fun r => { r with regions := [(15, regionOf 15)] })],
        (s.keyUse .lwrite (x.f ML.SPILL_KEY) (x.spillOff true 0) (64 * x.chunk true 0) x.keyCtx).1 = .ok 15) ∧
    ((listed list).keyUse .lwrite (list.f ML.SPILL_KEY) 0 64 list.keyCtx).1 ≠ .ok 0 := by
  and_intros <;> decide +kernel

theorem hyp_MatchingGoesOn :
    (∀ x ∈ messages, (got (matching [] owned) x.2).live = true ∧ (got (matching [] owned) x.2).intact = true ∧
      (got (matching [] owned) x.2).hands uMAT x.1 x.2 = true ∧ matBad x.2 = false ∧ matBad (putBytes x.2 19 [1]) = true ∧
      stands (taken hosted x) x.2 = (0, 0, false) ∧ stands (taken (matching [(Q.CUM_PSN, 1)] list) x) x.2 = (1, 0, false) ∧
      stands (taken (matching [] owned) x) x.2 = (2, 1, true) ∧ stands (taken (matching [(Q.RIGHTS, 7)] list) x) x.2 = (2, 1, false) ∧
      (taken (matching [] owned) x).ml ((taken (matching [] owned) x).q 15 Q.ML % 4096) = some owned ∧ pkWhole x.2 = true ∧
      fnInst owned.fn = fnInst ((taken (matching [] owned) x).ownerOf 15) ∧
      (taken (matching [(Q.ML, 4094)] owned) x).ml ((taken (matching [(Q.ML, 4094)] owned) x).q 15 Q.ML % 4096) = none ∧
      (taken (matching [] owned) x).en uMAT = true) ∧
    ({ list with broken := true }.broken = true ∧ list.broken = false) ∧
    (255 < diff24 (headerEnt (matching [] list) 15 (msg 0x41 256)).msn ((matching [] list).q 15 Q.EXP_MSN) ∧
      diff24 (headerEnt (matching [] list) 15 (msg 0x41 0)).msn ((matching [] list).q 15 Q.EXP_MSN) = 0) ∧
    (list.spillRoom = true ∧ { list with d := List.replicate 64 0 }.spillRoom = false) ∧
    ((matching [] list).c 15).ents = [] ∧
    ((listed list).pState = 0 ∧ (listed list).ml 4095 = some list ∧ list.reading = none ∧ list.events = [] ∧ (listed list).en uMAT = true) ∧
    (∀ x ∈ [{ list with posted := [entOf 1 5], events := [.header (entOf 2 5) (some [])] }],
      x.posted.find? (fun p => accepts p 5 0) = some (entOf 1 5) ∧ x.events = .header (entOf 2 5) (some []) :: []) ∧
    (∀ x ∈ [{ list with events := [.header (entOf 3 5) none] }], x.posted = [] ∧ x.postedSpill = [] ∧ (entOf 3 5).kind = 3) ∧
    (∀ s ∈ [(listed { list with events := [.recv 15 0] }).modCtx 15 (fun c => { c with ents := [nopEnt none] })], s.ent 15 0 = some (nopEnt none)) ∧
    (list.canPost = true ∧ { list with d := List.replicate 64 0 }.canPost = false ∧ list.unexp = [] ∧ list.unexpSpill = []) ∧
    (∀ x ∈ [{ list with postedSpill := [entOf 1 6], events := [.header (entOf 2 5) none], reading := some 0 }], x.posted = [] ∧
      x.postedSpill ≠ [] ∧ x.reading = some 0) ∧
    (∀ x ∈ [{ list with postedSpill := [entOf 1 6] }], x.events = [] ∧ x.postedSpill ≠ []) := by
  and_intros <;> decide +kernel
/-! ### Coherent domains -/

/-- A domain of this device (member 0) and node 1 (member 1); export 0 answers. -/
def domain : State :=
  let s := ((hosted.wr F.COH_CTRL.ENABLE 1).wr F.COH_MEMBER.VALID 1 1).wr F.COH_MEMBER.NODE 1 1
  ((s.wr F.COH_EXPORT.VALID 1 0).wr F.COH_EXPORT.SIZE 1 0).wrI F.HIF_PORT_STATUS.CACHE 0 0 1

/-- A coherence packet of node 1: VN, KIND, DA, TXID, HTX, payload; long where it carries a line. -/
def cp (vn kind da txid htx : Nat) (payload : Bytes) : Bytes :=
  mkPacket 0 1 vn 0 kind 0 (leBytes 8 da ++ leBytes 2 txid ++ leBytes 2 0 ++ leBytes 2 htx) payload (decide (64 ≤ payload.length))

/-- One well-formed packet of each KIND for an address. -/
def cohAll (da : Nat) : List (Nat × Bytes) :=
  ([(1, 0x60, 0), (1, 0x61, 0), (1, 0x62, 0), (1, 0x63, 8), (1, 0x64, 64), (1, 0x65, 0), (3, 0x68, 0), (3, 0x69, 0), (3, 0x6A, 0), (2, 0x70, 64),
    (2, 0x71, 64), (2, 0x72, 0), (2, 0x73, 0), (2, 0x74, 0), (2, 0x75, 0), (2, 0x76, 0), (2, 0x77, 0), (2, 0x78, 0), (2, 0x79, 8)] :
    List (Nat × Nat × Nat)).map (fun x => (x.2.1, cp x.1 x.2.1 da 0 0 (List.replicate x.2.2 0)))

theorem hyp_CoherencePacketsAreChecked :
    (∀ x ∈ cohAll 0, (got domain x.2).live = true ∧ (got domain x.2).intact = true ∧ (got domain x.2).hands uCOH x.1 x.2 = true ∧
      cohBad x.2 = false ∧ (taken domain x).en uCOH = true ∧ (taken hosted x).en uCOH = false) ∧
    (∀ x ∈ cohAll 1, cohBad x.2 = true) ∧
    (∀ x ∈ cohAll 0, (taken (domain.wr F.COH_MEMBER.DEAD 1 1) x).memberOf (pkSrc x.2) = none ∧
      leAt x.2 26 1 ≠ (taken (domain.wr F.COH_MODE.DOMAIN 3) x).rd F.COH_MODE.DOMAIN) ∧
    ((domain.modCoh (fun c => { c with notLogged := [1] })).coh.notLogged.contains 1 = true ∧ domain.coh.notLogged.contains 1 = false) := by
  and_intros <;> decide +kernel

/-- An open transaction of line 0 that awaits member 1 in some way. -/
def htx (st : Nat) (invs : List Nat) (fwd comp read : Bool) : HTx :=
  ⟨st, 1, 0, 0, 1, 0, [], invs, 1, fwd, comp, read, none, false, false, false, 0, [], false⟩
def lineIn (d : Dir) : State := domain.modCoh (fun c => { c with dir := [(0, d)] })
def waits16 : State := lineIn { Dir.unc with waiting := (List.range 16).map (fun i => ⟨1, i, 0, 0, [], false, i⟩) }

theorem freeHtx_some (s : State) (h : s.homeUsed = []) : ∃ k u, s.freeHtx 0 1024 = (some k, u) := by
  refine ⟨Config.freeValue s.free % 1024, { s with free := s.free + 1 }, ?_⟩
  have e : ((List.range 1024).map (· + 0)).filter (fun k => !([] : List Nat).contains k) = List.range 1024 := by simp
  have l : Config.freeValue s.free % 1024 < 1024 := Nat.mod_lt _ (by decide)
  unfold State.freeHtx
  simp only [h, e]
  simp [State.pick, l]

theorem hyp_HomeDecides :
    (∀ x ∈ cohAll 0, (taken domain x).memberOf (pkSrc x.2) = some 1 ∧ leAt x.2 26 1 = (taken domain x).rd F.COH_MODE.DOMAIN ∧
      (taken domain x).lineOk (cpLine x.2) = true ∧ (taken (domain.wr F.COH_EXPORT.VALID 0 0) x).lineOk (cpLine x.2) = false) ∧
    (domain.atomicsServed = false ∧ (joiner domain).atomicsServed = true) ∧
    ((domain.dirOf 0).tx = none ∧ (domain.dirOf 0).waiting = [] ∧ (domain.wr F.COH_MODE.RACE_MODE 1).on F.COH_MODE.RACE_MODE = true) ∧
    (16 ≤ waits16.homeUsedBy 1 ∧ domain.homeUsedBy 1 < 16 ∧ ∃ k u, domain.freeHtx 0 1024 = (some k, u)) ∧
    ((domain.dirOf 0).owner ≠ some 1 ∧ ((lineIn { Dir.unc with owner := some 1 }).dirOf 0).owner = some 1) ∧
    ((domain.dirOf 0).sharers.contains 1 = false ∧ (htx 2 [] false true false).st ≠ 3 ∧ ((lineIn { Dir.unc with sharers := [2, 1] }).dirOf 0).sharers = [2, 1]) ∧
    (∀ k ∈ [0x73, 0x74, 0x75], domain.txFor (cp 2 k 0 0 0 []) = none) ∧
    ((lineIn { Dir.unc with tx := some (htx 0 [1] false false false) }).txFor (cp 2 0x73 0 0 0 []) = some (htx 0 [1] false false false) ∧
      (htx 0 [1] false false false).invs.contains 1 = true) ∧
    ((lineIn { Dir.unc with tx := some (htx 1 [] true false false) }).txFor (cp 2 0x74 0 0 0 []) = some (htx 1 [] true false false) ∧
      cpFlag (cp 2 0x74 0 0 0 []) cfNodata = false ∧ pkLong (cp 2 0x74 0 0 0 []) = false) ∧
    ((lineIn { Dir.unc with tx := some (htx 2 [] false true false) }).txFor (cp 2 0x75 0 0 0 []) = some (htx 2 [] false true false)) := by
  refine ⟨by decide +kernel, by decide +kernel, by decide +kernel, ⟨by decide +kernel, by decide +kernel, ?_⟩, ?_⟩
  · exact freeHtx_some domain (by decide +kernel)
  · decide +kernel

/-- A line of member 1's export at this agent, in a state, with the request of TXID 5 open. -/
def agentLine (st : LState) (kind : Nat) : State :=
  domain.modCoh (fun c => { c with
    lines := [(2 ^ 34, ⟨st, List.replicate 64 0, false, 0, 0, 0, some 5, none, false, false, false, false, false, 0⟩)],
    txs := [(5, ⟨2 ^ 34, kind, 0, 0, 0, false, if kind = 3 then some (15, 1) else none⟩)] })

/-- The packets that answer it. -/
def replies : List (Nat × Bytes) :=
  [(0x70, 64), (0x71, 64), (0x72, 0), (0x76, 0), (0x77, 0), (0x78, 0), (0x79, 8)].map (fun x => (x.1, cp 2 x.1 (2 ^ 40) 5 0 (List.replicate x.2 0)))

theorem hyp_AgentFollowsTheTable :
    (∀ x ∈ cohAll 0, (taken domain x).cline (cpLine x.2) = none ∧ (taken domain x).atxFor x.2 = none) ∧
    (∀ x ∈ replies, cohBad x.2 = false ∧ (got (agentLine .isd 0) x.2).hands uCOH x.1 x.2 = true ∧
      (taken (agentLine .isd 0) x).atxFor x.2 = some (5, ⟨2 ^ 34, 0, 0, 0, 0, false, none⟩)) ∧
    (∀ st ∈ [LState.isd, .imd, .sma, .mia], ((agentLine st 0).lst (2 ^ 34)) = some st) ∧
    (∀ x ∈ cohAll 0, ∀ st ∈ [LState.m, .s], (taken (domain.modCoh (fun c => { c with
      lines := [(0, ⟨st, List.replicate 64 0, false, 0, 0, 0, none, none, false, false, false, false, false, 0⟩)] })) x).lst (cpLine x.2) = some st) ∧
    (cpFlag (cp 2 0x76 (2 ^ 40) 5 0 []) cfStaleF = false ∧ 3 < 4) ∧
    (∀ s ∈ [(agentLine .imd 3).modRma (fun r => { r with atoms := [⟨15, 1, 0, 8, 5, 0, 15, 0, false, true, false⟩] })],
      s.atxFor (cp 2 0x79 (2 ^ 40) 5 0 (leBytes 8 0)) = some (5, ⟨2 ^ 34, 3, 0, 0, 0, false, some (15, 1)⟩) ∧
      (some (15, 1)).bind (fun a => s.rma.atoms.find? (fun x => x.q == a.1 && x.psn == a.2)) = some ⟨15, 1, 0, 8, 5, 0, 15, 0, false, true, false⟩ ∧
      cpFlag (cp 2 0x79 (2 ^ 40) 5 0 (leBytes 8 0)) cfPoison = false ∧ cpFlag (cp 2 0x79 (2 ^ 40) 5 0 (leBytes 8 0)) cfNodata = false) := by
  and_intros <;> decide +kernel

/-- A committed window of port 0 on member 1's export. -/
def windowed : State :=
  ((domain.modCoh (fun c => { c with hdm := [(0, (0, 2 ^ 28))] })).wr F.COH_HDM_TARGET.VALID 1 0).wr F.COH_HDM_TARGET.DA_BASE (2 ^ 12) 0

theorem hyp_HostsOfADomain :
    (domain.live = true ∧ ((lineIn { Dir.unc with tx := some (htx 0 [] false false true) }).dirOf 0).tx = some (htx 0 [] false false true) ∧
      (htx 0 [] false false true).read = true) ∧
    (domain.gatedUnit uCOH = false ∧ hosted.en uCOH = false ∧ 0 < (domain.wr F.COH_EXPORT.BASE 1 0).rd F.COH_EXPORT.BASE 0 * 2 ^ 28 ∧
      domain.rd F.COH_EXPORT.SIZE 0 * 2 ^ 28 ≤ (2 ^ 28 - 0) / 64 * 64 ∧ domain.on F.COH_EXPORT.VALID 1 = false) ∧
    (domain.en uCOH = true ∧ domain.rd F.COH_EXPORT.BASE 0 * 2 ^ 28 ≤ 63 ∧ (63 - domain.rd F.COH_EXPORT.BASE 0 * 2 ^ 28) / 64 * 64 <
      domain.rd F.COH_EXPORT.SIZE 0 * 2 ^ 28 ∧ domain.on F.COH_EXPORT.VALID 0 = true ∧ (domain.ownMid * 2 ^ 40 + 0 * 2 ^ 39 + 0) / 64 = 0) ∧
    ((htx 0 [] false false true).st = 0 ∧ (domain.dirOf 0).tx = none ∧ (domain.dirOf 0).sharers = [] ∧ (domain.dirOf 0).owner = none ∧
      ((lineIn { Dir.unc with owner := some 1 }).dirOf 0).tx = none) ∧
    (windowed.windowLine 0 (2 ^ 28) = none ∧ windowed.windowLine 0 (2 ^ 28 - 1) = some (2 ^ 34 + 2 ^ 22 - 1) ∧ windowed.windowOk (2 ^ 34 + 2 ^ 22 - 1) = true) ∧
    (∀ s ∈ [domain.modCoh (fun c => { c with lines := [(2 ^ 34, ⟨.s, [], false, 1, 0, 64, none, none, true, false, false, false, false, 0⟩)] })],
      (s.coh.lines.find? (fun e => e.2.snp && e.2.port == 0 && e.2.hpa == 127 / 64 * 64)).isSome = true) := by
  and_intros <;> decide +kernel

theorem hyp_DomainTimersAndCommands :
    (∀ s ∈ [lineIn { Dir.unc with tx := some (htx 2 [] false true false) }], (s.dirOf 0).tx = some (htx 2 [] false true false) ∧
      s.beat - 0 < s.rd F.COH_FWD_TIMEOUT.FWD_BEATS ∧ s.live = true) ∧
    (∀ s ∈ [(lineIn { Dir.unc with tx := some (htx 2 [] false true false) }).wr F.BEA_COUNT.COUNT (2 ^ 32)],
      s.rd F.COH_FWD_TIMEOUT.FWD_BEATS ≤ s.beat - (htx 2 [] false true false).opened ∧ (htx 2 [] false true false).st = 2 ∧ (htx 2 [] false true false).doomed = false ∧ (htx 0 [] false false true).st ≠ 2 ∧
      s.rd F.COH_FWD_TIMEOUT.REQ_BEATS ≤ s.beat - 0) ∧
    (domain.modCoh (fun c => { c with credits := [⟨0, 1, 0, 0, 0⟩] })).coh.credits.head? = some ⟨0, 1, 0, 0, 0⟩ ∧
    (tabGet (agentLine .isd 0).coh.txs 5 = some ⟨2 ^ 34, 0, 0, 0, 0, false, none⟩ ∧ (agentLine .isd 0).beat - 0 < (agentLine .isd 0).rd F.COH_FWD_TIMEOUT.REQ_BEATS ∧
      domain.cline (2 ^ 34) = none ∧ 0 + 1 ≤ domain.rd F.COH_FWD_TIMEOUT.REQ_RETRY_MAX) ∧
    ((domain.modCoh (fun c => { c with walk := some (1, 0, 0) })).coh.walk = some (1, 0, 0) ∧
      (domain.modCoh (fun c => { c with flush := some 0 })).coh.flush = some 0 ∧ domain.coh.lines = []) ∧
    (domain.serves who0 .COH_CMD 0 = true ∧ domain.on F.COH_RESULT.BUSY = false ∧ hosted.en uCOH = false ∧ hosted.serves who0 .COH_CMD 0 = true) ∧
    (domain.en uCOH = true ∧ domain.on F.COH_MEMBER.VALID 63 = false ∧ domain.on F.COH_MEMBER.VALID 1 = true ∧ domain.memberDead 1 = false ∧
      (domain.wr F.COH_MEMBER.DEAD 1 1).memberDead 1 = true ∧ domain.coh.walk = none ∧ 1 ≠ domain.ownMid ∧ domain.coh.wait = [] ∧
      domain.rma.atoms = [] ∧ domain.coh.dir = [] ∧ domain.coh.retry = []) := by
  and_intros <;> decide +kernel
/-! ### Pegs, stored data, faults, power -/

/-- PEG is enabled, every PF may use every Peg, and Peg 4095 is in a state. -/
def pegs (p : PegSt) : State :=
  ((live.wr F.PEG_CTRL.ENABLE 1).wr F.PEG_GROUP.PF_MASK 15 63).setPg 4095 p
def heldBy (h : Nat) (ws : List (Fn × Bool)) : PegSt := ⟨some h, 2 ^ 32 - 1, false, false, ws⟩

theorem hyp_PegsAreTakenAndAwaited :
    (∀ s ∈ [pegs ⟨none, 2 ^ 32 - 1, true, true, []⟩], s.en uPEG = true ∧ s.pegOf pf0 4095 = some 4095 ∧ s.pegReach pf0 4095 = true ∧
      s.pg 4095 = ⟨none, 2 ^ 32 - 1, true, true, []⟩ ∧ s.serves who0 .PEG_TAKE 4095 = true ∧ s.serves who0 .PEG_TRY 4095 = true) ∧
    (∀ s ∈ [(pegs (heldBy 0x1000 [])).wrI F.PEG_FN_CFG.WATCH_EN 0 0 1], s.pegOf pf0 4095 = some 4095 ∧ s.pegReach pf0 4095 = true ∧
      s.pg 4095 = heldBy 0x1000 [] ∧ 0x1000 ≠ fnOwner pf0 ∧ (∀ w ∈ (heldBy 0x1000 []).waiters, w.1 ≠ pf0) ∧ s.pegRoom true = true ∧
      s.serves who0 .PEG_TAKE 4095 = true ∧ s.serves who0 .PEG_TRY 4095 = true ∧ s.serves who0 .PEG_WATCH 4095 = true ∧ s.pegWatchEn pf0 = true) := by
  and_intros <;> decide +kernel

theorem hyp_PegsAreHandedOn :
    (∀ s ∈ [pegs (heldBy (fnOwner pf0) [(.pf 2, true)])], s.serves who0 .PEG_RELEASE 4095 = true ∧ s.en uPEG = true ∧ s.pegOf pf0 4095 = some 4095 ∧
      s.pegReach pf0 4095 = true ∧ s.pg 4095 = heldBy (fnOwner pf0) [(.pf 2, true)]) ∧
    ((heldBy 5 []).holder ≠ some (fnOwner pf0) ∧ (heldBy (fnOwner pf0) []).holder = some (fnOwner pf0) ∧ (heldBy (fnOwner pf0) []).waiters = []) ∧
    (∀ s ∈ [pegs (heldBy 5 [(pf0, true)])], s.live = true ∧ (pf0, true) ∈ (s.pg 4095).waiters ∧ s.pegWatchEn pf0 = false ∧
      (s.wrI F.PEG_FN_CFG.WATCH_EN 0 0 1).pegWatchEn pf0 = true) := by
  and_intros <;> decide +kernel

theorem hyp_PegSupervisorActs :
    (∀ s ∈ [(pegs (heldBy 5 [(.pf 2, true)])).wr F.PEG_SUPERVISOR.MASK 1], s.serves who0 .PEG_FORCE 0 = true ∧
      bit (s.rd F.PEG_SUPERVISOR.MASK) 0 = true ∧ 4095 < 4096 ∧ s.pg 4095 = heldBy 5 [(.pf 2, true)]) ∧
    ((heldBy 5 []).holder = some 5 ∧ (heldBy 5 []).waiters = [] ∧ (heldBy 5 [(.pf 2, true)]).waiters = [(.pf 2, true)]) := by
  and_intros <;> decide +kernel

/-- ECC is enabled; the scrubber of region 0 is at a word; words 0 and 1 are known. -/
def scrubbing (w : Nat) : State :=
  (live.wr F.ECC_CTRL.ENABLE 1).modEcc (fun e => { e with pos := [(0, w)], words := [(0, ⟨5, 0, 0, false, false, none⟩), (1, ⟨5, 1, 0, false, true, none⟩)] })

theorem hyp_StoredDataIsScrubbed :
    (live.live = true ∧ live.en uECC = false ∧ (scrubbing 2).en uECC = true ∧ (scrubbing 2).eccWord 0 ((scrubbing 2).scrubPos 0) = none ∧
      (scrubbing 2).scrubPos 0 + 1 < (scrubbing 2).eccWords 0 ∧
      (scrubbing (live.eccWords 0 - 1)).eccWords 0 ≤ (scrubbing (live.eccWords 0 - 1)).scrubPos 0 + 1 ∧
      (scrubbing (live.eccWords 0 - 1)).eccWord 0 ((scrubbing (live.eccWords 0 - 1)).scrubPos 0) = none) ∧
    ((scrubbing 0).eccCode 0 = 1 ∧ (scrubbing 0).eccWord 0 ((scrubbing 0).scrubPos 0) = some ⟨5, 0, 0, false, false, none⟩) ∧
    ((scrubbing 0).eccWord 0 2 = none ∧ (scrubbing 0).eccWord 0 1 = some ⟨5, 1, 0, false, true, none⟩ ∧ (scrubbing 0).on F.ECC_FLIP_CTRL.ARM = false) ∧
    (live.lapBeats 0 < live.rd F.ECC_SCRUB_CFG.LAP_UNITS * 1024 ∧ (live.wr F.ECC_REGION_STATUS.FORCED 1 0).on F.ECC_REGION_STATUS.FORCED 0 = true) ∧
    (∀ s ∈ [(scrubbing 0).modEcc (fun e => { e with beats := [(0, 2 ^ 20)] })], s.rd F.ECC_SCRUB_CFG.LAP_UNITS * 1024 ≤ s.lapBeats 0 ∧
      s.on F.ECC_REGION_STATUS.FORCED 0 = false) ∧
    (live.serves who0 .ECC_WIN_SEL 0 = true ∧ live.serves who0 .ECC_WIN 32767 = true ∧ (∀ h ∈ live.ecc.halves, h.1 ≠ who0) ∧
      ((live.wr F.ECC_WIN_SEL.PAGE 255).winOffset 32767 = none) ∧ (scrubbing 0).winOffset 0 = some 0 ∧ (scrubbing 0).on F.ECC_WIN_SEL.RAW = false ∧
      (scrubbing 0).eccWord ((scrubbing 0).rd F.ECC_WIN_SEL.REGION) (0 / codeBytes ((scrubbing 0).eccCode 0)) = some ⟨5, 0, 0, false, false, none⟩) ∧
    ((live.wr F.RTE_CTRL.ENABLE 1).ownerOn 0 = true ∧ live.ownerOn 0 = false ∧ live.eccCode 0 ≠ 2) := by
  and_intros <;> decide +kernel

theorem hyp_OccurrencesAreRecorded :
    (srcAssigned Src.RMA_ACCESS_VIOLATION.num = true ∧ Src.RMA_ACCESS_VIOLATION.num < 480 ∧ live.baseSev Src.RMA_ACCESS_VIOLATION.num < 4 ∧
      (live.wr F.FLT_SEV.ESC_DIS 1 Src.RMA_ACCESS_VIOLATION.num).on F.FLT_SEV.ESC_DIS Src.RMA_ACCESS_VIOLATION.num = true) ∧
    (∀ s ∈ [(live.wr F.FLT_RICH_ASSIGN.SOURCE Src.RMA_ACCESS_VIOLATION.num 0).wr F.FLT_RICH_META.VALID 1 0],
      s.slotOf Src.RMA_ACCESS_VIOLATION.num = some 0 ∧ s.on F.FLT_RICH_META.VALID 0 = true ∧ live.on F.FLT_RICH_META.VALID 0 = false) ∧
    (Src.RMA_ACCESS_VIOLATION.num ≠ Src.FLT_SELF.num ∧ (live.record false (occ .RMA_ACCESS_VIOLATION)).sticky Src.RMA_ACCESS_VIOLATION.num = true) := by
  and_intros <;> decide +kernel

theorem hyp_FaultsForcedAndSpilled :
    (live.serves who0 .FLT_FORCE 7 = true ∧ (2 ^ 64 : Nat) % 2 ^ 64 = 0 ∧ (2 ^ 63 : Nat) % 2 ^ 64 = 2 ^ 63 ∧
      srcAssigned (64 * 0 + Src.REG_ACCESS.num % 64) = true ∧ srcAssigned (64 * 7 + 63) = false) ∧
    (live.serves who0 .FLT_CTRL 0 = true ∧ live.fits who0 .FLT_CTRL 0 = true ∧ 0xA5 % 256 = 0xA5 ∧ 0xA4 % 256 ≠ 0xA5) ∧
    (live.escBeats < live.rd F.FLT_THRESH.ESC_WINDOW ∧ 0 < live.rd F.FLT_THRESH.ESC_WINDOW ∧
      live.rd F.FLT_THRESH.ESC_WINDOW ≤ ({ live with escBeats := 65536 } : State).escBeats) := by
  and_intros <;> decide +kernel

/-- PWR is enabled, deep states are allowed and tolerated, in a power state. -/
def power (n : Nat) : State :=
  (((live.wr F.PWR_CTRL.ENABLE 1).wr F.PWR_CTRL.MAX_STATE 4).wr F.PWR_FABRIC_TOL.TOL_NS 0xFFFFFFFF).wr F.PWR_STATE.STATE n
def idle4 (n : Nat) : State := (power n).modPwr (fun p => { p with idle2 := 2 ^ 32, idle3 := 2 ^ 32, idle4 := 2 ^ 32 })

theorem hyp_PowerStatesAndWear :
    (live.live = true ∧ live.en uPWR = false ∧ (live.wr F.PWR_STATE.EXITING 1).exiting = true ∧ live.exiting = false) ∧
    ((idle4 0).en uPWR = true ∧ (idle4 0).pState < (idle4 0).deepest ∧ (idle4 0).pState < 4 ∧ (idle4 0).deepest = 4 ∧
      (idle4 4).deepest ≤ (idle4 4).pState ∧ (idle4 4).pState = 4) ∧
    (∀ n ∈ [0, 1], ∀ s ∈ [(idle4 n).wr F.PWR_CTRL.MAX_STATE (n + 1)], s.pState < s.deepest ∧ s.deepest = n + 1 ∧ s.exiting = false) ∧
    (∀ s ∈ [(idle4 2).wr F.PWR_CTRL.MAX_STATE 3], s.pState < s.deepest ∧ s.deepest = 3) ∧
    ((power 0).pState = 0 ∧ (power 1).pState = 1 ∧ 1 < (power 2).pState) ∧
    (live.en uGRN = false ∧ live.grn.since < 65536) ∧
    (∀ s ∈ [(live.wr F.GRN_CTRL.ENABLE 1).modGrn (fun g => { g with since := 65536 })], s.en uGRN = true ∧ 65536 ≤ s.grn.since) := by
  and_intros <;> decide +kernel
/-! ### Boot, resets, the Foreman, the test port -/

/-- A powered device in a phase. -/
def booting (n : Nat) : State := live.wr F.GLB_BOOT_STATUS.PHASE n

theorem hyp_PinsBootAndReset :
    (State.reset.pins.pwrok = false ∧ live.pins.pwrok = true ∧ live.live = true) ∧
    ((live.wr F.FLT_STATUS.SPILLWAY 1).spill = true ∧ (booting phReset).phase = phReset ∧ (booting phRom).phase = phRom ∧
      (booting phFirmware).phase = phFirmware) ∧
    ((booting phBist).spill = false ∧ (booting phBist).phase = phBist ∧ (booting phLoad).phase = phLoad) ∧
    live.phase ≠ phReset := by
  and_intros <;> decide +kernel

/-- The Foreman is in a state of Table 15.4. -/
def foreman (n : Nat) (s : State) : State := s.wrFmn F.FMN_INFO.STATE n

theorem hyp_BootPhasesFollow :
    (live.pins.pwrok = true ∧ live.phase ≠ phRom ∧ live.phase ≠ phFirmware ∧ live.phase ≠ phBist ∧ live.phase ≠ phLoad ∧
      (booting phRom).phase = phRom ∧ (booting phRom).pins.pwrok = true) ∧
    ((booting phFirmware).phase = phFirmware ∧ (booting phFirmware).fwOk 0 = false ∧ (booting phFirmware).fwOk 1 = false) ∧
    ((foreman fmRestarting live).rd F.FMN_INFO.STATE = fmRestarting ∧ (foreman fmRunning live).rd F.FMN_INFO.STATE = fmRunning ∧
      fmRunning ≠ fmRestarting) ∧
    ((booting phBist).phase = phBist ∧ (booting phBist).spill = false ∧ (live.wr F.FLT_STATUS.SPILLWAY 1).spill = true) ∧
    ((booting phLoad).phase = phLoad ∧ (booting phLoad).spill = false) := by
  and_intros <;> decide +kernel

theorem hyp_ResetsWhileRunning :
    (live.serves who0 .GLB_DEVICE_RESET 0 = true ∧ bit 0x5A00000000000001 0 = true ∧ bits 0x5A00000000000001 56 8 = 0x5A ∧ bits 1 56 8 ≠ 0x5A) ∧
    (live.serves who0 .GLB_UNIT_RESET 0 = true ∧ live.fitted 2 = true ∧ ({ live with boot := { live.boot with variant := 2 } } : State).fitted 8 = false ∧
      live.fitted 17 = true ∧ live.unitBusy (unitNorm 17) = false ∧ (live.setBusy 17 true).unitBusy (unitNorm 17) = true) ∧
    live.serves who0 .GLB_PORT_RESET 0 = true ∧
    (live.serves who0 .GLB_BOOT_CTRL 0 = true ∧ live.rd F.GLB_BOOT_CTRL.ROUTES_READY = 0 ∧
      (live.wr F.GLB_BOOT_CTRL.ROUTES_READY 1).rd F.GLB_BOOT_CTRL.ROUTES_READY = 1) ∧
    (live.serves who0 .TRS_SLOT_CHECK 0 = true ∧ 2 ^ 19 / 2 ^ 18 % 4 = 2 ^ 1 ∧ bit (live.rd F.TRS_SLOT_CHECK.BUSY) 1 = false ∧
      bit ((live.wr F.TRS_SLOT_CHECK.BUSY 2).rd F.TRS_SLOT_CHECK.BUSY) 1 = true) ∧
    (uGRN ≠ uFMN ∧ ((live.setBusy 17 true).setBusy 17 false).unitImaged 17 = true ∧ live.isContained 17 = false ∧ live.spill = false ∧
      live.unitImaged 8 = false) := by
  and_intros <;> decide +kernel

/-- The Foreman serves a running device: its firmware is in force, or it is in RECOVERY. -/
def serving (n : Nat := fmRunning) : State := foreman n live
def bmc : Mbx := .mctp 9

theorem hyp_MailboxReadsAndWrites :
    ((serving).asks bmc 65535 = true ∧ (serving).asks (.window 3) 0 = true ∧ 0x4000000 < 0x3FFFF88 + 8 * 16 ∧ 0x3FFFF80 + 8 * 16 ≤ 0x4000000) ∧
    ((serving fmRecovery).asks bmc 0 = true ∧ ((serving fmRecovery).asked bmc 0).recovery = true ∧ ((serving fmRecovery).asked bmc 0).spill = false ∧
      r388 0x500048 = false ∧ r388 (regOffset .mailbox .FLT_CTRL 0) = true ∧ ((serving).asked bmc 0).recovery = false ∧
      ((serving.wr F.FLT_STATUS.SPILLWAY 1).asked bmc 0).spill = true) ∧
    (∀ s ∈ [(serving).modBoot (fun b => { b with outstanding := [(bmc, 0), (bmc, 1), (bmc, 2), (bmc, 3)] })], s.pins.pwrok = true ∧
      4 ≤ (s.boot.outstanding.filter (fun o => o.1 == bmc)).length ∧ (bmc, 3) ∈ s.boot.outstanding) := by
  and_intros <;> decide +kernel

theorem hyp_MailboxRequestsAct :
    ((serving).asks bmc 0 = true ∧ ((serving).asked bmc 0).live = true ∧ ((serving).asked bmc 0).resetting = false ∧
      (foreman fmRunning (booting phBist)).asks bmc 0 = true ∧ ((foreman fmRunning (booting phBist)).asked bmc 0).resetting = true ∧
      ((foreman fmRunning (booting phBist)).asked bmc 0).spill = false) ∧
    ((((serving).asked bmc 0).unitResets 0x20000).resetting = false ∧ ((serving fmRecovery).asked bmc 0).recovery = true) ∧
    ((((serving).asked bmc 0).mbxAnswer ⟨bmc, 0, mbxMsg 0x0A 0 0 0 [], true⟩ mbOk []).live = true) ∧
    (∀ s ∈ [foreman fmRunning (pegs ⟨none, 2 ^ 32 - 1, true, true, []⟩)], s.asks bmc 0 = true ∧ (s.asked bmc 0).en uPEG = true ∧
      (s.asked bmc 0).pg 4095 = ⟨none, 2 ^ 32 - 1, true, true, []⟩ ∧ ((s.asked bmc 0).pg 4095).holder ≠ some 0x1000) ∧
    (∀ s ∈ [foreman fmRunning (pegs (heldBy 0x1000 []))], ((s.asked bmc 0).pg 4095).holder = some 0x1000 ∧ ((s.asked bmc 0).pg 4095).waiters = []) ∧
    (((serving).asked bmc 0).serves .mailbox .PEG_SUPERVISOR 0 = true ∧ 15 ≠ ((serving).asked bmc 0).rd F.PEG_SUPERVISOR.MASK) := by
  and_intros <;> decide +kernel

/-- Key slot 3 is programmed; the image in force was signed by it, at version 5 of security. -/
def keyed : State :=
  (serving).modTrs (fun t => { t with keys := [(3, ⟨List.replicate 48 1, false⟩)], floor := 4, img := some ⟨5, 3, 0, [], []⟩ })

theorem hyp_FlashAndFusesHold :
    ((serving).asks bmc 0 = true ∧ 0x800000 < 0x7FFFFF + 2 ∧ 0x7FFFFF + 1 ≤ 0x800000) ∧
    (((serving).asked bmc 0).flashRefused 0 = true ∧ ((serving).asked bmc 0).flashRefused 0x400000 = false ∧
      ((serving).asked bmc 0).flashByte 0x400000 &&& 5 = 5 ∧ (List.replicate 1000 (0 : Byte)).length ≤ 1000) ∧
    ((checkImage (((serving).asked bmc 0).chkEnv 1048576) false (((serving).asked bmc 0).slotBytes 0)).1.isOk = false) ∧
    ((List.replicate 48 (1 : Byte)).length = 48 ∧ (serving).asks (.window 0) 0 = true ∧ ((serving fmRecovery).asked bmc 0).recovery = true ∧
      (keyed.asked bmc 0).spill = false ∧ (keyed.asked bmc 0).recovery = false) ∧
    (tabGet (keyed.asked bmc 0).trs.keys 0 = none ∧ (keyed.asked bmc 0).trs.img.any (fun i => i.keySlot == 0) = false ∧
      tabGet (keyed.asked bmc 0).trs.keys 3 = some ⟨List.replicate 48 1, false⟩ ∧ (keyed.asked bmc 0).trs.img.any (fun i => i.keySlot == 3) = true) ∧
    (3 < (keyed.asked bmc 0).trs.floor ∧ (keyed.asked bmc 0).trs.floor ≤ 4 ∧ (keyed.asked bmc 0).trs.img.any (fun i => decide (i.sec < 5)) = false ∧
      (keyed.asked bmc 0).trs.img.any (fun i => decide (i.sec < 6)) = true) ∧
    ((serving).boot.flashBusy = none ∧ ((serving).modBoot (fun b => { b with flashBusy := some ⟨bmc, 0, mbxMsg 0x11 0 0 0 (leBytes 4 0x400000), true⟩ })).boot.flashBusy.isSome = true) := by
  and_intros <;> decide +kernel

/-- A push of one byte is open, hot or full, with its byte or without. -/
def pushing (hot : Bool) (d : Bytes) : State := (serving).modTrs (fun t => { t with push := some ⟨hot, 1, d⟩ })

theorem hyp_PushesAndTheWindow :
    ((serving).asks bmc 0 = true ∧ ((serving).asked bmc 0).spill = false ∧ ((serving).asked bmc 0).recovery = false ∧ ((serving).asked bmc 0).trs.push = none ∧
      ((serving).asked bmc 0).on F.TRS_STATUS.PUSH_CLOSED = false ∧ ((serving).asked bmc 0).rd F.TRS_HOT_STATUS.STATE ≠ 1 ∧
      (((serving).wr F.TRS_STATUS.PUSH_CLOSED 1).asked bmc 0).on F.TRS_STATUS.PUSH_CLOSED = true) ∧
    (((pushing true []).asked bmc 0).trs.push = some ⟨true, 1, []⟩ ∧ 0 = ([] : Bytes).length ∧ 0 + ([7] : Bytes).length ≤ 1 ∧ ([] : Bytes).length ≠ 1) ∧
    (∀ h ∈ [true, false], ((pushing h [7]).asked bmc 0).trs.push = some ⟨h, 1, [7]⟩ ∧ ([7] : Bytes).length = 1 ∧
      (checkImage ((((pushing h [7]).asked bmc 0).modTrs (fun t => { t with push := none })).chkEnv 1) true [7]).1.isOk = false ∧
      (checkHead ((((pushing h [7]).asked bmc 0).modTrs (fun t => { t with push := none })).chkEnv 1) [7]).isSome = true) ∧
    (live.serves (.fn (.pf 0)) .FMN_MB_CTRL 0 = true ∧ live.rdI F.FMN_MB_STATUS.BUSY 0 0 = 0 ∧
      (live.boot.outstanding.filter (fun o => o.1 == Mbx.window 0)) = [] ∧ (live.wrI F.FMN_MB_STATUS.BUSY 0 0 1).rdI F.FMN_MB_STATUS.BUSY 0 0 = 1) := by
  and_intros <;> decide +kernel

theorem hyp_SidebandAndTestPort :
    (live.pins.pwrok = true ∧ (serving).rd F.FMN_INFO.STATE = fmRunning ∧ (serving fmRecovery).rd F.FMN_INFO.STATE = fmRecovery) ∧
    (live.boot.i3cAddr = none ∧ (live.modBoot (fun b => { b with i3cAddr := some 8 })).boot.i3cAddr ≠ none ∧ live.staticAddr + 1 ≠ live.staticAddr) ∧
    (State.reset.pins.trstLow = true ∧ live.pins.trstLow = false ∧ live.pins.warm = false ∧
      ({ live with pins := { live.pins with warm := true } } : State).pins.warm = true) := by
  and_intros <;> decide +kernel

theorem hyp_TheDevice :
    (State.reset.pending = [] ∧ State.reset.pins.pwrok = false ∧ movesPins (.firmware) = false ∧ usesTestPort (.firmware) = false) ∧
    (State.reset.live = false ∧ needsRunning (.laneLockLost 3 ⟨1, 0⟩) = true ∧ movesPins .idcode = false) := by
  and_intros <;> decide +kernel

theorem hyp_ColdStaysCold : State.reset.coldInv ∧ step State.reset = .next State.reset :=
  ⟨fun _ => ⟨rfl, rfl, rfl, rfl, rfl, rfl, rfl, rfl, rfl, rfl, rfl, rfl, rfl, rfl, rfl, rfl, rfl, rfl, rfl, rfl⟩, rfl⟩
/-! ### An image that passes every check of Table 2.14 (its bytes written from Tables 2.1 to 2.7; keys and signatures by FIPS 186-5) -/

/-- The members of the least full image: DEVICE, UNITS, PORTS, VCBUF, REGIONS, BEAT. -/
def imgMembers : List (Nat × Bytes) :=
  [(0x8001, leBytes 16 0x101000100000000), (0x8002, leBytes 8 0x5C007), (0x8003, leBytes 128 0), (0x8004, leBytes 40 0x100110000000000010011000000000001001100000000000100110000000000010001),
   (0x8006, leBytes 8 0x101010101010000), (0x8008, leBytes 8 0xA)]

/-- A member as the image holds it: TYPE, version 1, length and CRC-32 of the body, then the body (Table 2.2). -/
def memberBytes (m : Nat × Bytes) : Bytes :=
  leBytes 2 m.1 ++ leBytes 2 1 ++ leBytes 4 m.2.length ++ leBytes 4 (crc32 m.2) ++ leBytes 4 0 ++ m.2

/-- The full image: header, members, signature block of key slot 0. -/
def imgFull : Bytes :=
  (leBytes 64 0xCDFB49EF0000000000000000000000000000000000000000000000000000000000000000000000000000F1A00000000000400006000002700000010053555254) ++ imgMembers.flatMap memberBytes ++
  (leBytes 8 0x4E474953) ++ (beBytes 48 0xB6731DCE000F5A862A141751219CA5AA8DD9DB7B75423F5E77CF5D3047AEE5D25F10842867C2D138D883B874DE7EC9D9) ++
  (beBytes 48 0x8EFEAAA2BB96273EAB0DBA8FE1AF83B7A4517151BFF1A86E548DF001BD4D600236DA460B9B3489B1B93792AEBABFCC65) ++
  (beBytes 48 0x8D999057BA3D2D969260045C55B97F089025959A6F434D651D207D19FB96E9E4FE0E86EBE0E64F85B96A9C75295DF61) ++
  (beBytes 48 0xC0A388D9FED479DA97339DE51A98F89CD81539552BF884297B332FB22BFCF8437900748F5F9F0D30B0CB7413F7D62EC6) ++ (leBytes 56 0)

/-- A hot image over it: COH_LIMITS alone, by key slot 1. -/
def imgHot : Bytes :=
  (leBytes 64 0x8CC7ED070000000000000000000000009CF8981AE59D3397DA79D4FED988A3C000000000000000000000F1A00000000000400001000001580001010053555254) ++ memberBytes (0x8009, leBytes 8 0x1E001E0) ++
  (leBytes 8 0x14E474953) ++ (beBytes 48 0x72C77004E612DD861D09E48DB873513AE9D1D1412D7C51652CE2EFD858CE35156D3FCA14CFE716A9F0470A2F4F605712) ++
  (beBytes 48 0x3C5A3241385AE891E0B7FF5801F7359B927016840A92F270A928BB3BD873BD8FC322B2C17BC33E7DC9EE954635C12E5F) ++
  (beBytes 48 0x8D999057BA3D2D969260045C55B97F089025959A6F434D651D207D19FB96E9E4FE0E86EBE0E64F85B96A9C75295DF61) ++
  (beBytes 48 0xC4BB27DB5523705A9A6D3175E3291896B23973D40415E8066BDF9CA5B37CDCE448204CFD66D3559C00856BE0FB478BE8) ++ (leBytes 56 0)

def keyFull : Bytes := (beBytes 48 0xE3B8B4465A1DFD94B5FADDAF0D57469A6EE14B7C63618D78ABBEAC0EDB8A48B2E37FC33CFFEB47718E99AAAD0511E6DD)
def keyHot : Bytes := (beBytes 48 0xC32928A3ECF816FE74665FB7A230F29CE7669B5231A0734EE9F337E9BEA9D9B790BBDC9A769D971F7AB6FD54FB9F434E)
def digestFull : Bytes := (beBytes 48 0xC0A388D9FED479DA97339DE51A98F89CD81539552BF884297B332FB22BFCF8437900748F5F9F0D30B0CB7413F7D62EC6)

/-- A firmware slot's header and signature block, 4096 bytes, the rest erased (Table 15.4), by key slot 2. -/
def fwHead : Bytes := (leBytes 64 0x873A609D000000000000000000000000000000000000000000000000000000000000000000000000000000400000000700000000000010000000000157464D46)
def fwSig : Bytes :=
  (leBytes 8 0x24E474953) ++ (beBytes 48 0x9D74E4C4A473F6D50F88FD6C7F3E4A52A6A89F4F91C6A3FAF99EC670F7C3FAFA09F8B26E3040B9B14FFB773C8339BE48) ++
  (beBytes 48 0x69117158ACC8543F8307E1B44C9B445068C081BC51DB16C18370847843A91EB971784B5DEDF2824E7F7C1C21A1E46A6D) ++
  (beBytes 48 0x8D999057BA3D2D969260045C55B97F089025959A6F434D651D207D19FB96E9E4FE0E86EBE0E64F85B96A9C75295DF61) ++
  (beBytes 48 0xAAED363AE6047D8B4038F20F17B3449ECBD92C42F1D051680A2FC08ACB5BFF0EB3F3AC99718E209840677E4D74FA0909) ++ (leBytes 56 0)
def keyFw : Bytes := (beBytes 48 0xABC9074BF1E8420199AE1CEC44C6FC3FD70A2C25F1ADC256DC85F5801316D3823B8D33BC22978112DC93CDCE5B7B5358)

/-- Fuses of the three keys, and the flash that holds the full image in slot 0 and the firmware in slot A. -/
def keys3 : Tab KeySlot := [(0, ⟨keyFull, false⟩), (1, ⟨keyHot, false⟩), (2, ⟨keyFw, false⟩)]
def envFull (limit : Nat) : ChkEnv := ⟨fittedWord 0, keys3, 0, none, limit⟩
def imgInForce : Img := ⟨0, 0, 0, digestFull, imgMembers⟩

theorem image_ok : checkImage (envFull 1048576) false imgFull = (.ok imgInForce, 0) := by decide +kernel
/-! ### Images in the flash and pushed -/

/-- The flash's listing of bytes from an address. -/
def flashOf : Nat → Bytes → Tab Byte
  | _, [] => []
  | a, x :: r => (a, x) :: flashOf (a + 1) r

theorem tabGet_flashOf_low (a i : Nat) (b : Bytes) (t : Tab Byte) (h : i < a) : tabGet (flashOf a b ++ t) i = tabGet t i := by
  induction b generalizing a with
  | nil => rfl
  | cons x r ih => simp [flashOf, tabGet, show i ≠ a by omega, ih (a + 1) (by omega)]

theorem tabGet_flashOf_high (a i : Nat) (b : Bytes) (t : Tab Byte) (h : a + b.length ≤ i) : tabGet (flashOf a b ++ t) i = tabGet t i := by
  induction b generalizing a with
  | nil => rfl
  | cons x r ih =>
    simp only [List.length_cons] at h
    simp [flashOf, tabGet, show i ≠ a by omega, ih (a + 1) (by omega)]

theorem read_flashOf (a : Nat) (b : Bytes) (t : Tab Byte) :
    (List.range b.length).map (fun i => tabGetD (flashOf a b ++ t) (a + i) 0xFF) = b := by
  induction b generalizing a with
  | nil => rfl
  | cons x r ih =>
    rw [List.length_cons, List.range_succ_eq_map]
    simp only [List.map_cons, List.map_map]
    congr 1
    · simp [flashOf, tabGetD, tabGet]
    · conv_rhs => rw [← ih (a + 1)]
      apply List.map_congr_left
      intro i _
      simp [flashOf, tabGetD, tabGet, show a + (i + 1) = a + 1 + i by omega]

/-- The state with the keys of the three test images and bytes in the flash. -/
def keyed3 (flash : Tab Byte) (s : State) : State := s.modTrs (fun t => { t with keys := keys3, floor := 0, flash := flash })

/-- Loading, and running with the Foreman serving, with the full image in Truss slot 0. -/
def slot0 (s : State) : State := keyed3 (flashOf 0x400000 imgFull) s

theorem slot0_len : (slot0 State.reset).flashRead (0x400000 + 8) 4 = leBytes 4 624 ∧ imgFull.length = 624 := by decide +kernel

theorem slot0_bytes (s : State) : (slot0 s).slotBytes 0 = imgFull := by
  have h : (slot0 s).flashRead (0x400000 + 8) 4 = leBytes 4 624 := slot0_len.1
  have hl : leNat (leBytes 4 624) = 624 := by decide
  simp only [State.slotBytes, Nat.mul_zero, Nat.add_zero, h, hl]
  have := read_flashOf 0x400000 imgFull []
  rw [slot0_len.2, List.append_nil] at this
  exact this

theorem slot0_env : (slot0 (booting phLoad)).chkEnv 1048576 = envFull 1048576 ∧ (slot0 (booting phLoad)).trs.cand = none ∧
    (slot0 (booting phLoad)).phase = phLoad ∧ (slot0 (booting phLoad)).spill = false := by decide +kernel

theorem slotBytes_of_flash {s t : State} (h : s.trs.flash = t.trs.flash) (k : Nat) : s.slotBytes k = t.slotBytes k := by
  have hr : ∀ a n : Nat, s.flashRead a n = t.flashRead a n := fun a n => by simp only [State.flashRead, State.flashByte, h]
  simp only [State.slotBytes, hr]

theorem tryImages_of_ok (s : State) (org source : Nat) (b : Bytes) (r : List (Nat × Nat × Bytes)) (i : Img) (n : Nat)
    (h : checkImage (s.chkEnv 1048576) false b = (.ok i, n)) : (s.tryImages ((org, source, b) :: r)).1 = some (i, source) := by
  simp [State.tryImages, h]

/-- The image in Truss slot 0 is taken at LOAD: the case of `BootPhasesFollow` in which an image passes. -/
theorem hyp_BootPhasesFollow_image (r : List (Nat × Nat × Bytes)) :
    ((slot0 (booting phLoad)).tryImages ((orgSlot0, 1, (slot0 (booting phLoad)).slotBytes 0) :: r)).1 = some (imgInForce, 1) :=
  tryImages_of_ok _ _ _ _ _ _ 0 (by rw [slot0_bytes, slot0_env.1]; exact image_ok)

/-- A slot check that passes. -/
theorem hyp_ResetsWhileRunning_image : (checkImage ((slot0 live).chkEnv 1048576) false ((slot0 live).slotBytes 0)).1 = .ok imgInForce := by
  rw [slot0_bytes, show (slot0 live).chkEnv 1048576 = envFull 1048576 from by decide +kernel, image_ok]

theorem hyp_FlashAndFusesHold_image : (slot0 serving).asks bmc 0 = true ∧
    (checkImage (((slot0 serving).asked bmc 0).chkEnv 1048576) false (((slot0 serving).asked bmc 0).slotBytes 0)).1 = .ok imgInForce := by
  refine ⟨by decide +kernel, ?_⟩
  have h := slotBytes_of_flash (s := (slot0 serving).asked bmc 0) (t := slot0 serving) rfl 0
  rw [h, slot0_bytes, show ((slot0 serving).asked bmc 0).chkEnv 1048576 = envFull 1048576 from by decide +kernel, image_ok]

/-- A full push whose first five checks pass. -/
def pushedFull : State := (keyed3 [] serving).modTrs (fun t => { t with push := some ⟨false, 624, imgFull⟩ })

theorem checkHead_ok : checkHead (envFull 624) imgFull = none := by decide +kernel

theorem hyp_PushesAndTheWindow_full : pushedFull.asks bmc 0 = true ∧ (pushedFull.asked bmc 0).trs.push = some ⟨false, 624, imgFull⟩ ∧
    checkHead (((pushedFull.asked bmc 0).modTrs (fun t => { t with push := none })).chkEnv imgFull.length) imgFull = none := by
  refine ⟨by decide +kernel, rfl, ?_⟩
  rw [slot0_len.2, show ((pushedFull.asked bmc 0).modTrs (fun t => { t with push := none })).chkEnv 624 = envFull 624 from by decide +kernel, checkHead_ok]

/-- A hot push that passes against the image in force. -/
def pushedHot : State := (keyed3 [] serving).modTrs (fun t => { t with img := some imgInForce, push := some ⟨true, 344, imgHot⟩ })

theorem hot_ok : (checkImage ⟨fittedWord 0, keys3, 0, some (digestFull.take 16), 344⟩ true imgHot).1.isOk = true ∧ imgHot.length = 344 := by decide +kernel

theorem hyp_PushesAndTheWindow_hot : pushedHot.asks bmc 0 = true ∧ (pushedHot.asked bmc 0).trs.push = some ⟨true, 344, imgHot⟩ ∧
    (checkImage (((pushedHot.asked bmc 0).modTrs (fun t => { t with push := none })).chkEnv imgHot.length) true imgHot).1.isOk = true := by
  refine ⟨by decide +kernel, rfl, ?_⟩
  rw [hot_ok.2, show ((pushedHot.asked bmc 0).modTrs (fun t => { t with push := none })).chkEnv 344 =
    ⟨fittedWord 0, keys3, 0, some (digestFull.take 16), 344⟩ from by decide +kernel, hot_ok.1]

/-- A firmware slot that passes. -/
def slotA (s : State) : State := keyed3 (flashOf 0 fwHead ++ flashOf 3840 fwSig) s
def fwImage : Bytes := fwHead ++ List.replicate 3776 0xFF ++ fwSig

theorem fw_lengths : fwHead.length = 64 ∧ fwSig.length = 256 := by decide +kernel

theorem read_two (hd sg : Bytes) (n : Nat) :
    (List.range (hd.length + n + sg.length)).map (fun i => tabGetD (flashOf 0 hd ++ flashOf (hd.length + n) sg) (0 + i) 0xFF) =
      hd ++ List.replicate n 0xFF ++ sg := by
  have hh : ∀ i : Nat, hd.length ≤ i → tabGet (flashOf 0 hd ++ flashOf (hd.length + n) sg) i = tabGet (flashOf (hd.length + n) sg) i :=
    fun i h => tabGet_flashOf_high _ _ _ _ (by omega)
  rw [List.range_add, List.range_add, List.map_append, List.map_append, List.map_map, List.map_map]
  congr 1
  · congr 1
    · exact read_flashOf 0 hd _
    · apply List.ext_getElem (by simp)
      intro i h _
      simp only [List.length_map, List.length_range] at h
      have := tabGet_flashOf_low (hd.length + n) (hd.length + i) sg [] (by omega)
      rw [List.append_nil] at this
      simp [tabGetD, hh (hd.length + i) (by omega), this, tabGet]
  · have h2 := read_flashOf (hd.length + n) sg []
    rw [List.append_nil] at h2
    conv_rhs => rw [← h2]
    apply List.map_congr_left
    intro i _
    simp [tabGetD, hh (hd.length + n + i) (by omega)]

theorem slotA_bytes (s : State) : (slotA s).flashRead 0 4096 = fwImage := by
  have h := read_two fwHead fwSig 3776
  rw [fw_lengths.1, fw_lengths.2] at h
  exact h

theorem slotA_head (s : State) : (slotA s).flashRead 0 64 = fwHead := by
  have h1 := read_flashOf 0 fwHead (flashOf 3840 fwSig)
  rw [fw_lengths.1] at h1
  exact h1

theorem fw_sig : sigBad keys3 fwImage 3840 = none := by decide +kernel

theorem hyp_BootPhasesFollow_firmware : (slotA (booting phFirmware)).fwOk 0 = true := by
  have h : leAt fwHead 8 4 = 4096 ∧ (leAt fwHead 0 4 == 0x57464D46 && leAt fwHead 4 1 == 1 && leAt fwHead 5 3 == 0 && leAt fwHead 8 4 % 8 == 0 &&
    decide (4096 ≤ leAt fwHead 8 4 ∧ leAt fwHead 8 4 ≤ 2097152) && decide (leAt fwHead 12 4 ≤ 64) && decide (leAt fwHead 20 4 < leAt fwHead 8 4 - 256) &&
    leAt fwHead 24 36 == 0 && leAt fwHead 60 4 == crc32 (fwHead.take 60) && decide (0 ≤ leAt fwHead 12 4)) = true := by decide +kernel
  have hs : sigBad (slotA (booting phFirmware)).trs.keys ((slotA (booting phFirmware)).flashRead 0 (leAt fwHead 8 4)) (leAt fwHead 8 4 - 256) = none := by
    rw [h.1, slotA_bytes]; exact fw_sig
  simp only [State.fwOk, Nat.mul_zero, slotA_head, hs, Option.isNone_none, Bool.and_true]
  exact h.2
/-! ### Ill-formed commands are refused, one for each kind of check -/

theorem wellFormed_smoke :
    (∀ c ∈ [Instr.registerWrite pf0 .bar0 0 3 0 0, .registerWrite pf0 .bar0 0 1 256 0, .registerWrite pf0 .bar0 (2 ^ 32 - 1) 2 0 0,
        .beatBoundary { quiet with sensors := [] }, .beatBoundary { quiet with slack := [0, 0, 0, 0, 0] }, .beatBoundary { quiet with bays := 65536 },
        .beatBoundary { quiet with epoch := [(64, 0, 0)] }, .beatBoundary { quiet with visits := [⟨0, 0, 0, 0, [], none⟩] },
        .beatBoundary { quiet with traffic := [(64, 0, 0)] }, .beatBoundary { quiet with busy := [(0, 256, 0)] },
        .beatBoundary { quiet with overrun := [0] }, .ppsEdge 16384 0 0, .ppsEdge 0 16 0,
        .beatXchgRequest 9 ⟨256, 0, 0, 0, 0, 0, 0, 0, 0, 0⟩ 0, .beatXchgResponse 9 ⟨0, 0, 0, 0, 131072, 0, 0, 0, 0, 0⟩ 0], c.wf = false) ∧
    (∀ c ∈ [Instr.pushData bmc 0 0 [], .pushData bmc 0 0 (List.replicate 1001 0), .pushBegin bmc 65536 0 0, .fuseKey bmc 0 0 [] true,
        .pegSupervisor bmc 0 256, .setEndpointId 256 8, .capabilitySet 9 0 ⟨[], 0⟩ 0, .capabilitySet 9 0 ⟨List.replicate 256 1, 0⟩ 16, .resultBlock 9 0 (List.replicate 256 2), .checkUsEnd 9 ⟨8192, []⟩ ⟨0, []⟩,
        .checkerLock 18 [] [0] [],
        .trainUsEnd 9 ⟨16, 0, List.replicate 12 0⟩ ⟨0, 0, List.replicate 12 0⟩, .trainUsEnd 9 ⟨0, 0, [16]⟩ ⟨0, 0, List.replicate 12 0⟩,
        .trainUsEnd 9 ⟨0, 0, List.replicate 12 16⟩ ⟨0, 0, List.replicate 12 0⟩, .ffeReq 9 0 0 128 0, .ffeReq 9 0 0 0 (-129),
        .flitReceive 9 ([0], []) 0, .credit 9 [0, 0], .credit 9 [], .nak 9 (2 ^ 32), .packetForward 0 (some (2 ^ 23)), .chunkCombine 1024 0 0],
      c.wf = false) ∧
    (∀ c ∈ [Instr.hifSqDb pf0 (2 ^ 20) 0, .pushWrite pf0 0 128 [0], .pushWrite pf0 0 0 [], .msixUnmask pf0 2048, .regEnable pf0 (2 ^ 24),
        .matchEvent 4096, .memwr 0 0 0 0 [], .memrd 0 0 (2 ^ 52) 0, .hdmDecoderCommit 0 8 0 0 1, .hdmDecoderCommit 0 0 0 0 0, .revive who0 64,
        .pegTake ⟨pf0, true⟩ 4096, .scrubRead 0 (2 ^ 128) 0 none, .spill who0 256, .grainSample [] false, .setdasa 128 8, .hostLinkUp 0 16 0 false false false false],
      c.wf = false) ∧
    (∀ c ∈ [Instr.registerWrite pf0 .bar0 8 4 0xFFFFFFFF 0, .beatBoundary quiet, .pushData bmc 65535 0 [7], .ffeReq 9 0 0 127 (-128),
        .pegTake ⟨pf0, true⟩ 4095, .idcode], c.wf = true) := by
  and_intros <;> decide +kernel

/-! ### Values that the spec works out -/

/-- R57: the CRC-32 of "123456789". -/
theorem test_crc32 : crc32 ((List.range 9).map (fun i => BitVec.ofNat 8 (49 + i))) = 0xCBF43926 := by decide +kernel

/-- The addresses worked out in 17_register_map_index.md. -/
theorem test_addresses :
    live.fnLoc pf0 .bar0 0x502850 = .reg .RTE_CREDIT (33 * 8 + 2) ∧ live.fnLoc pf0 .bar0 0xB11628 = .reg .PEG_TAKE 0x2C5 ∧
    vfLoc 16 0x310028 = .reg .PEG_TAKE 5 ∧ live.fnLoc pf0 .bar2 0x105008 = .page 0x105 (some .HIF_CQ_DB) ∧
    live.fnLoc pf0 .bar4 0x8280 = .push 0x105 0 := by decide +kernel

/-- GLB_FITTED of a TN-832 (00_scope.md), and the 608 cycles of the eight conditional tasks (02_truss_image.md). -/
theorem test_fitted : fittedWord 1 = 0x00000000FF07EF7F ∧ taskSum 0xFF = 608 := by decide +kernel

/-- The state that a command leaves. -/
def after (c : Instr) (s : State) : State :=
  match step { s with pending := [c] } with
  | .next t => t
  | _ => State.reset

/-- Table 11.3: Peg 0x2C5 of group 11, taken by PF 0 as GRANTS reaches 0x11. -/
def pegExample : State :=
  ((live.wr F.PEG_CTRL.ENABLE 1).wr F.PEG_GROUP.PF_MASK 5 11).setPg 0x2C5 ⟨none, 0x10, false, false, []⟩

theorem test_pegTake : (after (.pegTake ⟨pf0, true⟩ 0x2C5) pegExample).out.getLast? = some (.pegValue pf0 0x2C5 0x2000000000000011) ∧
    ((after (.pegTake ⟨pf0, true⟩ 0x2C5) pegExample).pg 0x2C5).grants = 0x11 ∧
    ((after (.pegTake ⟨pf0, true⟩ 0x2C5) pegExample).pg 0x2C5).holder = some 0 := by decide +kernel

/-- Table 11.3: a read that meets its stall limit, with no watch, answers TIMEOUT with GRANTS. -/
theorem test_stallLimit : (after (.stallLimit (.pf 2) 0x2C5) (pegExample.setPg 0x2C5 ⟨some 0, 0x11, false, false, [(.pf 2, true)]⟩)).out.getLast? =
    some (.pegValue (.pf 2) 0x2C5 0x8000000000000011) := by decide +kernel

/-! ### Single steps -/

/-- Table 15.10: power good starts the ROM. -/
theorem test_pwrok : (after (.pwrokRise 0 0) State.reset).phase = phRom ∧ (after (.pwrokRise 0 0) State.reset).pins.pwrok = true := by
  decide +kernel

/-- R407: the loss of power good ends all state. -/
theorem test_pwrokFall : (after .pwrokFall live).atReset ∧ (after .pwrokFall live).pending = [] :=
  ⟨⟨rfl, rfl, rfl, rfl, rfl, rfl, rfl, rfl, rfl, rfl, rfl, rfl, rfl, rfl, rfl, rfl, rfl, rfl, rfl, rfl⟩, rfl⟩

/-- R420: GLB_UNIT_RESET of RTE sets its BUSY bit; UNIT_RESET_COMPLETE clears it. -/
theorem test_unitReset : (after (.glbUnitReset who0 0x20) live).unitBusy 5 = true ∧
    (after (.unitResetComplete 5) (live.setBusy 5 true)).unitBusy 5 = false := by decide +kernel

/-- R440: with TRST_L released BYPASS selects the one bit register. -/
theorem test_bypass : (after .bypass live).boot.jtag = 0 ∧ (after .bypass State.reset).boot.jtag = State.reset.boot.jtag := by decide +kernel

/-- R15: writing ones clears only the ones written. -/
theorem test_rw1c : ((after (.registerWrite pf0 .bar0 (regOffset who0 .FLT_STICKY 7) 8 0x5 0) (live.wr F.FLT_STICKY.STICKY 0xD 7)).rd
    F.FLT_STICKY.STICKY 7) = 0x8 := by decide +kernel

/-- The worked exchange of 01_device_organization.md, in steps of 50 ps: the delay reads 460 and the offset 0xFFA9. -/
def exchanged : State :=
  after (.beatXchgResponse 9 ⟨7, 0, 0, 20, 0, 0, 0, 2 ^ 18 + 4000, 2 ^ 18 + 4547, 2 ^ 18 + 6000⟩ (2 ^ 18 + 6373)) (asked9.wr F.BEA_STATUS.EVER_LOCKED 1)

theorem test_exchange : exchanged.rd F.BEA_LINK_DELAY.DELAY 9 = 460 ∧ exchanged.rd F.BEA_OFFSET.OFFSET = 0xFFA9 := by decide +kernel

/-! ### Witnesses of further clauses -/

/-- PF 0's host attachment is in L1. -/
def asleepLink (s : State) : State := s.modPwr (fun p => { p with l1 := 1 })

theorem hyp_WritesThatAreNotPerformed_asleep :
    ((asleepLink live).live = true ∧ (asleepLink live).hostAnswers pf0 = true ∧ (asleepLink live).postedCredit = true ∧
      ∀ bar : Bar, (asleepLink live).sleeps pf0 ((asleepLink live).fnLoc pf0 bar 0) = true) ∧
    (live.sleeps pf0 (live.fnLoc pf0 .bar0 0x500048) = false ∧ (0x500049 : Nat) % 8 ≠ 0 ∧ live.fnLoc pf0 .bar0 0x500049 = .hole 5) := by
  refine ⟨⟨by decide +kernel, by decide +kernel, by decide +kernel, ?_⟩, by decide +kernel, by decide +kernel, by decide +kernel⟩
  intro bar; cases bar <;> decide +kernel

theorem hyp_BoundaryAndArmedCommits_asleep :
    live.linkAsleep (.vf 0 0) = false ∧ (asleepLink live).hostAnswers (.vf 0 0) = true ∧ (asleepLink live).linkAsleep (.vf 0 0) = true ∧
    armed.tableLate ⟨F.RTE_LIMITER_CFG.AI, 0, 0, 9⟩ = false := by
  and_intros <;> decide +kernel

theorem hyp_PortsLockAndObey_lanes :
    (∀ s ∈ [((inSer 1 2 serActive).wr F.SER_PORT_STATUS.LANES 3 2).wr F.SER_LANE_STATUS.CDR_LOCK 1 4], s.live = true ∧ s.serState 2 = serActive ∧
      s.rd F.SER_PORT_STATUS.LANES 2 = 3 ∧ s.on F.SER_LANE_STATUS.CDR_LOCK (2 * 2 + (1 - 1)) = true) ∧
    (∀ s ∈ [(inSer 1 2 serActive).wr F.SER_PORT_STATUS.LANES 2 2], s.serState 2 = serActive ∧ s.rd F.SER_PORT_STATUS.LANES 2 = 2 ^ 1 ∧
      s.lnkState 2 ≠ lnkFencing ∧ bit (s.rd F.SER_PORT_STATUS.LANES 2) 0 = false) ∧
    (∀ st ∈ [serCaps, serTrain], ∀ l ∈ [0, 1], ∀ s ∈ [(inSer 1 63 st { SerPort.init with training := 3, c0 := heard 0, c1 := heard 1 }).wr
        F.SER_LANE_STATUS.CDR_LOCK l 126], s.live = true ∧ s.serState 63 = st ∧ (s.sp 63).training = 3 ∧
      s.on F.SER_LANE_STATUS.CDR_LOCK (2 * 63 + (1 - 1)) = decide (l = 1) ∧ (s.sp 63).idOf 0 ≠ (s.sp 63).idOf 1) ∧
    (∀ st ∈ [serOff, serWait, serDetect, serTest], (inSer 1 63 st).serState 63 = st ∧ st ≠ serCaps ∧ st ≠ serTrain ∧ st ≠ serActive) := by
  and_intros <;> decide +kernel

theorem hyp_PortsLockAndObey_commands :
    (∀ st ∈ [serOff, serWait, serDetect, serCaps, serTrain, serActive, serTest], ∀ m ∈ [0, 1], ∀ d ∈ [0, 1],
      ∀ s ∈ [((inSer 1 63 st).wr F.SER_PORT_CTRL.MODE m 63).wr F.SER_PORT_CTRL.POWER_DOWN d 63], s.serves who0 .SER_PORT_CTRL 63 = true ∧
      s.fits who0 .SER_PORT_CTRL 63 = true ∧ s.portRole 63 ≠ 0 ∧ (s.sp 63).calib = none ∧ s.serState 63 = st ∧
      s.rd F.SER_PORT_CTRL.MODE 63 = m ∧ s.rd F.SER_PORT_CTRL.POWER_DOWN 63 = d) ∧
    ((inSer 1 63 serWait).wr F.SER_PLL_STATUS.LOCK 0).pllLocked 63 = false := by
  and_intros <;> decide +kernel

theorem hyp_BringUpStarts_more :
    (∀ s ∈ [inSer 1 4 serCaps { SerPort.init with c1 := { CapLane.init with next := some 3 } }], s.live = true ∧ (s.sp 4).c1.counting = true) ∧
    ((inSer 1 4 serCaps).sp 4).c0.counting = false ∧ ((inSer 1 4 serCaps).sp 4).c1.counting = false := by
  and_intros <;> decide +kernel

theorem hyp_LaneMessages_more : (up8).beatAhead 1 = true ∧ ((up8).wr F.SER_PORT_CTRL.TARGET_WIDTH 2 8).rd F.SER_PORT_CTRL.TARGET_WIDTH 8 = 2 ∧
    ((up8).wr F.SER_PORT_CTRL.TARGET_WIDTH 2 8).beatAhead 1 = true ∧ (up8).beatAhead 0 = false := by
  and_intros <;> decide +kernel

theorem hyp_ReplayStartsAndEnds_more : ∀ x ∈ [(0xFFE, 0), (0xFFF, 1)],
    (x.1 + 4096 - two8.rd F.LNK_REPLAY_STATUS.TX_OLDEST 8) % 4096 = x.2 ∧ x.2 < two8.rd F.LNK_REPLAY_STATUS.OUTSTANDING 8 := by
  decide +kernel

/-- PF 0's LOAD of tree 1023 reads its descriptor. -/
def loading : State := (confluent none).modMct (fun m => { m with cmd := some (pf0, 1023) })

theorem hyp_TreeCommandsEnd_load :
    loading.live = true ∧ loading.mct.cmd = some (pf0, 1023) ∧ (treeOf 1).d.length = 192 ∧
    treeDescBad (List.replicate 192 0) 1023 = true := by
  and_intros <;> decide +kernel

/-- A region of pages, whose entries are not known. -/
def paged : Region := { regionOf 15 with d := descPut (regionOf 15).d RG.ACCESS 15 }

/-- Entry `n` of PF 0's Region Table is such a region. -/
def pagedAt (n : Nat) (s : State) : State := s.modRma (fun r => { r with regions := [(n, paged)] })

theorem hyp_TreesCombineAndReplicate_pages :
    (pagedAt 1 landing).mcPages replica ≠ [] ∧ (pagedAt 1 landing).mcRoom replica = true ∧ landing.mcPages replica = [] := by
  and_intros <;> decide +kernel

theorem leastBusy_some (s : State) (k : Nat) (es : List Nat)
    (h : (es.filter (fun e => es.all (fun x => decide (s.busyShare k e ≤ s.busyShare k x)))).isEmpty = false) :
    ∃ e, s.leastBusy k es = (some e, { s with free := s.free + 1 }) := by
  simp only [State.leastBusy, h, Bool.false_eq_true, if_false, State.pick]
  set l := es.filter (fun e => es.all (fun x => decide (s.busyShare k e ≤ s.busyShare k x)))
  have hl : 0 < l.length := by cases hc : l <;> simp_all
  have := Nat.mod_lt (Config.freeValue s.free) hl
  exact ⟨l[Config.freeValue s.free % l.length], by rw [List.getElem?_eq_getElem this]⟩

theorem placeOn_some (s : State) (k need : Nat)
    (hn : ¬ (s.enginesFor k).foldl (fun a e => max a (s.engineFree e)) 0 < need)
    (h : (let es := (s.enginesFor k).filter (fun e => s.engineFree e == (s.enginesFor k).foldl (fun a e => max a (s.engineFree e)) 0)
      (es.filter (fun e => es.all (fun x => decide (s.busyShare k e ≤ s.busyShare k x)))).isEmpty) = false) :
    ∃ e, s.placeOn k need = (some e, { s with free := s.free + 1 }) := by
  simp only [State.placeOn, hn, if_false]
  exact leastBusy_some s k _ h

/-- The descriptor of tree 1023, a root with two children and four slots of epoch 7. -/
def treeDesc : Bytes :=
  let d := leBytes 2 1023 ++ [1, 2] ++ leBytes 2 4 ++ List.replicate 18 0 ++ leBytes 2 7
  d ++ List.replicate (192 - d.length) 0

theorem hyp_TreeCommandsEnd_installed : loading.live = true ∧ treeDesc.length = 192 ∧ treeDescBad treeDesc 1023 = false ∧
    loading.placeOn 1 ((leAt treeDesc 3 1 + 2) * leAt treeDesc 4 2 * 4096) = (none, loading) ∧
    ∃ e, (joiner loading).placeOn 1 ((leAt treeDesc 3 1 + 2) * leAt treeDesc 4 2 * 4096) = (some e, { joiner loading with free := (joiner loading).free + 1 }) := by
  refine ⟨by decide +kernel, by decide +kernel, by decide +kernel, ?_, placeOn_some _ _ _ (by decide +kernel) (by decide +kernel)⟩
  have h : (loading.enginesFor 1).foldl (fun a e => max a (loading.engineFree e)) 0 < (leAt treeDesc 3 1 + 2) * leAt treeDesc 4 2 * 4096 := by
    decide +kernel
  simp only [State.placeOn, h, if_true]

/-- A region of pages of VF 0, and one of pages of PF 0 whose entries are known, each of STATE 1. -/
def pagedVf : Region := { paged with d := descPut paged.d RG.OWNER 1 }

/-- Queue 15 may match and has one RECV of 64 bytes to take, into entry 15's region; or a CANCEL. -/
def recvBytes : Bytes := ((entryOf oRecv).take 40) ++ leBytes 4 64 ++ leBytes 4 (15 * 256) ++ List.replicate 16 0
def toMatch (op : Nat) (b : Bytes) : State :=
  (((toTake op).modCtx 15 (fun c => { c.put Q.RIGHTS 15 with slots := [(0, b)] })).modMat (fun m => { m with mls := [(0, owned)] })).modRma
    (fun r => { r with regions := [(15, pagedVf)] })

theorem hyp_EntriesAreTaken_waits :
    ((toMatch oRecv recvBytes).live = true ∧ (toMatch oRecv recvBytes).intact = true ∧
      ((toMatch oRecv recvBytes).serve (· == oRecv)).isSome = true ∧ ((toMatch oCancel (entryOf oCancel)).serve (· == oCancel)).isSome = true) ∧
    (∀ x ∈ (toMatch oRecv recvBytes).serve (· == oRecv), x.2.2.2.entryBad 15 0 x.2.2.1 = none ∧ eFrag x.2.2.1 = false ∧ eOp x.2.2.1 = oRecv ∧
      x.2.2.2.partsDue .lwrite (x.2.2.2.keyCtx 15) (⟨0, 1, x.2.2.1, false, false, none, false, none, [], [], none, none, false⟩ : Ent).parts ≠ []) ∧
    (∀ x ∈ (toMatch oCancel (entryOf oCancel)).serve (· == oCancel), x.2.2.2.entryBad 15 0 x.2.2.1 = none ∧ eFrag x.2.2.1 = false ∧
      eOp x.2.2.1 = oCancel) := by
  and_intros <;> decide +kernel

/-- A completion waits for its CQ 15, of 64 entries. -/
def heldCqe : Cqe := ⟨15, 0, 0, 0, 0, true, 0, 0, 0, 0, 0, none⟩

theorem hyp_DoorbellPages_more :
    bit (2 ^ 32) 32 = true ∧ (∀ s ∈ [(active15 [(Q.PI, 1), (Q.CQ_FLAGS, 0)]).modHif (fun h => { h with wait := [heldCqe] })],
      s.hif.wait = [heldCqe] ∧ heldCqe.cq = 15 ∧ (s.c 15).stub = false ∧ s.linkUpPf (s.pfOf 15) = true ∧ s.q 15 Q.CQ_STATE = cqReady ∧
      diff32 1 (s.q 15 Q.CI) ≤ diff32 (s.q 15 Q.PI) (s.q 15 Q.CI) ∧ (s.c 15).b.length = 256 ∧ (s.c 15).cached = true ∧
      s.page (.vf 0 0) 15 15 = true ∧ s.qctCovers 15 = true ∧ diff32 (s.q 15 Q.PI) 1 < 2 ^ s.q 15 Q.CQ_LOG) := by
  and_intros <;> decide +kernel

/-- Sixty-four bytes of a NOP of one slot. -/
def nop64 : Bytes := [0, 0, 1] ++ List.replicate 61 0

theorem hyp_RingsVectorsAndPushes_more :
    (∀ s ∈ [active15 [(Q.FLAGS, 1)]], s.page (.vf 0 0) 15 15 = true ∧ nop64.length = 64 ∧ leAt nop64 2 1 = 1 ∧ s.half 15 0 = ⟨[], 0⟩ ∧
      (s.c 15).cached = true ∧ s.q 15 Q.STATE = qActive ∧ bit (s.q 15 Q.FLAGS) 0 = true ∧ leAt nop64 4 2 = s.q 15 Q.DB % 65536 ∧
      diff32 (add32 (s.q 15 Q.DB) 1) (s.q 15 Q.TAKEN) ≤ 2 ^ s.q 15 Q.LOG_SIZE) ∧
    ((vector true [2047]).spill = false ∧ (vector true [2047]).sleeps pf0 (.msix 2047 12) = false) := by
  and_intros <;> decide +kernel

/-- A descriptor of a queue of 64 slots that uses neither transport nor matching. -/
def queueDesc : Bytes := [(8, 6), (11, 1), (22, 1), (128, 1), (143, 1)].foldl (fun b x => putBytes b x.1 [BitVec.ofNat 8 x.2]) (List.replicate 256 0)

theorem hyp_HostReadsEnd_more :
    (queueDesc.length = 256 ∧ queueDescOk queueDesc ((reading 1).qCount ((reading 1).ownerOf 15)) = true ∧ (reading 1).transportOk pf0 queueDesc = true ∧
      (reading 1).matchOk ((reading 1).ownerOf 15) queueDesc = true) ∧
    (∀ s ∈ [(active15 []).modHif (fun h => { h with rings := [(15, 7, 0)] })], s.hif.rings.find? (fun r => r.1 == 15) = some (15, 7, 0)) := by
  and_intros <;> decide +kernel

/-- PF 0 enables entry 15, or is told of a page entry of it. -/
def enabling : State := hosted.modRma (fun r => { r with cmds := [⟨.pf 1, 1, 2 ^ 22 + 1⟩, ⟨pf0, 1, 15⟩] })

theorem hyp_RegionCommandsEnd_more :
    (∀ s ∈ [hosted.modRma (fun r => { r with regions := [(15, { regionOf 15 with d := descPut (regionOf 15).d RG.STATE 2 })] })],
      s.serves who0 .RMA_REG_CMD 0 = true ∧ s.regIndex pf0 15 = some 15 ∧ s.en uRMA = true ∧ (s.region 15).f RG.STATE ≠ 1) ∧
    (∀ u ∈ [true, false], ∀ s ∈ [(region15 u).modRma (fun r => { r with cmds := [⟨.pf 1, 2, 2 ^ 22 + 1⟩] })],
      s.regIndex pf0 15 = some 15 ∧ s.regionUsed 15 = u ∧ s.rma.cmds.find? (fun k => fnInst k.fn == fnInst pf0 && k.cmd == 2) = none ∧
      (s.region 15).f RG.STATE = 1) ∧
    (enabling.live = true ∧ enabling.rma.cmds.find? (fun k => fnInst k.fn == fnInst pf0 && k.cmd == 1) = some ⟨pf0, 1, 15⟩ ∧
      descOk (List.replicate 64 0) = false ∧ tabGet enabling.rma.regions 15 = none ∧
      descOk (descPut paged.d RG.STATE 0) = true ∧ (descPut paged.d RG.STATE 0).length = 64) ∧
    (∀ s ∈ [(pagedAt 15 hosted).modHif (fun h => { h with reads := [⟨.page 15 0, pf0, 8⟩] })], s.hif.reads = [⟨.page 15 0, pf0, 8⟩]) := by
  and_intros <;> decide +kernel

theorem hyp_TargetLedger_pages :
    (∀ x ∈ reqs 1, x.1 ≠ 0x11 → (taken (pagedAt 15 (target [])) x).packetPages x.2 ≠ [] ∧ (got (pagedAt 15 (target [])) x.2).hands uRMA x.1 x.2 = true ∧
      (got (pagedAt 15 (target [])) x.2).intact = true) ∧
    (∀ x ∈ reqs 1, (taken (target []) x).packetPages x.2 = []) ∧
    (∀ t ∈ [(taken1 (target []) (0x12, req 0x12 0 0 (leBytes 8 64))).inc F.RMA_COUNT.DUPLICATES], t.keyCheck .rread (15 * 256) 0 64 (t.keyCtx 15) = .ok 15) ∧
    (∀ b ∈ [putBytes (req 0x12 0 0 (leBytes 8 64)) 20 (leBytes 4 (14 * 256))],
      ∀ t ∈ [(taken1 (target []) (0x12, b)).inc F.RMA_COUNT.DUPLICATES], t.keyCheck .rread (pkKey b) (pkOff b) 64 (t.keyCtx 15) = .error 1 ∧
      pkKey b = 14 * 256 ∧ (taken (target []) (0x12, b)).packetPages b = [] ∧ rmaBad b = false) := by
  and_intros <;> decide +kernel

/-- The descriptor of an ML of sixteen on-chip entries with a ring of 64 unexpected ones in entry 15's region. -/
def mlDesc (key : Nat) : Bytes := leBytes 8 0 ++ leBytes 2 16 ++ [0, if key = 0 then 0 else 6] ++ leBytes 4 key ++ List.replicate 48 0
def creating (s : State) : State := s.modMat (fun m => { m with cmds := [⟨pf0, 4095⟩] })

theorem hyp_MatchListCommandsEnd_read :
    ((creating hosted).live = true ∧ (creating hosted).mat.checking = [] ∧
      (creating hosted).mat.cmds.find? (fun k => fnInst k.fn == fnInst pf0) = some ⟨pf0, 4095⟩ ∧
      (creating hosted).mat.cmds.find? (fun k => k.ml == 4095) = some ⟨pf0, 4095⟩) ∧
    (∀ d ∈ [mlDesc 0, mlDesc (15 * 256)], d.length = 64 ∧ mlDescOk d ((creating hosted).qCount pf0) = true ∧
      (creating hosted).pdOk pf0 ((Ml.of pf0 d).f ML.PD) = true) ∧
    mlDescOk (List.replicate 64 0) ((creating hosted).qCount pf0) = false ∧
    (creating (pagedAt 15 hosted)).mlPages (Ml.of pf0 (mlDesc (15 * 256))) ≠ [] ∧
    (∀ s ∈ [creating (hosted.modRma (fun r => { r with regions := [(15, regionOf 15)] }))], s.mlPages (Ml.of pf0 (mlDesc (15 * 256))) = [] ∧
      ∀ r ∈ (Ml.of pf0 (mlDesc (15 * 256))).ranges, s.keyCheck .lwrite r.1 r.2.2 r.2.1 (Ml.of pf0 (mlDesc (15 * 256))).keyCtx = .ok 15) ∧
    (creating hosted).placeOn 0 (64 * (Ml.of pf0 (mlDesc 0)).f ML.ONCHIP) = (none, creating hosted) ∧
    ∃ e, (joiner (creating hosted)).placeOn 0 (64 * (Ml.of pf0 (mlDesc 0)).f ML.ONCHIP) =
      (some e, { joiner (creating hosted) with free := (joiner (creating hosted)).free + 1 }) := by
  refine ⟨by decide +kernel, by decide +kernel, by decide +kernel, by decide +kernel, by decide +kernel, ?_,
    placeOn_some _ _ _ (by decide +kernel) (by decide +kernel)⟩
  have h : ((creating hosted).enginesFor 0).foldl (fun a e => max a ((creating hosted).engineFree e)) 0 < 64 * (Ml.of pf0 (mlDesc 0)).f ML.ONCHIP := by
    decide +kernel
  simp only [State.placeOn, h, if_true]

/-- A list of VF 0 whose ring of 64 unexpected entries lies in entry 15's region. -/
def ringed : Ml := Ml.of (.vf 0 0) (mlDesc (15 * 256))

theorem hyp_MatchingGoesOn_waits :
    (∀ x ∈ messages, ∀ s ∈ [(matching [] ringed).modRma (fun r => { r with regions := [(15, pagedVf)] })], (taken s x).messagePages x.2 ≠ [] ∧
      (got s x.2).hands uMAT x.1 x.2 = true ∧ (taken (matching [] owned) x).messagePages x.2 = []) ∧
    (∀ s ∈ [(listed ringed).modRma (fun r => { r with regions := [(15, pagedVf)] })], s.mlPages ringed ≠ [] ∧ s.ml 4095 = some ringed ∧
      s.ecc.refetch = [] ∧ s.pState = 0 ∧ (listed list).mlPages list = []) ∧
    (((listed list).needWait list (needsOf (entOf 1 5) { entOf 3 5 with user := 15 })).isSome = true ∧
      (listed list).needWait list (needsOf (entOf 1 5) (entOf 2 5)) = none) := by
  and_intros <;> decide +kernel

/-- One transfer waits to start. -/
def rdvWaits : Rdv := ⟨0, 4095, 15, entOf 1 5, entOf 3 5, 64, 0, false, 0, false, false, 0⟩
def rdvState : State := (joiner (listed list)).modMat (fun m => { m with rdvs := [rdvWaits] })

theorem hyp_MatchingGoesOn_starts :
    (hosted.enginesFor 2).filter (fun e => decide ((hosted.mat.rdvs.filter (fun r => r.started && !r.sent && r.engine == e)).length < 256)) = [] ∧
    rdvState.mat.rdvs.find? (fun r => !r.started && !r.over') = some rdvWaits ∧
    ∃ e, rdvState.leastBusy 2 ((rdvState.enginesFor 2).filter (fun e => decide ((rdvState.mat.rdvs.filter (fun r =>
      r.started && !r.sent && r.engine == e)).length < 256))) = (some e, { rdvState with free := rdvState.free + 1 }) :=
  ⟨by decide +kernel, by decide +kernel, leastBusy_some _ _ _ (by decide +kernel)⟩

/-- A FWD_ACK with NODATA. -/
def noData : Bytes := putBytes (cp 2 0x74 0 0 0 []) 23 [128]

theorem hyp_HomeDecides_nodata :
    cpFlag noData cfNodata = true ∧ cohBad noData = false ∧ (got (lineIn { Dir.unc with tx := some (htx 1 [] true false false) }) noData).hands uCOH 0x74 noData = true ∧
    (lineIn { Dir.unc with tx := some (htx 1 [] true false false) }).txFor noData = some (htx 1 [] true false false) ∧
    (htx 1 [] true false false).fwd = true ∧ (htx 1 [] true false false).owner = 1 := by
  and_intros <;> decide +kernel

/-- The device is in P4, or in P2, or port 1's attachment is in L1. -/
def gated (n : Nat) : State := domain.wr F.PWR_STATE.STATE n

theorem hyp_HostsOfADomain_asleep :
    ((gated 4).live = true ∧ (gated 4).gatedUnit uCOH = true ∧ (gated 2).live = true ∧ (gated 2).gatedEngines = true ∧ (gated 1).gatedEngines = false ∧
      (gated 3).gatedUnit uCOH = false) ∧
    (∀ s ∈ [domain.modPwr (fun p => { p with l1 := 4 })], s.live = true ∧ bit s.pwr.l1 (2 * 1) = true ∧ bit s.pwr.l1 (2 * 0) = false) := by
  and_intros <;> decide +kernel

theorem hyp_DomainTimersAndCommands_codes :
    (∀ s ∈ [(domain.wr F.COH_MEMBER.DEAD 1 1).modCoh (fun c => { c with walk := some (2, 0, 0) })], s.serves who0 .COH_CMD 0 = true ∧
      s.on F.COH_RESULT.BUSY = false ∧ s.on F.COH_MEMBER.VALID 1 = true ∧ s.memberDead 1 = true ∧ s.coh.walk ≠ none) ∧
    (∀ s ∈ [domain.wr F.COH_MEMBER.VALID 1 0], s.en uCOH = true ∧ s.on F.COH_MEMBER.VALID 0 = true ∧ 0 = s.ownMid) ∧
    (domain.memberDead 1 = false ∧ domain.on F.COH_MEMBER.VALID 1 = true) := by
  and_intros <;> decide +kernel

theorem hyp_PowerStatesAndWear_more :
    (∀ s ∈ [((power 2).wr F.PWR_STATE.EXITING 1).modPwr (fun p => { p with waits := [.read pf0 .BEA_COUNT 0 0 0 true] })], s.live = true ∧
      s.exiting = true ∧ s.pwr.waits ≠ []) ∧
    (idle4 2).deepest = 4 := by
  and_intros <;> decide +kernel

theorem hyp_PinsBootAndReset_release :
    (∀ s ∈ [booting phReset], s.pins.pwrok = true ∧ s.spill = false ∧ s.phase = phReset ∧ ¬ ∃ p : Port, s.lnkState p = lnkFencing) ∧
    (∀ s ∈ [(booting phReset).wr F.LNK_PORT_STATUS.STATE lnkFencing 63], s.phase = phReset ∧ ∃ p : Port, s.lnkState p = lnkFencing) := by
  refine ⟨?_, ?_⟩
  · intro s h
    simp only [List.mem_singleton] at h
    subst h
    and_intros <;> decide +kernel
  · intro s h
    simp only [List.mem_singleton] at h
    subst h
    exact ⟨by decide +kernel, 63, by decide +kernel⟩

/-- The Foreman restarts, while the device runs or boots. -/
theorem hyp_BootPhasesFollow_restart :
    (∀ s ∈ [foreman fmRestarting (booting phLoad)], s.pins.pwrok = true ∧ s.rd F.FMN_INFO.STATE = fmRestarting ∧ s.phase ≠ phRunning ∧
      s.spill = false ∧ s.fwOk 0 = false ∧ s.fwOk 1 = false) ∧
    (foreman fmRestarting live).phase = phRunning := by
  and_intros <;> decide +kernel

theorem hyp_BootPhasesFollow_restartA : (slotA (foreman fmRestarting live)).fwOk 0 = true ∧ (slotA (foreman fmRestarting live)).rd F.FMN_INFO.STATE = fmRestarting := by
  refine ⟨?_, by decide +kernel⟩
  have h : leAt fwHead 8 4 = 4096 ∧ (leAt fwHead 0 4 == 0x57464D46 && leAt fwHead 4 1 == 1 && leAt fwHead 5 3 == 0 && leAt fwHead 8 4 % 8 == 0 &&
    decide (4096 ≤ leAt fwHead 8 4 ∧ leAt fwHead 8 4 ≤ 2097152) && decide (leAt fwHead 12 4 ≤ 64) && decide (leAt fwHead 20 4 < leAt fwHead 8 4 - 256) &&
    leAt fwHead 24 36 == 0 && leAt fwHead 60 4 == crc32 (fwHead.take 60) && decide (0 ≤ leAt fwHead 12 4)) = true := by decide +kernel
  have hs : sigBad (slotA (foreman fmRestarting live)).trs.keys ((slotA (foreman fmRestarting live)).flashRead 0 (leAt fwHead 8 4)) (leAt fwHead 8 4 - 256) = none := by
    rw [h.1, slotA_bytes]; exact fw_sig
  simp only [State.fwOk, Nat.mul_zero, slotA_head, hs, Option.isNone_none, Bool.and_true]
  exact h.2

theorem hyp_ResetsWhileRunning_more :
    ((live.setBusy 17 true).phase = phRunning ∧ unitNorm 17 ≠ uFMN ∧ ((booting phBist).setBusy 17 true).phase ≠ phRunning ∧
      ((booting phBist).setBusy 17 true).spill = false) ∧
    (live.fitted uFMN = true ∧ live.unitBusy uFMN = false) := by
  and_intros <;> decide +kernel

/-- The Foreman serves while HIF is gated. -/
def servingGated : State := (serving).wr F.PWR_STATE.STATE 4

theorem hyp_MailboxReadsAndWrites_gated :
    (servingGated.asks bmc 0 = true ∧ (servingGated.asked bmc 0).locGated (pfLoc 0x700008) = true ∧
      ∃ k : Nat, k < 16 ∧ k < 1 ∧ (servingGated.asked bmc 0).locGated (pfLoc (0x700008 + 8 * k)) = true) ∧
    ((serving).asked bmc 0).locGated (pfLoc 0x500048) = false ∧
    (¬ ∃ k : Nat, k < 16 ∧ k < 1 ∧ ((serving).asked bmc 0).locGated (pfLoc (0xD00008 + 8 * k)) = true) ∧ 0xD00008 / 0x100000 = 13 := by
  refine ⟨⟨by decide +kernel, by decide +kernel, 0, by decide, by decide, by decide +kernel⟩, by decide +kernel, ?_, by decide⟩
  rintro ⟨k, _, h, hg⟩
  obtain rfl : k = 0 := by omega
  revert hg; decide +kernel

end Sys2Proof.Machine.Test
end

section
/-! Sequencing of the link layer (04_link_layer.md): what a link that enters INIT holds (R130), and the NAK that a port sends
again (R125, R132). -/

namespace Sys2Proof.Machine

/-! ### A register taken back to reset -/

/-- The fields of a register begin at different bits. -/
theorem reg_lo_nodup (r : Reg) : (r.fields.map Fld.lo).Nodup := by cases r <;> decide

/-- Writes of reset values to fields of a list leave a field at reset that is among them, or was there before. -/
theorem rdI_foldl_wrI_rst (l : List Fld) (s : State) (d : Fld) (a i : Nat) (hlo : ∀ e ∈ l, e.lo = d.lo → e = d)
    (h : d ∈ l ∨ s.rdI d a i = rstOf d i % 2 ^ d.w) :
    (l.foldl (fun s e => s.wrI e a i (rstOf e i)) s).rdI d a i = rstOf d i % 2 ^ d.w := by
  induction l generalizing s with
  | nil => simpa using h
  | cons e r ih =>
    rw [List.foldl_cons]
    refine ih _ (fun x hx => hlo x (List.mem_cons_of_mem _ hx)) ?_
    by_cases he : e = d
    · subst he
      exact .inr (rdI_wrI_same s e a i _)
    · have hk : (s.wrI e a i (rstOf e i)).rdI d a i = s.rdI d a i :=
        rdI_wrI_ne s _ (fun hk => he (hlo e List.mem_cons_self hk.2.1.symm))
      rw [hk]
      exact h.imp_left fun hm => (List.mem_cons.mp hm).resolve_left (Ne.symm he)

/-- An index of a register that went back to reset reads the reset value in each of its fields. -/
theorem rdI_resetIdx (s : State) {r : Reg} {d : Fld} (hd : d ∈ r.fields) (a i : Nat) :
    (s.resetIdx r a i).rdI d a i = rstOf d i % 2 ^ d.w :=
  rdI_foldl_wrI_rst r.fields s d a i (fun _ he h => List.inj_on_of_nodup_map (reg_lo_nodup r) he hd h) (.inl hd)

@[simp] theorem resetIdx_link (s : State) (r : Reg) (a i p : Nat) : (s.resetIdx r a i).link p = s.link p :=
  List.foldlRecOn (motive := fun t : State => t.link p = s.link p) r.fields _ rfl (fun _ h _ _ => h)

/-! ### Entry to INIT -/

/-- The header carries the last accepted SEQ as its ACK, and 0xFFF where none is known. -/
theorem flitHdr_eq (s : State) (p ty words seq : Nat) :
    s.flitHdr p ty words seq = ty * 2 ^ 30 + words * 2 ^ 24 + (s.link p).acked.getD 0xFFF * 2 ^ 12 + seq := by
  unfold State.flitHdr
  cases (s.link p).acked <;> rfl

/-- Every field of LNK_REPLAY_STATUS is 0 at reset. -/
theorem rstOf_replayStatus {d : Fld} (hd : d ∈ Reg.LNK_REPLAY_STATUS.fields) (i : Nat) : rstOf d i = 0 := by
  have h : ∀ d ∈ Reg.LNK_REPLAY_STATUS.fields, d.reg = .LNK_REPLAY_STATUS ∧ d.rst = 0 := by decide
  obtain ⟨hreg, hrst⟩ := h d hd
  simp only [rstOf, hreg, hrst]

/-- What a link that starts does: its numbers go back to reset, the link is at rest but for a CORRUPT request and the full mark of
the Beat, no SEQ of its lanes' requests is known, and it is in INIT. -/
theorem linkStart_of_active {s : State} {p : Nat} (hd : s.lnkState p = lnkDown) (he : s.en uLNK = true)
    (ha : s.serState p = serActive) :
    s.linkStart p =
      (((((s.resetIdx .LNK_REPLAY_STATUS 0 p).modLink p
        (fun l => { Link.init with corrupt := l.corrupt, fullBeat := l.fullBeat })).modLane (2 * p)
        (fun x => { x with reqSeq := none })).modLane (2 * p + 1) (fun x => { x with reqSeq := none })).wr
        F.LNK_PORT_STATUS.STATE lnkInit p) := by
  simp [State.linkStart, hd, he, ha]

section
variable {s : State} {p : Nat} (hd : s.lnkState p = lnkDown) (he : s.en uLNK = true) (ha : s.serState p = serActive)
include hd he ha

theorem lnkState_linkStart : (s.linkStart p).lnkState p = lnkInit := by
  rw [linkStart_of_active hd he ha, State.lnkState, rd_wr_same]
  rfl

theorem rd_linkStart_replayStatus {d : Fld} (hm : d ∈ Reg.LNK_REPLAY_STATUS.fields) : (s.linkStart p).rd d p = 0 := by
  have hreg : ∀ d ∈ Reg.LNK_REPLAY_STATUS.fields, d.reg.code ≠ F.LNK_PORT_STATUS.STATE.reg.code := by decide
  rw [linkStart_of_active hd he ha, rd_wr_reg _ _ _ _ (hreg d hm), rd_modLane, rd_modLane, rd_modLink, ← rdI_zero,
    rdI_resetIdx s hm, rstOf_replayStatus hm, Nat.zero_mod]

theorem link_linkStart :
    (s.linkStart p).link p = { Link.init with corrupt := (s.link p).corrupt, fullBeat := (s.link p).fullBeat } := by
  rw [linkStart_of_active hd he ha, link_wr, link_modLane, link_modLane, link_modLink, resetIdx_link]

end

/-- Settles O9: the numbers are fields of the register that goes back to reset, and the link itself starts from rest. -/
theorem initStartsClean : Obligations.InitStartsClean := by
  intro s p hd he ha
  have hl := link_linkStart hd he ha
  have hacked : ((s.linkStart p).link p).acked = none := by rw [hl]; rfl
  have hreplay : ((s.linkStart p).link p).replay = [] := by rw [hl]; rfl
  have hzero {d : Fld} (hm : d ∈ Reg.LNK_REPLAY_STATUS.fields) : (s.linkStart p).rd d p = 0 :=
    rd_linkStart_replayStatus hd he ha hm
  exact ⟨lnkState_linkStart hd he ha, hzero (by decide), hzero (by decide), hzero (by decide), hzero (by decide), hzero (by decide),
    hacked, hreplay, fun ty words seq => by rw [flitHdr_eq, hacked, Option.getD_none]⟩

/-! ### A NAK sent again -/

/-- An owner's read changes nothing where every word holds what its unit wrote there last. -/
theorem reads_of_intact {s : State} (o : EObj) (h : s.intact = true) : s.reads o = s := if_pos h

/-- A flit slot of a port with no replay to read, or with an intact SRAM, goes straight to the transmitter. -/
theorem slotRead_eq_flitTransmit {s : State} {p : Nat} (stamp : Nat) (h : (s.link p).rpos = none ∨ s.intact = true) :
    s.slotRead p stamp = s.flitTransmit p stamp := by
  unfold State.slotRead
  rcases h with hr | hi
  · simp [hr]
  · simp [reads_of_intact _ hi]

/-- While NAK_OUT is set, NAK_RETRY makes a NAK due. -/
theorem nakRetry_of_nakOut {s : State} {p : Nat} (hu : s.lnkState p = lnkUp) (hn : s.on F.LNK_REPLAY_STATUS.NAK_OUT p = true) :
    s.nakRetry p = s.modLink p (fun l => { l with nakDue := true }) := if_pos ⟨hn, hu⟩

/-- The word that heads a NAK. -/
theorem ctrlHead_nak : ctrlHead 1 1 = [0x01, 0x01, 0x00, 0x00] := by decide

@[simp] theorem lnkState_setLink (s : State) (p q : Nat) (l : Link) : (s.setLink p l).lnkState q = s.lnkState q := rfl

/-- The link of a port once a flit slot has passed: it counts toward the one CTRL_S flit in four (R132). -/
def Link.slotPassed (l : Link) : Link := { l with sinceS := min 4 (l.sinceS + 1) }

/-- The CTRL_U flit that asks for E: SEQ TX_NEXT, the current ACK, and NAK(E) as its one message (R117, R122, R125, R134). -/
def State.nakFlit (s : State) (p : Nat) : Bytes :=
  flitEncode (s.flitHdr p 3 2 (s.rd F.LNK_REPLAY_STATUS.TX_NEXT p))
    ([0x01, 0x01, 0x00, 0x00] ++ leBytes 4 (s.rd F.LNK_REPLAY_STATUS.RX_EXPECT p)) false

/-- A NAK that is due goes before anything else that a port in UP has to send. -/
theorem flitSlot_of_nakDue {s : State} {p : Nat} (stamp : Nat) (hu : s.lnkState p = lnkUp) (hn : (s.link p).nakDue = true) :
    s.flitSlot p stamp = (s.wireFlit p (s.nakFlit p)).setLink p { s.link p with nakDue := false } := by
  simp [State.flitSlot, hu, hn, State.sendFlit, ctrlHead_nak, State.nakFlit]

theorem nakFlit_slotPassed (s : State) (p : Nat) : (s.setLink p (s.link p).slotPassed).nakFlit p = s.nakFlit p := by
  have hacked : (s.link p).slotPassed.acked = (s.link p).acked := rfl
  simp only [State.nakFlit, flitHdr_eq, link_setLink, rd_setLink, hacked]

/-- What a flit slot sends while a NAK is due. -/
theorem flitTransmit_of_nakDue {s : State} {p : Nat} (stamp : Nat) (hu : s.lnkState p = lnkUp) (hn : (s.link p).nakDue = true) :
    s.flitTransmit p stamp =
      ((s.setLink p (s.link p).slotPassed).wireFlit p (s.nakFlit p)).setLink p { (s.link p).slotPassed with nakDue := false } := by
  have hmod : s.modLink p (fun l => { l with sinceS := min 4 (l.sinceS + 1) }) = s.setLink p (s.link p).slotPassed := rfl
  have hu' : (s.setLink p (s.link p).slotPassed).lnkState p = lnkUp := by rw [lnkState_setLink, hu]
  have hn' : ((s.setLink p (s.link p).slotPassed).link p).nakDue = true := by rw [link_setLink]; exact hn
  rw [State.flitTransmit, hmod, flitSlot_of_nakDue stamp hu' hn', nakFlit_slotPassed, link_setLink]

/-- Settles O13: NAK_RETRY makes the NAK due, and the slot that finds it due sends it, whatever else waits. -/
theorem nakIsSentAgain : Obligations.NakIsSentAgain := by
  intro s p stamp
  constructor
  · intro hlive hu hn
    calc exec (.nakRetry p) s = running s (fun s => s.nakRetry p) := rfl
      _ = _ := by rw [running_live _ hlive, nakRetry_of_nakOut hu hn]
  · intro hpow hu hdue ack hdr msg l hslot
    have hflit : s.nakFlit p = flitEncode hdr msg false := rfl
    calc exec (.flitTransmit p stamp) s = powered s (fun s => s.slotRead p stamp) := rfl
      _ = .next (s.settle (((s.setLink p l).wireFlit p (s.nakFlit p)).setLink p { l with nakDue := false })) := by
        rw [powered_on _ hpow, slotRead_eq_flitTransmit stamp hslot, flitTransmit_of_nakDue stamp hu hdue]
        rfl
      _ = _ := by rw [hflit]

end Sys2Proof.Machine
end

section
/-! What every command keeps (15_reset_and_bringup.md, 95_what_each_step_holds.md): the pins and the queue, and the device at reset
while it has no power good. -/

namespace Sys2Proof.Machine

/-! ### The pins and the queue -/

/-- What only the outside changes: the pins, and the commands that wait. -/
def State.outer (s : State) : Pins × List Instr := (s.pins, s.pending)

@[simp] theorem emit_outer (s : State) (o : Out) : (s.emit o).outer = s.outer := by rfl
@[simp] theorem post_outer (s : State) (a : Act) : (s.post a).outer = s.outer := by rfl
@[simp] theorem raise_outer (s : State) (c : Src) (i : Nat) : (s.raise c i).outer = s.outer := by rfl
@[simp] theorem wrI_outer (s : State) (d : Fld) (a i x : Nat) : (s.wrI d a i x).outer = s.outer := by rfl
@[simp] theorem wr_outer (s : State) (d : Fld) (x i : Nat) : (s.wr d x i).outer = s.outer := by rfl
@[simp] theorem incI_outer (s : State) (d : Fld) (a i k : Nat) : (s.incI d a i k).outer = s.outer := by rfl
@[simp] theorem modHif_outer (s : State) (f : Hif → Hif) : (s.modHif f).outer = s.outer := by rfl
@[simp] theorem modCtx_outer (s : State) (g : Nat) (f : Ctx → Ctx) : (s.modCtx g f).outer = s.outer := by rfl
@[simp] theorem setQ_outer (s : State) (g : Nat) (f : Nat × Nat) (v : Nat) : (s.setQ g f v).outer = s.outer := by rfl
@[simp] theorem modLink_outer (s : State) (p : Nat) (f : Link → Link) : (s.modLink p f).outer = s.outer := by rfl
@[simp] theorem modSp_outer (s : State) (p : Nat) (f : SerPort → SerPort) : (s.modSp p f).outer = s.outer := by rfl
@[simp] theorem modPwr_outer (s : State) (f : Pwr → Pwr) : (s.modPwr f).outer = s.outer := by rfl
@[simp] theorem readHost_outer (s : State) (f : Fn) (a n : Nat) : (s.readHost f a n).outer = s.outer := by
  unfold State.readHost; split <;> rfl
@[simp] theorem pick_outer (s : State) (n : Nat) : (s.pick n).2.outer = s.outer := by rfl
@[simp] theorem endEnt_outer (s : State) (g i : Nat) (f : Fin') : (s.endEnt g i f).outer = s.outer := by rfl
@[simp] theorem fence_outer (s : State) (p : Nat) : (s.fence p).outer = s.outer := by rfl

/-- Steps of a fold that each keep a value of the state keep it together. -/
theorem foldS_keeps {α β : Type} (g : State → β) (f : State → α → State) (h : ∀ s a, g (f s a) = g s) (l : List α) (s : State) :
    g (foldS l s f) = g s :=
  List.foldlRecOn (motive := fun t => g t = g s) l f rfl (fun t ht a _ => (h t a).trans ht)

@[simp] theorem foldS_outer {α : Type} (f : State → α → State) (h : ∀ s a, (f s a).outer = s.outer) (l : List α) (s : State) :
    (foldS l s f).outer = s.outer := foldS_keeps State.outer f h l s

@[simp] theorem needCtx_outer (s : State) (g : Nat) : (s.needCtx g).outer = s.outer := by
  unfold State.needCtx; split <;> simp

@[simp] theorem sendMsi_outer (s : State) (i e : Nat) : (s.sendMsi i e).outer = s.outer := by
  unfold State.sendMsi
  split
  · rfl
  · dsimp only; split
    · split <;> simp
    · simp

@[simp] theorem msiCheck_outer (s : State) (i e : Nat) : (s.msiCheck i e).outer = s.outer := by
  unfold State.msiCheck; dsimp only; split <;> simp

@[simp] theorem writeEv_outer (s : State) (e : Ev) : (s.writeEv e).outer = s.outer := by simp [State.writeEv]

@[simp] theorem holdEv_outer (s : State) (e : Ev) : (s.holdEv e).outer = s.outer := by
  unfold State.holdEv; dsimp only; split
  · simp
  · split <;> simp

@[simp] theorem eventIf_outer (s : State) (may : Bool) (f : Fn) (r ty d o i : Nat) : (s.eventIf may f r ty d o i).outer = s.outer := by
  unfold State.eventIf; dsimp only; split <;> simp

@[simp] theorem cqEvent_outer (s : State) (cq ty i : Nat) : (s.cqEvent cq ty i).outer = s.outer := by
  unfold State.cqEvent; dsimp only; split <;> simp [State.event]

@[simp] theorem writeCqe_outer (s : State) (e : Cqe) : (s.writeCqe e).outer = s.outer := by
  unfold State.writeCqe; dsimp only
  split <;> split <;> split <;> simp

@[simp] theorem drainCq_outer (s : State) (cq n : Nat) : (s.drainCq cq n).outer = s.outer := by
  induction n generalizing s with
  | zero => rfl
  | succ n ih =>
    unfold State.drainCq
    split
    · rfl
    · dsimp only
      split
      · simp
      · split
        · simp [ih]
        · split <;> simp [ih]

@[simp] theorem complete_outer (s : State) (e : Cqe) : (s.complete e).outer = s.outer := by
  unfold State.complete; split <;> simp [State.flushCq]

@[simp] theorem produce_outer (s : State) (g n : Nat) : (s.produce g n).outer = s.outer := by
  induction n generalizing s with
  | zero => rfl
  | succ n ih =>
    unfold State.produce; dsimp only
    split
    · rfl
    · split
      · rfl
      · rw [ih]; split <;> simp

@[simp] theorem popRetired_outer (s : State) (g n : Nat) : (s.popRetired g n).outer = s.outer := by
  induction n generalizing s with
  | zero => rfl
  | succ n ih =>
    unfold State.popRetired
    split
    · rfl
    · split <;> simp [ih]

@[simp] theorem queueOff_outer (s : State) (g : Nat) : (s.queueOff g).outer = s.outer := by
  simp only [State.queueOff, State.qEvent]; split <;> simp [State.event]

@[simp] theorem retire_outer (s : State) (g : Nat) : (s.retire g).outer = s.outer := by
  have h (t : State) : (t.idleCheck g).outer = t.outer := by
    unfold State.idleCheck; dsimp only; split
    · rfl
    · split
      · simp
      · split <;> simp
  simp [State.retire, h]

@[simp] theorem collEnd_outer (s : State) (t : Nat) (o : COp) (st : Nat) : (s.collEnd t o st).outer = s.outer := by
  unfold State.collEnd; split
  · rfl
  · dsimp only; split <;> simp

@[simp] theorem mctEndAll_outer (s : State) : s.mctEndAll.outer = s.outer := by
  have h (s : State) (t st : Nat) : (s.collEndAll t st).outer = s.outer := by
    unfold State.collEndAll; split <;> simp
  simp [State.mctEndAll, h]

@[simp] theorem pegEndStalled_outer (s : State) : s.pegEndStalled.outer = s.outer := by
  simp [State.pegEndStalled]

@[simp] theorem memPoison_outer (s : State) (r : WReq) : (s.memPoison r).outer = s.outer := by
  unfold State.memPoison; split <;> rfl

@[simp] theorem endReads_outer (s : State) : s.endReads.outer = s.outer := by
  have h (s : State) (a : Asleep) : (s.endWait a).outer = s.outer := by cases a <;> simp [State.endWait]
  simp [State.endReads, h]

@[simp] theorem testPreset_outer (s : State) (l : Nat) : (s.testPreset l).outer = s.outer := by
  unfold State.testPreset State.loadPreset State.putFfe; split <;> simp

@[simp] theorem serTo_outer (s : State) (p st : Nat) : (s.serTo p st).outer = s.outer := by
  unfold State.serTo; dsimp only
  split <;> split <;> split <;> split <;> simp

@[simp] theorem settlePort_outer (s : State) (p st : Nat) : (s.settlePort p st).outer = s.outer := by
  have h (s : State) : (s.portEnable p).outer = s.outer := by
    unfold State.portEnable; split
    · dsimp only; split
      · unfold State.calibrate; split <;> simp
      · simp
    · rfl
  unfold State.settlePort; split <;> simp [h]

@[simp] theorem leave_outer (s : State) (p r d : Nat) : (s.leave p r d).outer = s.outer := by
  unfold State.leave; dsimp only
  split
  · simp
  · split <;> simp

@[simp] theorem lanesOff_outer (s : State) (p r : Nat) : (s.lanesOff p r).outer = s.outer := by
  unfold State.lanesOff; split <;> simp

@[simp] theorem keepRegs_outer (s : State) : s.keepRegs.outer = s.outer := by
  simp [State.keepRegs]
  rfl

@[simp] theorem avsSend_outer (s : State) : s.avsSend.outer = s.outer := by
  refine foldS_outer _ (fun s i => ?_) _ _
  dsimp only; split <;> simp

/-- A device reset moves no pin and leaves the commands that wait. -/
@[simp] theorem deviceEntry_outer (s : State) (cause : Nat) : (s.deviceEntry cause).outer = s.outer := by
  unfold State.deviceEntry
  dsimp only
  rw [avsSend_outer]
  generalize hu : State.keepRegs _ = u
  have h : u.outer = s.outer := by simp [← hu]
  exact h

/-- WARM_RST_L that is asserted moves no other pin. -/
theorem warmAssert_outer (s : State) : s.warmAssert.outer = ({ s.pins with warm := true }, s.pending) := by
  have h : (s.modPins (fun b => { b with warm := true })).outer = ({ s.pins with warm := true }, s.pending) := rfl
  unfold State.warmAssert; dsimp only
  split
  · exact h
  · split
    · exact h
    · split
      · rw [deviceEntry_outer, h]
      · split <;> exact h

/-! ### The test port -/

/-- Two states differ at most in what the test port holds and sends, and in the free values used. -/
def State.tapOnly (s t : State) : Prop := t = { s with boot := t.boot, out := t.out, free := t.free }

theorem State.tapOnly.refl (s : State) : s.tapOnly s := rfl
theorem State.tapOnly.trans {s t u : State} (h : s.tapOnly t) (k : t.tapOnly u) : s.tapOnly u := by
  unfold State.tapOnly at *
  rw [k, h]

theorem tapOnly_jtagLoad (s : State) (i : Nat) : s.tapOnly (s.jtagLoad i) := by
  unfold State.jtagLoad
  split
  · rfl
  · dsimp only; split <;> split <;> rfl

theorem tapOnly_jtagOut (s : State) : s.tapOnly s.jtagOut := by
  unfold State.jtagOut
  split
  · rfl
  · split <;> rfl

theorem tapOnly_jtagSample (s : State) (pins preload : Nat) : s.tapOnly (s.jtagSample pins preload) := by
  unfold State.jtagSample
  split
  · rfl
  · exact (tapOnly_jtagLoad s 2).trans rfl

theorem tapOnly_jtag (s : State) (i : Nat) : s.tapOnly (s.jtagLoad i).jtagOut :=
  (tapOnly_jtagLoad s i).trans (tapOnly_jtagOut _)

/-- A command of the test port changes nothing but the port. -/
theorem exec_testPort (c : Instr) (s : State) (h : usesTestPort c = true) : ∃ t, exec c s = .next t ∧ s.tapOnly t := by
  cases c with
  | bypass => exact ⟨_, rfl, tapOnly_jtag s 0⟩
  | idcode => exact ⟨_, rfl, tapOnly_jtag s 1⟩
  | samplePreload a b => exact ⟨_, rfl, tapOnly_jtagSample s a b⟩
  | extest => exact ⟨_, rfl, tapOnly_jtag s 3⟩
  | highz => exact ⟨_, rfl, tapOnly_jtag s 4⟩
  | extestPulse => exact ⟨_, rfl, tapOnly_jtag s 5⟩
  | extestTrain => exact ⟨_, rfl, tapOnly_jtag s 6⟩
  | _ => cases h

/-! ### What every command keeps -/

/-- A command that is none of the pins' answers a state with the pins and the queue as they were; without power good it does nothing,
or it is the test port's and changes only the port. -/
theorem exec_of_not_pins (c : Instr) (s : State) (h : movesPins c = false) :
    ∃ t, exec c s = .next t ∧ t.outer = s.outer ∧
      (s.pins.pwrok = false → usesTestPort c = false → t = s) ∧ (s.pins.pwrok = false → s.tapOnly t) := by
  by_cases hn : needsRunning c = true
  · obtain ⟨f, hf⟩ := exec_running c s hn
    by_cases hl : s.live = true
    · refine ⟨_, hf.trans (running_live f hl), rfl, ?_, ?_⟩ <;> intro hp <;> simp [pwrok_of_live hl] at hp
    · exact ⟨s, hf.trans (running_idle f (by simpa using hl)), rfl, fun _ _ => rfl, fun _ => .refl s⟩
  by_cases ht : usesTestPort c = true
  · obtain ⟨t, he, hs⟩ := exec_testPort c s ht
    refine ⟨t, he, ?_, fun _ hf => absurd (ht.symm.trans hf) (by decide), fun _ => hs⟩
    rw [State.tapOnly] at hs
    rw [hs]; rfl
  · obtain ⟨f, hf⟩ := exec_powered c s h (by simpa using ht) (by simpa using hn)
    by_cases hp : s.pins.pwrok = true
    · refine ⟨_, hf.trans (powered_on f hp), rfl, ?_, ?_⟩ <;> intro hq <;> simp [hp] at hq
    · exact ⟨s, hf.trans (powered_off f (by simpa using hp)), rfl, fun _ _ => rfl, fun _ => .refl s⟩

theorem pinned_on {s : State} {f : State → State} (hp : (f s).pins.pwrok = true) : pinned s f = .next ((f s).settle (f s)) := by
  simp [pinned, hp]

theorem pinned_off {s : State} {f : State → State} (hp : (f s).pins.pwrok = false) : pinned s f = .next (f s) := by
  simp [pinned, hp]

theorem coldInv_of_pwrok {s : State} (h : s.pins.pwrok = true) : s.coldInv := fun hc => absurd (h.symm.trans hc) (by decide)

/-- A change of a pin, with what it starts, leaves the queue of commands, and keeps the device at reset without power good. -/
theorem pinned_keeps {s : State} {f : State → State} (hq : (f s).pending = s.pending) (hs : s.coldInv → (f s).coldInv) :
    ∃ t, pinned s f = .next t ∧ t.pending = s.pending ∧ (s.coldInv → t.coldInv) := by
  by_cases hp : (f s).pins.pwrok = true
  · exact ⟨_, pinned_on hp, hq, fun _ => coldInv_of_pwrok hp⟩
  · exact ⟨_, pinned_off (by simpa using hp), hq, hs⟩

theorem powered_keeps (s : State) (f : State → State) :
    ∃ t, powered s f = .next t ∧ t.pending = s.pending ∧ (s.coldInv → t.coldInv) := by
  by_cases hp : s.pins.pwrok = true
  · exact ⟨_, powered_on f hp, rfl, fun _ => coldInv_of_pwrok hp⟩
  · exact ⟨_, powered_off f (by simpa using hp), rfl, id⟩

theorem coldInv_modPins {s : State} {f : Pins → Pins} (hf : ∀ b, (f b).pwrok = b.pwrok) (hs : s.coldInv) : (s.modPins f).coldInv :=
  fun hp => hs ((hf s.pins).symm.trans hp)

theorem coldInv_warmAssert {s : State} (hs : s.coldInv) : s.warmAssert.coldInv := by
  by_cases hp : s.pins.pwrok = true
  · exact coldInv_of_pwrok ((congrArg (fun x => x.1.pwrok) (warmAssert_outer s)).trans hp)
  · have hw : s.warmAssert = s.modPins (fun b => { b with warm := true }) := by
      simp [State.warmAssert, State.modPins, hp]
    exact hw ▸ coldInv_modPins (fun _ => rfl) hs

theorem coldInv_perstPin {s : State} (h : Nat) (low : Bool) (hs : s.coldInv) : (s.perstPin h low).coldInv :=
  coldInv_modPins (fun _ => by split <;> rfl) hs

/-- A change of a pin leaves the commands that wait; without power good the device is at reset after it, where it was before. -/
theorem exec_of_pins (c : Instr) (s : State) (h : movesPins c = true) :
    ∃ t, exec c s = .next t ∧ t.pending = s.pending ∧ (s.coldInv → t.coldInv) := by
  cases c with
  | pwrokRise h a =>
    refine ⟨_, rfl, ?_, fun hs => ?_⟩
    · unfold State.pwrokRise; split <;> rfl
    · unfold State.pwrokRise; split
      · exact hs
      · exact coldInv_of_pwrok rfl
  | pwrokFall => exact ⟨_, rfl, rfl, fun _ _ => by simp [State.atReset, State.pwrokFall]⟩
  | warmRstLAssert => exact pinned_keeps (congrArg Prod.snd (warmAssert_outer s)) coldInv_warmAssert
  | warmRstLRelease => exact pinned_keeps rfl (coldInv_modPins (fun _ => rfl))
  | perstL k low =>
    obtain ⟨t, ht, hq, hc⟩ := powered_keeps (s.perstPin k.val low) (fun s => if low then s.hostReset k.val else s)
    exact ⟨t, ht, hq, fun hs => hc (coldInv_perstPin _ _ hs)⟩
  | trstL low => exact ⟨_, rfl, rfl, id⟩
  | _ => cases h

/-! ### The statements -/

/-- Settles O59: only the pins' commands move PWROK; without it a command changes at most the test port, and PWROK_FALL resets the rest. -/
theorem coldStaysCold : Obligations.ColdStaysCold := by
  intro s t hs ht
  cases hq : s.pending with
  | nil =>
    have h : step s = .next s := by simp [step, hq]
    cases h.symm.trans ht
    exact hs
  | cons c rest =>
    have h : step s = exec c { s with pending := rest } := by simp [step, hq]
    have hr : ({ s with pending := rest } : State).coldInv := hs
    rw [h] at ht
    by_cases hm : movesPins c = true
    · obtain ⟨u, hu, -, hc⟩ := exec_of_pins c { s with pending := rest } hm
      cases hu.symm.trans ht
      exact hc hr
    · obtain ⟨u, hu, ho, -, htap⟩ := exec_of_not_pins c { s with pending := rest } (by simpa using hm)
      cases hu.symm.trans ht
      intro hp
      have hp' : s.pins.pwrok = false := (congrArg (fun x => x.1.pwrok) ho).symm.trans hp
      have htap := htap hp'
      rw [State.tapOnly] at htap
      rw [htap]
      exact hr hp'

/-- Settles O57: every meaning is total, and a settled state keeps the pins and the queue of the state that the command found. -/
theorem everyCommandAnswers : Obligations.EveryCommandAnswers := by
  intro c s
  by_cases hm : movesPins c = true
  · obtain ⟨t, ht, hq, -⟩ := exec_of_pins c s hm
    exact ⟨t, ht, hq, fun h => absurd (hm.symm.trans h) (by decide)⟩
  · obtain ⟨t, ht, ho, -⟩ := exec_of_not_pins c s (by simpa using hm)
    exact ⟨t, ht, congrArg Prod.snd ho, fun _ => congrArg Prod.fst ho⟩

/-- Settles O58: the meaning of each command but the pins' and the test port's asks for power good, and an event's for a running device. -/
theorem nothingActsUnpowered : Obligations.NothingActsUnpowered := by
  intro c s
  refine ⟨fun hp hm ht => ?_, fun hl hn => ?_, fun hp hm => ?_⟩
  · obtain ⟨t, he, -, hs, -⟩ := exec_of_not_pins c s hm
    rw [he, hs hp ht]
  · obtain ⟨f, hf⟩ := exec_running c s hn
    rw [hf, running_idle f hl]
  · obtain ⟨t, he, -, -, hs⟩ := exec_of_not_pins c s hm
    refine ⟨t, he, ?_⟩
    have hs := hs hp
    rw [State.tapOnly] at hs
    rw [hs]
    exact ⟨rfl, rfl, rfl, rfl, rfl, rfl, rfl⟩

/-- Settles O55: `step` is a match on the queue. -/
theorem stepRunsTheFrontCommand : Obligations.StepRunsTheFrontCommand := by
  refine ⟨fun c s => rfl, fun s h => ?_⟩
  simp [step, h]

/-- Settles O56: every table of the state after reset is empty, so each field reads its reset value. -/
theorem resetLeavesTheDeviceCold : Obligations.ResetLeavesTheDeviceCold := by
  have hr : State.reset.atReset := by simp [State.atReset, State.reset]
  exact ⟨fun d inst i => ⟨rfl, rfl⟩, rfl, rfl, hr, fun _ => hr, rfl, rfl, rfl, rfl, rfl, rfl⟩
end Sys2Proof.Machine
end

section
/-! The pins, the sideband and the test port (15_reset_and_bringup.md, 16_signals_package_electrical.md). -/

namespace Sys2Proof.Machine

/-- What a command of a device with power good leaves, once its work is known. -/
theorem powered_eq {s t : State} {f : State → State} (h : s.pins.pwrok = true) (e : f s = t) : powered s f = .next (s.settle t) := by
  rw [powered_on f h, e]

/-- What a command of a running device leaves, once its work is known. -/
theorem running_eq {s t : State} {f : State → State} (h : s.live = true) (e : f s = t) : running s f = .next (s.settle t) := by
  rw [running_live f h, e]

section
variable {s : State} (hp : s.pins.pwrok = true) (hf : s.rd F.FMN_INFO.STATE = fmRunning ∨ s.rd F.FMN_INFO.STATE = fmRecovery)
include hp hf

theorem mctpOn_of_running : s.mctpOn = true := by
  rcases hf with h | h <;> simp [State.mctpOn, hp, h]
end

/-- The endpoint goes on answering while the pins and FMN_INFO.STATE stay. -/
theorem mctp_of_on {s t : State} (h : s.mctpOn = true) (dst cc : Nat) (data : List Nat) (hpins : t.pins = s.pins)
    (hst : t.rd F.FMN_INFO.STATE = s.rd F.FMN_INFO.STATE) : t.mctp dst cc data = t.emit (.mctpResp dst cc data) := by
  have ht : t.mctpOn = true := by simpa [State.mctpOn, hpins, hst] using h
  simp [State.mctp, ht]

theorem rd_wrFmn_ne (s : State) {d e : Fld} (v i : Nat) (h : e.lo ≠ d.lo) : (s.wrFmn d v).rd e i = s.rd e i :=
  foldS_keeps (fun t => t.rd e i) _ (fun t _ => rdI_wrI_ne t v (fun hk => h hk.2.1)) [0, 1, 2, 3] s


section
variable {s : State} (h : s.mctpOn = true)
include h

theorem setEid_of_bad {src eid : Nat} (he : eid = 0 ∨ 255 ≤ eid) : s.setEid src eid = s.emit (.mctpResp src 2 []) := by
  simp [State.setEid, h, he, State.mctp]

theorem setEid_of_ok {src eid : Nat} (h0 : 0 < eid) (h1 : eid < 255) :
    s.setEid src eid = (s.wrFmn F.FMN_INFO.EID eid).emit (.mctpResp src 0 [0, eid, 0]) := by
  have hm := mctp_of_on h src 0 [0, eid, 0] (t := s.wrFmn F.FMN_INFO.EID eid) rfl (rd_wrFmn_ne s _ _ (by decide))
  have hn : ¬ (eid = 0 ∨ 255 ≤ eid) := by omega
  simp [State.setEid, h, hn, hm]

theorem mctpVersions_of_on (src : Nat) :
    s.mctpVersions src = ((s.pick 256).2.pick (2 ^ (32 * (s.pick 256).1))).2.emit (.mctpResp src 0
      ((s.pick 256).1 :: (leBytes (4 * (s.pick 256).1) ((s.pick 256).2.pick (2 ^ (32 * (s.pick 256).1))).1).map (fun b => b.toNat))) := by
  have hm (d : List Nat) := mctp_of_on h src 0 d (t := ((s.pick 256).2.pick (2 ^ (32 * (s.pick 256).1))).2) rfl rfl
  simp [State.mctpVersions, h, hm]

theorem mctpVendor_of_zero (src : Nat) :
    s.mctpVendor src 0 = (s.pick 65536).2.emit (.mctpResp src 0
      [0xFF, 1, 0x00, 0xF1, 0xA0, 0xA1, (s.pick 65536).1 / 256, (s.pick 65536).1 % 256]) := by
  have hm (d : List Nat) := mctp_of_on h src 0 d (t := (s.pick 65536).2) rfl rfl
  simp [State.mctpVendor, h, hm]

theorem mctpVendor_of_pos {src sel : Nat} (hs : sel ≠ 0) : s.mctpVendor src sel = s.emit (.mctpResp src 2 []) := by
  simp [State.mctpVendor, h, hs, State.mctp]

end

/-! ### The test port -/

theorem jtagLoad_of_low {s : State} (h : s.pins.trstLow = true) (i : Nat) : (s.jtagLoad i).jtagOut = s := by
  simp [State.jtagLoad, State.jtagOut, h]

section
variable {s : State} (h : s.pins.trstLow = false)
include h

/-- BYPASS and the instructions that act as it shift out a zero. -/
theorem jtag_bypass {i : Nat} (hi : i = 0 ∨ (3 ≤ i ∧ s.pins.pwrok = true ∧ s.pins.warm = false)) :
    (s.jtagLoad i).jtagOut = { s with boot := { s.boot with jtag := 0 }, out := s.out ++ [.jtag 0 0] } := by
  rcases hi with rfl | ⟨hi, hp, hw⟩
  · simp [State.jtagLoad, State.jtagOut, h, State.modBoot, State.emit]
  · simp [State.jtagLoad, State.jtagOut, h, hi, hp, hw, State.modBoot, State.emit]

theorem jtag_idcode :
    (s.jtagLoad 1).jtagOut = { s with boot := { s.boot with jtag := 1 }, out := s.out ++ [.jtag 1 idcodeWord] } := by
  simp [State.jtagLoad, State.jtagOut, h, State.modBoot, State.emit]

theorem jtagSample_of_high (pins preload : Nat) :
    s.jtagSample pins preload = { s with boot := { s.boot with jtag := 2, bsr := preload }, out := s.out ++ [.jtag 2 pins] } := by
  simp [State.jtagSample, State.jtagLoad, h, State.modBoot, State.emit]

/-- EXTEST and its kin drive the pins from the boundary register, and shift out what it captured. -/
theorem jtag_drives {i : Nat} (hi : 3 ≤ i) (h4 : i ≠ 4) (hf : s.pins.pwrok = false ∨ s.pins.warm = true) :
    let u : State := { s with boot := { s.boot with jtag := i }, out := s.out ++ [.scanPins (some s.boot.bsr)] }
    (s.jtagLoad i).jtagOut = (u.pick (2 ^ Config.scanCells)).2.emit (.jtag i (u.pick (2 ^ Config.scanCells)).1) := by
  have hl : s.jtagLoad i = { s with boot := { s.boot with jtag := i }, out := s.out ++ [.scanPins (some s.boot.bsr)] } := by
    rcases hf with hf | hf <;> simp [State.jtagLoad, h, hi, h4, hf, State.modBoot, State.emit]
  intro u
  rw [hl]
  unfold State.jtagOut
  simp only [h, Bool.false_eq_true, if_false]
  split
  · omega
  · omega
  · omega
  · rfl

theorem jtag_highz (hf : s.pins.pwrok = false ∨ s.pins.warm = true) :
    (s.jtagLoad 4).jtagOut = { s with boot := { s.boot with jtag := 4 }, out := s.out ++ [.scanPins none, .jtag 4 0] } := by
  rcases hf with hf | hf <;> simp [State.jtagLoad, State.jtagOut, h, hf, State.modBoot, State.emit]

end

/-- Settles O54: each control message and each instruction is one branch of its meaning. -/
theorem sidebandAndTestPort : Obligations.SidebandAndTestPort := by
  intro s src
  refine ⟨fun hp hf => ?_, fun hp static dyn => ?_, ?_⟩
  · have hon := mctpOn_of_running hp hf
    refine ⟨fun eid => ⟨fun he => ?_, fun h0 h1 => ?_⟩, ?_, ?_, fun ty => ?_, fun sel => ⟨fun hs => ?_, fun hs => ?_⟩⟩
    · show powered s (fun s => s.setEid src eid) = _
      exact powered_eq hp (setEid_of_bad hon he)
    · show powered s (fun s => s.setEid src eid) = _
      exact powered_eq hp (setEid_of_ok hon h0 h1)
    · show powered s (fun s => s.getEid src) = _
      exact powered_eq hp (if_pos hon)
    · show powered s (fun s => s.mctpTypes src) = _
      exact powered_eq hp (if_pos hon)
    · show powered s (fun s => s.mctpVersions src) = _
      exact powered_eq hp (mctpVersions_of_on hon src)
    · show powered s (fun s => s.mctpVendor src sel) = _
      exact powered_eq hp (mctpVendor_of_pos hon hs)
    · subst hs
      show powered s (fun s => s.mctpVendor src 0) = _
      exact powered_eq hp (mctpVendor_of_zero hon src)
  · refine ⟨fun h => ?_, fun h => ⟨?_, ?_⟩, fun h => ?_⟩
    · show powered s (fun s => s.setDasa static dyn) = _
      refine powered_eq hp (if_neg ?_)
      rcases h with h | h <;> simp [h]
    · show powered s (fun s => s.setDasa s.staticAddr dyn) = _
      exact powered_eq hp (if_pos (by simp [hp, h]))
    · show powered s (fun s => s.entDaa dyn) = _
      exact powered_eq hp (if_pos (by simp [hp, h]))
    · show powered s (fun s => s.entDaa dyn) = _
      exact powered_eq hp (if_neg (by simp [h]))
  · refine ⟨fun h => ⟨?_, ?_, ?_⟩, fun h => ⟨?_, ?_, fun pins preload => ?_, fun hp hw => ?_, fun hf => ?_⟩, rfl, rfl⟩
    · exact congrArg _ (jtagLoad_of_low h 0)
    · exact congrArg _ (jtagLoad_of_low h 1)
    · exact congrArg _ (jtagLoad_of_low h 4)
    · exact congrArg _ (jtag_bypass h (.inl rfl))
    · exact congrArg _ (jtag_idcode h)
    · exact congrArg _ (jtagSample_of_high h pins preload)
    · have hb {i : Nat} (hi : 3 ≤ i) := jtag_bypass h (.inr ⟨hi, hp, hw⟩)
      exact ⟨congrArg _ (hb (by decide : 3 ≤ 3)), congrArg _ (hb (by decide : 3 ≤ 4)), congrArg _ (hb (by decide : 3 ≤ 5)),
        congrArg _ (hb (by decide : 3 ≤ 6))⟩
    · exact ⟨congrArg _ (jtag_drives h (by decide) (by decide) hf), congrArg _ (jtag_drives h (by decide) (by decide) hf),
        congrArg _ (jtag_drives h (by decide) (by decide) hf), congrArg _ (jtag_highz h hf)⟩

/-! ### Supplies and WARM_RST_L -/

theorem pwrokRise_of_off {s : State} (h : s.pins.pwrok = false) (hb a : Fin 4) :
    s.pwrokRise hb a = ({ s with pins := { s.pins with pwrok := true }, boot := { s.boot with hostBif := hb, smbAddr := a } } : State).wr
      F.GLB_BOOT_STATUS.PHASE phRom := by
  simp [State.pwrokRise, h, State.modPins, State.modBoot, Nat.mod_eq_of_lt]

/-- What comes when nothing is left to do, in a device that does not run. -/
theorem rest_of_not_live {s : State} (h : s.live = false) : s.rest = s.bistBegin.mbWaits := by simp [State.rest, h]

/-- The core supplies' targets are sent over AVSBus: nothing but the power unit and what leaves the device changes. -/
theorem avsSend_keeps {β : Type} (g : State → β) (h : ∀ s f o, g ((s.modPwr f).emit o) = g s) (s : State) : g s.avsSend = g s := by
  refine foldS_keeps g _ (fun s i => ?_) _ s
  dsimp only
  split
  · rfl
  · exact h _ _ _

/-- What a device reset leaves: its cause, phase RESET, and units at rest. -/
theorem deviceEntry_parts (s : State) :
    (s.deviceEntry 1).rd F.GLB_RESET_CAUSE.CAUSE = 1 ∧ (s.deviceEntry 1).phase = phReset ∧
      (s.deviceEntry 1).hif.ctx = [] ∧ (s.deviceEntry 1).peg = [] ∧ (s.deviceEntry 1).shadow = [] := by
  unfold State.deviceEntry
  dsimp only
  generalize State.keepRegs _ = u
  refine ⟨?_, ?_, ?_, ?_, ?_⟩
  · rw [avsSend_keeps (fun s => s.rd F.GLB_RESET_CAUSE.CAUSE) (fun _ _ _ => rfl)]
    change (((u.wr F.GLB_RESET_CAUSE.CAUSE 1).inc F.GLB_RESET_CAUSE.DEVICE_RESETS).wr F.GLB_BOOT_STATUS.PHASE phReset).rd
      F.GLB_RESET_CAUSE.CAUSE = 1
    rw [rd_wr_reg _ _ _ _ (by decide), State.inc, rd_wr_lo _ _ _ _ (by decide), rd_wr_same]
    rfl
  · rw [State.phase, avsSend_keeps (fun s => s.rd F.GLB_BOOT_STATUS.PHASE) (fun _ _ _ => rfl)]
    exact rd_wr_same _ F.GLB_BOOT_STATUS.PHASE 0 phReset
  · rw [avsSend_keeps (fun s => s.hif.ctx) (fun _ _ _ => rfl)]
    rfl
  · rw [avsSend_keeps (fun s => s.peg) (fun _ _ _ => rfl)]
  · rw [avsSend_keeps (fun s => s.shadow) (fun _ _ _ => rfl)]

/-- WARM_RST_L is asserted, and nothing else comes of it. -/
def State.warmPin (s : State) (on : Bool) : State := { s with pins := { s.pins with warm := on } }

/-- A held boot keeps the full image that was pushed (R422). -/
def State.bootHeld (s : State) : State :=
  ({ s with trs := { s.trs with pushed := if s.trs.pushed.isSome then s.trs.pushed else s.trs.cand, cand := none } } : State).wr
    F.GLB_BOOT_STATUS.PHASE phReset

/-- What WARM_RST_L does is a question of power good, the Spillway and the phase, which the pin does not change. -/
theorem warmAssert_eq (s : State) : s.warmAssert =
    if !s.pins.pwrok then s.warmPin true else if s.spill then s.warmPin true
    else if s.phase = phRunning then (s.warmPin true).deviceEntry 1
    else if s.phase = phBist ∨ s.phase = phLoad then (s.warmPin true).bootHeld else s.warmPin true := rfl

theorem warmAssert_of_off {s : State} (h : s.pins.pwrok = false) : s.warmAssert = s.warmPin true := by
  simp [warmAssert_eq, h]

theorem warmAssert_of_early {s : State} (h : s.spill = true ∨ s.phase = phReset ∨ s.phase = phRom ∨ s.phase = phFirmware) :
    s.warmAssert = s.warmPin true := by
  rcases h with h | h | h | h <;> simp [warmAssert_eq, h]

theorem warmAssert_of_live {s : State} (h : s.live = true) : s.warmAssert = (s.warmPin true).deviceEntry 1 := by
  obtain ⟨hp, hr, hs⟩ := (live_iff s).1 h
  simp [warmAssert_eq, hp, hr, hs]

theorem warmAssert_of_boot {s : State} (hp : s.pins.pwrok = true) (hs : s.spill = false) (h : s.phase = phBist ∨ s.phase = phLoad) :
    s.warmAssert = (s.warmPin true).bootHeld := by
  rcases h with h | h <;> simp [warmAssert_eq, hp, hs, h]

theorem not_live_of_phReset {s : State} (h : s.phase = phReset) : s.live = false := by simp [State.live, h]

/-- BIST begins in a device in RESET that nothing holds, once no port sends FENCE flits. -/
theorem bistBegin_of_reset {s : State} (hp : s.pins.pwrok = true) (hw : s.pins.warm = false) (hs : s.spill = false)
    (hr : s.phase = phReset) (hf : ¬ ∃ p : Port, s.lnkState p = lnkFencing) : s.bistBegin = s.wr F.GLB_BOOT_STATUS.PHASE phBist := by
  have hall : (List.range 64).all (fun p => s.lnkState p != lnkFencing) = true := by
    simp only [List.all_eq_true, List.mem_range, bne_iff_ne]
    exact fun p hlt he => hf ⟨⟨p, hlt⟩, he⟩
  simp [State.bistBegin, hp, hw, hs, hr, hall]

theorem bistBegin_of_fencing {s : State} (hf : ∃ p : Port, s.lnkState p = lnkFencing) : s.bistBegin = s := by
  obtain ⟨p, hf⟩ := hf
  have hall : (List.range 64).all (fun p => s.lnkState p != lnkFencing) = false := by
    rw [List.all_eq_false]
    exact ⟨p, List.mem_range.2 p.isLt, by simp [hf]⟩
  simp [State.bistBegin, hall]

/-- Settles O47: each pin's command, by power good, the Spillway and the phase. -/
theorem pinsBootAndReset : Obligations.PinsBootAndReset := by
  intro s
  refine ⟨⟨s.pwrokFall, rfl, rfl, ?_, rfl, rfl, rfl, rfl, rfl, rfl⟩, fun h a => ⟨fun hp => ?_, fun hp => ?_⟩, ?_, ?_⟩
  · simp [State.atReset, State.pwrokFall]
  · exact congrArg _ (if_pos hp)
  · exact congrArg _ (pwrokRise_of_off hp h a)
  · have run : exec .warmRstLAssert s = pinned s State.warmAssert := rfl
    have keep : s.warmAssert.pins.pwrok = s.pins.pwrok := congrArg (fun x => x.1.pwrok) (warmAssert_outer s)
    have on (hp : s.pins.pwrok = true) : exec .warmRstLAssert s = .next (s.warmAssert.settle s.warmAssert) :=
      run.trans (pinned_on (keep.trans hp))
    refine ⟨fun hp => ?_, fun hp h => ?_, fun hl => ⟨?_, deviceEntry_parts _⟩, fun hp hs h => ?_⟩
    · rw [run, pinned_off (keep.trans hp), warmAssert_of_off hp]
      rfl
    · rw [on hp, warmAssert_of_early h]
      rfl
    · rw [on (pwrok_of_live hl), warmAssert_of_live hl]
      rfl
    · rw [on hp, warmAssert_of_boot hp hs h]
      rfl
  · refine ⟨fun hp => ?_, fun hp => ?_, fun hp hs hr => ⟨fun hf => ?_, fun hf => ?_⟩⟩
    · exact pinned_off (f := State.warmRelease) hp
    · exact pinned_on (f := State.warmRelease) hp
    · exact (rest_of_not_live (s := s.warmPin false) (not_live_of_phReset hr)).trans
        (congrArg State.mbWaits (bistBegin_of_reset (s := s.warmPin false) hp rfl hs hr hf))
    · exact (rest_of_not_live (s := s.warmPin false) (not_live_of_phReset hr)).trans (congrArg State.mbWaits (bistBegin_of_fencing (s := s.warmPin false) hf))
end Sys2Proof.Machine
end

section
/-! Accesses to registers that are served (00_scope.md, R12, R13, R16): a command that is one write of a register, a read that is
performed, and one that is narrow or not aligned. -/

namespace Sys2Proof.Machine

/-- What a register that is served is. -/
theorem serves_parts {s : State} {who : Who} {r : Reg} {i : Nat} (h : s.serves who r i = true) :
    s.live = true ∧ s.resetting = false ∧ s.lies who r i = .reg r i ∧ s.regAbsent r = false ∧ s.unitBusy (unitOfGroup r.place.blk) = false ∧
      s.locGated (.reg r i) = false := by
  simp only [State.serves, Bool.and_eq_true, Bool.not_eq_true', decide_eq_true_eq] at h
  obtain ⟨⟨⟨⟨⟨⟨hl, hr⟩, hp⟩, ha⟩, hb⟩, hg⟩, -⟩ := h
  exact ⟨hl, hr, hp, ha, hb, hg⟩

theorem serves_fn {s : State} {f : Fn} {r : Reg} {i : Nat} (h : s.serves (.fn f) r i = true) :
    s.hostAnswers f = true ∧ s.postedCredit = true ∧ s.linkAsleep f = false ∧ s.sleeps f (.reg r i) = false := by
  obtain ⟨-, -, -, -, -, hg⟩ := serves_parts h
  simp only [State.serves, Bool.and_eq_true, Bool.not_eq_true'] at h
  obtain ⟨-, ⟨hf, hc⟩, hz⟩ := h
  exact ⟨hf, hc, hz, by simp [State.sleeps, hz, hg]⟩

theorem readable_of_live {s : State} (h : s.live = true) (r : Reg) : s.readable r = true := by
  simp [State.readable, spill_of_live h, not_resetting_of_live h]

/-- A read that is narrow, or not aligned, of a register that is served (R12). -/
theorem fnRead_narrow {s : State} {f : Fn} {r : Reg} {i : Nat} (z g : State → State) (h : s.serves (.fn f) r i = true) :
    s.fnRead f r false z g = z (s.raise .REG_ACCESS) := by
  simp [State.fnRead, (serves_fn h).1, State.locBad, readable_of_live (live_of_serves h)]

/-- One occurrence is no second CFG_REJECT. -/
theorem onceReject_one (a : Act) : onceReject false [a] = [a] := by
  cases a <;> simp [onceReject]

theorem rejectOnce_of_one {s t : State} {a : Act} (h : t.acts = s.acts ++ [a]) : s.rejectOnce t = t :=
  rejectOnce_of_append [a] h (onceReject_one a)

/-- A command that is one write of a served register ends with what the write leaves. -/
theorem regCmd_exec {s t : State} {who : Who} {r : Reg} {i w : Nat} (h : s.serves who r i = true) (e : s.writeReg who r i w = t) :
    powered s (fun s => s.regCmd who r i w) = .next (s.settle t) :=
  powered_eq (pwrok_of_live (live_of_serves h)) ((regCmd_of_serves w h).trans e)

end Sys2Proof.Machine
end

section
/-! Pegs (11_pegs.md): reads that take or try, writes that release, watch and cancel, the supervisor's commands. -/

namespace Sys2Proof.Machine

/-! ### Reads and writes of the Peg registers -/

theorem pegRead_of_serves {s : State} {f : Fn} {j : Nat} (try' : Bool) (h : s.serves (.fn f) (if try' then .PEG_TRY else .PEG_TAKE) j = true) :
    s.pegRead f j try' true = if try' then s.pegTry f j else s.pegTake f j := by
  obtain ⟨-, -, -, hz⟩ := serves_fn h
  simp only [State.pegRead, hz, Bool.and_false, Bool.false_eq_true, if_false]
  exact fnRead_of_serves _ _ h

theorem pegRead_narrow {s : State} {f : Fn} {j : Nat} (try' : Bool) (h : s.serves (.fn f) (if try' then .PEG_TRY else .PEG_TAKE) j = true) :
    s.pegRead f j try' false = (s.raise .REG_ACCESS).emit (.pegValue f j 0) := by
  obtain ⟨-, -, -, hz⟩ := serves_fn h
  simp only [State.pegRead, hz, Bool.and_false, Bool.false_eq_true, if_false]
  exact fnRead_narrow _ _ h

theorem writeReg_pegRelease (s : State) (f : Fn) (j : Nat) :
    s.writeReg (.fn f) .PEG_RELEASE j 1 = s.rejectOnce (s.pegRelease f j) := rfl

theorem writeReg_pegWatch (s : State) (f : Fn) (j : Nat) :
    s.writeReg (.fn f) .PEG_WATCH j 1 = s.rejectOnce (s.pegWatch f j) := rfl

theorem writeReg_pegCancel (s : State) (f : Fn) (j : Nat) :
    s.writeReg (.fn f) .PEG_WATCH j 2 = s.rejectOnce (s.pegCancel f j) := rfl

theorem writeReg_pegForce {s : State} {pf : Fin 4} {cmd i : Nat} (hc : cmd = 1 ∨ cmd = 2) (hi : i < 4096) :
    s.writeReg (.fn (.pf pf)) .PEG_FORCE 0 (i % 4096 * 65536 + cmd) = s.rejectOnce (s.pegForce pf cmd i) := by
  have hcmd : (i % 4096 * 65536 + cmd) % 16 = cmd := by omega
  have hidx : bits (i % 4096 * 65536 + cmd) 16 12 = i := by simp only [bits]; omega
  show s.rejectOnce (s.command false ((i % 4096 * 65536 + cmd) % 16) 15
    (fun s => s.pegForce pf ((i % 4096 * 65536 + cmd) % 16) (bits (i % 4096 * 65536 + cmd) 16 12))) = _
  rw [hcmd, hidx]
  rcases hc with rfl | rfl <;> rfl

/-! ### Taking and waiting -/

theorem take_of_free (g : Nat) (ab fo room : Bool) (o : Nat) :
    PegSt.take ⟨none, g, ab, fo, []⟩ o room =
      .now (pegWord 1 ab fo o 0 ((g + 1) % 2 ^ 32)) ⟨some o, (g + 1) % 2 ^ 32, false, false, []⟩ := rfl

theorem take_of_held {p : PegSt} {h o : Nat} (hh : p.holder = some h) (ho : h ≠ o) : p.take o true = .queue := by
  simp [PegSt.take, hh, ho]

theorem heldWord_of_holder {p : PegSt} {h : Nat} (hh : p.holder = some h) : p.heldWord = pegWord 2 false false h 0 p.grants := by
  simp [PegSt.heldWord, hh]

/-- A waiter that may stall may watch. -/
theorem pegRoom_watch {s : State} (h : s.pegRoom true = true) : s.pegRoom false = true := by
  simp only [State.pegRoom, Bool.and_eq_true] at h
  simp only [State.pegRoom, h.1, Bool.not_false, Bool.true_or, Bool.and_self]

section
variable {s : State} {f : Fn} {j i : Nat} (he : s.en uPEG = true) (ho : s.pegOf f j = some i) (hr : s.pegReach f i = true)
include he ho hr

/-- A take by a function without a waiter is granted where the Peg is. -/
theorem pegTake_of_now {w : Nat} {p : PegSt} (hw : (s.pg i).waiters.find? (fun w => w.1 == f) = none)
    (ht : (s.pg i).take (fnOwner f) (s.pegRoom true) = .now w p) : s.pegTake f j = (s.setPg i p).emit (.pegValue f j w) := by
  simp [State.pegTake, he, ho, hr, hw, ht]

/-- A take by a function without a waiter stalls where it must queue. -/
theorem pegTake_of_queue (hw : (s.pg i).waiters.find? (fun w => w.1 == f) = none)
    (ht : (s.pg i).take (fnOwner f) (s.pegRoom true) = .queue) :
    s.pegTake f j = s.setPg i { s.pg i with waiters := (s.pg i).waiters ++ [(f, true)] } := by
  simp [State.pegTake, he, ho, hr, hw, ht]

theorem pegTry_eq : s.pegTry f j = (s.pegTryBy (fnOwner f) i).2.emit (.pegValue f j (s.pegTryBy (fnOwner f) i).1) := by
  simp [State.pegTry, he, ho, hr]

theorem pegWatch_of_held {h : Nat} (hen : s.pegWatchEn f = true) (hh : (s.pg i).holder = some h) (hne : h ≠ fnOwner f)
    (hw : (s.pg i).waiters.any (fun w => w.1 == f) = false) (hroom : s.pegRoom false = true) :
    s.pegWatch f j = s.setPg i { s.pg i with waiters := (s.pg i).waiters ++ [(f, false)] } := by
  simp [State.pegWatch, he, ho, hr, hen, hw, hroom, take_of_held hh hne]

end

/-- Settles O40: a free Peg is granted by what it answers, one that another holds puts the reader or the watch in its queue. -/
theorem pegsAreTakenAndAwaited : Obligations.PegsAreTakenAndAwaited := by
  refine ⟨fun s f j i g ab fo he ho hr hp => ?_, fun s f j i h p he ho hr hp hh hne hw hroom => ?_, fun s f j i hv ho => ?_⟩
  · intro t narrow
    have htake : s.pegTake f j = t := by
      exact pegTake_of_now he ho hr (by rw [hp]; rfl) (by rw [hp, take_of_free])
    have htry : s.pegTry f j = t := by
      rw [pegTry_eq he ho hr, State.pegTryBy, hp, take_of_free]
      simp [he, t]
    refine ⟨fun hv => ⟨?_, ?_⟩, fun hv => ⟨?_, ?_⟩⟩
    · show powered s (fun s => s.pegRead f j false true) = _
      exact powered_eq (pwrok_of_live (live_of_serves hv)) ((pegRead_of_serves false hv).trans htake)
    · show powered s (fun s => s.pegRead f j false false) = _
      exact powered_eq (pwrok_of_live (live_of_serves hv)) (pegRead_narrow false hv)
    · show powered s (fun s => s.pegRead f j true true) = _
      exact powered_eq (pwrok_of_live (live_of_serves hv)) ((pegRead_of_serves true hv).trans htry)
    · show powered s (fun s => s.pegRead f j true false) = _
      exact powered_eq (pwrok_of_live (live_of_serves hv)) (pegRead_narrow true hv)
  · subst hp
    have hfind : (s.pg i).waiters.find? (fun w => w.1 == f) = none := by simpa using hw
    refine ⟨fun hv => ?_, fun hv => ?_, fun hv hen => ?_⟩
    · show powered s (fun s => s.pegRead f j false true) = _
      exact powered_eq (pwrok_of_live (live_of_serves hv)) ((pegRead_of_serves false hv).trans
        (pegTake_of_queue he ho hr hfind (by rw [hroom, take_of_held hh hne])))
    · show powered s (fun s => s.pegRead f j true true) = _
      refine powered_eq (pwrok_of_live (live_of_serves hv)) ((pegRead_of_serves true hv).trans ?_)
      simp [pegTry_eq he ho hr, State.pegTryBy, he, hroom, take_of_held hh hne, heldWord_of_holder hh]
    · refine regCmd_exec hv ?_
      rw [writeReg_pegWatch, pegWatch_of_held he ho hr hen hh hne (by simpa using hw) (pegRoom_watch hroom)]
      exact rejectOnce_of_acts rfl
  · refine regCmd_exec hv ?_
    rw [writeReg_pegCancel, State.pegCancel, ho]
    exact rejectOnce_of_acts rfl

/-! ### Handing on -/

theorem pegReleaseBy_of_owner {s : State} {o i : Nat} (h : (s.pg i).holder = some o) : s.pegReleaseBy o i = s.pegFree i := if_pos h
theorem pegReleaseBy_of_other {s : State} {o i : Nat} (h : (s.pg i).holder ≠ some o) : s.pegReleaseBy o i = s.raise .PEG_NOT_OWNER :=
  if_neg h

theorem pegRelease_eq {s : State} {f : Fn} {j i : Nat} (ho : s.pegOf f j = some i) (hr : s.pegReach f i = true) :
    s.pegRelease f j = s.pegReleaseBy (fnOwner f) i := by
  simp [State.pegRelease, ho, hr]

/-- A Peg that nobody waits for is free when it is freed. -/
theorem pegFree_of_empty {s : State} {i : Nat} (h : (s.pg i).waiters = []) : s.pegFree i = s.setPg i { s.pg i with holder := none } :=
  pegHand_of_empty (by rw [pg_setPg]; exact h)

/-- A stalled read at the head of the queue gets the Peg that is freed. -/
theorem pegFree_of_stalled {s : State} {i : Nat} {f : Fn} {r : List (Fn × Bool)} (h : (s.pg i).waiters = (f, true) :: r) :
    let g := ((s.pg i).grants + 1) % 2 ^ 32
    let t := (s.setPg i { s.pg i with holder := none }).setPg i ⟨some (fnOwner f), g, false, false, r⟩
    s.pegFree i = t.emit (.pegValue f (s.pegLocal f i) (pegWord 1 (s.pg i).abandoned (s.pg i).forced (fnOwner f) 0 g)) := by
  intro g t
  rw [State.pegFree, pegHand_of_stalled (by rw [pg_setPg]; exact h), pg_setPg, pegLocal_setPg, pegLocal_setPg]

/-- Settles O41: a release frees the Peg and hands it to the stalled read at the head; STALL_LIMIT turns a read to a watch, or ends it. -/
theorem pegsAreHandedOn : Obligations.PegsAreHandedOn := by
  refine ⟨fun s f j i p hv _ ho hr hp => ?_, fun s f j i p hl ho hp hw => ⟨fun hen => ?_, fun hen => ?_⟩⟩
  · subst hp
    have run (t : State) (l : List Act) (e : s.pegReleaseBy (fnOwner f) i = t) (ha : t.acts = s.acts ++ l)
        (hl : onceReject false l = l) : exec (.pegRelease f j) s = .next (s.settle t) := by
      refine regCmd_exec hv ?_
      rw [writeReg_pegRelease, pegRelease_eq ho hr, e]
      exact rejectOnce_of_append l ha hl
    refine ⟨fun hn => ?_, fun hh hw => ?_, fun g r hh hw => ?_⟩
    · exact run _ _ (pegReleaseBy_of_other hn) rfl (onceReject_one _)
    · exact run _ [] ((pegReleaseBy_of_owner hh).trans (pegFree_of_empty hw)) (List.append_nil _).symm rfl
    · refine ⟨_, run _ [] ((pegReleaseBy_of_owner hh).trans (pegFree_of_stalled hw)) (List.append_nil _).symm rfl, ?_, ?_, fun k hk => ?_⟩
      · rw [pg_emit, pg_setPg]
      · rfl
      · rw [pg_emit, pg_setPg_ne _ _ hk, pg_setPg_ne _ _ hk]
  · subst hp
    show running s (fun s => s.pegStallLimit f j) = _
    exact running_eq hl (by simp [State.pegStallLimit, ho, hw, hen])
  · subst hp
    show running s (fun s => s.pegStallLimit f j) = _
    exact running_eq hl (by simp [State.pegStallLimit, ho, hw, hen, PegSt.timeoutWord])

/-! ### The supervisor -/

theorem setPg_setPg (s : State) (i : Nat) {p q : PegSt} (hp : p ≠ .init) (hq : q ≠ .init) : (s.setPg i p).setPg i q = s.setPg i q := by
  simp [State.setPg, tabSet, hp, hq]

/-- The mark of a force keeps the Peg's entry in the table, so the release after it is one change. -/
theorem pegForceRelease_of_held {s : State} {i h : Nat} (hh : (s.pg i).holder = some h) (hw : (s.pg i).waiters = []) :
    s.pegForceRelease i = ((s.inc F.PEG_COUNT.FORCED).raise .PEG_FORCED).setPg i { s.pg i with holder := none, forced := true } := by
  have hsome : (((s.inc F.PEG_COUNT.FORCED).raise .PEG_FORCED).pg i).holder.isSome = true := by simp [hh]
  have hmark : ∀ p : PegSt, p.forced = true → p ≠ .init := fun p hp he => by rw [he] at hp; cases hp
  unfold State.pegForceRelease
  dsimp only
  rw [pg_setPg, if_pos hsome, pegFree_of_empty (by rw [pg_setPg]; simpa using hw), pg_setPg,
    setPg_setPg _ _ (hmark _ rfl) (hmark _ rfl)]
  rfl

theorem pegForce_of_supervisor {s : State} {pf i : Nat} (h : bit (s.rd F.PEG_SUPERVISOR.MASK) pf = true) :
    s.pegForce pf 1 i = s.pegForceRelease i ∧ s.pegForce pf 2 i = s.pegFlushWaiters i := by
  simp [State.pegForce, h]

theorem pegFlushWaiters_of_stalled {s : State} {i : Nat} {g : Fn} (hw : (s.pg i).waiters = [(g, true)]) :
    s.pegFlushWaiters i = (s.setPg i { s.pg i with waiters := [] }).emit (.pegValue g (s.pegLocal g i) (s.pg i).timeoutWord) := by
  simp [State.pegFlushWaiters, hw, foldS, pegLocal_setPg]

/-- Settles O42: what a supervisor's command does to the Peg is one change of its entry. -/
theorem pegSupervisorActs : Obligations.PegSupervisorActs := by
  intro s pf i p hv hb hi hp
  subst hp
  refine ⟨fun h hh hw => regCmd_exec hv ?_, fun g hw => regCmd_exec hv ?_⟩
  · rw [writeReg_pegForce (.inl rfl) hi, (pegForce_of_supervisor hb).1, pegForceRelease_of_held hh hw]
    exact rejectOnce_of_one rfl
  · rw [writeReg_pegForce (.inr rfl) hi, (pegForce_of_supervisor hb).2, pegFlushWaiters_of_stalled hw]
    exact rejectOnce_of_acts rfl

end Sys2Proof.Machine
end

section
/-! A register write field by field (00_scope.md, R13, R16 to R19, R447), and the writes that are not performed (R9, R12, R385, R393,
R411, R420). -/

namespace Sys2Proof.Machine

/-! ### One cell -/

theorem Reg.code_inj {a b : Reg} (h : a.code = b.code) : a = b := by
  have hc : a.ctorIdx = b.ctorIdx := h
  rw [← Reg.ofNat_ctorIdx a, hc, Reg.ofNat_ctorIdx]

/-- The value in effect and the shadow value of a field. -/
def State.cell (s : State) (d : Fld) (a i : Nat) : Nat × Nat := (s.rdI d a i, s.shadowI d a i)

theorem cell_wrI_ne (s : State) {d e : Fld} {a i b j : Nat} (x : Nat) (h : fkey e b j ≠ fkey d a i) :
    (s.wrI d a i x).cell e b j = s.cell e b j := by
  have hr : (s.wrI d a i x).rdI e b j = s.rdI e b j := tabGetD_set_ne s.regs _ _ _ h
  simp only [State.cell, State.shadowI, hr]
  rfl

theorem cell_stageI_ne (s : State) {d e : Fld} {a i b j : Nat} (x : Nat) (h : fkey e b j ≠ fkey d a i) :
    (s.stageI d a i x).cell e b j = s.cell e b j := by
  have hs : tabGet (s.stageI d a i x).shadow (fkey e b j) = tabGet s.shadow (fkey e b j) := tabGet_put_ne s.shadow _ h
  simp only [State.cell, State.shadowI, hs]
  rfl

theorem cell_stageI_same (s : State) (d : Fld) (a i x : Nat) : (s.stageI d a i x).cell d a i = (s.rdI d a i, x % 2 ^ d.w) := by
  have hs : tabGet (s.stageI d a i x).shadow (fkey d a i) = some ⟨d, a, i, x % 2 ^ d.w⟩ := tabGet_put_same s.shadow _ _
  simp only [State.cell, State.shadowI, hs]
  rfl

/-! ### One field of a plain register -/

/-- What a write does to one field of a register that has no row of its own, judged on the state `s0` that the write met. -/
def State.plainField (s0 : State) (who : Who) (inst i w : Nat) (s : State) (d : Fld) : State :=
  let v := bits w d.lo d.w
  match d.acc with
  | .RW =>
    if v = s0.heldVal d inst i ∨ s0.fieldBad who d i v w = true then s
    else if d.cls = .B then s.stageI d inst i v else s.wrI d inst i v
  | .RW1C => if v = 0 then s else s.wrI d inst i (s.rdI d inst i - (s.rdI d inst i &&& v))
  | _ => s

/-- An RW field that a write would change is refused. -/
def State.refusesField (s0 : State) (who : Who) (inst i w : Nat) (d : Fld) : Bool :=
  d.acc == .RW && bits w d.lo d.w != s0.heldVal d inst i && s0.fieldBad who d i (bits w d.lo d.w) w

theorem fields_reg {r : Reg} {d : Fld} (h : d ∈ r.fields) : d.reg = r := by
  have all : ∀ d ∈ r.fields, d.reg = r := by cases r <;> decide
  exact all d h

/-- The registers with a row of their own. -/
theorem plain_parts {r : Reg} (h : r.plain = true) :
    r ≠ .SER_PORT_CTRL ∧ r ≠ .GLB_BOOT_CTRL ∧ r ≠ .FLT_RICH_META ∧ r ≠ .HIF_EQ_CFG ∧ r ≠ .HIF_EQ_DB ∧ ∀ d ∈ r.fields, d.isEnable = false := by
  simp only [Reg.plain, Bool.and_eq_true, Bool.not_eq_true', List.all_eq_true] at h
  obtain ⟨hr, he⟩ := h
  refine ⟨?_, ?_, ?_, ?_, ?_, he⟩ <;> rintro rfl <;> cases hr

theorem putL_plain {d : Fld} (s : State) (inst i v : Nat) (he : d.isEnable = false) (h1 : d.reg ≠ .SER_PORT_CTRL) (h2 : d.reg ≠ .GLB_BOOT_CTRL) :
    s.putL d inst i v = s.wrI d inst i v := by
  unfold State.putL
  simp only [he, Bool.false_eq_true, if_false]

/-- A field of a plain register takes its bits by its class, and nothing else happens. -/
theorem putField_plain {r : Reg} (h : r.plain = true) {d : Fld} (hd : d ∈ r.fields) (s0 : State) (who : Who) (inst i w : Nat)
    (a : State × Bool) :
    s0.putField who inst i w a d = (s0.plainField who inst i w a.1 d, a.2 || s0.refusesField who inst i w d) := by
  obtain ⟨h1, h2, h3, -, -, he⟩ := plain_parts h
  have hr := fields_reg hd
  unfold State.putField State.plainField State.refusesField
  cases hacc : d.acc with
  | RW =>
    by_cases hv : bits w d.lo d.w = s0.heldVal d inst i
    · simp [hv]
    · by_cases hb : s0.fieldBad who d i (bits w d.lo d.w) w = true
      · simp [hv, hb]
      · by_cases hc : d.cls = .B
        · simp [hv, hb, hc]
        · simp [hv, hb, hc, putL_plain _ _ _ _ (he d hd) (hr ▸ h1) (hr ▸ h2)]
  | RW1C =>
    by_cases hv : bits w d.lo d.w = 0
    · simp [hv, show (Acc.RW1C == Acc.RW) = false from rfl]
    · simp [hv, hr, h3, show (Acc.RW1C == Acc.RW) = false from rfl]
  | RO => simp [show (Acc.RO == Acc.RW) = false from rfl]
  | WO => simp [show (Acc.WO == Acc.RW) = false from rfl]
  | TR => simp [show (Acc.TR == Acc.RW) = false from rfl]

theorem foldl_putField_plain {r : Reg} (h : r.plain = true) (s0 : State) (who : Who) (inst i w : Nat) (l : List Fld)
    (hl : ∀ d ∈ l, d ∈ r.fields) (a : State × Bool) :
    l.foldl (s0.putField who inst i w) a =
      (l.foldl (s0.plainField who inst i w) a.1, a.2 || l.any (s0.refusesField who inst i w)) := by
  induction l generalizing a with
  | nil => simp
  | cons d l ih =>
    rw [List.foldl_cons, putField_plain h (hl d List.mem_cons_self), ih (fun e he => hl e (List.mem_cons_of_mem _ he))]
    simp [Bool.or_assoc]

/-- A write to a register that has no row of its own is the write of its fields. -/
theorem writeReg_plain {s : State} {who : Who} {r : Reg} {i w : Nat} (h : r.plain = true)
    (ho : (s.unusedOut r i || s.ringOut who r i) = false) :
    s.writeReg who r i w = s.rejectOnce (rejectIf (r.fields.foldl (s.plainField who (s.cellOf who r i).1 (s.cellOf who r i).2 w) s,
      r.fields.any (s.refusesField who (s.cellOf who r i).1 (s.cellOf who r i).2 w))) := by
  have hp : s.putFields who r (s.cellOf who r i).1 (s.cellOf who r i).2 w =
      (r.fields.foldl (s.plainField who (s.cellOf who r i).1 (s.cellOf who r i).2 w) s,
        r.fields.any (s.refusesField who (s.cellOf who r i).1 (s.cellOf who r i).2 w)) := by
    rw [State.putFields, foldl_putField_plain h _ _ _ _ _ _ (fun _ hd => hd), if_neg (plain_parts h).2.2.2.1]
    simp
  rw [← hp]
  unfold State.writeReg
  simp only [ho, Bool.false_eq_true, if_false]
  split
  any_goals cases h
  rfl

/-- A register that is out of use keeps what it holds. -/
theorem writeReg_out {s : State} {who : Who} {r : Reg} {i w : Nat} (h : r.plain = true)
    (ho : (s.unusedOut r i || s.ringOut who r i) = true) :
    s.writeReg who r i w = if w % 2 ^ 64 = 0 then s else s.raise .CFG_REJECT := by
  have hd : (r != .HIF_EQ_DB) = true := by simpa using (plain_parts h).2.2.2.2.1
  unfold State.writeReg
  simp only [ho, if_true, hd, Bool.and_true, decide_eq_true_eq]
  split
  · exact rejectOnce_of_acts rfl
  · exact rejectOnce_of_one rfl

/-! ### What the fields hold afterwards -/

section
variable {s0 : State} {who : Who} {inst i w : Nat}

theorem plainField_acts (s : State) (d : Fld) : (s0.plainField who inst i w s d).acts = s.acts := by
  unfold State.plainField
  dsimp only
  split
  · split
    · rfl
    · split <;> rfl
  · split <;> rfl
  · rfl

/-- A field that is written changes its own cell alone. -/
theorem cell_plainField_ne (s : State) {d e : Fld} {b j : Nat} (h : fkey e b j ≠ fkey d inst i) :
    (s0.plainField who inst i w s d).cell e b j = s.cell e b j := by
  unfold State.plainField
  dsimp only
  split
  · split
    · rfl
    · split
      · exact cell_stageI_ne s _ h
      · exact cell_wrI_ne s _ h
  · split
    · rfl
    · exact cell_wrI_ne s _ h
  · rfl

/-- The fields of a list leave a cell that is none of theirs. -/
theorem cell_foldl_plainField_ne (l : List Fld) (s : State) {e : Fld} {b j : Nat} (h : ∀ d ∈ l, fkey e b j ≠ fkey d inst i) :
    (l.foldl (s0.plainField who inst i w) s).cell e b j = s.cell e b j :=
  List.foldlRecOn (motive := fun t : State => t.cell e b j = s.cell e b j) l _ rfl
    (fun _ ht d hd => (cell_plainField_ne _ (h d hd)).trans ht)

/-- A field of a register meets its cell as the write found it, and no field after it changes the cell. -/
theorem cell_foldl_plainField {r : Reg} {d : Fld} (hd : d ∈ r.fields) (s : State) :
    ∃ t : State, t.cell d inst i = s.cell d inst i ∧
      (r.fields.foldl (s0.plainField who inst i w) s).cell d inst i = (s0.plainField who inst i w t d).cell d inst i := by
  obtain ⟨l1, l2, hl⟩ := List.append_of_mem hd
  have hne : ∀ e ∈ l1 ++ l2, fkey d inst i ≠ fkey e inst i := by
    intro e he hk
    have hnd := reg_lo_nodup r
    rw [hl, List.map_append, List.map_cons, List.nodup_middle, List.nodup_cons] at hnd
    exact hnd.1 ((fkey_inj hk).2.1 ▸ (List.map_append ▸ List.mem_map_of_mem he))
  refine ⟨l1.foldl (s0.plainField who inst i w) s, cell_foldl_plainField_ne l1 s (fun e he => hne e (List.mem_append_left _ he)), ?_⟩
  rw [hl, List.foldl_append, List.foldl_cons]
  exact cell_foldl_plainField_ne l2 _ (fun e he => hne e (List.mem_append_right _ he))

end

/-! ### The write of a plain register -/

/-- A whole write by a function, without a parity error, to a register that is served to it. -/
theorem registerWrite_exec {s t : State} {f : Fn} {r : Reg} {i w : Nat} (h : s.serves (.fn f) r i = true)
    (e : s.writeReg (.fn f) r i w = t) : exec (.registerWrite f .bar0 (regOffset (.fn f) r i) 8 w 0) s = .next (s.settle t) := by
  have run : s.registerWrite f .bar0 (regOffset (.fn f) r i) 8 w 0 = s.regCmd (.fn f) r i w := by
    simp [State.registerWrite, (serves_fn h).1, State.regCmd, State.busWrite]
  change powered s (fun s => s.registerWrite f .bar0 (regOffset (.fn f) r i) 8 w 0) = _
  exact powered_eq (pwrok_of_live (live_of_serves h)) (run.trans ((regCmd_of_serves w h).trans e))

section
variable {s0 : State} {who : Who} {inst i w : Nat} {d : Fld} (s : State)

theorem cell_plainField_held (ha : d.acc = .RW) (h : bits w d.lo d.w = s0.heldVal d inst i ∨ s0.refusesField who inst i w d = true) :
    (s0.plainField who inst i w s d).cell d inst i = s.cell d inst i := by
  have hc : bits w d.lo d.w = s0.heldVal d inst i ∨ s0.fieldBad who d i (bits w d.lo d.w) w = true := by
    refine h.imp_right fun hr => ?_
    simp only [State.refusesField, Bool.and_eq_true] at hr
    exact hr.2
  simp [State.plainField, ha, hc]

/-- A value that an RW field does not hold, and that is not refused, is taken. -/
theorem plainField_takes (ha : d.acc = .RW) (hv : bits w d.lo d.w ≠ s0.heldVal d inst i) (hr : s0.refusesField who inst i w d = false) :
    s0.plainField who inst i w s d =
      if d.cls = .B then s.stageI d inst i (bits w d.lo d.w) else s.wrI d inst i (bits w d.lo d.w) := by
  have hb : s0.fieldBad who d i (bits w d.lo d.w) w = false := by
    simpa [State.refusesField, ha, hv] using hr
  simp [State.plainField, ha, hv, hb]

theorem plainField_clears (ha : d.acc = .RW1C) (hv : bits w d.lo d.w ≠ 0) :
    s0.plainField who inst i w s d = s.wrI d inst i (s.rdI d inst i - (s.rdI d inst i &&& bits w d.lo d.w)) := by
  simp [State.plainField, ha, hv]

theorem plainField_rests (h : (d.acc ≠ .RW ∧ d.acc ≠ .RW1C) ∨ (d.acc = .RW1C ∧ bits w d.lo d.w = 0)) :
    s0.plainField who inst i w s d = s := by
  obtain ⟨h1, h2⟩ | ⟨ha, hv⟩ := h
  · unfold State.plainField
    dsimp only
    split
    · contradiction
    · contradiction
    · rfl
  · simp [State.plainField, ha, hv]
end

/-- Settles O1: each field is judged on the state that the write met, and the fields of a register have cells of their own. -/
theorem writesGoFieldByField : Obligations.WritesGoFieldByField := by
  intro s f r i w h hp
  dsimp only
  refine ⟨fun ho => registerWrite_exec h (writeReg_out hp ho), fun ho => ?_⟩
  generalize hi : (s.cellOf (.fn f) r i).1 = inst
  generalize hn : (s.cellOf (.fn f) r i).2 = n
  have hw := writeReg_plain (w := w) hp ho
  rw [hi, hn] at hw
  set u := r.fields.foldl (s.plainField (.fn f) inst n w) s with hu
  have hua : u.acts = s.acts := List.foldlRecOn (motive := fun t : State => t.acts = s.acts) r.fields _ rfl
    (fun t ht d _ => (plainField_acts t d).trans ht)
  have ht : s.writeReg (.fn f) r i w = rejectIf (u, r.fields.any (s.refusesField (.fn f) inst n w)) := by
    rw [hw]
    cases r.fields.any (s.refusesField (.fn f) inst n w)
    · exact rejectOnce_of_acts hua
    · exact rejectOnce_of_one (congrArg (· ++ _) hua)
  have hcell : ∀ (d : Fld) (j k : Nat), (rejectIf (u, r.fields.any (s.refusesField (.fn f) inst n w))).cell d j k = u.cell d j k := by
    intro d j k
    cases r.fields.any (s.refusesField (.fn f) inst n w) <;> rfl
  refine ⟨_, registerWrite_exec h ht, ?_, ?_, ?_⟩
  · intro d hd
    obtain ⟨t, hst, hut⟩ := cell_foldl_plainField (s0 := s) (who := .fn f) (inst := inst) (i := n) (w := w) hd s
    have hd' := (hcell d inst n).trans hut
    have hr1 : t.rdI d inst n = s.rdI d inst n := congrArg Prod.fst hst
    refine ⟨fun ha hc => ?_, fun ha hv hr hB => ?_, fun ha hv hr hB => ?_, fun ha hv => ?_, fun hx => ?_⟩
    · have := (hd'.trans (cell_plainField_held t ha hc)).trans hst
      exact ⟨congrArg Prod.fst this, congrArg Prod.snd this⟩
    · rw [plainField_takes t ha hv hr, if_pos hB, cell_stageI_same] at hd'
      exact ⟨(congrArg Prod.snd hd').trans (Nat.mod_eq_of_lt (Nat.mod_lt _ (Nat.two_pow_pos _))), (congrArg Prod.fst hd').trans hr1⟩
    · rw [plainField_takes t ha hv hr, if_neg hB] at hd'
      exact ((congrArg Prod.fst hd').trans (rdI_wrI_same t d inst n _)).trans (Nat.mod_eq_of_lt (Nat.mod_lt _ (Nat.two_pow_pos _)))
    · rw [plainField_clears t ha hv] at hd'
      exact ((congrArg Prod.fst hd').trans (rdI_wrI_same t d inst n _)).trans (by rw [hr1])
    · rw [plainField_rests t hx] at hd'
      exact (congrArg Prod.fst hd').trans hr1
  · intro d j k hne
    have hx : ∀ e ∈ r.fields, fkey d j k ≠ fkey e inst n := by
      intro e he hk
      obtain ⟨hc, -, hj, hk⟩ := fkey_inj hk
      have hreg : d.reg = r := (Reg.code_inj hc).trans (fields_reg he)
      tauto
    have := (hcell d j k).trans (cell_foldl_plainField_ne r.fields s hx)
    exact ⟨congrArg Prod.fst this, congrArg Prod.snd this⟩
  · change (rejectIf (u, r.fields.any (s.refusesField (.fn f) inst n w))).acts =
      (if r.fields.any (s.refusesField (.fn f) inst n w) = true then s.raise .CFG_REJECT else s).acts
    cases r.fields.any (s.refusesField (.fn f) inst n w)
    · exact hua
    · exact congrArg (· ++ _) hua

/-! ### Writes that are not performed -/

section
variable {s : State} {f : Fn}

theorem registerWrite_eq {t : State} {bar : Bar} {a size w : Nat} {p : Fin 3} (hl : s.live = true)
    (e : s.registerWrite f bar a size w p = t) : exec (.registerWrite f bar a size w p) s = .next (s.settle t) := by
  change powered s (fun s => s.registerWrite f bar a size w p) = _
  exact powered_eq (pwrok_of_live hl) e

theorem registerWrite_clean (hf : s.hostAnswers f = true) (bar : Bar) (a size w : Nat) :
    s.registerWrite f bar a size w 0 = s.fnWrite f bar a size w := by
  simp [State.registerWrite, hf]

theorem fnWrite_asleep (hf : s.hostAnswers f = true) (hc : s.postedCredit = true) {bar : Bar} {a : Nat} (size w : Nat)
    (hz : s.sleeps f (s.fnLoc f bar a) = true) : s.fnWrite f bar a size w = s.sleepOn (.write f bar a size w) := by
  simp [State.fnWrite, hf, hc, hz]

/-- A write that arrives at a register, or at a place that holds none. -/
theorem fnWrite_reg (hf : s.hostAnswers f = true) (hc : s.postedCredit = true) {a size : Nat} (w : Nat) {r : Reg} {i : Nat}
    (hz : s.sleeps f (s.fnLoc f .bar0 a) = false) (hp : s.fnLoc f .bar0 a = .reg r i) :
    s.fnWrite f .bar0 a size w = if (size == 8 && a % 8 == 0) = true then s.regAccess (.fn f) r i w else s.locBadWrite (.reg r i) := by
  rw [hp] at hz
  simp only [State.fnWrite, hf, hc, hz, hp, Bool.not_true, Bool.or_false, Bool.false_eq_true, if_false]
  rfl

theorem fnWrite_hole (hf : s.hostAnswers f = true) (hc : s.postedCredit = true) {a size : Nat} (w : Nat) {b : Nat}
    (hz : s.sleeps f (s.fnLoc f .bar0 a) = false) (hp : s.fnLoc f .bar0 a = .hole b) :
    s.fnWrite f .bar0 a size w = if s.blkServed b = true then s.raise .REG_ACCESS else s := by
  rw [hp] at hz
  simp only [State.fnWrite, hf, hc, hz, hp, Bool.not_true, Bool.or_false, Bool.false_eq_true, if_false]
  simp only [State.locWrite, State.locBadWrite, ite_self]

theorem regAccess_absent (hl : s.live = true) {r : Reg} (i w : Nat) (ha : s.regAbsent r = true) :
    s.regAccess (.fn f) r i w = s.raise .CFG_ABSENT := by
  simp [State.regAccess, whoFn, spill_of_live hl, blkServed_of_live _ hl, ha]

theorem regAccess_busy (hl : s.live = true) {r : Reg} (i w : Nat) (ha : s.regAbsent r = false)
    (hb : s.unitBusy (unitOfGroup r.place.blk) = true) : s.regAccess (.fn f) r i w = s.raise .REG_ACCESS := by
  simp [State.regAccess, whoFn, spill_of_live hl, blkServed_of_live _ hl, ha, hb]

theorem locBadWrite_reg (hl : s.live = true) (r : Reg) (i : Nat) : s.locBadWrite (.reg r i) = s.raise .REG_ACCESS := by
  simp [State.locBadWrite, spill_of_live hl, blkServed_of_live _ hl]

end

/-- Settles O2. -/
theorem writesThatAreNotPerformed : Obligations.WritesThatAreNotPerformed := by
  intro s f a size w hl hf hc
  refine ⟨fun bar => registerWrite_eq hl (by simp [State.registerWrite, hf]),
    fun bar hz => registerWrite_eq hl ((registerWrite_clean hf ..).trans (fnWrite_asleep hf hc size w hz)), fun hz => ⟨?_, ?_⟩⟩
  · intro r i hp
    have run : ∀ {size : Nat} {t : State},
        (if (size == 8 && a % 8 == 0) = true then s.regAccess (.fn f) r i w else s.locBadWrite (.reg r i)) = t →
        exec (.registerWrite f .bar0 a size w 0) s = .next (s.settle t) := fun e =>
      registerWrite_eq hl ((registerWrite_clean hf ..).trans ((fnWrite_reg hf hc w hz hp).trans e))
    refine ⟨fun hn => run ?_, fun ha hx => run ?_, fun ha hx hb => run ?_⟩
    · have hw : ¬ (size == 8 && a % 8 == 0) = true := by
        simp only [Bool.and_eq_true, beq_iff_eq]
        omega
      rw [if_neg hw, locBadWrite_reg hl]
    · simp [ha, regAccess_absent hl i w hx]
    · simp [ha, regAccess_busy hl i w hx hb]
  · intro b hp
    refine registerWrite_eq hl ((registerWrite_clean hf ..).trans ((fnWrite_hole hf hc w hz hp).trans ?_))
    rw [if_pos (blkServed_of_live _ hl)]

end Sys2Proof.Machine
end

section
/-! A unit's ENABLE set and cleared (R19, R52, R116, Table 4.7). -/

namespace Sys2Proof.Machine

section
variable {u : Nat} {d : Fld}

/-- The ENABLE field of a unit is one bit of its own register, in effect at once. -/
theorem enableFld_parts (h : enableFld u = some d) :
    d ∈ d.reg.fields ∧ d.acc = .RW ∧ d.cls = .L ∧ d.lo = 0 ∧ d.w = 1 ∧ unitOfGroup d.group = u := by
  unfold enableFld at h
  split at h <;> cases h <;> exact ⟨by decide, rfl, rfl, rfl, rfl, rfl⟩

/-- The register of a unit's ENABLE is the same for every requester, and is no port's and no ring's. -/
theorem enableFld_cell (h : enableFld u = some d) (s : State) (who : Who) :
    s.cellOf who d.reg 0 = (0, 0) ∧ s.unusedOut d.reg 0 = false ∧ s.ringOut who d.reg 0 = false ∧ d.reg ≠ .HIF_EQ_CFG := by
  unfold enableFld at h
  split at h <;> cases h <;> refine ⟨?_, rfl, rfl, fun h => by cases h⟩ <;>
    (rw [cellOf_of_not_ring _ _ _ _ rfl]; cases who <;> rfl)

/-- Only the unit itself can refuse its ENABLE. -/
theorem fieldBad_enable (h : enableFld u = some d) (s : State) (who : Who) (v w : Nat) :
    s.fieldBad who d 0 v w = (v == 1 && s.enableBad u) := by
  have hd : d.isEnable = true := by
    obtain ⟨-, -, -, -, -, hu⟩ := enableFld_parts h
    simp [Fld.isEnable, hu, h]
  obtain ⟨-, -, hcls, -, -, hu⟩ := enableFld_parts h
  have hown : s.driven d 0 = false ∧ s.fabricBad d 0 v w = false ∧ s.hostBad who d 0 v w = false ∧ s.ownBad d 0 v w = false := by
    unfold enableFld at h
    split at h <;> cases h <;> exact ⟨rfl, rfl, rfl, rfl⟩
  obtain ⟨h1, h2, h3, h4⟩ := hown
  have hq : (Cls.L == Cls.Q) = false := rfl
  simp [State.fieldBad, hd, hu, hcls, h1, h2, h3, h4, hq]

theorem writeReg_enable (h : enableFld u = some d) (s : State) (who : Who) (w : Nat) :
    s.writeReg who d.reg 0 w = s.rejectOnce (rejectIf (s.putFields who d.reg 0 0 w)) := by
  obtain ⟨hc, ho, hr, -⟩ := enableFld_cell h s who
  unfold State.writeReg
  simp only [hc, ho, hr]
  unfold enableFld at h
  split at h <;> cases h <;> rfl

/-- A command for a unit's ENABLE writes that field alone, and the write is refused, or changes nothing, or is taken. -/
theorem writeReg_enable_word (h : enableFld u = some d) {s : State} {who : Who} (hf : s.fits who d.reg 0 = true) {v : Nat} (hv : v < 2) :
    s.writeReg who d.reg 0 (s.fieldWord who d 0 v) = s.rejectOnce
      (if v = s.rd d then s else if (v == 1 && s.enableBad u) = true then s.raise .CFG_REJECT
        else if v = 1 then s.unitOn u else s.unitOff u) := by
  obtain ⟨hm, hacc, hcls, hlo, hw, hu⟩ := enableFld_parts h
  obtain ⟨hc, -, -, hq⟩ := enableFld_cell h s who
  have hp := putFields_fieldWord s who d rfl 0 v hm hf hq
  have hb := bits_fieldWord s who d rfl 0 v hm d hm
  have hen : d.isEnable = true := by simp [Fld.isEnable, hu, h]
  rw [hc] at hp
  rw [if_pos rfl, hw, Nat.mod_eq_of_lt (by omega)] at hb
  have hh : s.heldVal d 0 0 = s.rd d := by simp [State.heldVal, hcls]
  rw [writeReg_enable h, hp]
  generalize s.fieldWord who d 0 v = w at hb
  congr 1
  by_cases h0 : v = s.rd d
  · simp only [State.putField, hacc, hw, hb, hh, if_pos h0, rejectIf, Bool.false_eq_true, if_false]
  · by_cases hx : (v == 1 && s.enableBad u) = true
    · simp only [State.putField, hacc, hw, hb, hh, h0, if_false, fieldBad_enable h, hx, if_true, rejectIf]
    · simp only [State.putField, hacc, hw, hb, hh, h0, if_false, fieldBad_enable h, hx, hcls, reduceCtorEq, Bool.false_eq_true, rejectIf, State.putL,
        hen, if_true, hu]

theorem unitOn_of_off (h : enableFld u = some d) {s : State} (h0 : s.rd d = 0) : s.unitOn u =
    if u = uSER then (s.wr d 1).serOnAll else if u = uLNK then foldS (List.range 64) (s.wr d 1) (fun s p => s.linkStart p)
    else if u = uRTE then (s.wr d 1).routerOn else s.wr d 1 := by
  simp [State.unitOn, h, State.on, h0]

theorem unitOff_of_on (h : enableFld u = some d) {s : State} (h1 : s.rd d = 1) : s.unitOff u =
    if u = uSER then (s.wr d 0).serOffAll else if u = uLNK then (s.wr d 0).fenceAll fnLnkOff serDetect
    else if u = uHIF then (s.wr d 0).hifReset else if u = uPEG then (s.wr d 0).pegUnitReset
    else if u = uPWR then (s.wr d 0).pwrReset else s.wr d 0 := by
  rw [show s.unitOff u = (s.wr d 0).unitCleared u by simp [State.unitOff, h, State.on, h1]]
  unfold enableFld at h
  split at h <;> cases h <;> rfl

end

/-- UNIT_ENABLE and UNIT_DISABLE of a unit that is served end with what the write of its ENABLE leaves. -/
theorem enableCmd_exec {s t : State} {who : Who} {u v : Nat} {d : Fld} (h : enableFld u = some d) (hv : s.serves who d.reg 0 = true)
    (e : s.writeReg who d.reg 0 (s.fieldWord who d 0 v) = t) : powered s (fun s => s.enableCmd who u v) = .next (s.settle t) := by
  refine powered_eq (pwrok_of_live (live_of_serves hv)) ?_
  simp only [State.enableCmd, h]
  exact (regCmd_of_serves _ hv).trans e

/-- Settles O3: the command meets one field, and the field's three answers are those of `writeReg_enable_word`. -/
theorem unitsTurnOnAndOff : Obligations.UnitsTurnOnAndOff := by
  intro s who u d h hv hf
  have on : ∀ {t : State}, s.writeReg who d.reg 0 (s.fieldWord who d 0 1) = t → exec (.unitEnable who u) s = .next (s.settle t) :=
    enableCmd_exec h hv
  have off : ∀ {t : State}, s.writeReg who d.reg 0 (s.fieldWord who d 0 0) = t → exec (.unitDisable who u) s = .next (s.settle t) :=
    enableCmd_exec h hv
  have one := writeReg_enable_word h hf (v := 1) (by omega)
  have zero := writeReg_enable_word h hf (v := 0) (by omega)
  refine ⟨fun h1 => on ?_, fun h0 => off ?_, fun h0 hb => on ?_, fun h0 hb => on ?_, fun h1 => off ?_⟩
  · rw [one, if_pos h1.symm]
    exact rejectOnce_of_acts rfl
  · rw [zero, if_pos h0.symm]
    exact rejectOnce_of_acts rfl
  · rw [one, if_neg (by omega), if_pos (by simp [hb])]
    exact rejectOnce_of_one rfl
  · rw [one, if_neg (by omega), if_neg (by simp [hb]), if_pos rfl, unitOn_of_off h h0]
  · rw [zero, if_neg (by omega), if_neg (by simp), if_neg (by omega), unitOff_of_on h h1]

end Sys2Proof.Machine
end

section
/-! The fault collector: what it records of an occurrence, occurrences forced, the Spillway by key, and the escalation window
(13_faults_and_spillway.md, R371 to R389). -/

namespace Sys2Proof.Machine

/-! ### One bit of a word -/

theorem bit_setBit (x i : Nat) : bit (setBit x i) i = true := by
  unfold setBit
  split
  · assumption
  · rename_i h
    have hp : 0 < 2 ^ i := Nat.two_pow_pos i
    simp only [bit, beq_iff_eq, Nat.add_div_right _ hp] at h ⊢
    omega

theorem bit_mod {x i w : Nat} (h : i < w) : bit (x % 2 ^ w) i = bit x i := by
  obtain ⟨k, rfl⟩ : ∃ k, w = i + (k + 1) := ⟨w - i - 1, by omega⟩
  have hx : x % 2 ^ (i + (k + 1)) / 2 ^ i = x / 2 ^ i % 2 ^ (k + 1) := by rw [Nat.pow_add, Nat.mod_mul_right_div_self]
  simp only [bit, hx, Nat.pow_succ, Nat.mod_mul_left_mod]

/-! ### The record of an occurrence -/

/-- The collector's mark of a source that was sticky already. -/
def State.marked (s : State) (n : Nat) : State := if s.sticky n then s.wr F.FLT_SEV.MULTI 1 n else s

/-- What the collector counts of an occurrence of source `n`. -/
def State.counted (s : State) (n : Nat) : State :=
  ((s.marked n).wr F.FLT_STICKY.STICKY (setBit ((s.marked n).rd F.FLT_STICKY.STICKY (n / 64)) (n % 64)) (n / 64)).inc F.FLT_SEV.COUNT n

/-- What the collector writes of it beside its capture, when it does not escalate. -/
def State.noted (s : State) (n : Nat) : State := (s.counted n).wr F.FLT_SEV.LAST_SEV (s.baseSev n) n

theorem rd_marked (s : State) (n : Nat) {e : Fld} (j : Nat) (h : ¬ (e.reg.code = Reg.FLT_SEV.code ∧ e.lo = 63)) :
    (s.marked n).rd e j = s.rd e j := by
  unfold State.marked
  split
  · exact rd_wr_ne _ _ fun hk => h ⟨hk.1, hk.2.1⟩
  · rfl

/-- A field of another register reads what it read before the occurrence. -/
theorem rd_noted_reg (s : State) (n : Nat) {e : Fld} (j : Nat) (h1 : e.reg.code ≠ Reg.FLT_SEV.code) (h2 : e.reg.code ≠ Reg.FLT_STICKY.code) :
    (s.noted n).rd e j = s.rd e j := by
  unfold State.noted State.counted State.inc
  rw [rd_wr_reg _ _ _ _ h1, rd_wr_reg _ _ _ _ h1, rd_wr_reg _ _ _ _ h2, rd_marked _ _ _ fun h => h1 h.1]

theorem noted_sticky (s : State) (n : Nat) : (s.noted n).sticky n = true := by
  have hr : (s.noted n).rd F.FLT_STICKY.STICKY (n / 64) = setBit ((s.marked n).rd F.FLT_STICKY.STICKY (n / 64)) (n % 64) % 2 ^ 64 := by
    unfold State.noted State.counted State.inc
    rw [rd_wr_reg _ _ _ _ (by decide), rd_wr_reg _ _ _ _ (by decide), rd_wr_same]
  rw [State.sticky, hr, bit_mod (Nat.mod_lt _ (by decide)), bit_setBit]

theorem noted_sticky_ne (s : State) {n m : Nat} (h : m / 64 ≠ n / 64) : (s.noted n).sticky m = s.sticky m := by
  have hr : (s.noted n).rd F.FLT_STICKY.STICKY (m / 64) = s.rd F.FLT_STICKY.STICKY (m / 64) := by
    unfold State.noted State.counted State.inc
    rw [rd_wr_reg _ _ _ _ (by decide), rd_wr_reg _ _ _ _ (by decide), rd_wr_idx _ _ h, rd_marked _ _ _ (by decide)]
  rw [State.sticky, hr, State.sticky]

theorem noted_count (s : State) (n : Nat) :
    (s.noted n).rd F.FLT_SEV.COUNT n = satAdd F.FLT_SEV.COUNT.w (s.rd F.FLT_SEV.COUNT n) 1 % 2 ^ F.FLT_SEV.COUNT.w := by
  unfold State.noted State.counted State.inc
  rw [rd_wr_lo _ _ _ _ (by decide), rd_wr_same, rd_wr_reg _ _ _ _ (by decide), rd_marked _ _ _ (by decide)]

theorem noted_lastSev (s : State) {n : Nat} (h : s.baseSev n < 4) : (s.noted n).rd F.FLT_SEV.LAST_SEV n = s.baseSev n :=
  (rd_wr_same _ _ _ _).trans (Nat.mod_eq_of_lt h)

theorem noted_multi (s : State) {n : Nat} (h : s.sticky n = true) : (s.noted n).on F.FLT_SEV.MULTI n = true := by
  have hr : (s.noted n).rd F.FLT_SEV.MULTI n = 1 := by
    unfold State.noted State.counted State.inc State.marked
    rw [rd_wr_lo _ _ _ _ (by decide), rd_wr_lo _ _ _ _ (by decide), rd_wr_reg _ _ _ _ (by decide), if_pos h, rd_wr_same]
    rfl
  simp [State.on, hr]

/-- The severity of a source, and whether it may escalate, are read from fields that an occurrence does not write. -/
theorem baseSev_counted (s : State) (n : Nat) :
    (s.counted n).baseSev n = s.baseSev n ∧ (s.counted n).mayEscalate n = s.mayEscalate n := by
  have e1 : (s.counted n).rd F.FLT_SEV.SEV n = s.rd F.FLT_SEV.SEV n := by
    unfold State.counted State.inc
    rw [rd_wr_lo _ _ _ _ (by decide), rd_wr_reg _ _ _ _ (by decide), rd_marked _ _ _ (by decide)]
  have e2 : (s.counted n).rd F.FLT_SEV.ESC_DIS n = s.rd F.FLT_SEV.ESC_DIS n := by
    unfold State.counted State.inc
    rw [rd_wr_lo _ _ _ _ (by decide), rd_wr_reg _ _ _ _ (by decide), rd_marked _ _ _ (by decide)]
  simp only [State.mayEscalate, State.baseSev, State.on, e1, e2, and_self]

/-- The posts of an occurrence: what goes to the functions that want it, and the containment of its scope. -/
def State.handedOn (s : State) (o : Occ) (sev det : Nat) : State :=
  let t := foldS [0, 1, 2, 3] s (fun s p =>
    if s.rdI F.FLT_NOTIFY.VALID p 0 = 1 ∧ s.rdI F.FLT_NOTIFY.MIN_SEV p 0 ≤ sev then s.post (.notify p det o.inst) else s)
  if sev = sevContain ∧ srcScope o.src ≠ 0 ∧ (srcScope o.src ≠ 7 ∨ o.forced) then t.post (.contain (srcScope o.src) o.inst o.src) else t

/-- What the collector hands on leaves registers, pins, what has left and the queue alone. -/
def State.shown (s : State) := (s.regs, s.pins, s.out, s.pending)

theorem handedOn_shown (s : State) (o : Occ) (sev det : Nat) : (s.handedOn o sev det).shown = s.shown := by
  have hf : ∀ (l : List Nat), (foldS l s (fun s p =>
      if s.rdI F.FLT_NOTIFY.VALID p 0 = 1 ∧ s.rdI F.FLT_NOTIFY.MIN_SEV p 0 ≤ sev then s.post (.notify p det o.inst) else s)).shown = s.shown :=
    fun l => foldS_keeps State.shown _ (fun s p => by split <;> rfl) l s
  unfold State.handedOn
  dsimp only
  split
  · exact hf _
  · exact hf _

/-- The record of an occurrence that does not escalate: its notes, its capture, and what is handed on. -/
theorem record_eq {s : State} {o : Occ} (ha : srcAssigned o.src = true)
    (he : s.baseSev o.src ≠ sevMend ∨ s.on F.FLT_SEV.ESC_DIS o.src = true) : ∃ det, s.record false o =
      (if o.src = Src.FLT_SELF.num then s.noted o.src else (s.noted o.src).capture o (s.baseSev o.src)).handedOn o (s.baseSev o.src) det := by
  have hm : s.mayEscalate o.src = false := by
    rcases he with he | he <;> simp [State.mayEscalate, he]
  obtain ⟨hb, hx⟩ := baseSev_counted s o.src
  have hx := hx.trans hm
  refine ⟨o.src + 512 * s.baseSev o.src + 2048 * b2n (s.sticky o.src) + 4096 * b2n false + 8192 * b2n o.forced, ?_⟩
  unfold State.record State.noted State.handedOn
  unfold State.counted State.marked at hb hx ⊢
  simp only [ha, hb, hx, Bool.not_true, Bool.not_false, Bool.and_false, Bool.false_and, Bool.false_eq_true, if_false]

/-- The slot that a source holds is named by a register that no occurrence writes. -/
theorem noted_slotOf (s : State) (n m : Nat) : (s.noted n).slotOf m = s.slotOf m := by
  have hr : ∀ k, (s.noted n).rd F.FLT_RICH_ASSIGN.SOURCE k = s.rd F.FLT_RICH_ASSIGN.SOURCE k := fun k =>
    rd_noted_reg s n k (by decide) (by decide)
  simp only [State.slotOf, hr]

/-- A capture writes the rich registers alone. -/
theorem rd_capture_reg (s : State) (o : Occ) (sev : Nat) {e : Fld} (j : Nat) (h1 : e.reg.code ≠ Reg.FLT_RICH_META.code)
    (h2 : e.reg.code ≠ Reg.FLT_RICH_ADDR.code) (h3 : e.reg.code ≠ Reg.FLT_RICH_INFO.code) (h4 : e.reg.code ≠ Reg.FLT_RICH_BEAT.code) :
    (s.capture o sev).rd e j = s.rd e j := by
  unfold State.capture
  split
  · rfl
  · split
    · exact rd_wr_reg _ _ _ _ h1
    · dsimp only
      rw [rd_wr_reg _ _ _ _ h4, rd_wr_reg _ _ _ _ h3, rd_wr_reg _ _ _ _ h2]
      iterate 9 rw [rd_wr_reg _ _ _ _ h1]

theorem capture_used {s : State} {o : Occ} {sev k : Nat} (h : s.slotOf o.src = some k) (hv : s.on F.FLT_RICH_META.VALID k = true) :
    s.capture o sev = s.wr F.FLT_RICH_META.MULTI 1 k := by
  simp [State.capture, h, hv]

/-- A free slot holds the occurrence afterwards. -/
theorem capture_free {s : State} {o : Occ} {sev k : Nat} (h : s.slotOf o.src = some k) (hv : s.on F.FLT_RICH_META.VALID k = false)
    (ho : o.src < 512) (hs : sev < 4) : (s.capture o sev).on F.FLT_RICH_META.VALID k = true ∧
      (s.capture o sev).rd F.FLT_RICH_META.SOURCE k = o.src ∧ (s.capture o sev).rd F.FLT_RICH_META.SEV k = sev ∧
      (s.capture o sev).rd F.FLT_RICH_BEAT.BEAT k = s.beat % 2 ^ F.FLT_RICH_BEAT.BEAT.w := by
  unfold State.capture
  simp only [h, hv, Bool.false_eq_true, if_false]
  refine ⟨?_, ?_, ?_, ?_⟩
  · rw [State.on, rd_wr_reg _ _ _ _ (by decide), rd_wr_reg _ _ _ _ (by decide), rd_wr_reg _ _ _ _ (by decide)]
    iterate 8 rw [rd_wr_lo _ _ _ _ (by decide)]
    rw [rd_wr_same]
    rfl
  · rw [rd_wr_reg _ _ _ _ (by decide), rd_wr_reg _ _ _ _ (by decide), rd_wr_reg _ _ _ _ (by decide), rd_wr_lo _ _ _ _ (by decide), rd_wr_same]
    exact Nat.mod_eq_of_lt ho
  · rw [rd_wr_reg _ _ _ _ (by decide), rd_wr_reg _ _ _ _ (by decide), rd_wr_reg _ _ _ _ (by decide)]
    iterate 5 rw [rd_wr_lo _ _ _ _ (by decide)]
    rw [rd_wr_same]
    exact Nat.mod_eq_of_lt hs
  · rw [rd_wr_same, State.beat, rd_wr_reg _ _ _ _ (by decide), rd_wr_reg _ _ _ _ (by decide)]
    iterate 9 rw [rd_wr_reg _ _ _ _ (by decide)]
    rfl

/-- An occurrence that is recorded moves no pin, and nothing leaves. -/
theorem noted_capture_kept (s : State) (o : Occ) (n sev : Nat) :
    ((s.noted n).pins = s.pins ∧ (s.noted n).out = s.out ∧ (s.noted n).pending = s.pending) ∧
      (s.capture o sev).pins = s.pins ∧ (s.capture o sev).out = s.out ∧ (s.capture o sev).pending = s.pending := by
  constructor
  · unfold State.noted State.counted State.marked
    split <;> exact ⟨rfl, rfl, rfl⟩
  · unfold State.capture
    split
    · exact ⟨rfl, rfl, rfl⟩
    · split <;> exact ⟨rfl, rfl, rfl⟩

/-- Settles O44. -/
theorem occurrencesAreRecorded : Obligations.OccurrencesAreRecorded := by
  intro s o ha hn he hsev
  dsimp only
  obtain ⟨det, hr⟩ := record_eq ha he
  set t := s.record false o
  set c := if o.src = Src.FLT_SELF.num then s.noted o.src else (s.noted o.src).capture o (s.baseSev o.src) with hc
  have hshown : t.shown = c.shown := hr ▸ handedOn_shown c o _ det
  have hregs : t.regs = c.regs := congrArg (·.1) hshown
  have hrd : ∀ (d : Fld) (i : Nat), t.rd d i = c.rd d i := fun d i => congrArg (tabGetD · _ _) hregs
  have hin : ∀ (d : Fld) (i : Nat), d.reg.code ≠ Reg.FLT_RICH_META.code → d.reg.code ≠ Reg.FLT_RICH_ADDR.code →
      d.reg.code ≠ Reg.FLT_RICH_INFO.code → d.reg.code ≠ Reg.FLT_RICH_BEAT.code → t.rd d i = (s.noted o.src).rd d i := by
    intro d i h1 h2 h3 h4
    rw [hrd, hc]
    split
    · rfl
    · exact rd_capture_reg _ _ _ _ h1 h2 h3 h4
  have hsticky : ∀ m, t.sticky m = (s.noted o.src).sticky m := fun m => by
    rw [State.sticky, hin _ _ (by decide) (by decide) (by decide) (by decide), State.sticky]
  refine ⟨?_, ?_, ?_, ?_, ?_, ?_, ?_⟩
  · rw [hsticky, noted_sticky]
  · rw [hin _ _ (by decide) (by decide) (by decide) (by decide), noted_count]
  · rw [hin _ _ (by decide) (by decide) (by decide) (by decide), noted_lastSev _ hsev]
  · intro hs
    rw [State.on, hin _ _ (by decide) (by decide) (by decide) (by decide)]
    exact noted_multi s hs
  · intro k hself hk
    have hcap : c = (s.noted o.src).capture o (s.baseSev o.src) := if_neg hself
    have hslot := (noted_slotOf s o.src o.src).trans hk
    have hkeep : ∀ (d : Fld) (i : Nat), d.reg.code ≠ Reg.FLT_SEV.code → d.reg.code ≠ Reg.FLT_STICKY.code →
      (s.noted o.src).rd d i = s.rd d i := fun d i h1 h2 => rd_noted_reg s _ i h1 h2
    have hvalid : (s.noted o.src).on F.FLT_RICH_META.VALID k = s.on F.FLT_RICH_META.VALID k := by
      rw [State.on, hkeep _ _ (by decide) (by decide), State.on]
    refine ⟨fun hv => ?_, fun hv => ?_⟩
    · rw [capture_used hslot (hvalid.trans hv)] at hcap
      refine ⟨?_, ?_, ?_⟩
      · rw [State.on, hrd, hcap, rd_wr_same]
        rfl
      · rw [hrd, hcap, rd_wr_lo _ _ _ _ (by decide), hkeep _ _ (by decide) (by decide)]
      · rw [hrd, hcap, rd_wr_reg _ _ _ _ (by decide), hkeep _ _ (by decide) (by decide)]
    · obtain ⟨h1, h2, h3, h4⟩ := capture_free hslot (hvalid.trans hv) (by omega) hsev
      rw [← hcap] at h1 h2 h3 h4
      refine ⟨?_, (hrd _ _).trans h2, (hrd _ _).trans h3, (hrd _ _).trans (h4.trans ?_)⟩
      · rw [State.on, hrd]
        exact h1
      · rw [State.beat, hkeep _ _ (by decide) (by decide), State.beat]
  · intro m hm
    rw [hsticky, noted_sticky_ne s hm]
  · have hk : c.pins = s.pins ∧ c.out = s.out ∧ c.pending = s.pending := by
      obtain ⟨⟨n1, n2, n3⟩, -⟩ := noted_capture_kept s o o.src 0
      obtain ⟨-, c1, c2, c3⟩ := noted_capture_kept (s.noted o.src) o o.src (s.baseSev o.src)
      rw [hc]
      split
      · exact ⟨n1, n2, n3⟩
      · exact ⟨c1.trans n1, c2.trans n2, c3.trans n3⟩
    obtain ⟨h1, h2, h3⟩ := hk
    exact ⟨(congrArg (·.2.1) hshown).trans h1, (congrArg (·.2.2.1) hshown).trans h2, (congrArg (·.2.2.2) hshown).trans h3⟩

end Sys2Proof.Machine
end

section
/-! Occurrences that FLT_FORCE raises, the Spillway by its key, and the escalation window (R371, R376, R381, R387, R389). -/

namespace Sys2Proof.Machine

/-! ### A mask and its bits -/

theorem bitsSet_zero (n : Nat) : bitsSet n 0 = [] := by
  simp [bitsSet, bit]

theorem bitsSet_one (b : Fin 64) : bitsSet 64 (2 ^ b.val) = [b.val] := by
  revert b; decide

/-! ### FLT_FORCE -/

theorem force_none (s : State) (k : Nat) : s.force k 0 = s := by
  simp [State.force, bitsSet_zero, foldS]

theorem force_one (s : State) (k : Nat) (b : Fin 64) : s.force k (2 ^ b.val) =
    if srcAssigned (64 * k + b.val) = true then
      s.raiseOcc ⟨64 * k + b.val, s.rd F.FLT_FORCE_INST.INSTANCE, 0, 0, 0, false, 0, true⟩ else s.raise .CFG_REJECT := by
  cases h : srcAssigned (64 * k + b.val) <;> simp [State.force, bitsSet_one, foldS, h]

theorem writeReg_force (s : State) (who : Who) (k w : Nat) : s.writeReg who .FLT_FORCE k w = s.rejectOnce (s.force k (w % 2 ^ 64)) := rfl

/-- Beyond the windows of a VF no register of BAR0 lies. -/
theorem vfLoc_beyond (pegs : Nat) {a : Nat} (h : 0x400000 ≤ a) (r : Reg) (i : Nat) : vfLoc pegs a ≠ .reg r i := by
  unfold vfLoc
  rw [if_pos h]
  split
  · exact fun h => by cases h
  · split <;> exact fun h => by cases h

/-- Who reaches FLT_FORCE meets the collector: a VF has no view of it (Table 17.2). -/
theorem fn_of_serves_force {s : State} {f : Fn} {i : Nat} (h : s.serves (.fn f) .FLT_FORCE i = true) :
    s.hostAnswers f = true ∧ fnPf f = fnInst f := by
  refine ⟨(serves_fn h).1, ?_⟩
  obtain ⟨-, -, hlies, -⟩ := serves_parts h
  cases f with
  | pf p => rfl
  | vf p v => exact absurd hlies (vfLoc_beyond _ (show 0x400000 ≤ 4 * 0x100000 + 0x200 + 8 * i by omega) _ _)

/-- A parity error at the access raises FLT_SELF, and the write is performed (R387). -/
theorem fltForce_eq {s : State} {who : Who} {w : Nat} (h : s.serves who .FLT_FORCE w = true) (v : Nat) (p : Bool) :
    s.fltForce who w ⟨v, p⟩ = (if p = true then s.raise .FLT_SELF else s).regCmd who .FLT_FORCE w v := by
  cases p with
  | false => rfl
  | true =>
    cases who with
    | fn f =>
      obtain ⟨hf, hi⟩ := fn_of_serves_force h
      simp [State.fltForce, hf, hi]
    | mailbox => rfl
    | mgmt k => rfl

theorem force_exec {s t e : State} {who : Who} {w : Fin 8} {v : Nat} {p : Bool} (h : s.serves who .FLT_FORCE w = true)
    (he : (if p = true then s.raise .FLT_SELF else s) = e) (hs : e.serves who .FLT_FORCE w = true)
    (ht : e.rejectOnce (e.force w (v % 2 ^ 64)) = t) : exec (.fltForce who w ⟨v, p⟩) s = .next (s.settle t) := by
  have run : s.fltForce who w ⟨v, p⟩ = t := by
    rw [fltForce_eq h, he, regCmd_of_serves v hs, writeReg_force]
    exact ht
  change powered s (fun s => s.fltForce who w.val ⟨v, p⟩) = _
  exact powered_eq (pwrok_of_live (live_of_serves h)) run

/-! ### The Spillway by its key -/

/-- The word that SPILL writes to FLT_CTRL. -/
def State.spillWord (s : State) (who : Who) (key : Nat) : Nat := s.fieldWord who F.FLT_CTRL.SPILL 0 1 + key % 256 * 2 ^ 56

/-- The word of a command that spills: SPILL, the key, and the pin level as it is held. -/
theorem spillWord_parts (s : State) (who : Who) (hf : s.fits who .FLT_CTRL 0 = true) (key : Nat) :
    bit (s.spillWord who key) 0 = true ∧ bits (s.spillWord who key) 56 8 = key % 256 ∧
      bits (s.spillWord who key) 8 2 = s.heldVal F.FLT_CTRL.PIN_LEVEL (s.cellOf who .FLT_CTRL 0).1 0 := by
  have hd := bits_fieldWord s who F.FLT_CTRL.SPILL (r := .FLT_CTRL) rfl 0 1 (by decide)
  have h0 := hd F.FLT_CTRL.SPILL (by decide)
  have h8 := hd F.FLT_CTRL.PIN_LEVEL (by decide)
  have h56 := hd F.FLT_CTRL.SPILL_KEY (by decide)
  have hp : s.heldVal F.FLT_CTRL.PIN_LEVEL (s.cellOf who .FLT_CTRL 0).1 0 < 4 := by
    have hc := cellOf_of_not_ring s who .FLT_CTRL 0 rfl
    rw [State.fits, List.all_eq_true] at hf
    simpa [hc] using hf F.FLT_CTRL.PIN_LEVEL (by decide)
  rw [if_pos rfl] at h0
  rw [if_neg (by decide), if_pos rfl, cellOf_of_not_ring _ _ _ _ rfl] at h8
  rw [if_neg (by decide), if_neg (by decide)] at h56
  rw [cellOf_of_not_ring _ _ _ _ rfl] at hp ⊢
  unfold State.spillWord
  generalize s.fieldWord who F.FLT_CTRL.SPILL 0 1 = x at h0 h8 h56 ⊢
  generalize s.heldVal F.FLT_CTRL.PIN_LEVEL (instOf who .FLT_CTRL) 0 = l at hp h8 ⊢
  simp only [bits, bit, beq_iff_eq] at h0 h8 h56 ⊢
  omega

/-- A write of FLT_CTRL that keeps the pin level and sets SPILL is the key's (R389). -/
theorem writeReg_spill {s : State} {who : Who} {w : Nat} (hb : bit w 0 = true)
    (hl : bits w 8 2 = s.heldVal F.FLT_CTRL.PIN_LEVEL (s.cellOf who .FLT_CTRL 0).1 0) :
    s.writeReg who .FLT_CTRL 0 w = s.rejectOnce (s.spillKey (bits w 56 8)) := by
  have hp : s.putFields who .FLT_CTRL (s.cellOf who .FLT_CTRL 0).1 0 w = (s, false) := by
    simp [State.putFields, Reg.fields, State.putField, hl]
  have hu : (s.unusedOut .FLT_CTRL 0 || s.ringOut who .FLT_CTRL 0) = false := rfl
  unfold State.writeReg
  simp only [hu, Bool.false_eq_true, if_false, hp, hb, if_true, rejectIf]

theorem spill_exec {s t : State} {who : Who} {key : Nat} (hv : s.serves who .FLT_CTRL 0 = true) (hf : s.fits who .FLT_CTRL 0 = true)
    (e : s.rejectOnce (s.spillKey (key % 256)) = t) : exec (.spill who key) s = .next (s.settle t) := by
  obtain ⟨hb, hk, hl⟩ := spillWord_parts s who hf key
  change powered s (fun s => s.regCmd who .FLT_CTRL 0 (s.spillWord who key)) = _
  refine powered_eq (pwrok_of_live (live_of_serves hv)) ((regCmd_of_serves _ hv).trans ?_)
  rw [writeReg_spill hb hl, hk, e]

/-- Settles O45. -/
theorem faultsForcedAndSpilled : Obligations.FaultsForcedAndSpilled := by
  intro s
  refine ⟨fun who w v h => ?_, fun who key h hf => ⟨fun hk => ?_, fun hk => ?_⟩, fun hl => ⟨fun hw => ?_, fun h0 hw => ?_⟩⟩
  · intro inst e he
    have hserve : (if e.1 = true then s.raise .FLT_SELF else s) = e.2 ∧ e.2.serves who .FLT_FORCE w = true ∧
        e.2.rd F.FLT_FORCE_INST.INSTANCE = inst := by
      rcases List.mem_cons.1 he with rfl | he
      · exact ⟨rfl, h, rfl⟩
      · rw [List.mem_singleton.1 he]
        exact ⟨rfl, h, rfl⟩
    obtain ⟨he, hs, hi⟩ := hserve
    refine ⟨fun hz => force_exec h he hs ?_, fun b hb => ⟨fun ha => force_exec h he hs ?_, fun ha => force_exec h he hs ?_⟩⟩
    · rw [hz, force_none]
      exact rejectOnce_of_acts rfl
    · rw [hb, force_one, if_pos ha, hi]
      exact rejectOnce_of_one rfl
    · rw [hb, force_one, if_neg (by simp [ha])]
      exact rejectOnce_of_one rfl
  · refine spill_exec h hf ?_
    rw [State.spillKey, if_neg hk]
    exact rejectOnce_of_one rfl
  · refine spill_exec h hf ?_
    rw [State.spillKey, if_pos hk, State.enterSpill, if_neg (by simp [spill_of_live (live_of_serves h)])]
    exact rejectOnce_of_one rfl
  · change running s State.escRestart = _
    exact running_eq hl (if_neg (by omega))
  · change running s State.escRestart = _
    refine running_eq hl ((if_pos hw).trans ?_)
    rw [if_neg (by omega)]

end Sys2Proof.Machine
end

section
/-! Reads of registers that the mailbox, a remote manager or a function makes at a phase of the Beat (00_scope.md, R12, R46). -/

namespace Sys2Proof.Machine

/-- While the device runs, a read that is narrow, or not aligned, raises REG_ACCESS wherever it lies (R12, R385). -/
theorem locBad_of_live {s : State} (h : s.live = true) (l : Loc) : s.locBad l = s.raise .REG_ACCESS := by
  have hb := fun b => blkServed_of_live (s := s) b h
  have hr := fun r => readable_of_live h r
  have hi : ∀ b, s.idServed b = true := fun b => by simp [State.idServed, spill_of_live h, not_resetting_of_live h]
  unfold State.locBad
  rw [if_pos]
  split <;> simp only [hb, hr, hi]

theorem sharedRead_narrow {s : State} (h : s.live = true) (who : Who) {a : Nat} (ha : a % 8 ≠ 0) (c u : Nat) :
    s.sharedRead who a c u = (0, s.raise .REG_ACCESS) := by
  rw [State.sharedRead, if_pos ha, locBad_of_live h]

/-- A VF's own windows hold no register of another block (Table 17.2). -/
theorem vf_not_served {s : State} {p : Fin 4} {v : Fin 512} {r : Reg} {i : Nat} (hb : [7, 8, 9, 11].findIdx (· == r.place.blk) = 4) :
    s.serves (.fn (.vf p v)) r i = false := by
  by_contra h
  rw [Bool.not_eq_false] at h
  obtain ⟨-, -, hlies, -⟩ := serves_parts h
  have hoff : 0x400000 ≤ regOffset (.fn (.vf p v)) r i := by
    unfold regOffset
    dsimp only
    rw [hb]
    omega
  simp only [State.lies, State.fnLoc] at hlies
  exact vfLoc_beyond _ hoff _ _ hlies

/-- A read by another requester than a function is made at the register's place in the map of a PF. -/
theorem sharedOut_other {s t : State} {who : Who} {r : Reg} {i c u x : Nat} {whole : Bool} (hw : ∀ f, who ≠ .fn f)
    (hx : s.sharedRead who (regOffset who r i + b2n (!whole)) c u = (x, t)) : s.sharedOut who r i c u whole = t.emit (.regValue who x) := by
  unfold State.sharedOut
  split
  · exact absurd rfl (hw _)
  · exact absurd rfl (hw _)
  · rw [hx]

/-- A read by a PF of a register that is served. -/
theorem sharedOut_pf {s : State} {p : Fin 4} {r : Reg} {i : Nat} (h : s.serves (.fn (.pf p)) r i = true) (c u : Nat) (whole : Bool) :
    s.sharedOut (.fn (.pf p)) r i c u whole = s.fnRead (.pf p) r whole (fun s => s.readZero (.pf p)) (fun s =>
      let (x, s) := s.sharedRead (.fn (.pf p)) (regOffset (.fn (.pf p)) r i) c u
      s.emit (.regValue (.fn (.pf p)) x)) := by
  obtain ⟨-, -, -, hz⟩ := serves_fn h
  rw [State.sharedOut, if_neg (by simp [hz])]

section
variable {s : State} {who : Who} {r : Reg} {i : Nat} (h : s.serves who r i = true) (hb : [7, 8, 9, 11].findIdx (· == r.place.blk) = 4)
include h hb

/-- Where a requester's own access to a register that it reaches in the map of a PF lies. -/
theorem pfLoc_of_serves : pfLoc (regOffset who r i) = .reg r i := by
  obtain ⟨-, -, hlies, -⟩ := serves_parts h
  cases who with
  | fn f =>
    cases f with
    | pf p => exact hlies
    | vf p v => simp [vf_not_served hb] at h
  | mailbox => exact hlies
  | mgmt k => exact hlies

/-- A read of a served register that is narrow, or not aligned, reads zero and raises REG_ACCESS. -/
theorem sharedOut_narrow (c u : Nat) : s.sharedOut who r i c u false = (s.raise .REG_ACCESS).emit (.regValue who 0) := by
  have hal := regOffset_aligned who r i (place_aligned r).1 (place_aligned r).2
  have hx := sharedRead_narrow (live_of_serves h) who (a := regOffset who r i + b2n (!false))
    (by rw [show b2n (!false) = 1 from rfl]; omega) c u
  cases who with
  | fn f =>
    cases f with
    | pf p => rw [sharedOut_pf h, fnRead_narrow _ _ h, State.readZero]
    | vf p v => simp [vf_not_served hb] at h
  | mailbox => exact sharedOut_other (fun f hf => by cases hf) hx
  | mgmt k => exact sharedOut_other (fun f hf => by cases hf) hx

/-- A whole read of a served register is performed. -/
theorem sharedOut_whole {c u x : Nat} {t : State} (hx : s.sharedRead who (regOffset who r i) c u = (x, t)) :
    s.sharedOut who r i c u true = t.emit (.regValue who x) := by
  have hx' : s.sharedRead who (regOffset who r i + b2n (!true)) c u = (x, t) := by
    rw [show b2n (!true) = 0 from rfl, Nat.add_zero, hx]
  cases who with
  | fn f =>
    cases f with
    | pf p => rw [sharedOut_pf h, fnRead_of_serves _ _ h, hx]
    | vf p v => simp [vf_not_served hb] at h
  | mailbox => exact sharedOut_other (fun f hf => by cases hf) hx'
  | mgmt k => exact sharedOut_other (fun f hf => by cases hf) hx'

end

theorem sharedRead_eccWin {s : State} {who : Who} {k : Nat} (h : s.serves who .ECC_WIN k = true) (c u : Nat) :
    s.sharedRead who (regOffset who .ECC_WIN k) c u = s.winRead who k := by
  have hal := regOffset_aligned who .ECC_WIN k (by decide) (by decide)
  obtain ⟨hl, -, -, ha, -⟩ := serves_parts h
  have hp := pfLoc_of_serves h rfl
  generalize regOffset who .ECC_WIN k = a at hal hp
  have hn : Reg.fnOnly .ECC_WIN = false := rfl
  simp only [State.sharedRead, hal, hp, hn, readable_of_live hl, ha, ne_eq, not_true_eq_false, if_false, Bool.false_eq_true, Bool.not_true,
    Bool.or_false]

end Sys2Proof.Machine
end

section
/-! The scrubber and the SRAM window (12_stored_data_protection.md, R357, R360 to R368, Table 12.12). -/

namespace Sys2Proof.Machine

/-! ### Words -/

theorem eccWord_setWord (s : State) (r w : Nat) (x : EWord) : (s.setWord r w x).eccWord r w = some x :=
  tabGet_put_same s.ecc.words _ x

theorem setWord_setWord (s : State) (r w : Nat) (x y : EWord) : (s.setWord r w x).setWord r w y = s.setWord r w y := by
  have h : tabPut (tabPut s.ecc.words (wkey r w) x) (wkey r w) y = tabPut s.ecc.words (wkey r w) y := tabPut_put ..
  simp only [State.setWord, State.modEcc, h]

theorem eccKnow_some {s : State} {r w : Nat} {x : EWord} (h : s.eccWord r w = some x) : s.eccKnow r w = (x, s) := by
  simp [State.eccKnow, h]

theorem popcount_zero (n : Nat) : popcount n 0 = 0 := by
  induction n with
  | zero => rfl
  | succ n ih => simpa [popcount] using ih

theorem popcount_one (n : Nat) : popcount (n + 1) 1 = 1 := by
  simp [popcount, popcount_zero]

/-- A word whose bits are as they were written shows no error. -/
theorem look_clean (d : Nat) (wb : Bool) (o : Option EObj) (c : Nat) : EWord.look ⟨d, 0, 0, false, wb, o⟩ c = 0 := by
  simp [EWord.look, popcount_zero]

/-- One changed bit of a word under a code that corrects one (Table 12.1). -/
theorem look_one (d : Nat) (wb : Bool) (o : Option EObj) : EWord.look ⟨d, 1, 0, false, wb, o⟩ 1 = 1 := by
  simp [EWord.look, popcount_zero, popcount_one 127]

theorem eccCe_known {s : State} {r w : Nat} {x : EWord} (h : s.eccWord r w = some x) :
    s.eccCe r w = ((s.setWord r w { x with wb := true }).inc F.ECC_REGION_STATUS.CE_COUNT r).raise .ECC_CE := by
  simp [State.eccCe, eccKnow_some h]

theorem eccRead_none {s : State} {act : EccAct} {r w : Nat} {scrub : Bool} (h : s.eccWord r w = none) : s.eccRead act r w scrub = s := by
  simp [State.eccRead, h]

theorem eccRead_one {s : State} {act : EccAct} {r w : Nat} {scrub : Bool} {x : EWord} (h : s.eccWord r w = some x)
    (hl : x.look (s.eccCode r) = 1) : s.eccRead act r w scrub = s.eccCe r w := by
  simp [State.eccRead, h, hl]

theorem eccStore_plain {s : State} (r w d : Nat) (o : Option EObj) (h : s.on F.ECC_FLIP_CTRL.ARM = false) :
    s.eccStore r w d o = s.setWord r w ⟨d, 0, 0, false, false, o⟩ := by
  simp [State.eccStore, State.flipTakes, h]

/-! ### The scrubber -/

/-- The scrubber goes on after word `w` of `n`. -/
def State.scrubNext (s : State) (r w n : Nat) : State :=
  (s.modEcc (fun e => { e with pos := tabSet e.pos r 0 (w + 1) })).wr F.ECC_REGION_STATUS.PROGRESS ((w + 1) * 65536 / n) r

/-- The lap of a region ends. -/
def State.scrubLap (s : State) (r : Nat) : State :=
  (((s.modEcc (fun e => { e with pos := tabSet e.pos r 0 0, beats := tabSet e.beats r 0 0 })).wr F.ECC_REGION_STATUS.LAST_LAP
    (min 65535 ((s.lapBeats r + 1023) / 1024)) r).wr F.ECC_REGION_STATUS.FORCED 0 r).wr F.ECC_REGION_STATUS.PROGRESS 0 r

/-- The scrubber reads a word of which nothing is known. -/
theorem scrubRead_unknown {s : State} {r : Nat} (he : s.en uECC = true) (h : s.eccWord r (s.scrubPos r) = none) :
    s.scrubRead r 0 0 none = if s.scrubPos r + 1 < s.eccWords r then s.scrubNext r (s.scrubPos r) (s.eccWords r) else s.scrubLap r := by
  simp only [State.scrubRead, he, Bool.not_true, Bool.false_eq_true, if_false, and_self, if_true, eccRead_none h]
  rfl

/-- The scrubber finds one changed bit under a code that corrects one. -/
theorem scrubRead_one {s : State} {r d : Nat} (o : Option EObj) (he : s.en uECC = true) (hn : s.scrubPos r + 1 < s.eccWords r)
    (hc : s.eccCode r = 1) (h : s.eccWord r (s.scrubPos r) = some ⟨d, 0, 0, false, false, none⟩) :
    s.scrubRead r 1 0 o = (((s.setWord r (s.scrubPos r) ⟨d, 1, 0, false, true, o⟩).inc F.ECC_REGION_STATUS.CE_COUNT r).raise .ECC_CE).scrubNext r
      (s.scrubPos r) (s.eccWords r) := by
  have hx : (0 : Nat) ^^^ 1 % 2 ^ (8 * codeBytes 1) = 1 := by norm_num [codeBytes]
  have hy : (0 : Nat) ^^^ 0 % 2 ^ codeChecks 1 = 0 := by decide
  have hw := eccWord_setWord s r (s.scrubPos r) ⟨d, 1, 0, false, false, o⟩
  have hread : (s.setWord r (s.scrubPos r) ⟨d, 1, 0, false, false, o⟩).eccRead eccAct r (s.scrubPos r) true =
      ((s.setWord r (s.scrubPos r) ⟨d, 1, 0, false, true, o⟩).inc F.ECC_REGION_STATUS.CE_COUNT r).raise .ECC_CE := by
    have hl : EWord.look ⟨d, 1, 0, false, false, o⟩ (s.eccCode r) = 1 := by rw [hc, look_one]
    rw [eccRead_one hw hl, eccCe_known hw, setWord_setWord]
  simp only [State.scrubRead, he, Bool.not_true, Bool.false_eq_true, if_false, eccKnow_some h, hc, hx, hy, one_ne_zero, false_and,
    Option.isSome_none, hread, hn, if_true]
  rfl

theorem writeBack_waits {s : State} {r k : Nat} {x : EWord} (h : s.eccWord r k = some x) (hw : x.wb = true)
    (hf : s.on F.ECC_FLIP_CTRL.ARM = false) : s.writeBack r k = s.setWord r k ⟨x.data, 0, 0, false, false, x.obj⟩ := by
  simp [State.writeBack, h, hw, eccStore_plain _ _ _ _ hf]

theorem writeBack_rests {s : State} {r k : Nat} (h : s.eccWord r k = none ∨ ∃ x : EWord, s.eccWord r k = some x ∧ x.wb = false) :
    s.writeBack r k = s := by
  obtain h | ⟨x, h, hw⟩ := h
  · simp [State.writeBack, h]
  · simp [State.writeBack, h, hw]

/-! ### The SRAM window -/

theorem dropHalf_of_none {s : State} {who : Who} (h : ∀ x ∈ s.ecc.halves, x.1 ≠ who) : s.dropHalf who = s := by
  have : s.ecc.halves.any (fun h => h.1 == who) = false := by simpa [List.any_eq_false] using h
  simp [State.dropHalf, this]

section
variable {s : State} {who : Who} {k v : Nat} (hh : ∀ x ∈ s.ecc.halves, x.1 ≠ who)
include hh

theorem winRead_none (h : s.winOffset k = none) : s.winRead who k = (0, s) := by
  simp [State.winRead, dropHalf_of_none hh, h]

theorem winRead_clean {o d : Nat} {x : Option EObj} (h : s.winOffset k = some o) (hr : s.on F.ECC_WIN_SEL.RAW = false)
    (hw : s.eccWord (s.rd F.ECC_WIN_SEL.REGION) (o / codeBytes (s.eccCode (s.rd F.ECC_WIN_SEL.REGION))) = some ⟨d, 0, 0, false, false, x⟩) :
    s.winRead who k = (d / 2 ^ (8 * (o % codeBytes (s.eccCode (s.rd F.ECC_WIN_SEL.REGION)))) % 2 ^ 64, s) := by
  have h4 : ((0 : Nat) == 4) = false := rfl
  simp [State.winRead, dropHalf_of_none hh, h, hr, eccKnow_some hw, look_clean, h4]

theorem winWrite_none (h : s.winOffset k = none) : s.winWrite who k v = s.raise .REG_ACCESS := by
  simp [State.winWrite, dropHalf_of_none hh, h]

theorem winWrite_free {o : Nat} (h : s.winOffset k = some o) (ho : s.ownerOn (s.rd F.ECC_WIN_SEL.REGION) = false)
    (hc : s.eccCode (s.rd F.ECC_WIN_SEL.REGION) ≠ 2) (hf : s.on F.ECC_FLIP_CTRL.ARM = false) :
    s.winWrite who k v = s.setWord (s.rd F.ECC_WIN_SEL.REGION) (o / 8) ⟨v, 0, 0, false, false, none⟩ := by
  have hb : codeBytes (s.eccCode (s.rd F.ECC_WIN_SEL.REGION)) = 8 := if_neg hc
  simp [State.winWrite, dropHalf_of_none hh, h, ho, hb, eccStore_plain _ _ _ _ hf]

end

/-- What is known of a word is read without a register, the work handed on, or a held half changing. -/
theorem eccKnow_parts (s : State) (r w : Nat) :
    (s.eccKnow r w).2.regs = s.regs ∧ (s.eccKnow r w).2.acts = s.acts ∧ (s.eccKnow r w).2.ecc.halves = s.ecc.halves := by
  unfold State.eccKnow
  split
  · exact ⟨rfl, rfl, rfl⟩
  · cases bit s.ecc.used r <;> exact ⟨rfl, rfl, rfl⟩

/-- A word of the window holds a value. -/
def State.windowHolds (s : State) (r o v : Nat) : Prop :=
  (s.eccKnow r (o / codeBytes (s.eccCode r))).1.look (s.eccCode r) ≤ 1 ∧
    (s.eccKnow r (o / codeBytes (s.eccCode r))).1.data / 2 ^ (8 * (o % codeBytes (s.eccCode r))) % 2 ^ 64 = v

/-- While an owner of the region is enabled, a write that would change the word is refused. -/
theorem winWrite_owned {s : State} {who : Who} {k v o : Nat} (hh : ∀ x ∈ s.ecc.halves, x.1 ≠ who) (h : s.winOffset k = some o)
    (ho : s.ownerOn (s.rd F.ECC_WIN_SEL.REGION) = true) :
    let t := (s.eccKnow (s.rd F.ECC_WIN_SEL.REGION) (o / codeBytes (s.eccCode (s.rd F.ECC_WIN_SEL.REGION)))).2
    (s.windowHolds (s.rd F.ECC_WIN_SEL.REGION) o v → s.winWrite who k v = t) ∧
      (¬ s.windowHolds (s.rd F.ECC_WIN_SEL.REGION) o v → s.winWrite who k v = t.raise .CFG_REJECT) := by
  unfold State.windowHolds
  generalize hr : s.rd F.ECC_WIN_SEL.REGION = r at ho ⊢
  obtain ⟨hregs, -, hhalves⟩ := eccKnow_parts s r (o / codeBytes (s.eccCode r))
  have hdrop : (s.eccKnow r (o / codeBytes (s.eccCode r))).2.dropHalf who = (s.eccKnow r (o / codeBytes (s.eccCode r))).2 :=
    dropHalf_of_none (by rw [hhalves]; exact hh)
  have hcode : (s.eccKnow r (o / codeBytes (s.eccCode r))).2.eccCode r = s.eccCode r := congrArg (tabGetD · _ _) hregs
  simp only [State.winWrite, h, hr, ho, if_true, State.winHolds, hdrop, hcode, Bool.and_eq_true, decide_eq_true_eq, beq_iff_eq]
  exact ⟨fun hx => if_pos hx, fun hx => if_neg hx⟩

theorem writeReg_win {s : State} {who : Who} (k v : Nat) :
    s.writeReg who .ECC_WIN k v = s.rejectOnce (s.winWrite who k (v % 2 ^ 64)) := rfl

theorem writeReg_winSel {s : State} {who : Who} (v : Nat) :
    s.writeReg who .ECC_WIN_SEL 0 v = s.rejectOnce (s.winSel (bits v 63 1) (bits v 59 3) (bits v 0 8)) := rfl

theorem scrubRead_exec {s t : State} {r : Fin 8} {d c : Nat} {o : Option EObj} (hl : s.live = true) (e : s.scrubRead r.val d c o = t) :
    exec (.scrubRead r d c o) s = .next (s.settle t) := by
  change running s (fun s => s.scrubRead r.val d c o) = _
  exact running_eq hl e

theorem writeBack_exec {s t : State} {r : Fin 8} {k : Nat} (hl : s.live = true) (e : s.writeBack r.val k = t) :
    exec (.correctedWriteBack r k) s = .next (s.settle t) := by
  change running s (fun s => s.writeBack r.val k) = _
  exact running_eq hl e

theorem lapMissed_exec {s t : State} {r : Fin 8} (hl : s.live = true) (e : s.lapMissed r.val = t) :
    exec (.eccLapMissed r) s = .next (s.settle t) := by
  change running s (fun s => s.lapMissed r.val) = _
  exact running_eq hl e

theorem winRead_exec {s t : State} {who : Who} {k x : Nat} (h : s.serves who .ECC_WIN k = true) (e : s.winRead who k = (x, t)) :
    exec (.eccWinRead ⟨who, true⟩ k) s = .next (s.settle (t.emit (.regValue who x))) := by
  change powered s (fun s => s.sharedOut who .ECC_WIN k 0 0 true) = _
  exact powered_eq (pwrok_of_live (live_of_serves h)) (sharedOut_whole h rfl ((sharedRead_eccWin h 0 0).trans e))

theorem winWrite_exec {s t : State} {who : Who} {k v : Nat} (h : s.serves who .ECC_WIN k = true)
    (e : s.rejectOnce (s.winWrite who k (v % 2 ^ 64)) = t) : exec (.eccWinWrite who k v) s = .next (s.settle t) := by
  change powered s (fun s => s.regCmd who .ECC_WIN k v) = _
  exact regCmd_exec h ((writeReg_win k v).trans e)

/-- Settles O43. -/
theorem storedDataIsScrubbed : Obligations.StoredDataIsScrubbed := by
  intro s
  refine ⟨fun hl r => ?_, fun who v h => ?_, fun who k v h hh => ?_⟩
  · refine ⟨fun _ _ _ he => scrubRead_exec hl (by simp [State.scrubRead, he]), fun he hw => ⟨fun hn => ?_, fun hn => ?_⟩,
      fun d o he hn hc hw => scrubRead_exec hl (scrubRead_one o he hn hc hw),
      fun k => ⟨fun hk => writeBack_exec hl (writeBack_rests hk), fun x hx hb hf => writeBack_exec hl (writeBack_waits hx hb hf)⟩,
      fun hx => lapMissed_exec hl ?_, fun he hb hf => lapMissed_exec hl ?_⟩
    · exact scrubRead_exec hl ((scrubRead_unknown he hw).trans (if_pos hn))
    · exact scrubRead_exec hl ((scrubRead_unknown he hw).trans (if_neg (by omega)))
    · have hn : ¬ (s.en uECC = true ∧ s.rd F.ECC_SCRUB_CFG.LAP_UNITS * 1024 ≤ s.lapBeats r ∧
          (!s.on F.ECC_REGION_STATUS.FORCED r) = true) := by
        rintro ⟨he, hb, hf⟩
        obtain hx | hx | hx := hx
        · simp [hx] at he
        · omega
        · simp [hx] at hf
      exact if_neg hn
    · exact if_pos ⟨he, hb, by simp [hf]⟩
  · change powered s (fun s => s.regCmd who .ECC_WIN_SEL 0 v) = _
    exact regCmd_exec h ((writeReg_winSel v).trans (rejectOnce_of_acts rfl))
  · intro r
    refine ⟨fun hn => ⟨winRead_exec h (winRead_none hh hn), winWrite_exec h ?_⟩, ?_, fun o d x ho hr hw => winRead_exec h (winRead_clean hh ho hr hw),
      fun o ho => ⟨fun hon => ?_, fun hon hc hf => winWrite_exec h ?_⟩⟩
    · rw [winWrite_none hh hn]
      exact rejectOnce_of_one rfl
    · change powered s (fun s => s.sharedOut who .ECC_WIN k 0 0 false) = _
      exact powered_eq (pwrok_of_live (live_of_serves h)) (sharedOut_narrow h rfl 0 0)
    · obtain ⟨hin, hout⟩ := winWrite_owned (v := v % 2 ^ 64) hh ho hon
      obtain ⟨-, hacts, -⟩ := eccKnow_parts s r (o / codeBytes (s.eccCode r))
      refine ⟨fun hx => winWrite_exec h ?_, fun hx => winWrite_exec h ?_⟩
      · rw [hin hx]
        exact rejectOnce_of_acts hacts
      · rw [hout hx]
        exact rejectOnce_of_one (congrArg (· ++ _) hacts)
    · rw [winWrite_free hh ho hon hc hf]
      exact rejectOnce_of_acts rfl

end Sys2Proof.Machine
end

section
/-! Power states, wake causes, regulators and the Grain sample (14_power_thermal_wear.md, R390 to R393, R399, R403, R404). -/

namespace Sys2Proof.Machine

section
variable {s : State}

theorem powerEntry_rests (h : s.en uPWR = false ∨ s.exiting = true ∨ s.deepest ≤ s.pState ∨ s.pState = 4) : s.powerEntry = s := by
  unfold State.powerEntry
  rw [if_neg]
  rintro ⟨he, hx, hd, h4⟩
  obtain h | h | h | h := h
  · simp [h] at he
  · simp [h] at hx
  · omega
  · omega

/-- Shallow of P3 no attachment enters L1. -/
theorem powerEntry_shallow (he : s.en uPWR = true) (hx : s.exiting = false) (hd : s.pState < s.deepest) (h4 : s.pState < 4)
    (h : s.deepest < 3) : s.powerEntry = (s.wr F.PWR_STATE.STATE s.deepest).modPwr (fun p => { p with
      gated := if s.deepest = 1 then 65535 - p.bays % 65536 else 65535 }) := by
  unfold State.powerEntry
  simp only [he, hx, hd, h4, show ¬ 3 ≤ s.deepest by omega, h, Bool.not_false, and_self, if_true, if_false]

theorem powerEntry_deep (he : s.en uPWR = true) (hx : s.exiting = false) (hd : s.pState < s.deepest) (h4 : s.pState < 4)
    (h : 3 ≤ s.deepest) : s.powerEntry = ((s.pick 16).2.wr F.PWR_STATE.STATE s.deepest).modPwr (fun p => { p with
      gated := 65535
      l1 := (((bitsSet 4 (s.pick 16).1).filter (fun a => s.pfExists a && s.linkUpPf a)).map (fun a => 2 ^ a)).sum }) := by
  unfold State.powerEntry
  simp only [he, hx, hd, h4, h, show ¬ s.deepest < 3 by omega, show ¬ s.deepest = 1 by omega, Bool.not_false, and_self, if_true, if_false]
  rfl

theorem wake_p0 (bay : Option Nat) (h : s.pState = 0) : s.wake bay = s := by
  simp [State.wake, h]

theorem wake_p1_none (h : s.pState = 1) : s.wake none = s := by
  simp [State.wake, h]

theorem wake_p1_bay (b : Nat) (h : s.pState = 1) : s.wake (some b) = s.modPwr (fun p => { p with gated := clrBit p.gated b }) := by
  simp [State.wake, h]

theorem wake_deep (bay : Option Nat) (h : 1 < s.pState) : s.wake bay = s.wr F.PWR_STATE.EXITING 1 := by
  have h0 : s.pState ≠ 0 := by omega
  unfold State.wake
  split
  · omega
  · omega
  · simp [State.toP0, h0]

theorem grainSample_rests (rs : List (Option Nat)) (day : Bool) (h : s.en uGRN = false ∨ s.grn.since < 65536) : s.grainSample rs day = s := by
  unfold State.grainSample
  rw [if_pos (h.imp_left fun he => by simp [he])]

/-- The inputs of a Grain sample, read one by one. -/
def State.grainInputs (s : State) (rs : List (Option Nat)) (day : Bool) : State :=
  foldS (List.range 5) (s.modGrn (fun g => { g with since := 0 })) (fun t i => t.grainInput i (t.grainReads rs i) day)

/-- Whether the spares run low, as input 3 reads (R415). -/
def State.sparesLow (s : State) (rs : List (Option Nat)) : Bool :=
  match rs.getD 3 none with
  | some _ => decide (750 ≤ 1000 * s.grn.repairs / Config.spareElements)
  | none => s.grn.spares

theorem grainReads_spares (t : State) (rs : List (Option Nat)) :
    t.grainReads rs 3 = (rs.getD 3 none).map (fun _ => 1000 * t.grn.repairs / Config.spareElements) := by
  simp [State.grainReads]

theorem grainSample_due {rs : List (Option Nat)} {day : Bool} (he : s.en uGRN = true) (h : 65536 ≤ s.grn.since) :
    let t := s.grainInputs rs day
    s.grainSample rs day =
      (if t.sparesLow rs = true ∧ t.grn.spares = false then (t.modGrn (fun g => { g with spares := t.sparesLow rs })).raise .GRN_SPARES_LOW
      else t.modGrn (fun g => { g with spares := t.sparesLow rs })).grainReport := by
  have hn : ¬ ((!s.en uGRN) = true ∨ s.grn.since < 65536) := by
    rintro (h' | h')
    · simp [he] at h'
    · omega
  dsimp only
  unfold State.grainSample
  rw [if_neg hn]
  unfold State.sparesLow State.grainInputs
  cases h3 : rs.getD 3 none <;> simp only [grainReads_spares, h3, Option.map_none, Option.map_some, Bool.not_eq_true']

end

theorem wakeCause_exec {s t : State} {bay : Option (Fin 16)} (hl : s.live = true) (e : s.wake (bay.map (fun b => b.val)) = t) :
    exec (.wakeCause bay) s = .next (s.settle t) := by
  change running s (fun s => s.wake (bay.map (fun b => b.val))) = _
  exact running_eq hl e

theorem grainSample_exec {s t : State} {rs : List (Option Nat)} {day : Bool} (hl : s.live = true) (e : s.grainSample rs day = t) :
    exec (.grainSample rs day) s = .next (s.settle t) := by
  change running s (fun s => s.grainSample rs day) = _
  exact running_eq hl e

/-- Settles O46. -/
theorem powerStatesAndWear : Obligations.PowerStatesAndWear := by
  intro s hl
  refine ⟨fun h => ?_, fun he hx hd h4 => ⟨fun h => ?_, fun h => ?_⟩, fun bay h => wakeCause_exec hl (wake_p0 _ h),
    fun h => wakeCause_exec hl (wake_p1_none h), fun b h => wakeCause_exec hl (wake_p1_bay _ h), fun bay h => wakeCause_exec hl (wake_deep _ h),
    fun h => ?_, fun h => ?_, fun i => ?_, fun rs day => ⟨fun h => grainSample_exec hl (grainSample_rests rs day h), fun he h => ?_⟩⟩
  · change running s State.powerEntry = _
    exact running_eq hl (powerEntry_rests h)
  · change running s State.powerEntry = _
    exact running_eq hl (powerEntry_shallow he hx hd h4 h)
  · change running s State.powerEntry = _
    exact running_eq hl (powerEntry_deep he hx hd h4 h)
  · change running s State.wakeComplete = _
    exact running_eq hl (if_neg (by simp [h]))
  · change running s State.wakeComplete = _
    exact running_eq hl (if_pos h)
  · change running s (fun s => s.vrFault i.val) = _
    exact running_eq hl rfl
  · refine grainSample_exec hl ?_
    exact grainSample_due he h

end Sys2Proof.Machine
end

section
/-! The phases of boot (15_reset_and_bringup.md, R409, R411 to R416). -/

namespace Sys2Proof.Machine

section
variable {s : State}

theorem romEnd_other (fuse pll parity : Bool) (h : s.phase ≠ phRom) : s.romEnd fuse pll parity = s :=
  if_pos (by simpa using h)

theorem romEnd_rom (fuse pll parity : Bool) (h : s.phase = phRom) :
    s.romEnd fuse pll parity =
      (let t1 := if pll then s else s.raise .GLB_CORE_PLL
       let t2 := if parity then t1.raise .GLB_CFGNET else t1
       let t3 := if fuse then t2 else t2.raise .GLB_FUSE
       t3.wr F.GLB_BOOT_STATUS.PHASE phFirmware) :=
  if_neg (by simp [h])

/-- The Foreman's firmware runs from slot `k`. -/
def State.fwRuns (s : State) (k : Nat) : State :=
  ((s.wr F.GLB_BOOT_STATUS.FW_SLOT k).wrFmn F.FMN_INFO.STATE fmRunning).wrFmn F.FMN_INFO.FW_VERSION (leNat (s.flashRead (0x200000 * k + 16) 4))

/-- No slot passed. -/
def State.fwRecovers (s : State) : State :=
  ((((s.raise .FMN_FW_REJECT).raise .FMN_FW_REJECT).wr F.GLB_BOOT_STATUS.FW_SLOT 2).wrFmn F.FMN_INFO.STATE fmRecovery).wrFmn F.FMN_INFO.FW_VERSION 0

theorem fwSelect_first (h : s.fwOk 0 = true) : s.fwSelect = s.fwRuns 0 := if_pos h

theorem fwSelect_second (h0 : s.fwOk 0 = false) (h1 : s.fwOk 1 = true) : s.fwSelect = (s.raise .FMN_FW_REJECT).fwRuns 1 := by
  have h1' : (s.raise .FMN_FW_REJECT).fwOk 1 = true := h1
  unfold State.fwSelect
  simp only [h0, h1', Bool.false_eq_true, if_false, if_true]
  rfl

theorem fwSelect_none (h0 : s.fwOk 0 = false) (h1 : s.fwOk 1 = false) : s.fwSelect = s.fwRecovers := by
  have h1' : (s.raise .FMN_FW_REJECT).fwOk 1 = false := h1
  unfold State.fwSelect
  simp only [h0, h1', Bool.false_eq_true, if_false]
  rfl

theorem firmwareEnd_other (h : s.phase ≠ phFirmware) : s.firmwareEnd = s := if_pos (by simpa using h)

theorem firmwareEnd_firmware (h : s.phase = phFirmware) :
    s.firmwareEnd = s.fwSelect.wr F.GLB_BOOT_STATUS.PHASE (if s.pins.warm then phReset else phBist) := if_neg (by simp [h])

/-- The restart of the Foreman ends its unit reset, but for one that a reset or boot in progress absorbs (R422). -/
theorem foremanDone_restarting (hp : s.pins.pwrok = true) (h : s.rd F.FMN_INFO.STATE = fmRestarting) :
    s.foremanDone = if s.phase ≠ phRunning ∧ s.spill = false then s.fwSelect else s.fwSelect.setBusy uFMN false := by
  simp [State.foremanDone, h, State.resetting, hp]

theorem bistEnd_other (repairs bad bays : Nat) (h : s.phase ≠ phBist ∨ s.spill = true) : s.bistEnd repairs bad bays = s :=
  if_pos (by simpa using h)

/-- A unit, or an engine bay, that BIST could not repair is contained. -/
def State.bistContains (s : State) (l : List Nat) : State := foldS l s (fun t i => (t.raise .GLB_BIST_FAIL i).containUnit i)

theorem bistContains_append (s : State) (us ns : List Nat) :
    s.bistContains (us ++ ns.map (fun n => 24 + n)) =
      foldS ns (s.bistContains us) (fun t n => (t.raise .GLB_BIST_FAIL (24 + n)).containUnit (24 + n)) := by
  simp only [State.bistContains, foldS, List.foldl_append, List.foldl_map]

/-- The state in which BIST leaves the memories and its counts. -/
def State.bistSwept (s : State) (repairs : Nat) (ns : List Nat) : State :=
  (({ s with ecc := Ecc.init, enginesDown := [], boot := { s.boot with contained := 0 } } : State).wr F.GLB_BOOT_STATUS.REPAIRS
    (min repairs 255)).wr F.GLB_BOOT_STATUS.BAD_BAYS ((ns.map (fun n => 2 ^ n)).sum)

theorem bistEnd_bist (repairs bad bays : Nat) (h : s.phase = phBist) (hs : s.spill = false) :
    let us := (((bitsSet 8 bad).flatMap bistUnits).eraseDups).filter (fun u => s.fitted u)
    let ns := (bitsSet 16 bays).filter (fun n => s.fitted (24 + n))
    let t := (s.bistSwept repairs ns).bistContains (us ++ ns.map (fun n => 24 + n))
    s.bistEnd repairs bad bays =
      ({ t with grn := { t.grn with repairs := repairs }, trs := { t.trs with cand := t.trs.pushed, pushed := none } } : State).wr
        F.GLB_BOOT_STATUS.PHASE phLoad := by
  intro us ns t
  have ht : t = _ := bistContains_append _ us ns
  rw [ht]
  exact if_neg (by simp [h, hs])

theorem loadEnd_other (ms : Nat) (h : s.phase ≠ phLoad ∨ s.spill = true) : s.loadEnd ms = s := if_pos (by simpa using h)

/-- The images that LOAD tries, in their order (R48). -/
def State.bootImages (s : State) : List (Nat × Nat × Bytes) :=
  (match s.trs.cand with
    | some b => [(orgFull, 3, b)]
    | none => []) ++ [(orgSlot0, 1, s.slotBytes 0), (orgSlot1, 2, s.slotBytes 1)]

/-- LOAD with the outcome of its candidates. -/
theorem loadEnd_load (ms : Nat) (h : s.phase = phLoad) (hs : s.spill = false) :
    let tried := s.tryImages s.bootImages
    let t : State := { tried.2 with trs := { tried.2.trs with cand := none } }
    (t.spill = true → s.loadEnd ms = t) ∧
      (t.spill = false → tried.1 = none → s.loadEnd ms = ((t.wr F.TRS_STATUS.STATE 1).enterRunning ms).endAbsorbed) ∧
      (∀ (i : Img) (source : Nat), t.spill = false → tried.1 = some (i, source) →
        s.loadEnd ms = ((t.loadImage i source).enterRunning ms).endAbsorbed) := by
  intro tried t
  have run : s.loadEnd ms =
      (if t.spill = true then t else
        (State.enterRunning (match tried.1 with
          | some (i, source) => t.loadImage i source
          | none => t.wr F.TRS_STATUS.STATE 1) ms).endAbsorbed) := if_neg (by simp [h, hs])
  refine ⟨fun hsp => ?_, fun hsp hi => ?_, fun i source hsp hi => ?_⟩
  · rw [run, if_pos hsp]
  · rw [run, if_neg (by simp [hsp]), hi]
  · rw [run, if_neg (by simp [hsp]), hi]

end

/-- Settles O48. -/
theorem bootPhasesFollow : Obligations.BootPhasesFollow := by
  intro s hp
  refine ⟨fun fuse pll parity => ?_, ?_, fun repairs bad bays => ?_, fun ms => ?_⟩
  · have run : ∀ {t : State}, s.romEnd fuse pll parity = t → exec (.rom fuse pll parity) s = .next (s.settle t) := fun e => by
      change powered s (fun s => s.romEnd fuse pll parity) = _
      exact powered_eq hp e
    exact ⟨fun h => run (romEnd_other _ _ _ h), fun h => run (romEnd_rom _ _ _ h)⟩
  · have fw : ∀ {t : State}, s.firmwareEnd = t → exec .firmware s = .next (s.settle t) := fun e => by
      change powered s State.firmwareEnd = _
      exact powered_eq hp e
    have re : ∀ {t : State}, s.foremanDone = t → exec .foremanRestartDone s = .next (s.settle t) := fun e => by
      change powered s State.foremanDone = _
      exact powered_eq hp e
    have dog : ∀ {t : State}, s.watchdog = t → exec .watchdogExpire s = .next (s.settle t) := fun e => by
      change powered s State.watchdog = _
      exact powered_eq hp e
    refine ⟨fun h => fw (firmwareEnd_other h), fun h => ⟨fun h0 => fw ?_, fun h0 h1 => fw ?_, fun h0 h1 => fw ?_⟩, fun h => re (if_neg h),
      fun h => ⟨fun h0 => re ?_, fun h0 h1 => re ?_, fun h0 h1 => re ?_⟩, fun h => dog (if_neg (by simp [h])), fun h => dog (if_pos (by simp [hp, h]))⟩
    · rw [firmwareEnd_firmware h, fwSelect_first h0]
      rfl
    · rw [firmwareEnd_firmware h, fwSelect_second h0 h1]
      rfl
    · rw [firmwareEnd_firmware h, fwSelect_none h0 h1]
      rfl
    · rw [foremanDone_restarting hp h, fwSelect_first h0]
      rfl
    · rw [foremanDone_restarting hp h, fwSelect_second h0 h1]
      rfl
    · rw [foremanDone_restarting hp h, fwSelect_none h0 h1]
      rfl
  · have run : ∀ {t : State}, s.bistEnd repairs bad bays = t → exec (.bist repairs bad bays) s = .next (s.settle t) := fun e => by
      change powered s (fun s => s.bistEnd repairs bad bays) = _
      exact powered_eq hp e
    exact ⟨fun h => run (bistEnd_other _ _ _ h), fun h hs => run (bistEnd_bist _ _ _ h hs)⟩
  · have run : ∀ {t : State}, s.loadEnd ms = t → exec (.load ms) s = .next (s.settle t) := fun e => by
      change powered s (fun s => s.loadEnd ms) = _
      exact powered_eq hp e
    refine ⟨fun h => run (loadEnd_other _ h), fun h hs => ?_⟩
    obtain ⟨h1, h2, h3⟩ := loadEnd_load ms h hs
    exact ⟨fun hsp => run (h1 hsp), fun hsp hi => run (h2 hsp hi), fun i source hsp hi => run (h3 i source hsp hi)⟩

end Sys2Proof.Machine
end

section
/-! Resets asked for while the device runs, ROUTES_READY, and slot checks (R74, R411, R417 to R421, Table 15.13). -/

namespace Sys2Proof.Machine

/-- A command that runs `f` on a powered device ends with what `f` leaves. -/
theorem exec_of_powered {c : Instr} {s t : State} (f : State → State) (run : exec c s = powered s f) (hp : s.pins.pwrok = true)
    (e : f s = t) : exec c s = .next (s.settle t) := run.trans (powered_eq hp e)

/-! ### Unit resets -/

theorem bitsSet_unit (u : Fin 19) : bitsSet 19 (2 ^ u.val) = [u.val] := by
  revert u; decide

theorem unitMask_bits (u : Fin 19) :
    (bit (2 ^ u.val) 0 || bit (2 ^ u.val) 2 || bit (2 ^ u.val) 15) = (u.val == 0 || u.val == 2 || u.val == 15) := by
  revert u; decide

section
variable {s : State} {u : Fin 19}

/-- The units that a request of one unit acts on. -/
theorem unitMask_one : s.unitMask (2 ^ u.val) =
    if (u.val == 0 || u.val == 2 || u.val == 15) = false ∧ s.fitted u.val = true then [unitNorm u.val] else [] := by
  simp only [State.unitMask, bitsSet_unit, List.filter_cons, List.filter_nil]
  cases (u.val == 0 || u.val == 2 || u.val == 15) <;> cases s.fitted u.val <;> simp [List.eraseDups_cons]

theorem unitResets_zero (hr : s.resetting = false) : s.unitResets 0 = s := by
  simp [State.unitResets, bitsSet_zero, State.unitMask, hr, foldS, bit]

/-- A request for a unit that has no reset of its own. -/
theorem unitResets_bare (hr : s.resetting = false) (hf : s.fitted u.val = true) (hu : u.val = 0 ∨ u.val = 2 ∨ u.val = 15) :
    s.unitResets (2 ^ u.val) = s.raise .CFG_REJECT := by
  have hb : (u.val == 0 || u.val == 2 || u.val == 15) = true := by simpa [or_assoc] using hu
  have hf' : (s.raise .CFG_REJECT).fitted u.val = true := hf
  have hr' : (s.raise .CFG_REJECT).resetting = false := hr
  simp [State.unitResets, unitMask_bits, hb, bitsSet_unit, hf', unitMask_one, hr', foldS]

section
variable (hr : s.resetting = false) (h0 : u.val ≠ 0) (h2 : u.val ≠ 2) (h15 : u.val ≠ 15)
include hr h0 h2 h15

theorem unitResets_absent (hf : s.fitted u.val = false) : s.unitResets (2 ^ u.val) = s.raise .CFG_ABSENT := by
  have hf' : (s.raise .CFG_ABSENT).fitted u.val = false := hf
  have hr' : (s.raise .CFG_ABSENT).resetting = false := hr
  simp [State.unitResets, unitMask_bits, h0, h2, h15, bitsSet_unit, hf, hf', unitMask_one, hr', foldS]

theorem unitResets_one (hf : s.fitted u.val = true) : s.unitResets (2 ^ u.val) = s.unitStart (unitNorm u.val) := by
  simp [State.unitResets, unitMask_bits, h0, h2, h15, bitsSet_unit, hf, unitMask_one, hr, foldS]

end
end

/-- A unit that is being reset already is not reset again. -/
theorem unitStart_busy {s : State} {u : Nat} (h : s.unitBusy u = true) : s.unitStart u = s := if_pos h

/-- The reset of a unit begins: BUSY is set, its group's staged values and hold are dropped. -/
def State.unitDropped (s : State) (u : Nat) : State :=
  let t := (s.setBusy u true).dropShadow (groupOfUnit u)
  t.wr F.BEA_COMMIT_HOLD.HOLD (clrBit (t.rd F.BEA_COMMIT_HOLD.HOLD) (groupOfUnit u))

theorem unitStart_foreman {s : State} (h : s.unitBusy uFMN = false) : s.unitStart uFMN = (s.unitDropped uFMN).foremanRestart := by
  simp only [State.unitStart, h, Bool.false_eq_true, if_false, if_true]
  rfl

theorem unitStart_idle {s : State} {u : Nat} (h : s.unitBusy u = false) (hu : u ≠ uFMN) : s.unitStart u =
    (match enableFld u with
      | some f => (s.unitDropped u).wr f 0
      | none => s.unitDropped u).unitClear u := by
  simp only [State.unitStart, h, Bool.false_eq_true, if_false, hu]
  rfl

theorem unitNorm_foreman (u : Fin 19) : unitNorm u.val = uFMN ↔ u.val = uFMN := by
  revert u; decide

theorem unitDone_rests {s : State} {u : Nat} (hp : s.pins.pwrok = true)
    (h : s.unitBusy (unitNorm u) = false ∨ unitNorm u = uFMN ∨ (s.phase ≠ phRunning ∧ s.spill = false)) : s.unitDone u = s := by
  refine if_pos ?_
  obtain h | h | ⟨hr, hs⟩ := h
  · simp [h]
  · simp [h]
  · simp [State.resetting, hp, hr, hs]

theorem unitDone_ends {s : State} {u : Nat} (hb : s.unitBusy (unitNorm u) = true) (hu : unitNorm u ≠ uFMN)
    (h : s.phase = phRunning ∨ s.spill = true) : s.unitDone u =
      let t := s.setBusy (unitNorm u) false
      if (t.unitImaged (unitNorm u) && !t.isContained (unitNorm u) && !t.spill) = true then t.unitOn (unitNorm u) else t := by
  refine if_neg ?_
  have hr : (s.resetting && !s.spill) = false := by
    obtain h | h := h <;> simp [State.resetting, h]
  simp [hb, hu, hr]

/-! ### Port resets, device resets, ROUTES_READY and slot checks -/

theorem portResets_zero (s : State) : s.portResets 0 = s := by
  simp [State.portResets, bitsSet_zero, foldS]

theorem portResets_one {s : State} (hr : s.resetting = false) (p : Port) : s.portResets (2 ^ p.val) = s.portReset p.val := by
  simp [State.portResets, hr, bitsSet_one p, foldS]

theorem deviceReset_of_live {s : State} (h : s.live = true) (cause : Nat) : s.deviceReset cause = s.deviceEntry cause :=
  if_neg (by simp [pwrok_of_live h, spill_of_live h, not_resetting_of_live h])

/-- A device reset leaves no work from before it. -/
theorem deviceEntry_acts (s : State) (cause : Nat) : (s.deviceEntry cause).acts = [] := by
  unfold State.deviceEntry
  dsimp only
  generalize State.keepRegs _ = u
  rw [avsSend_keeps (fun s => s.acts) (fun _ _ _ => rfl)]

theorem rejectOnce_of_nil {s t : State} (h : t.acts = []) : s.rejectOnce t = t := by
  unfold State.rejectOnce
  simp only [h, List.take_nil, List.drop_nil, onceReject, List.append_nil]
  rw [← h]

theorem bitsSet_slot (k : Fin 2) : bitsSet 2 (2 ^ k.val) = [k.val] := by
  revert k; decide

/-- Only the two low bits of a mask name slots. -/
theorem bitsSet_mod (n x : Nat) : bitsSet n (x % 2 ^ n) = bitsSet n x := by
  unfold bitsSet
  exact List.filter_congr fun i hi => bit_mod (List.mem_range.1 hi)

theorem slotChecked_busy {s : State} {k : Nat} (h : bit (s.rd F.TRS_SLOT_CHECK.BUSY) k = true) : ∃ n : Nat,
    s.slotChecked k = (s.wr (if k = 0 then F.TRS_SLOT_CHECK.SLOT0_CHECK else F.TRS_SLOT_CHECK.SLOT1_CHECK) n).wr F.TRS_SLOT_CHECK.BUSY
      (clrBit (s.rd F.TRS_SLOT_CHECK.BUSY) k) ∧
    (∀ i : Img, (checkImage (s.chkEnv 1048576) false (s.slotBytes k)).1 = .ok i → n = 0) ∧
    (∀ e : Reject, (checkImage (s.chkEnv 1048576) false (s.slotBytes k)).1 = .error e → n = e.check) := by
  have hr : ∀ n, (s.wr (if k = 0 then F.TRS_SLOT_CHECK.SLOT0_CHECK else F.TRS_SLOT_CHECK.SLOT1_CHECK) n).rd F.TRS_SLOT_CHECK.BUSY =
      s.rd F.TRS_SLOT_CHECK.BUSY := by
    intro n
    split <;> exact rd_wr_lo _ _ _ _ (by decide)
  unfold State.slotChecked
  rcases checkImage (s.chkEnv 1048576) false (s.slotBytes k) with ⟨e | i, sk⟩
  · refine ⟨e.check, ?_, fun _ hi => (by cases hi), fun _ he => (by cases he; rfl)⟩
    simp only [h, Bool.not_true, Bool.false_eq_true, if_false, hr]
  · refine ⟨0, ?_, fun _ _ => rfl, fun _ he => (by cases he)⟩
    simp only [h, Bool.not_true, Bool.false_eq_true, if_false, hr]

/-- ROUTES_READY, once it reads 1, is not taken back; set, it lets the ports that wait for it give their credits. -/
theorem writeReg_routesReady (s : State) (who : Who) {v : Nat} (hv : v < 2) :
    s.writeReg who .GLB_BOOT_CTRL 0 (s.fieldWord who F.GLB_BOOT_CTRL.ROUTES_READY 0 v) = s.rejectOnce
      (if v = s.rd F.GLB_BOOT_CTRL.ROUTES_READY then s else if v = 0 then s.raise .CFG_REJECT
        else (s.wr F.GLB_BOOT_CTRL.ROUTES_READY v).grantAll) := by
  have hb := bits_fieldWord s who F.GLB_BOOT_CTRL.ROUTES_READY (r := .GLB_BOOT_CTRL) rfl 0 v (by decide) _
    (show F.GLB_BOOT_CTRL.ROUTES_READY ∈ Reg.fields .GLB_BOOT_CTRL by decide)
  rw [if_pos rfl, Nat.mod_eq_of_lt (show v < 2 ^ F.GLB_BOOT_CTRL.ROUTES_READY.w from hv)] at hb
  have hc : s.cellOf who .GLB_BOOT_CTRL 0 = (0, 0) := by
    rw [cellOf_of_not_ring _ _ _ _ rfl]
    cases who <;> rfl
  have hw : ∀ w, s.writeReg who .GLB_BOOT_CTRL 0 w = s.rejectOnce
      (rejectIf (s.putField who (s.cellOf who .GLB_BOOT_CTRL 0).1 (s.cellOf who .GLB_BOOT_CTRL 0).2 w (s, false) F.GLB_BOOT_CTRL.ROUTES_READY)) :=
    fun w => rfl
  have hh : s.heldVal F.GLB_BOOT_CTRL.ROUTES_READY 0 0 = s.rd F.GLB_BOOT_CTRL.ROUTES_READY := rfl
  rw [hw, hc]
  generalize s.fieldWord who F.GLB_BOOT_CTRL.ROUTES_READY 0 v = w at hb ⊢
  have hbad : s.fieldBad who F.GLB_BOOT_CTRL.ROUTES_READY 0 v w = (v == 0) := by
    have he : F.GLB_BOOT_CTRL.ROUTES_READY.isEnable = false := by decide
    have h1 : s.driven F.GLB_BOOT_CTRL.ROUTES_READY 0 = false := rfl
    have h2 : s.fabricBad F.GLB_BOOT_CTRL.ROUTES_READY 0 v w = false := rfl
    have h3 : s.hostBad who F.GLB_BOOT_CTRL.ROUTES_READY 0 v w = false := rfl
    have h4 : s.ownBad F.GLB_BOOT_CTRL.ROUTES_READY 0 v w = (v == 0) := rfl
    simp [State.fieldBad, he, h1, h2, h3, h4]
  congr 1
  by_cases h0 : v = s.rd F.GLB_BOOT_CTRL.ROUTES_READY
  · simp only [State.putField, hb, hh, if_pos h0, rejectIf, Bool.false_eq_true, if_false]
  · by_cases hz : v = 0
    · subst hz
      simp only [State.putField, hb, hh, if_neg h0, hbad, beq_self_eq_true, if_true, rejectIf]
    · have hz' : (v == 0) = false := by simpa using hz
      have hl : s.putL F.GLB_BOOT_CTRL.ROUTES_READY 0 0 v = (s.wr F.GLB_BOOT_CTRL.ROUTES_READY v).grantAll := by
        unfold State.putL
        rw [if_neg (by decide)]
        rfl
      simp only [State.putField, hb, hh, if_neg h0, hbad, hz', hz, Bool.false_eq_true, if_false, rejectIf, reduceCtorEq, hl]

theorem routesReady_exec {s t : State} {who : Who} {on : Bool} (h : s.serves who .GLB_BOOT_CTRL 0 = true)
    (e : s.writeReg who .GLB_BOOT_CTRL 0 (s.fieldWord who F.GLB_BOOT_CTRL.ROUTES_READY 0 (b2n on)) = t) :
    exec (.routesReady who on) s = .next (s.settle t) :=
  exec_of_powered (fun s => s.fieldCmd who F.GLB_BOOT_CTRL.ROUTES_READY 0 (b2n on)) rfl (pwrok_of_live (live_of_serves h))
    ((regCmd_of_serves _ h).trans e)

/-- Settles O49. -/
theorem resetsWhileRunning : Obligations.ResetsWhileRunning := by
  intro s who v
  refine ⟨fun h => ?_, fun h => ?_, fun h => ?_, fun h => ?_, fun h => ?_, fun hp => ⟨fun k => ⟨fun hb => ?_, fun hb => ?_⟩, fun u => ⟨fun hu => ?_,
    fun hb hu hr => ⟨fun hi => ?_, fun hi => ?_⟩⟩, fun parity => ⟨?_, fun hf ok => ?_, fun hf => ?_⟩⟩⟩
  · have hw : s.writeReg who .GLB_DEVICE_RESET 0 v = s.rejectOnce (s.resetReq v) := rfl
    have run : ∀ {t : State}, s.rejectOnce (s.resetReq v) = t → exec (.glbDeviceReset who v) s = .next (s.settle t) :=
      fun e => regCmd_exec h (hw.trans e)
    refine ⟨fun hb => run ?_, fun hb hk => run ?_, fun hb hk => run ?_⟩
    · rw [State.resetReq, if_pos (by simp [hb])]
      exact rejectOnce_of_acts rfl
    · rw [State.resetReq, if_neg (by simp [hb]), if_neg hk]
      exact rejectOnce_of_one rfl
    · rw [State.resetReq, if_neg (by simp [hb]), if_pos hk, deviceReset_of_live (live_of_serves h)]
      exact rejectOnce_of_nil (deviceEntry_acts s 2)
  · have hr := not_resetting_of_live (live_of_serves h)
    have hw : s.writeReg who .GLB_UNIT_RESET 0 v = s.rejectOnce (s.unitResets (v % 2 ^ 19)) := rfl
    have run : ∀ {t : State}, s.rejectOnce (s.unitResets (v % 2 ^ 19)) = t → exec (.glbUnitReset who v) s = .next (s.settle t) :=
      fun e => regCmd_exec h (hw.trans e)
    refine ⟨fun hz => run ?_, fun u hu => ⟨fun hf hx => run ?_, fun hf h0 h2 h15 => run ?_, fun hf h0 h2 h15 hb => run ?_,
      fun hf h0 h2 h15 hne hb => ?_, fun hfm hf hb => run ?_⟩⟩
    · rw [hz, unitResets_zero hr]
      exact rejectOnce_of_acts rfl
    · rw [hu, unitResets_bare hr hf hx]
      exact rejectOnce_of_one rfl
    · rw [hu, unitResets_absent hr h0 h2 h15 hf]
      exact rejectOnce_of_one rfl
    · rw [hu, unitResets_one hr h0 h2 h15 hf, unitStart_busy hb]
      exact rejectOnce_of_acts rfl
    · refine run ?_
      rw [hu, unitResets_one hr h0 h2 h15 hf, unitStart_idle hb (mt (unitNorm_foreman u).1 hne)]
      rfl
    · have h18 : u.val = 18 := hfm
      rw [hu, unitResets_one hr (by omega) (by omega) (by omega) (hfm ▸ hf), (unitNorm_foreman u).2 hfm, unitStart_foreman hb]
      rfl
  · have hw : s.writeReg who .GLB_PORT_RESET 0 v = s.rejectOnce (s.portResets (v % 2 ^ 64)) := rfl
    have run : ∀ {t : State}, s.rejectOnce (s.portResets (v % 2 ^ 64)) = t → exec (.glbPortReset who v) s = .next (s.settle t) :=
      fun e => regCmd_exec h (hw.trans e)
    refine ⟨fun hz => run ?_, fun p hv => run ?_⟩
    · rw [hz, portResets_zero]
      exact rejectOnce_of_acts rfl
    · rw [hv, portResets_one (not_resetting_of_live (live_of_serves h))]
  · have one := writeReg_routesReady s who (v := 1) (by omega)
    have zero := writeReg_routesReady s who (v := 0) (by omega)
    refine ⟨fun h0 => ⟨routesReady_exec h (zero.trans ?_), routesReady_exec h (one.trans ?_)⟩,
      fun h1 => ⟨routesReady_exec h (one.trans ?_), routesReady_exec h (zero.trans ?_)⟩⟩
    · rw [if_pos h0.symm]
      exact rejectOnce_of_acts rfl
    · rw [if_neg (by omega), if_neg (by omega)]
    · rw [if_pos h1.symm]
      exact rejectOnce_of_acts rfl
    · rw [if_neg (by omega), if_pos rfl]
      exact rejectOnce_of_one rfl
  · have hw : s.writeReg who .TRS_SLOT_CHECK 0 v = s.rejectOnce (foldS (bitsSet 2 (v / 2 ^ 18)) s (fun s k => s.slotStart k)) := rfl
    have run : ∀ {t : State}, s.rejectOnce (foldS (bitsSet 2 (v / 2 ^ 18 % 2 ^ 2)) s (fun s k => s.slotStart k)) = t →
        exec (.trsSlotCheck who v) s = .next (s.settle t) := fun e => regCmd_exec h (hw.trans (by rw [← bitsSet_mod, e]))
    refine ⟨fun hz => run ?_, fun k hk => run ?_⟩
    · rw [show v / 2 ^ 18 % 2 ^ 2 = 0 from hz, bitsSet_zero]
      exact rejectOnce_of_acts rfl
    · rw [show v / 2 ^ 18 % 2 ^ 2 = 2 ^ k.val from hk, bitsSet_slot]
      exact rejectOnce_of_acts rfl
  · exact exec_of_powered (fun s => s.slotChecked k.val) rfl hp (if_pos (by simp [hb]))
  · obtain ⟨n, hn, hok, herr⟩ := slotChecked_busy hb
    exact ⟨n, exec_of_powered (fun s => s.slotChecked k.val) rfl hp hn, hok, herr⟩
  · exact exec_of_powered (fun s => s.unitDone u.val) rfl hp (unitDone_rests hp hu)
  · obtain ⟨hm, hc, hs⟩ := hi
    exact exec_of_powered (fun s => s.unitDone u.val) rfl hp ((unitDone_ends hb hu hr).trans (if_pos (by simp [hm, hc, hs])))
  · refine exec_of_powered (fun s => s.unitDone u.val) rfl hp ((unitDone_ends hb hu hr).trans (if_neg ?_))
    obtain hi | hi | hi := hi <;> simp [hi]
  · exact exec_of_powered (fun s => s.pllLost parity) rfl hp (if_neg (by simp [hp]))
  · exact exec_of_powered (fun s => s.fuseRead ok parity) rfl hp (if_pos (by simp [hf]))
  · have hn : ¬ (!s.pins.pwrok || decide (s.boot.fuseBeats < 1048576)) = true := by
      simp [hp]
      omega
    exact ⟨exec_of_powered (fun s => s.fuseRead true parity) rfl hp (if_neg hn),
      exec_of_powered (fun s => s.fuseRead false parity) rfl hp (if_neg hn)⟩

end Sys2Proof.Machine
end

section
/-! A request of the Foreman mailbox, from its arrival to its execution (R424, Tables 15.9 and 15.9a). -/

namespace Sys2Proof.Machine

/-! ### Bytes, least significant first -/

@[simp] theorem leBytes_length (n x : Nat) : (leBytes n x).length = n := by
  induction n generalizing x with
  | zero => rfl
  | succ n ih => simp [leBytes, ih]

theorem leNat_leBytes (n x : Nat) : leNat (leBytes n x) = x % 256 ^ n := by
  induction n generalizing x with
  | zero => simp [leBytes, leNat, Nat.mod_one]
  | succ n ih =>
    simp only [leBytes, leNat, BitVec.toNat_ofNat, ih, Nat.pow_succ']
    exact (Nat.mod_mul (x := x) (a := 256)).symm

/-- What is read where the first part of a list ends is read at the start of the rest. -/
theorem leAt_append_right (b r : Bytes) (k n : Nat) : leAt (b ++ r) (b.length + k) n = leAt r k n := by
  have h : (b ++ r).drop (b.length + k) = r.drop k := by
    rw [← List.drop_drop, List.drop_left]
  simp only [leAt, h]

/-- A value that was laid down is read back, in its bytes. -/
theorem leAt_leBytes (n x : Nat) (r : Bytes) : leAt (leBytes n x ++ r) 0 n = x % 256 ^ n := by
  simp [leAt, leNat_leBytes]

/-! ### The parts of a message -/

section
variable {cmd flags tag st : Nat} {payload : Bytes}

theorem mbxMsg_length : (mbxMsg cmd flags tag st payload).length = 8 + payload.length := by
  simp [mbxMsg]
  omega

theorem mbxMsg_payload : (mbxMsg cmd flags tag st payload).drop 8 = payload := by
  simp [mbxMsg, leBytes]

theorem mbxMsg_cmd (h : cmd < 256) : leAt (mbxMsg cmd flags tag st payload) 0 1 = cmd := by
  simp [mbxMsg, leBytes, leAt, leNat]
  omega

theorem mbxMsg_flags (h : flags < 256) : leAt (mbxMsg cmd flags tag st payload) 1 1 = flags := by
  simp [mbxMsg, leBytes, leAt, leNat]
  omega

theorem mbxMsg_tag (h : tag < 65536) : leAt (mbxMsg cmd flags tag st payload) 2 2 = tag := by
  simp [mbxMsg, leBytes, leAt, leNat]
  omega

theorem mbxMsg_status (h : st < 256) : leAt (mbxMsg cmd flags tag st payload) 4 1 = st := by
  simp [mbxMsg, leBytes, leAt, leNat]
  omega

theorem mbxMsg_reserved : leAt (mbxMsg cmd flags tag st payload) 5 1 = 0 := by
  simp [mbxMsg, leBytes, leAt, leNat]

theorem mbxMsg_len (h : payload.length < 65536) : leAt (mbxMsg cmd flags tag st payload) 6 2 = payload.length := by
  simp [mbxMsg, leBytes, leAt, leNat]
  omega

/-- Payload bytes are read behind the header. -/
theorem mbxMsg_at (o n : Nat) : leAt (mbxMsg cmd flags tag st payload) (8 + o) n = leAt payload o n := by
  rw [leAt, Nat.add_comm, ← List.drop_drop, List.drop_drop, Nat.add_comm, ← List.drop_drop, mbxMsg_payload, leAt]

/-- A header as a request has it is right. -/
theorem mbHeaderBad_of_fits {lens : Nat × Nat} (hf : flags < 4) (h0 : bit flags 0 = false) (hl : lens.1 ≤ payload.length)
    (hu : payload.length ≤ lens.2) (hm : lens.2 ≤ 1016) : mbHeaderBad (mbxMsg cmd flags tag 0 payload) lens = false := by
  have hn : (mbxMsg cmd flags tag 0 payload).length - 8 = payload.length := by
    rw [mbxMsg_length]
    omega
  simp only [mbHeaderBad, mbxMsg_status (show 0 < 256 by omega), mbxMsg_reserved, mbxMsg_flags (show flags < 256 by omega), h0, hn,
    mbxMsg_len (show payload.length < 65536 by omega)]
  simp
  omega

end

/-! ### A request that is executed at once -/

/-- What a device that takes a request at once is. -/
theorem asks_parts {s : State} {who : Mbx} {tag : Nat} (h : s.asks who tag = true) :
    s.acts = [] ∧ s.boot.held = [] ∧ s.fmnServes = true ∧ tag < 65536 ∧ (s.boot.outstanding.filter (fun o => o.1 == who)).length < 4 ∧
      (who, tag) ∉ s.boot.outstanding ∧ (∀ p, who = .window p → s.rdI F.FMN_MB_STATUS.BUSY p.val 0 ≠ 1) := by
  simp only [State.asks, Bool.and_eq_true, List.isEmpty_iff, decide_eq_true_eq, Bool.not_eq_true', List.contains_eq_mem,
    decide_eq_false_iff_not] at h
  obtain ⟨⟨⟨⟨⟨⟨ha, hh⟩, hf⟩, ht⟩, hn⟩, hm⟩, hw⟩ := h
  refine ⟨ha, hh, hf, ht, hn, hm, fun p hp => ?_⟩
  subst hp
  simpa using hw

/-- The state in which the request stands in the queue of those that wait. -/
def State.waitsWith (s : State) (h : Held) : State := s.modBoot (fun b => { b with held := [h] })

theorem asked_parts (s : State) (who : Mbx) (tag : Nat) :
    (s.asked who tag).acts = s.acts ∧ (s.asked who tag).boot.held = s.boot.held ∧ (s.asked who tag).pins = s.pins ∧
      (s.asked who tag).boot.flashBusy = s.boot.flashBusy ∧
      ∀ (d : Fld) (i : Nat), d.reg ≠ .FMN_MB_STATUS → (s.asked who tag).rd d i = s.rd d i := by
  cases who with
  | mctp e => exact ⟨rfl, rfl, rfl, rfl, fun _ _ _ => rfl⟩
  | window p =>
    refine ⟨rfl, rfl, rfl, rfl, fun d i hd => ?_⟩
    have hne : ∀ (e : Fld), e.reg = .FMN_MB_STATUS → ¬ (d.reg.code = e.reg.code ∧ d.lo = e.lo ∧ 0 = p.val ∧ i = 0) :=
      fun e he hc => hd (Reg.code_inj (he ▸ hc.1))
    exact (rdI_wrI_ne (s.wrI F.FMN_MB_STATUS.BUSY p.val 0 1) 0 (hne F.FMN_MB_STATUS.DONE rfl)).trans
      (rdI_wrI_ne s 1 (hne F.FMN_MB_STATUS.BUSY rfl))

theorem asked_fmnServes (s : State) (who : Mbx) (tag : Nat) : (s.asked who tag).fmnServes = s.fmnServes := by
  obtain ⟨-, -, hp, hb, hr⟩ := asked_parts s who tag
  simp only [State.fmnServes, hp, hb, hr F.FMN_INFO.STATE 0 (by decide)]

theorem mbxSubmit_of_asks {s : State} {who : Mbx} {tag : Nat} (h : s.asks who tag = true) {msg : Bytes} (ht : leAt msg 2 2 = tag)
    (blown : Bool) : s.mbxSubmit who msg blown = (s.asked who tag).waitsWith ⟨who, tag, msg, blown⟩ := by
  obtain ⟨-, hh, hf, -, hn, hm, hw⟩ := asks_parts h
  have hp : s.pins.pwrok = true := by
    simp only [State.fmnServes, Bool.and_eq_true] at hf
    exact hf.1.1
  have hcond : ¬ (4 ≤ (s.boot.outstanding.filter (fun o => o.1 == who)).length ∨
      (s.boot.outstanding.filter (fun o => o.1 == who)).contains (who, tag) = true) := by
    rintro (h4 | hc)
    · omega
    · exact hm (List.mem_of_mem_filter (List.contains_iff_mem.1 hc))
  have hheld : ∀ t : State, t.boot.held = [] → ∀ (o : List (Mbx × Nat)) (x : Held),
      t.modBoot (fun b => { b with outstanding := b.outstanding ++ o, held := b.held ++ [x] }) =
        (t.modBoot (fun b => { b with outstanding := b.outstanding ++ o })).waitsWith x := by
    intro t ht o x
    simp only [State.modBoot, State.waitsWith, ht, List.nil_append]
  unfold State.mbxSubmit
  cases who with
  | mctp e =>
    simp only [hp, ht, hcond, Bool.not_true, Bool.false_eq_true, if_false]
    exact hheld _ hh _ _
  | window p =>
    simp only [hp, ht, hw p rfl, Bool.not_true, Bool.false_eq_true, if_false]
    exact (if_neg hcond).trans (hheld ((s.wrI F.FMN_MB_STATUS.BUSY p.val 0 1).wrI F.FMN_MB_STATUS.DONE p.val 0 0) hh _ _)

/-- A request whose access needs nothing that is gated is executed in its own command. -/
theorem mbNext_of_held {t : State} {h : Held} (hf : t.fmnServes = true) (hh : t.boot.held = []) (hs : (t.waitsWith h).mbAsleep = false) :
    (t.waitsWith h).mbReady = true ∧ (t.waitsWith h).mbNext = t.mbExec h := by
  have hf' : (t.waitsWith h).fmnServes = true := hf
  have ht : (t.waitsWith h).modBoot (fun b => { b with held := [] }) = t := by
    simp only [State.modBoot, State.waitsWith, ← hh]
  constructor
  · simp only [State.mbReady, hf', hs]
    rfl
  · have : (t.waitsWith h).mbNext = if ((t.waitsWith h).fmnServes && !(t.waitsWith h).mbAsleep) = true then
        ((t.waitsWith h).modBoot (fun b => { b with held := [] })).mbExec h else t.waitsWith h := rfl
    rw [this, if_pos (by simp [hf', hs]), ht]

/-- Such a request is the end of its command. -/
theorem settle_waitsWith {s t : State} {h : Held} (ha : t.acts = []) (hf : t.fmnServes = true) (hh : t.boot.held = [])
    (hs : (t.waitsWith h).mbAsleep = false) : s.settle (t.waitsWith h) = s.mbEnd (t.mbExec h) := by
  obtain ⟨hr, hn⟩ := mbNext_of_held hf hh hs
  have ha' : (t.waitsWith h).acts = [] := ha
  have hstep : State.settleN 4096 (t.waitsWith h) = State.settleN 4095 (t.mbExec h) := by
    rw [show (4096 : Nat) = 4095 + 1 from rfl, State.settleN]
    simp only [ha', hr, hn, List.isEmpty_nil, Bool.not_true, Bool.false_eq_true, if_false, if_true]
  simp only [State.settle, State.mbEnd, State.settleFrom, hstep]

section
variable {s : State} {who : Mbx} {tag cmd flags : Nat} {payload : Bytes} {blown : Bool}

/-- The request as it waits. -/
def mbxHeld (who : Mbx) (tag cmd flags : Nat) (payload : Bytes) (blown : Bool) : Held := ⟨who, tag, mbxMsg cmd flags tag 0 payload, blown⟩

/-- A request that needs nothing gated is executed at once. -/
theorem mbxRequest_run (h : s.asks who tag = true)
    (hs : ((s.asked who tag).waitsWith (mbxHeld who tag cmd flags payload blown)).mbAsleep = false) :
    powered s (fun s => s.mbxRequest who tag cmd payload flags blown) =
      .next (s.mbEnd ((s.asked who tag).mbExec (mbxHeld who tag cmd flags payload blown))) := by
  obtain ⟨ha, hh, hf, ht, -⟩ := asks_parts h
  obtain ⟨ha', hh', -⟩ := asked_parts s who tag
  have hp : s.pins.pwrok = true := by
    simp only [State.fmnServes, Bool.and_eq_true] at hf
    exact hf.1.1
  rw [powered_eq (t := (s.asked who tag).waitsWith (mbxHeld who tag cmd flags payload blown)) hp (mbxSubmit_of_asks h (mbxMsg_tag ht) blown),
    settle_waitsWith (ha'.trans ha) ((asked_fmnServes s who tag).trans hf) (hh'.trans hh) hs]

/-- Only REG_READ and REG_WRITE wait for a wake. -/
theorem mbAsleep_other {t : State} (hc : cmd < 256) (h2 : cmd ≠ 2) (h3 : cmd ≠ 3) :
    (t.waitsWith (mbxHeld who tag cmd flags payload blown)).mbAsleep = false := by
  have e2 : (cmd == 2) = false := by simpa using h2
  have e3 : (cmd == 3) = false := by simpa using h3
  have : (t.waitsWith (mbxHeld who tag cmd flags payload blown)).mbAsleep =
      let m := mbxMsg cmd flags tag 0 payload
      (leAt m 0 1 == 2 && (List.range (min 16 (leAt m 16 4))).any (fun k =>
        (t.waitsWith (mbxHeld who tag cmd flags payload blown)).locGated (pfLoc (leAt m 8 8 + 8 * k)))) ||
      (leAt m 0 1 == 3 && (t.waitsWith (mbxHeld who tag cmd flags payload blown)).locGated (pfLoc (leAt m 8 8))) := rfl
  rw [this]
  simp only [mbxMsg_cmd hc, e2, e3, Bool.false_and, Bool.or_false]

end

/-- A request comes through a PF's window, not over the sideband. -/
def fromWindow : Mbx → Bool
  | .window _ => true
  | _ => false

/-- A request has a command of Table 15.9, a payload of its length, and no flag but the one of PUSH_END. -/
def mbFits (cmd flags : Nat) (payload : Bytes) : Prop :=
  ∃ lens : Nat × Nat, mbLens cmd = some lens ∧ lens.1 ≤ payload.length ∧ payload.length ≤ lens.2 ∧ lens.2 ≤ 1016 ∧ cmd < 256 ∧ flags < 4 ∧
    bit flags 0 = false ∧ (bit flags 1 = false ∨ cmd = 0x1A)

section
variable {s : State} {who : Mbx} {tag cmd flags : Nat} {payload : Bytes} {blown : Bool}

/-- A command that is known, with its message right, is refused at a window or in the state of the device, or done (Table 15.9). -/
theorem mbExec_known (a : State) (h : mbFits cmd flags payload) :
    a.mbExec (mbxHeld who tag cmd flags payload blown) =
      if (mbNoHost cmd && fromWindow who) = true then a.mbxAnswer (mbxHeld who tag cmd flags payload blown) mbRefused []
      else if (mbNoSpill cmd && (a.spill || a.recovery)) = true then a.mbxAnswer (mbxHeld who tag cmd flags payload blown) mbNot []
      else a.mbDo (mbxHeld who tag cmd flags payload blown) cmd payload := by
  obtain ⟨lens, hl, h1, h2, h3, hc, hf, h0, hn⟩ := h
  have hb := mbHeaderBad_of_fits (cmd := cmd) (tag := tag) hf h0 h1 h2 h3
  have hmsg : (mbxHeld who tag cmd flags payload blown).msg = mbxMsg cmd flags tag 0 payload := rfl
  have hx : (bit flags 1 && cmd != 0x1A) = false := by
    rcases hn with h | h <;> simp [h]
  unfold State.mbExec
  simp only [hmsg, mbxMsg_cmd hc, hl, hb, mbxMsg_flags (show flags < 256 by omega), hx, mbxMsg_payload, Bool.or_self, Bool.false_eq_true, if_false]
  cases who <;> rfl

/-- A request that needs nothing gated, and is neither refused at a window nor in the device's state, is done in its own command. -/
theorem mbxRequest_done {t : State} (h : s.asks who tag = true) (hm : mbFits cmd flags payload)
    (hs : ((s.asked who tag).waitsWith (mbxHeld who tag cmd flags payload blown)).mbAsleep = false)
    (hh : (mbNoHost cmd && fromWindow who) = false)
    (ho : (mbNoSpill cmd && ((s.asked who tag).spill || (s.asked who tag).recovery)) = false)
    (e : (s.asked who tag).mbDo (mbxHeld who tag cmd flags payload blown) cmd payload = t) :
    powered s (fun s => s.mbxRequest who tag cmd payload flags blown) = .next (s.mbEnd t) := by
  rw [mbxRequest_run h hs, mbExec_known _ hm, if_neg (by simp [hh]), if_neg (by simp [ho]), e]

/-- A request that Table 15.9 does not give in the Spillway, there or in RECOVERY. -/
theorem mbxRequest_not (h : s.asks who tag = true) (hm : mbFits cmd flags payload)
    (hs : ((s.asked who tag).waitsWith (mbxHeld who tag cmd flags payload blown)).mbAsleep = false)
    (hh : (mbNoHost cmd && fromWindow who) = false) (hn : mbNoSpill cmd = true)
    (ho : (s.asked who tag).spill = true ∨ (s.asked who tag).recovery = true) :
    powered s (fun s => s.mbxRequest who tag cmd payload flags blown) =
      .next (s.mbEnd ((s.asked who tag).mbxAnswer (mbxHeld who tag cmd flags payload blown) mbNot [])) := by
  have ho' : (mbNoSpill cmd && ((s.asked who tag).spill || (s.asked who tag).recovery)) = true := by
    rcases ho with h | h <;> simp [hn, h]
  rw [mbxRequest_run h hs, mbExec_known _ hm, if_neg (by simp [hh]), if_pos ho']

/-- A request that Table 15.9 does not give a host is refused at its window. -/
theorem mbxRequest_refused {p : Fin 4} (h : s.asks (.window p) tag = true) (hm : mbFits cmd flags payload)
    (hs : ((s.asked (.window p) tag).waitsWith (mbxHeld (.window p) tag cmd flags payload blown)).mbAsleep = false) (hh : mbNoHost cmd = true) :
    powered s (fun s => s.mbxRequest (.window p) tag cmd payload flags blown) =
      .next (s.mbEnd ((s.asked (.window p) tag).mbxAnswer (mbxHeld (.window p) tag cmd flags payload blown) mbRefused [])) := by
  rw [mbxRequest_run h hs, mbExec_known _ hm, if_pos (by simp [hh, fromWindow])]

end

end Sys2Proof.Machine
end

section
/-! Mailbox requests that read and write registers (R46, R385, R424, R448, Table 15.9). -/

namespace Sys2Proof.Machine

/-- The payload of REG_READ: an offset and a count. -/
def regReadArgs (off n : Nat) : Bytes := leBytes 8 off ++ leBytes 4 n

/-- The payload of REG_WRITE: an offset and a value. -/
def regWriteArgs (off v : Nat) : Bytes := leBytes 8 off ++ leBytes 8 v

/-- Two values laid down one after the other are read back. -/
theorem leAt_two {m n x y : Nat} (r : Bytes) (hx : x < 256 ^ m) (hy : y < 256 ^ n) :
    leAt (leBytes m x ++ (leBytes n y ++ r)) 0 m = x ∧ leAt (leBytes m x ++ (leBytes n y ++ r)) m n = y := by
  constructor
  · rw [leAt_leBytes, Nat.mod_eq_of_lt hx]
  · have h := leAt_append_right (leBytes m x) (leBytes n y ++ r) 0 n
    rw [leBytes_length, Nat.add_zero] at h
    rw [h, leAt_leBytes, Nat.mod_eq_of_lt hy]

theorem leAt_one {m x : Nat} (hx : x < 256 ^ m) : leAt (leBytes m x) 0 m = x := by
  have h := leAt_leBytes m x []
  rw [List.append_nil] at h
  rw [h, Nat.mod_eq_of_lt hx]

theorem leAt_pair {m n x y : Nat} (hx : x < 256 ^ m) (hy : y < 256 ^ n) :
    leAt (leBytes m x ++ leBytes n y) 0 m = x ∧ leAt (leBytes m x ++ leBytes n y) m n = y := by
  simpa using leAt_two [] hx hy

section
variable {who : Mbx} {tag off n v : Nat} {p : Bool}

theorem regRead_fits : mbFits 0x02 0 (regReadArgs off n) :=
  ⟨(12, 12), rfl, by simp [regReadArgs], by simp [regReadArgs], by decide, by decide, by decide, rfl, .inl rfl⟩

theorem regWrite_fits : mbFits 0x03 0 (regWriteArgs off v) :=
  ⟨(16, 16), rfl, by simp [regWriteArgs], by simp [regWriteArgs], by decide, by decide, by decide, rfl, .inl rfl⟩

theorem mbAsleep_waitsWith (a : State) (h : Held) : (a.waitsWith h).mbAsleep =
    ((leAt h.msg 0 1 == 2 && (List.range (min 16 (leAt h.msg 16 4))).any (fun k => a.locGated (pfLoc (leAt h.msg 8 8 + 8 * k)))) ||
      (leAt h.msg 0 1 == 3 && a.locGated (pfLoc (leAt h.msg 8 8)))) := rfl

/-- REG_READ waits while one of the registers that it names is gated. -/
theorem regRead_asleep (a : State) (ho : off < 2 ^ 64) (hn : n < 2 ^ 32) :
    (a.waitsWith (mbxHeld who tag 0x02 0 (regReadArgs off n) (!p))).mbAsleep = true ↔
      ∃ k : Nat, k < 16 ∧ k < n ∧ a.locGated (pfLoc (off + 8 * k)) = true := by
  obtain ⟨h1, h2⟩ := leAt_pair (m := 8) (n := 4) ho hn
  have hm8 : leAt (mbxMsg 0x02 0 tag 0 (regReadArgs off n)) 8 8 = off := (mbxMsg_at 0 8).trans h1
  have hm16 : leAt (mbxMsg 0x02 0 tag 0 (regReadArgs off n)) 16 4 = n := (mbxMsg_at 8 4).trans h2
  have hmsg : (mbxHeld who tag 0x02 0 (regReadArgs off n) (!p)).msg = mbxMsg 0x02 0 tag 0 (regReadArgs off n) := rfl
  have h3 : ((2 : Nat) == 3) = false := rfl
  simp only [mbAsleep_waitsWith, hmsg, mbxMsg_cmd (show 2 < 256 by decide), hm8, hm16, h3, beq_self_eq_true, Bool.true_and, Bool.false_and, Bool.or_false, List.any_eq_true,
    List.mem_range, lt_min_iff, and_assoc]

theorem regWrite_asleep (a : State) (ho : off < 2 ^ 64) :
    (a.waitsWith (mbxHeld who tag 0x03 0 (regWriteArgs off v) (!p))).mbAsleep = a.locGated (pfLoc off) := by
  have h1 : leAt (regWriteArgs off v) 0 8 = off := (leAt_leBytes 8 off _).trans (Nat.mod_eq_of_lt ho)
  have hm8 : leAt (mbxMsg 0x03 0 tag 0 (regWriteArgs off v)) 8 8 = off := (mbxMsg_at 0 8).trans h1
  have hmsg : (mbxHeld who tag 0x03 0 (regWriteArgs off v) (!p)).msg = mbxMsg 0x03 0 tag 0 (regWriteArgs off v) := rfl
  have h3 : ((3 : Nat) == 2) = false := rfl
  simp only [mbAsleep_waitsWith, hmsg, mbxMsg_cmd (show 3 < 256 by decide), hm8, h3, beq_self_eq_true, Bool.true_and, Bool.false_and, Bool.false_or]

/-- A request that waits for a wake goes no further. -/
theorem mbReady_of_asleep {t : State} (h : t.mbAsleep = true) : t.mbReady = false := by
  simp [State.mbReady, h]

/-- The collector's check of an access that reaches it (R387). -/
theorem fltMet_eq (a : State) (h : Held) (hb : h.blown = !p) (off n : Nat) : a.fltMet h off n =
    if p = true ∧ (List.range n).any (fun k => (off + 8 * k) / 0x100000 == 13) = true then a.raise .FLT_SELF else a := by
  simp [State.fltMet, hb]

theorem mbDo_regRead (a : State) (h : Held) (ho : off < 2 ^ 64) (hn : n < 2 ^ 32) : a.mbDo h 0x02 (regReadArgs off n) =
    if n = 0 ∨ 16 < n ∨ 0x4000000 < off + 8 * n then a.mbxAnswer h mbBadArg []
    else ((a.fltMet h off n).mbRead off n).2.mbxAnswer h mbOk ((a.fltMet h off n).mbRead off n).1 := by
  obtain ⟨h1, h2⟩ := leAt_pair (m := 8) (n := 4) ho hn
  have hx : a.mbDo h 0x02 (regReadArgs off n) =
      let b := regReadArgs off n
      let n := leAt b 8 4
      if n = 0 ∨ 16 < n ∨ 0x4000000 < leAt b 0 8 + 8 * n then a.mbxAnswer h mbBadArg []
      else ((a.fltMet h (leAt b 0 8) n).mbRead (leAt b 0 8) n).2.mbxAnswer h mbOk ((a.fltMet h (leAt b 0 8) n).mbRead (leAt b 0 8) n).1 := rfl
  rw [hx]
  simp only [regReadArgs, h1, h2]

theorem mbDo_regWrite (a : State) (h : Held) (ho : off < 2 ^ 64) (hv : v < 2 ^ 64) : a.mbDo h 0x03 (regWriteArgs off v) =
    if 0x4000000 ≤ off then a.mbxAnswer h mbBadArg [] else a.mbRegWrite h off v := by
  obtain ⟨h1, h2⟩ := leAt_pair (m := 8) (n := 8) ho hv
  have hx : a.mbDo h 0x03 (regWriteArgs off v) =
      let b := regWriteArgs off v
      if 0x4000000 ≤ leAt b 0 8 then a.mbxAnswer h mbBadArg [] else a.mbRegWrite h (leAt b 0 8) (leAt b 8 8) := rfl
  rw [hx]
  simp only [regWriteArgs, h1, h2]

end

section
variable {s : State} {who : Mbx} {tag : Nat} {p : Bool}

/-- A request that waits for a wake stays in the queue. -/
theorem mbxRequest_waits {cmd flags : Nat} {payload : Bytes} {blown : Bool} (h : s.asks who tag = true) :
    powered s (fun s => s.mbxRequest who tag cmd payload flags blown) =
      .next (s.settle ((s.asked who tag).waitsWith (mbxHeld who tag cmd flags payload blown))) := by
  obtain ⟨-, -, hf, ht, -⟩ := asks_parts h
  have hp : s.pins.pwrok = true := by
    simp only [State.fmnServes, Bool.and_eq_true] at hf
    exact hf.1.1
  exact powered_eq hp (mbxSubmit_of_asks h (mbxMsg_tag ht) blown)

theorem regRead_exec (h : s.asks who tag = true) {off n : Nat} (ho : off < 2 ^ 64) (hn : n < 2 ^ 32)
    (hg : ¬ ∃ k : Nat, k < 16 ∧ k < n ∧ (s.asked who tag).locGated (pfLoc (off + 8 * k)) = true) {t : State}
    (e : (s.asked who tag).mbDo (mbxHeld who tag 0x02 0 (regReadArgs off n) (!p)) 0x02 (regReadArgs off n) = t) :
    exec (.regRead who tag ⟨off, p⟩ n) s = .next (s.mbEnd t) := by
  have hs : ((s.asked who tag).waitsWith (mbxHeld who tag 0x02 0 (regReadArgs off n) (!p))).mbAsleep = false := by
    rw [← Bool.not_eq_true, regRead_asleep _ ho hn]
    exact hg
  have run : exec (.regRead who tag ⟨off, p⟩ n) s = powered s (fun s => s.mbxRequest who tag 0x02 (regReadArgs off n) 0 (!p)) := rfl
  exact run.trans (mbxRequest_done h regRead_fits hs rfl rfl e)

theorem regWrite_exec (h : s.asks who tag = true) {off v : Nat} (ho : off < 2 ^ 64) (hg : (s.asked who tag).locGated (pfLoc off) = false)
    {t : State} (e : (s.asked who tag).mbDo (mbxHeld who tag 0x03 0 (regWriteArgs off v) (!p)) 0x03 (regWriteArgs off v) = t) :
    exec (.regWrite who tag ⟨off, p⟩ v) s = .next (s.mbEnd t) := by
  have hs : ((s.asked who tag).waitsWith (mbxHeld who tag 0x03 0 (regWriteArgs off v) (!p))).mbAsleep = false := by
    rw [regWrite_asleep _ ho, hg]
  have run : exec (.regWrite who tag ⟨off, p⟩ v) s = powered s (fun s => s.mbxRequest who tag 0x03 (regWriteArgs off v) 0 (!p)) := rfl
  exact run.trans (mbxRequest_done h regWrite_fits hs rfl rfl e)

/-- In RECOVERY a write that R388 does not keep is answered NOT_AVAILABLE; another is performed and answered with what it left. -/
theorem mbRegWrite_not {a : State} {h : Held} {off v : Nat} (hr : a.recovery = true) (hs : a.spill = false) (hk : r388 off = false) :
    a.mbRegWrite h off v = a.mbxAnswer h mbNot [] := if_pos (by simp [hr, hs, hk])

theorem mbRegWrite_performed {a : State} {h : Held} {off v : Nat} (hr : a.recovery = false ∨ a.spill = true ∨ r388 off = true) :
    a.mbRegWrite h off v =
      ((a.fltMet h off 1).sharedWrite .mailbox off v).mbxAnswer h mbOk (leBytes 8 (((a.fltMet h off 1).sharedWrite .mailbox off v).valueAt off)) :=
  if_neg (by rcases hr with hr | hr | hr <;> simp [hr])

theorem fltMet_one {a : State} {h : Held} (hb : h.blown = !p) (off : Nat) :
    a.fltMet h off 1 = if p = true ∧ off / 0x100000 = 13 then a.raise .FLT_SELF else a := by
  rw [fltMet_eq a h hb]
  simp [List.range_succ]

/-- A fifth outstanding request, or one whose TAG is outstanding, is answered BUSY. -/
theorem mbxSubmit_busy {e : Nat} {msg : Bytes} (hp : s.pins.pwrok = true) (ht : leAt msg 2 2 = tag) (hc : leAt msg 0 1 = 1)
    (hm : 4 ≤ (s.boot.outstanding.filter (fun o => o.1 == Mbx.mctp e)).length ∨ (Mbx.mctp e, tag) ∈ s.boot.outstanding) (blown : Bool) :
    s.mbxSubmit (.mctp e) msg blown = s.emit (.mbxResp (.mctp e) (mctpHead ++ mbxMsg 0x01 1 tag mbBusy [])) := by
  have hcond : 4 ≤ (s.boot.outstanding.filter (fun o => o.1 == Mbx.mctp e)).length ∨
      (s.boot.outstanding.filter (fun o => o.1 == Mbx.mctp e)).contains (Mbx.mctp e, tag) = true := by
    refine hm.imp_right fun h => ?_
    rw [List.contains_iff_mem, List.mem_filter]
    exact ⟨h, beq_self_eq_true _⟩
  simp only [State.mbxSubmit, hp, ht, hc, hcond, Bool.not_true, Bool.false_eq_true, if_false, if_true, State.mbxSend]

end

/-- Settles O50. -/
theorem mailboxReadsAndWrites : Obligations.MailboxReadsAndWrites := by
  intro s who tag
  refine ⟨fun h => ?_, fun e hw hp ht hm => ?_⟩
  · intro a held
    have bare : ∀ {cmd : Nat}, mbLens cmd = some (0, 0) → cmd < 256 → mbFits cmd 0 [] := fun hl hc =>
      ⟨(0, 0), hl, Nat.le_refl _, Nat.le_refl _, by decide, hc, by decide, rfl, .inl rfl⟩
    refine ⟨?_, ?_, ?_, fun off n p ho hn => ⟨fun hg => ?_, fun hg => ⟨fun hb => ?_, fun h0 h16 hr => ?_⟩⟩,
      fun off v p ho hv => ⟨fun hg => ?_, fun hg => ⟨fun hb => ?_, fun hb hr hs hk => ?_, fun hb hr => ?_⟩⟩⟩
    · have run : exec (.ident who tag) s = powered s (fun s => s.mbxRequest who tag 0x01 []) := rfl
      exact run.trans (mbxRequest_done h (bare rfl (by decide)) (mbAsleep_other (by decide) (by decide) (by decide)) rfl rfl rfl)
    · have run : exec (.telemetry who tag) s = powered s (fun s => s.mbxRequest who tag 0x04 []) := rfl
      exact run.trans (mbxRequest_done h (bare rfl (by decide)) (mbAsleep_other (by decide) (by decide) (by decide)) rfl rfl rfl)
    · have run : exec (.beatRead who tag) s = powered s (fun s => s.mbxRequest who tag 0x05 []) := rfl
      exact run.trans (mbxRequest_done h (bare rfl (by decide)) (mbAsleep_other (by decide) (by decide) (by decide)) rfl rfl rfl)
    · exact ⟨mbxRequest_waits h, mbReady_of_asleep ((regRead_asleep _ ho hn).2 hg)⟩
    · exact regRead_exec h ho hn hg ((mbDo_regRead a _ ho hn).trans (if_pos hb))
    · refine regRead_exec h ho hn hg ((mbDo_regRead a _ ho hn).trans ((if_neg (by omega)).trans ?_))
      rw [fltMet_eq a _ rfl]
      rfl
    · exact ⟨mbxRequest_waits h, mbReady_of_asleep ((regWrite_asleep _ ho).trans hg)⟩
    · exact regWrite_exec h ho hg ((mbDo_regWrite a _ ho hv).trans (if_pos hb))
    · exact regWrite_exec h ho hg ((mbDo_regWrite a _ ho hv).trans ((if_neg (by omega)).trans (mbRegWrite_not hr hs hk)))
    · refine regWrite_exec h ho hg ((mbDo_regWrite a _ ho hv).trans ((if_neg (by omega)).trans ((mbRegWrite_performed hr).trans ?_)))
      rw [fltMet_one rfl]
      rfl
  · subst hw
    have run : exec (.ident (.mctp e) tag) s = powered s (fun s => s.mbxSubmit (.mctp e) (mbxMsg 0x01 0 tag 0 []) true) := rfl
    exact run.trans <| powered_eq hp (mbxSubmit_busy hp (mbxMsg_tag ht) (mbxMsg_cmd (by decide)) hm true)

end Sys2Proof.Machine
end

section
/-! Mailbox requests that act on the device (R115, R349, R351, R388, R389, R418, R420 to R422, R425, Table 15.9). -/

namespace Sys2Proof.Machine

section
variable {s : State} {who : Mbx} {tag cmd flags : Nat} {payload : Bytes} {blown : Bool}

/-- A request of a command that Table 15.9 gives every path and state. -/
theorem mbxRequest_free {t : State} (h : s.asks who tag = true) (hm : mbFits cmd flags payload) (h2 : cmd ≠ 2) (h3 : cmd ≠ 3)
    (hh : mbNoHost cmd = false) (ho : mbNoSpill cmd = false)
    (e : (s.asked who tag).mbDo (mbxHeld who tag cmd flags payload blown) cmd payload = t) :
    powered s (fun s => s.mbxRequest who tag cmd payload flags blown) = .next (s.mbEnd t) := by
  obtain ⟨_, _, _, _, _, hc, _⟩ := id hm
  exact mbxRequest_done h hm (mbAsleep_other hc h2 h3) (by simp [hh]) (by simp [ho]) e

/-- A request of a command that needs the running device, where it runs. -/
theorem mbxRequest_on {t : State} (h : s.asks who tag = true) (hm : mbFits cmd flags payload) (h2 : cmd ≠ 2) (h3 : cmd ≠ 3)
    (hh : (mbNoHost cmd && fromWindow who) = false)
    (ho : ¬ ((s.asked who tag).spill = true ∨ (s.asked who tag).recovery = true))
    (e : (s.asked who tag).mbDo (mbxHeld who tag cmd flags payload blown) cmd payload = t) :
    powered s (fun s => s.mbxRequest who tag cmd payload flags blown) = .next (s.mbEnd t) := by
  obtain ⟨_, _, _, _, _, hc, _⟩ := id hm
  rw [not_or, Bool.not_eq_true, Bool.not_eq_true] at ho
  exact mbxRequest_done h hm (mbAsleep_other hc h2 h3) hh (by simp [ho.1, ho.2]) e

/-- A request of a command that needs the running device, in the Spillway and in RECOVERY. -/
theorem mbxRequest_off (h : s.asks who tag = true) (hm : mbFits cmd flags payload) (h2 : cmd ≠ 2) (h3 : cmd ≠ 3)
    (hh : (mbNoHost cmd && fromWindow who) = false) (hn : mbNoSpill cmd = true)
    (ho : (s.asked who tag).spill = true ∨ (s.asked who tag).recovery = true) :
    powered s (fun s => s.mbxRequest who tag cmd payload flags blown) =
      .next (s.mbEnd ((s.asked who tag).mbxAnswer (mbxHeld who tag cmd flags payload blown) mbNot [])) := by
  obtain ⟨_, _, _, _, _, hc, _⟩ := id hm
  exact mbxRequest_not h hm (mbAsleep_other hc h2 h3) hh hn ho

end

/-! ### The messages -/

section
variable {m n : Nat}

theorem spill_fits : mbFits 0x06 0 (leBytes 1 m) := ⟨(1, 1), rfl, by simp, by simp, by decide, by decide, by decide, rfl, .inl rfl⟩
theorem unitReset_fits : mbFits 0x07 0 (leBytes 8 m) := ⟨(8, 8), rfl, by simp, by simp, by decide, by decide, by decide, rfl, .inl rfl⟩
theorem portReset_fits : mbFits 0x08 0 (leBytes 8 m) := ⟨(8, 8), rfl, by simp, by simp, by decide, by decide, by decide, rfl, .inl rfl⟩
theorem lanePower_fits : mbFits 0x09 0 (leBytes 8 m ++ leBytes 1 n) :=
  ⟨(9, 9), rfl, by simp, by simp, by decide, by decide, by decide, rfl, .inl rfl⟩
theorem deviceReset_fits : mbFits 0x0A 0 [] := ⟨(0, 0), rfl, by simp, by simp, by decide, by decide, by decide, rfl, .inl rfl⟩
theorem pegTake_fits : mbFits 0x28 0 (leBytes 2 m) := ⟨(2, 2), rfl, by simp, by simp, by decide, by decide, by decide, rfl, .inl rfl⟩
theorem pegRelease_fits : mbFits 0x29 0 (leBytes 2 m) := ⟨(2, 2), rfl, by simp, by simp, by decide, by decide, by decide, rfl, .inl rfl⟩
theorem pegSupervisor_fits : mbFits 0x2A 0 (leBytes 1 m) := ⟨(1, 1), rfl, by simp, by simp, by decide, by decide, by decide, rfl, .inl rfl⟩

end

/-! ### What each does -/

section
variable (a : State) (h : Held) {m n : Nat}

theorem mbDo_spill (hm : m < 256) : a.mbDo h 0x06 (leBytes 1 m) = a.mbSpill h m := by
  have hx : a.mbDo h 0x06 (leBytes 1 m) = a.mbSpill h (leAt (leBytes 1 m) 0 1) := rfl
  rw [hx, leAt_one hm]

theorem mbDo_unitReset (hm : m < 2 ^ 64) : a.mbDo h 0x07 (leBytes 8 m) = a.mbUnitReset h m := by
  have hx : a.mbDo h 0x07 (leBytes 8 m) = a.mbUnitReset h (leAt (leBytes 8 m) 0 8) := rfl
  rw [hx, leAt_one hm]

theorem mbDo_portReset (hm : m < 2 ^ 64) : a.mbDo h 0x08 (leBytes 8 m) = a.mbPortReset h m := by
  have hx : a.mbDo h 0x08 (leBytes 8 m) = a.mbPortReset h (leAt (leBytes 8 m) 0 8) := rfl
  rw [hx, leAt_one hm]

theorem mbDo_lanePower (hm : m < 2 ^ 64) (hn : n < 256) : a.mbDo h 0x09 (leBytes 8 m ++ leBytes 1 n) = a.mbLanePower h m n := by
  obtain ⟨h1, h2⟩ := leAt_pair (m := 8) (n := 1) hm hn
  have hx : a.mbDo h 0x09 (leBytes 8 m ++ leBytes 1 n) =
      a.mbLanePower h (leAt (leBytes 8 m ++ leBytes 1 n) 0 8) (leAt (leBytes 8 m ++ leBytes 1 n) 8 1) := rfl
  rw [hx, h1, h2]

theorem mbDo_pegTake (hm : m < 65536) : a.mbDo h 0x28 (leBytes 2 m) =
    if 4096 ≤ m then a.mbxAnswer h mbBadArg [] else (a.pegTryBy 0x1000 m).2.mbxAnswer h mbOk (leBytes 8 (a.pegTryBy 0x1000 m).1) := by
  have hx : a.mbDo h 0x28 (leBytes 2 m) =
      let i := leAt (leBytes 2 m) 0 2
      if 4096 ≤ i then a.mbxAnswer h mbBadArg [] else (a.pegTryBy 0x1000 i).2.mbxAnswer h mbOk (leBytes 8 (a.pegTryBy 0x1000 i).1) := rfl
  rw [hx, leAt_one hm]

theorem mbDo_pegRelease (hm : m < 65536) : a.mbDo h 0x29 (leBytes 2 m) =
    if 4096 ≤ m then a.mbxAnswer h mbBadArg [] else (a.pegReleaseBy 0x1000 m).mbxAnswer h mbOk [] := by
  have hx : a.mbDo h 0x29 (leBytes 2 m) =
      let i := leAt (leBytes 2 m) 0 2
      if 4096 ≤ i then a.mbxAnswer h mbBadArg [] else (a.pegReleaseBy 0x1000 i).mbxAnswer h mbOk [] := rfl
  rw [hx, leAt_one hm]

theorem mbDo_pegSupervisor (hm : m < 256) : a.mbDo h 0x2A (leBytes 1 m) =
    if 16 ≤ m then a.mbxAnswer h mbBadArg [] else (a.regAccess .mailbox .PEG_SUPERVISOR 0 m).mbxAnswer h mbOk [] := by
  have hx : a.mbDo h 0x2A (leBytes 1 m) =
      let i := leAt (leBytes 1 m) 0 1
      if 16 ≤ i then a.mbxAnswer h mbBadArg [] else (a.regAccess .mailbox .PEG_SUPERVISOR 0 i).mbxAnswer h mbOk [] := rfl
  rw [hx, leAt_one hm]

/-- A unit reset of units that have one is answered when they are reset, or when the reset in progress ends. -/
theorem mbUnitReset_bad (hm : 2 ^ 19 ≤ m ∨ bit m 0 = true ∨ bit m 2 = true ∨ bit m 15 = true) :
    a.mbUnitReset h m = a.mbxAnswer h mbBadArg [] := if_pos hm

theorem mbUnitReset_good (h1 : m < 2 ^ 19) (h2 : bit m 0 = false) (h3 : bit m 2 = false) (h4 : bit m 15 = false) :
    a.mbUnitReset h m =
      if ((a.unitResets m).resetting && !(a.unitResets m).spill) = true then (a.unitResets m).modBoot (fun b => { b with absorbed := b.absorbed ++ [h] })
      else (a.unitResets m).modBoot (fun b => { b with unitWait := b.unitWait ++ [(h, m)] }) := by
  have hx : ¬ (2 ^ 19 ≤ m ∨ bit m 0 = true ∨ bit m 2 = true ∨ bit m 15 = true) := by
    simp [h2, h3, h4]
    omega
  exact if_neg hx

/-- Ports are reset at once, except while a reset in progress absorbs that. -/
theorem mbPortReset_eq : a.mbPortReset h m =
    if ((a.portResets m).resetting && !(a.portResets m).spill) = true then
      (a.portResets m).modBoot (fun b => { b with absorbed := b.absorbed ++ [h] })
    else (a.portResets m).mbxAnswer h mbOk [] := rfl

theorem absorbs_iff {t : State} : (t.resetting && !t.spill) = false ↔ t.resetting = false ∨ t.spill = true := by
  cases t.resetting <;> cases t.spill <;> simp

end

/-- A write of PEG_SUPERVISOR by the mailbox, of a mask that it does not hold. -/
theorem regAccess_pegSupervisor {a : State} {m : Nat} (hs : a.serves .mailbox .PEG_SUPERVISOR 0 = true) (hm : m < 16)
    (hn : m ≠ a.rd F.PEG_SUPERVISOR.MASK) : a.regAccess .mailbox .PEG_SUPERVISOR 0 m = a.wr F.PEG_SUPERVISOR.MASK m := by
  have hc : a.cellOf .mailbox .PEG_SUPERVISOR 0 = (0, 0) := rfl
  have hv : bits m F.PEG_SUPERVISOR.MASK.lo F.PEG_SUPERVISOR.MASK.w = m := by
    show m / 2 ^ 0 % 2 ^ 4 = m
    omega
  have hh : bits m F.PEG_SUPERVISOR.MASK.lo F.PEG_SUPERVISOR.MASK.w ≠ a.heldVal F.PEG_SUPERVISOR.MASK 0 0 := by
    rw [hv]
    exact hn
  have hb : a.fieldBad .mailbox F.PEG_SUPERVISOR.MASK 0 m m = false := rfl
  have hr : a.refusesField .mailbox 0 0 m F.PEG_SUPERVISOR.MASK = false := by
    rw [State.refusesField, hv, hb, Bool.and_false]
  have hp : a.plainField .mailbox 0 0 m a F.PEG_SUPERVISOR.MASK = a.wr F.PEG_SUPERVISOR.MASK m := by
    rw [plainField_takes _ rfl hh hr, hv]
    rfl
  rw [regAccess_of_serves m hs, writeReg_plain rfl rfl, hc]
  have : rejectIf (Reg.PEG_SUPERVISOR.fields.foldl (a.plainField .mailbox 0 0 m) a, Reg.PEG_SUPERVISOR.fields.any (a.refusesField .mailbox 0 0 m)) =
      a.wr F.PEG_SUPERVISOR.MASK m := by
    simp [Reg.fields, hr, hp, rejectIf]
  rw [this]
  exact rejectOnce_of_acts rfl

/-! ### The commands -/

section
variable {s t : State} {who : Mbx} {tag m n : Nat}

theorem unitReset_exec (h : s.asks who tag = true) (hm : m < 2 ^ 64)
    (e : (s.asked who tag).mbUnitReset (mbxHeld who tag 0x07 0 (leBytes 8 m) true) m = t) :
    exec (.unitReset who tag m) s = .next (s.mbEnd t) := by
  have run : exec (.unitReset who tag m) s = powered s (fun s => s.mbxRequest who tag 0x07 (leBytes 8 m)) := rfl
  exact run.trans (mbxRequest_free h unitReset_fits (by decide) (by decide) rfl rfl ((mbDo_unitReset _ _ hm).trans e))

theorem portReset_exec (h : s.asks who tag = true) (hm : m < 2 ^ 64)
    (e : (s.asked who tag).mbPortReset (mbxHeld who tag 0x08 0 (leBytes 8 m) true) m = t) :
    exec (.portReset who tag m) s = .next (s.mbEnd t) := by
  have run : exec (.portReset who tag m) s = powered s (fun s => s.mbxRequest who tag 0x08 (leBytes 8 m)) := rfl
  exact run.trans (mbxRequest_free h portReset_fits (by decide) (by decide) rfl rfl ((mbDo_portReset _ _ hm).trans e))

theorem lanePower_exec (h : s.asks who tag = true) (hm : m < 2 ^ 64) (hn : n < 256)
    (e : (s.asked who tag).mbLanePower (mbxHeld who tag 0x09 0 (leBytes 8 m ++ leBytes 1 n) true) m n = t) :
    exec (.lanePower who tag m n) s = .next (s.mbEnd t) := by
  have run : exec (.lanePower who tag m n) s = powered s (fun s => s.mbxRequest who tag 0x09 (leBytes 8 m ++ leBytes 1 n)) := rfl
  exact run.trans (mbxRequest_free h lanePower_fits (by decide) (by decide) rfl rfl ((mbDo_lanePower _ _ hm hn).trans e))

section
variable (ho : ¬ ((s.asked who tag).spill = true ∨ (s.asked who tag).recovery = true))
include ho

theorem pegTake_exec (h : s.asks who tag = true) (hm : m < 65536)
    (e : (let a := s.asked who tag
      let h := mbxHeld who tag 0x28 0 (leBytes 2 m) true
      if 4096 ≤ m then a.mbxAnswer h mbBadArg []
      else (a.pegTryBy 0x1000 m).2.mbxAnswer h mbOk (leBytes 8 (a.pegTryBy 0x1000 m).1)) = t) :
    exec (.mailboxPegTake who tag m) s = .next (s.mbEnd t) := by
  have run : exec (.mailboxPegTake who tag m) s = powered s (fun s => s.mbxRequest who tag 0x28 (leBytes 2 m)) := rfl
  exact run.trans (mbxRequest_on h pegTake_fits (by decide) (by decide) rfl ho ((mbDo_pegTake _ _ hm).trans e))

theorem pegRelease_exec (h : s.asks who tag = true) (hm : m < 65536)
    (e : (let a := s.asked who tag
      let h := mbxHeld who tag 0x29 0 (leBytes 2 m) true
      if 4096 ≤ m then a.mbxAnswer h mbBadArg [] else (a.pegReleaseBy 0x1000 m).mbxAnswer h mbOk []) = t) :
    exec (.mailboxPegRelease who tag m) s = .next (s.mbEnd t) := by
  have run : exec (.mailboxPegRelease who tag m) s = powered s (fun s => s.mbxRequest who tag 0x29 (leBytes 2 m)) := rfl
  exact run.trans (mbxRequest_on h pegRelease_fits (by decide) (by decide) rfl ho ((mbDo_pegRelease _ _ hm).trans e))

end

theorem pegSupervisor_exec {e : Nat} (h : s.asks (.mctp e) tag = true) (hm : m < 256)
    (ho : ¬ ((s.asked (.mctp e) tag).spill = true ∨ (s.asked (.mctp e) tag).recovery = true))
    (he : (let a := s.asked (.mctp e) tag
      let h := mbxHeld (.mctp e) tag 0x2A 0 (leBytes 1 m) true
      if 16 ≤ m then a.mbxAnswer h mbBadArg [] else (a.regAccess .mailbox .PEG_SUPERVISOR 0 m).mbxAnswer h mbOk []) = t) :
    exec (.pegSupervisor (.mctp e) tag m) s = .next (s.mbEnd t) := by
  have run : exec (.pegSupervisor (.mctp e) tag m) s = powered s (fun s => s.mbxRequest (.mctp e) tag 0x2A (leBytes 1 m)) := rfl
  exact run.trans (mbxRequest_on h pegSupervisor_fits (by decide) (by decide) rfl ho ((mbDo_pegSupervisor _ _ hm).trans he))

end

/-- Settles O51: each request is done in its own command, refused by its path or the device's state, or waits for the reset that it names. -/
theorem mailboxRequestsAct : Obligations.MailboxRequestsAct := by
  unfold Obligations.MailboxRequestsAct
  intro s who tag m h hm
  dsimp only
  refine ⟨⟨?_, ?_⟩, ⟨?_, ?_, ?_⟩, ⟨?_, ?_⟩, ?_, ⟨?_, ?_, ?_⟩, ?_, ⟨?_, ?_⟩⟩
  · rintro rfl
    have run : exec (.mailboxSpill who tag 0xA5) s = powered s (fun s => s.mbxRequest who tag 0x06 (leBytes 1 0xA5)) := rfl
    refine run.trans (mbxRequest_free h spill_fits (by decide) (by decide) rfl rfl ?_)
    rw [mbDo_spill _ _ (by decide)]
    rfl
  · intro hlt hne
    have run : exec (.mailboxSpill who tag m) s = powered s (fun s => s.mbxRequest who tag 0x06 (leBytes 1 m)) := rfl
    refine run.trans (mbxRequest_free h spill_fits (by decide) (by decide) rfl rfl ?_)
    rw [mbDo_spill _ _ hlt, State.mbSpill, State.spillKey, if_neg hne, if_neg hne]
    rfl
  · intro hb
    exact unitReset_exec h hm (mbUnitReset_bad _ _ hb)
  · intro h1 h2 h3 h4 hr hs
    refine unitReset_exec h hm ((mbUnitReset_good _ _ h1 h2 h3 h4).trans (if_pos ?_))
    simp [hr, hs]
  · intro h1 h2 h3 h4 hr
    refine unitReset_exec h hm ((mbUnitReset_good _ _ h1 h2 h3 h4).trans (if_neg ?_))
    simp [absorbs_iff.2 hr]
  · intro hr hs
    have hx : (s.asked who tag).portResets m = s.asked who tag := if_pos (by simp [hr, hs])
    refine portReset_exec h hm ((mbPortReset_eq _ _).trans ?_)
    rw [hx, if_pos (by simp [hr, hs])]
    rfl
  · intro hr ht
    have hx : (s.asked who tag).portResets m = foldS (bitsSet 64 m) (s.asked who tag) (fun s p => s.portReset p) :=
      if_neg (by simp [absorbs_iff.2 hr])
    refine portReset_exec h hm ((mbPortReset_eq _ _).trans ?_)
    rw [hx, if_neg (by simp [absorbs_iff.2 ht])]
    rfl
  · intro down hd
    have noOff : ¬ ((s.asked who tag).spill = true ∨ (s.asked who tag).recovery = true) →
        ¬ ((s.asked who tag).spill || (s.asked who tag).recovery) = true := fun ho => by simpa using ho
    refine ⟨fun h1 => ?_, ?_, ?_, ?_, ?_⟩
    · exact lanePower_exec h hm hd (if_pos h1)
    · rintro rfl
      exact lanePower_exec h hm hd rfl
    · rintro rfl ho
      have hoff : ((s.asked who tag).spill || (s.asked who tag).recovery) = true := by simpa using ho
      exact lanePower_exec h hm hd (if_pos hoff)
    · rintro rfl ho hr
      exact lanePower_exec h hm hd ((if_neg (noOff ho)).trans (if_pos hr))
    · rintro rfl ho hr
      exact lanePower_exec h hm hd ((if_neg (noOff ho)).trans (if_neg (by simp [hr])))
  · intro ho
    exact mbxRequest_off h deviceReset_fits (by decide) (by decide) rfl rfl ho
  · intro ho hr
    exact mbxRequest_on h deviceReset_fits (by decide) (by decide) rfl ho (if_pos (by simpa using .inr hr))
  · intro ho hl
    exact mbxRequest_on h deviceReset_fits (by decide) (by decide) rfl ho (deviceReset_of_live hl 3)
  · intro i hi
    refine ⟨fun ho => ⟨?_, ?_⟩, fun ho h1 => ⟨?_, ?_⟩, fun g ab fo ho h1 he hp => ?_, fun ho h1 hp => ?_, fun ho h1 hp hw => ?_⟩
    · exact mbxRequest_off h pegTake_fits (by decide) (by decide) rfl rfl ho
    · exact mbxRequest_off h pegRelease_fits (by decide) (by decide) rfl rfl ho
    · exact pegTake_exec ho h hi (if_pos h1)
    · exact pegRelease_exec ho h hi (if_pos h1)
    · refine pegTake_exec ho h hi ((if_neg (by omega)).trans ?_)
      have ht : (s.asked who tag).pegTryBy 0x1000 i = (pegWord 1 ab fo 0x1000 0 ((g + 1) % 2 ^ 32),
          (s.asked who tag).setPg i ⟨some 0x1000, (g + 1) % 2 ^ 32, false, false, []⟩) := by
        simp only [State.pegTryBy, he, hp, take_of_free, Bool.not_true, Bool.false_eq_true, if_false]
      rw [ht]
      rfl
    · refine pegRelease_exec ho h hi ((if_neg (by omega)).trans ?_)
      rw [pegReleaseBy_of_other hp]
      rfl
    · refine pegRelease_exec ho h hi ((if_neg (by omega)).trans ?_)
      rw [pegReleaseBy_of_owner hp, pegFree_of_empty hw]
      rfl
  · rintro p rfl
    exact mbxRequest_refused h pegSupervisor_fits (mbAsleep_other (by decide) (by decide) (by decide)) rfl
  · rintro e rfl
    refine ⟨fun ho => mbxRequest_off h pegSupervisor_fits (by decide) (by decide) rfl rfl ho, fun ho h1 h2 => ?_, fun ho h1 hs hn => ?_⟩
    · exact pegSupervisor_exec h h2 ho (if_pos h1)
    · refine pegSupervisor_exec h (by omega) ho ((if_neg (by omega)).trans ?_)
      rw [regAccess_pegSupervisor hs h1 hn]
      rfl

end Sys2Proof.Machine
end

section
/-! Flash and fuse requests of the mailbox (R70, R71, R74, R413, R424, Tables 15.3 and 15.9). -/

namespace Sys2Proof.Machine

theorem mbFits_of {cmd : Nat} {payload : Bytes} {lens : Nat × Nat} (hl : mbLens cmd = some lens) (h1 : lens.1 ≤ payload.length)
    (h2 : payload.length ≤ lens.2) (hm : lens.2 ≤ 1016) (hc : cmd < 256) : mbFits cmd 0 payload :=
  ⟨lens, hl, h1, h2, hm, hc, by decide, rfl, .inl rfl⟩

theorem leAt_front {m x : Nat} (r : Bytes) (hx : x < 256 ^ m) : leAt (leBytes m x ++ r) 0 m = x :=
  (leAt_leBytes m x r).trans (Nat.mod_eq_of_lt hx)

@[simp] theorem drop_leBytes (m x : Nat) (r : Bytes) : (leBytes m x ++ r).drop m = r :=
  (List.drop_eq_drop_iff.2 (by simp)).trans (List.drop_left (l₁ := leBytes m x))

/-! ### What each request does -/

section
variable (a : State) (h : Held) {o n k : Nat} {d : Bytes}

theorem mbDo_flashRead (ho : o < 2 ^ 32) (hn : n < 2 ^ 32) : a.mbDo h 0x10 (leBytes 4 o ++ leBytes 4 n) = a.mbFlashRead h o n := by
  obtain ⟨h1, h2⟩ := leAt_pair (m := 4) (n := 4) ho hn
  have hx : a.mbDo h 0x10 (leBytes 4 o ++ leBytes 4 n) =
      a.mbFlashRead h (leAt (leBytes 4 o ++ leBytes 4 n) 0 4) (leAt (leBytes 4 o ++ leBytes 4 n) 4 4) := rfl
  rw [hx, h1, h2]

theorem mbDo_flashErase (ho : o < 2 ^ 32) : a.mbDo h 0x11 (leBytes 4 o) = a.mbFlashErase h o := by
  have hx : a.mbDo h 0x11 (leBytes 4 o) = a.mbFlashErase h (leAt (leBytes 4 o) 0 4) := rfl
  rw [hx, leAt_one ho]

theorem mbDo_flashWrite (ho : o < 2 ^ 32) : a.mbDo h 0x12 (leBytes 4 o ++ d) = a.mbFlashWrite h o d := by
  have hx : a.mbDo h 0x12 (leBytes 4 o ++ d) = a.mbFlashWrite h (leAt (leBytes 4 o ++ d) 0 4) ((leBytes 4 o ++ d).drop 4) := rfl
  rw [hx, leAt_front d ho, drop_leBytes]

theorem mbDo_slotCheck (hk : k < 256) : a.mbDo h 0x13 (leBytes 1 k) = a.mbSlotCheck h k := by
  have hx : a.mbDo h 0x13 (leBytes 1 k) = a.mbSlotCheck h (leAt (leBytes 1 k) 0 1) := rfl
  rw [hx, leAt_one hk]

theorem mbDo_fuseKey (hk : k < 256) : a.mbDo h 0x20 (leBytes 1 k ++ d) = a.mbFuseKey h k d := by
  have hx : a.mbDo h 0x20 (leBytes 1 k ++ d) = a.mbFuseKey h (leAt (leBytes 1 k ++ d) 0 1) ((leBytes 1 k ++ d).drop 1) := rfl
  rw [hx, leAt_front d hk, drop_leBytes]

theorem mbDo_fuseRevoke (hk : k < 256) : a.mbDo h 0x21 (leBytes 1 k) = a.mbFuseRevoke h k := by
  have hx : a.mbDo h 0x21 (leBytes 1 k) = a.mbFuseRevoke h (leAt (leBytes 1 k) 0 1) := rfl
  rw [hx, leAt_one hk]

theorem mbDo_fuseFloor (hk : k < 256) : a.mbDo h 0x22 (leBytes 1 k) = a.mbFuseFloor h k := by
  have hx : a.mbDo h 0x22 (leBytes 1 k) = a.mbFuseFloor h (leAt (leBytes 1 k) 0 1) := rfl
  rw [hx, leAt_one hk]

end

section
variable {a : State} {h : Held} {o n k : Nat} {d : Bytes}

theorem mbFlashErase_bad (ho : o % 65536 ≠ 0 ∨ 0x800000 ≤ o) : a.mbFlashErase h o = a.mbxAnswer h mbBadArg [] := if_pos ho

theorem mbFlashErase_block (h1 : o % 65536 = 0) (h2 : o < 0x800000) : a.mbFlashErase h o =
    if a.flashRefused o = true then a.mbxAnswer h mbRefused [] else a.modBoot (fun b => { b with flashBusy := some h }) :=
  if_neg (by simp [h1, h2])

theorem mbFlashWrite_beyond (ho : 0x800000 < o + d.length) : a.mbFlashWrite h o d = a.mbxAnswer h mbBadArg [] := if_pos ho

theorem mbFlashWrite_within (ho : o + d.length ≤ 0x800000) : a.mbFlashWrite h o d =
    if (a.flashRefused o || a.flashRefused (o + d.length - 1)) = true then a.mbxAnswer h mbRefused []
    else (a.flashProgram o d).mbxAnswer h mbOk [] :=
  if_neg (by omega)

/-- A byte whose erased bits suffice takes the data. -/
theorem flashProgram_one {v : Byte} (hv : a.flashByte o &&& v = v) : a.flashProgram o [v] = a.flashPut o [v] := by
  simp only [State.flashProgram, hv, if_true]

theorem mbSlotCheck_pass {i : Img} (hk : k ≤ 1) (hc : (checkImage (a.chkEnv 1048576) false (a.slotBytes k)).1 = .ok i) :
    a.mbSlotCheck h k = a.mbxAnswer h mbOk (leBytes 1 0) := by
  simp only [State.mbSlotCheck, if_neg (Nat.not_lt.2 hk), hc]

theorem mbSlotCheck_fail {e : Reject} (hk : k ≤ 1) (hc : (checkImage (a.chkEnv 1048576) false (a.slotBytes k)).1 = .error e) :
    a.mbSlotCheck h k = a.mbxAnswer h mbOk (leBytes 1 e.check) := by
  simp only [State.mbSlotCheck, if_neg (Nat.not_lt.2 hk), hc]

theorem mbFuseKey_blank (hk : k ≤ 3) (hn : tabGet a.trs.keys k = none) : a.mbFuseKey h k d =
    if h.blown = true then (a.modTrs (fun t => { t with keys := tabPut t.keys k ⟨d, false⟩ })).mbxAnswer h mbOk []
    else ((a.pick (2 ^ 384)).2.modTrs (fun t => { t with keys := tabPut t.keys k ⟨leBytes 48 (a.pick (2 ^ 384)).1, false⟩ })).mbxAnswer h mbFlash [] := by
  simp only [State.mbFuseKey, if_neg (Nat.not_lt.2 hk), hn]

theorem mbFuseKey_programmed {x : KeySlot} (hk : k ≤ 3) (hx : tabGet a.trs.keys k = some x) :
    a.mbFuseKey h k d = a.mbxAnswer h (if x.hash = d then mbOk else mbFlash) [] := by
  simp only [State.mbFuseKey, if_neg (Nat.not_lt.2 hk), hx]
  split <;> rfl

theorem mbFuseRevoke_used (hk : k ≤ 3) (hi : a.trs.img.any (fun i => i.keySlot == k) = true) :
    a.mbFuseRevoke h k = a.mbxAnswer h mbRefused [] := by
  simp only [State.mbFuseRevoke, if_neg (Nat.not_lt.2 hk), hi, if_true]

theorem mbFuseRevoke_unused (hk : k ≤ 3) (hi : a.trs.img.any (fun i => i.keySlot == k) = false) : a.mbFuseRevoke h k =
    if h.blown = true then (a.modTrs (fun t => { t with keys := tabPut t.keys k ⟨(tabGetD t.keys k ⟨[], false⟩).hash, true⟩ })).mbxAnswer h mbOk []
    else a.mbxAnswer h mbFlash [] := by
  simp only [State.mbFuseRevoke, if_neg (Nat.not_lt.2 hk), hi, Bool.false_eq_true, if_false]

/-- The floor passes the image or the firmware in force. -/
def State.floorAbove (a : State) (k : Nat) : Bool :=
  a.trs.img.any (fun i => decide (i.sec < k)) || a.fwSec.any (fun j => decide (j < k))

theorem mbFuseFloor_bad (hk : 64 < k ∨ k < a.trs.floor) : a.mbFuseFloor h k = a.mbxAnswer h mbBadArg [] := if_pos hk

theorem mbFuseFloor_rises (h1 : k ≤ 64) (h2 : a.trs.floor ≤ k) : a.mbFuseFloor h k =
    if a.floorAbove k = true then a.mbxAnswer h mbRefused []
    else if h.blown = true then (a.modTrs (fun t => { t with floor := k })).mbxAnswer h mbOk []
    else ((a.pick 65).2.modTrs (fun t => { t with floor := max t.floor (a.pick 65).1 })).mbxAnswer h mbFlash [] :=
  if_neg (by omega)

end

/-! ### The commands -/

section
variable {s t : State} {who : Mbx} {tag o n k : Nat} {d : Bytes} {blown : Bool}

theorem flashRead_exec (h : s.asks who tag = true) (ho : o < 2 ^ 32) (hn : n < 2 ^ 32)
    (e : (s.asked who tag).mbFlashRead (mbxHeld who tag 0x10 0 (leBytes 4 o ++ leBytes 4 n) true) o n = t) :
    exec (.flashRead who tag o n) s = .next (s.mbEnd t) := by
  have run : exec (.flashRead who tag o n) s = powered s (fun s => s.mbxRequest who tag 0x10 (leBytes 4 o ++ leBytes 4 n)) := rfl
  exact run.trans (mbxRequest_free h (mbFits_of (lens := (8, 8)) rfl (by simp) (by simp) (by decide) (by decide)) (by decide) (by decide) rfl rfl
    ((mbDo_flashRead _ _ ho hn).trans e))

theorem flashErase_exec (h : s.asks who tag = true) (ho : o < 2 ^ 32)
    (e : (s.asked who tag).mbFlashErase (mbxHeld who tag 0x11 0 (leBytes 4 o) true) o = t) :
    exec (.flashErase who tag o) s = .next (s.mbEnd t) := by
  have run : exec (.flashErase who tag o) s = powered s (fun s => s.mbxRequest who tag 0x11 (leBytes 4 o)) := rfl
  exact run.trans (mbxRequest_free h (mbFits_of (lens := (4, 4)) rfl (by simp) (by simp) (by decide) (by decide)) (by decide) (by decide) rfl rfl
    ((mbDo_flashErase _ _ ho).trans e))

theorem flashWrite_exec (h : s.asks who tag = true) (ho : o < 2 ^ 32) (h1 : 0 < d.length) (h2 : d.length ≤ 1000)
    (e : (s.asked who tag).mbFlashWrite (mbxHeld who tag 0x12 0 (leBytes 4 o ++ d) true) o d = t) :
    exec (.flashWrite who tag o d) s = .next (s.mbEnd t) := by
  have run : exec (.flashWrite who tag o d) s = powered s (fun s => s.mbxRequest who tag 0x12 (leBytes 4 o ++ d)) := rfl
  have hl : (leBytes 4 o ++ d).length = 4 + d.length := by simp
  have fits : mbFits 0x12 0 (leBytes 4 o ++ d) :=
    mbFits_of (lens := (5, 1004)) rfl (by rw [hl]; show 5 ≤ _; omega) (by rw [hl]; show _ ≤ 1004; omega) (by decide) (by decide)
  exact run.trans (mbxRequest_free h fits (by decide) (by decide) rfl rfl ((mbDo_flashWrite _ _ ho).trans e))

theorem slotCheck_exec (h : s.asks who tag = true) (hk : k < 256)
    (e : (s.asked who tag).mbSlotCheck (mbxHeld who tag 0x13 0 (leBytes 1 k) true) k = t) :
    exec (.slotCheck who tag k) s = .next (s.mbEnd t) := by
  have run : exec (.slotCheck who tag k) s = powered s (fun s => s.mbxRequest who tag 0x13 (leBytes 1 k)) := rfl
  exact run.trans (mbxRequest_free h (mbFits_of (lens := (1, 1)) rfl (by simp) (by simp) (by decide) (by decide)) (by decide) (by decide) rfl rfl
    ((mbDo_slotCheck _ _ hk).trans e))

theorem fuseKey_fits (hd : d.length = 48) : mbFits 0x20 0 (leBytes 1 k ++ d) :=
  mbFits_of (lens := (49, 49)) rfl (by simp [hd]) (by simp [hd]) (by decide) (by decide)

theorem fuseRevoke_fits : mbFits 0x21 0 (leBytes 1 k) := mbFits_of (lens := (1, 1)) rfl (by simp) (by simp) (by decide) (by decide)

theorem fuseFloor_fits : mbFits 0x22 0 (leBytes 1 k) := mbFits_of (lens := (1, 1)) rfl (by simp) (by simp) (by decide) (by decide)

theorem fuseKey_run : exec (.fuseKey who tag k d blown) s = powered s (fun s => s.mbxRequest who tag 0x20 (leBytes 1 k ++ d) 0 blown) := rfl

theorem fuseRevoke_run : exec (.fuseRevoke who tag k blown) s = powered s (fun s => s.mbxRequest who tag 0x21 (leBytes 1 k) 0 blown) := rfl

theorem fuseFloor_run : exec (.fuseFloor who tag k blown) s = powered s (fun s => s.mbxRequest who tag 0x22 (leBytes 1 k) 0 blown) := rfl

section
variable {e : Nat} (h : s.asks (.mctp e) tag = true)
  (ho : ¬ ((s.asked (.mctp e) tag).spill = true ∨ (s.asked (.mctp e) tag).recovery = true)) (hk : k < 256)
include h ho hk

theorem fuseKey_exec (hd : d.length = 48)
    (he : (s.asked (.mctp e) tag).mbFuseKey (mbxHeld (.mctp e) tag 0x20 0 (leBytes 1 k ++ d) blown) k d = t) :
    exec (.fuseKey (.mctp e) tag k d blown) s = .next (s.mbEnd t) :=
  fuseKey_run.trans (mbxRequest_on h (fuseKey_fits hd) (by decide) (by decide) rfl ho ((mbDo_fuseKey _ _ hk).trans he))

theorem fuseRevoke_exec
    (he : (s.asked (.mctp e) tag).mbFuseRevoke (mbxHeld (.mctp e) tag 0x21 0 (leBytes 1 k) blown) k = t) :
    exec (.fuseRevoke (.mctp e) tag k blown) s = .next (s.mbEnd t) :=
  fuseRevoke_run.trans (mbxRequest_on h fuseRevoke_fits (by decide) (by decide) rfl ho ((mbDo_fuseRevoke _ _ hk).trans he))

theorem fuseFloor_exec
    (he : (s.asked (.mctp e) tag).mbFuseFloor (mbxHeld (.mctp e) tag 0x22 0 (leBytes 1 k) blown) k = t) :
    exec (.fuseFloor (.mctp e) tag k blown) s = .next (s.mbEnd t) :=
  fuseFloor_run.trans (mbxRequest_on h fuseFloor_fits (by decide) (by decide) rfl ho ((mbDo_fuseFloor _ _ hk).trans he))

end

end

/-- Settles O52: each request by its bounds, its place in the flash, and what the fuses hold. -/
theorem flashAndFusesHold : Obligations.FlashAndFusesHold := by
  unfold Obligations.FlashAndFusesHold
  intro s who tag blown h
  dsimp only
  refine ⟨?_, ?_, ?_, ?_, ?_, ?_⟩
  · intro o n ho hn
    refine ⟨fun hb => flashRead_exec h ho hn (if_pos hb), fun h1 h2 h3 => flashRead_exec h ho hn (if_neg ?_)⟩
    omega
  · intro o ho
    refine ⟨fun hb => flashErase_exec h ho (mbFlashErase_bad hb),
      fun h1 h2 h3 => flashErase_exec h ho ((mbFlashErase_block h1 h2).trans (if_pos h3)),
      fun h1 h2 h3 => flashErase_exec h ho ((mbFlashErase_block h1 h2).trans (if_neg (by simp [h3]))), ?_⟩
    intro d h1 h2
    refine ⟨fun hb => flashWrite_exec h ho h1 h2 (mbFlashWrite_beyond hb), fun h3 h4 => ?_, fun h3 h4 h5 => ⟨?_, ?_⟩⟩
    · exact flashWrite_exec h ho h1 h2 ((mbFlashWrite_within h3).trans (if_pos (by simpa using h4)))
    · exact flashWrite_exec h ho h1 h2 ((mbFlashWrite_within h3).trans (if_neg (by simp [h4, h5])))
    · rintro v rfl hv
      exact flashProgram_one hv
  · intro k hk
    exact ⟨fun h1 => slotCheck_exec h hk (if_pos h1), fun i h1 hc => slotCheck_exec h hk (mbSlotCheck_pass h1 hc),
      fun e h1 hc => slotCheck_exec h hk (mbSlotCheck_fail h1 hc)⟩
  · intro k hash hk hd
    refine ⟨?_, ?_, ?_⟩
    · rintro p rfl
      refine ⟨fuseKey_run.trans (mbxRequest_refused h (fuseKey_fits hd) ?_ rfl), fuseRevoke_run.trans (mbxRequest_refused h fuseRevoke_fits ?_ rfl),
        fuseFloor_run.trans (mbxRequest_refused h fuseFloor_fits ?_ rfl)⟩
      all_goals exact mbAsleep_other (by decide) (by decide) (by decide)
    · rintro e rfl ho
      exact ⟨fuseKey_run.trans (mbxRequest_off h (fuseKey_fits hd) (by decide) (by decide) rfl rfl ho),
        fuseRevoke_run.trans (mbxRequest_off h fuseRevoke_fits (by decide) (by decide) rfl rfl ho),
        fuseFloor_run.trans (mbxRequest_off h fuseFloor_fits (by decide) (by decide) rfl rfl ho)⟩
    · rintro e rfl hs hr
      have ho : ¬ ((s.asked (.mctp e) tag).spill = true ∨ (s.asked (.mctp e) tag).recovery = true) := by simp [hs, hr]
      refine ⟨fun h1 => ⟨fuseKey_exec h ho hk hd (if_pos h1), fuseRevoke_exec h ho hk (if_pos h1)⟩, ?_, ?_, ?_, ?_, ?_, ?_, ?_⟩
      · rintro h1 hn rfl
        exact fuseKey_exec h ho hk hd (mbFuseKey_blank h1 hn)
      · rintro h1 hn rfl
        exact fuseKey_exec h ho hk hd (mbFuseKey_blank h1 hn)
      · rintro h1 hi rfl
        exact fuseRevoke_exec h ho hk (mbFuseRevoke_unused h1 hi)
      · intro x h1 hx
        refine ⟨fuseKey_exec h ho hk hd (mbFuseKey_programmed h1 hx), ?_⟩
        rintro rfl hi
        refine fuseRevoke_exec h ho hk ((mbFuseRevoke_unused h1 hi).trans ?_)
        have hg : (tabGetD (s.asked (.mctp e) tag).trs.keys k ⟨[], false⟩).hash = x.hash := by simp only [tabGetD, hx, Option.getD_some]
        simp only [State.modTrs, hg]
        rfl
      · intro h1 hi
        exact fuseRevoke_exec h ho hk (mbFuseRevoke_used h1 hi)
      · intro hb
        exact fuseFloor_exec h ho hk (mbFuseFloor_bad hb)
      · intro h1 h2
        refine ⟨fun ha => ?_, ?_, ?_⟩
        · exact fuseFloor_exec h ho hk ((mbFuseFloor_rises h1 h2).trans (if_pos ha))
        · rintro ha rfl
          exact fuseFloor_exec h ho hk ((mbFuseFloor_rises h1 h2).trans (if_neg (by simp [State.floorAbove, ha])))
        · rintro ha rfl
          exact fuseFloor_exec h ho hk ((mbFuseFloor_rises h1 h2).trans (if_neg (by simp [State.floorAbove, ha])))
  · intro hn
    obtain ⟨-, -, hf, -⟩ := asks_parts h
    have hp : s.pins.pwrok = true := by
      simp only [State.fmnServes, Bool.and_eq_true] at hf
      exact hf.1.1
    refine exec_of_powered State.eraseDone rfl hp ?_
    simp only [State.eraseDone, hn]
  · intro t e hp hb
    refine exec_of_powered State.eraseDone rfl hp ?_
    simp only [State.eraseDone, hb]
    rfl

end Sys2Proof.Machine
end

section
/-! Pushes of images, and GO at a function's window (R49, R74 to R76, R424, R425, Table 2.22). -/

namespace Sys2Proof.Machine

section
variable (a : State) (h : Held) {o n : Nat} {d : Bytes}

theorem mbDo_pushBegin (ho : o < 256) (hn : n < 2 ^ 32) : a.mbDo h 0x18 (leBytes 1 o ++ leBytes 4 n) = a.mbPushBegin h o n := by
  obtain ⟨h1, h2⟩ := leAt_pair (m := 1) (n := 4) ho hn
  have hx : a.mbDo h 0x18 (leBytes 1 o ++ leBytes 4 n) =
      a.mbPushBegin h (leAt (leBytes 1 o ++ leBytes 4 n) 0 1) (leAt (leBytes 1 o ++ leBytes 4 n) 1 4) := rfl
  rw [hx, h1, h2]

theorem mbDo_pushData (ho : o < 2 ^ 32) : a.mbDo h 0x19 (leBytes 4 o ++ d) = a.mbPushData h o d := by
  have hx : a.mbDo h 0x19 (leBytes 4 o ++ d) = a.mbPushData h (leAt (leBytes 4 o ++ d) 0 4) ((leBytes 4 o ++ d).drop 4) := rfl
  rw [hx, leAt_front d ho, drop_leBytes]

end

/-- PUSH_END reads NOW in the message's flags. -/
theorem mbDo_pushEnd (a : State) (who : Mbx) (tag : Nat) (now blown : Bool) :
    a.mbDo (mbxHeld who tag 0x1A (2 * b2n now) [] blown) 0x1A [] = a.mbPushEnd (mbxHeld who tag 0x1A (2 * b2n now) [] blown) now := by
  have hx : a.mbDo (mbxHeld who tag 0x1A (2 * b2n now) [] blown) 0x1A [] = a.mbPushEnd (mbxHeld who tag 0x1A (2 * b2n now) [] blown)
      (bit (leAt (mbxMsg 0x1A (2 * b2n now) tag 0 []) 1 1) 1) := rfl
  have hf : 2 * b2n now < 256 := by cases now <;> decide
  rw [hx, mbxMsg_flags hf]
  cases now <;> rfl

section
variable {a : State} {h : Held} {kind len : Nat} {d : Bytes} {p : Push} {now : Bool}

theorem mbPushBegin_open (h1 : kind ≤ 1) (h2 : 0 < len) (h3 : len ≤ 1048576) (hp : a.trs.push.isSome = true) :
    a.mbPushBegin h kind len = a.mbxAnswer h mbBusy [] :=
  (if_neg (by omega)).trans (if_pos hp)

theorem mbPushBegin_eq (h1 : kind ≤ 1) (h2 : 0 < len) (h3 : len ≤ 1048576) (hp : a.trs.push = none) : a.mbPushBegin h kind len =
    if a.on F.TRS_STATUS.PUSH_CLOSED = true ∨ (kind = 1 ∧ a.rd F.TRS_HOT_STATUS.STATE = 1) then (a.raise .TRS_BUSY).mbxAnswer h mbBusy []
    else (a.modTrs (fun t => { t with push := some ⟨kind == 1, len, []⟩ })).mbxAnswer h mbOk [] :=
  (if_neg (by omega)).trans (if_neg (by simp [hp]))

theorem mbPushData_closed {o : Nat} (hp : a.trs.push = none) : a.mbPushData h o d = a.mbxAnswer h mbBadArg [] := by
  simp only [State.mbPushData, hp]

theorem mbPushData_open {o : Nat} (hp : a.trs.push = some p) : a.mbPushData h o d =
    if o ≠ p.data.length ∨ p.len < o + d.length then a.mbxAnswer h mbBadArg []
    else (a.modTrs (fun t => { t with push := some { p with data := p.data ++ d } })).mbxAnswer h mbOk [] := by
  simp only [State.mbPushData, hp]

theorem mbPushEnd_closed (hp : a.trs.push = none) : a.mbPushEnd h now = a.mbxAnswer h mbBadArg [] := by
  simp only [State.mbPushEnd, hp]

theorem mbPushEnd_short (hp : a.trs.push = some p) (hl : p.data.length ≠ p.len) : a.mbPushEnd h now = a.mbxAnswer h mbBadArg [] := by
  simp only [State.mbPushEnd, hp, if_pos hl]

section
variable (hp : a.trs.push = some p) (hl : p.data.length = p.len)
include hp hl

/-- A hot image that passes every check is staged. -/
theorem mbPushEnd_staged (hh : p.hot = true) {i : Img} {n : Nat}
    (hc : checkImage ((a.modTrs (fun t => { t with push := none })).chkEnv p.data.length) true p.data = (.ok i, n)) :
    a.mbPushEnd h now = ((((a.modTrs (fun t => { t with push := none })).skips n).wr F.TRS_HOT_STATUS.STATE 1).modTrs
      (fun t => { t with staged := some i })).mbxAnswer h mbOk [0] := by
  simp only [State.mbPushEnd, hp, if_neg (not_not.2 hl), hh, if_true, hc]

theorem mbPushEnd_hotFails (hh : p.hot = true) {e : Reject} {n : Nat}
    (hc : checkImage ((a.modTrs (fun t => { t with push := none })).chkEnv p.data.length) true p.data = (.error e, n)) :
    a.mbPushEnd h now = ((a.modTrs (fun t => { t with push := none })).skips n).pushFail h orgHot p.data e := by
  simp only [State.mbPushEnd, hp, if_neg (not_not.2 hl), hh, if_true, hc]

theorem mbPushEnd_fullFails (hh : p.hot = false) {e : Reject}
    (hc : checkHead ((a.modTrs (fun t => { t with push := none })).chkEnv p.data.length) p.data = some e) :
    a.mbPushEnd h now = (a.modTrs (fun t => { t with push := none })).pushFail h orgFull p.data e := by
  simp only [State.mbPushEnd, hp, if_neg (not_not.2 hl), hh, Bool.false_eq_true, if_false, hc]

/-- A full image that passes the first five checks waits for LOAD. -/
theorem mbPushEnd_waits (hh : p.hot = false)
    (hc : checkHead ((a.modTrs (fun t => { t with push := none })).chkEnv p.data.length) p.data = none) :
    a.mbPushEnd h now =
      if now = true then ((((a.modTrs (fun t => { t with push := none })).modTrs (fun t => { t with pushed := some p.data })).mbxAnswer h mbOk [0])).pushNow
      else ((a.modTrs (fun t => { t with push := none })).modTrs (fun t => { t with pushed := some p.data })).mbxAnswer h mbOk [0] := by
  simp only [State.mbPushEnd, hp, if_neg (not_not.2 hl), hh, Bool.false_eq_true, if_false, hc]

end

end

/-! ### The commands -/

section
variable {s t : State} {who : Mbx} {tag : Nat}

theorem pushBegin_fits {hot len : Nat} : mbFits 0x18 0 (leBytes 1 hot ++ leBytes 4 len) :=
  mbFits_of (lens := (5, 5)) rfl (by simp) (by simp) (by decide) (by decide)

section
variable (h : s.asks who tag = true) (ho : ¬ ((s.asked who tag).spill = true ∨ (s.asked who tag).recovery = true))
include h ho

theorem pushBegin_exec {hot len : Nat} (hh : hot < 256) (hn : len < 2 ^ 32)
    (e : (s.asked who tag).mbPushBegin (mbxHeld who tag 0x18 0 (leBytes 1 hot ++ leBytes 4 len) true) hot len = t) :
    exec (.pushBegin who tag hot len) s = .next (s.mbEnd t) := by
  have run : exec (.pushBegin who tag hot len) s = powered s (fun s => s.mbxRequest who tag 0x18 (leBytes 1 hot ++ leBytes 4 len)) := rfl
  exact run.trans (mbxRequest_on h pushBegin_fits (by decide) (by decide) rfl ho ((mbDo_pushBegin _ _ hh hn).trans e))

theorem pushData_exec {o : Nat} {d : Bytes} (h0 : o < 2 ^ 32) (h1 : 0 < d.length) (h2 : d.length ≤ 1000)
    (e : (s.asked who tag).mbPushData (mbxHeld who tag 0x19 0 (leBytes 4 o ++ d) true) o d = t) :
    exec (.pushData who tag o d) s = .next (s.mbEnd t) := by
  have run : exec (.pushData who tag o d) s = powered s (fun s => s.mbxRequest who tag 0x19 (leBytes 4 o ++ d)) := rfl
  have hl : (leBytes 4 o ++ d).length = 4 + d.length := by simp
  have fits : mbFits 0x19 0 (leBytes 4 o ++ d) :=
    mbFits_of (lens := (5, 1004)) rfl (by rw [hl]; show 5 ≤ _; omega) (by rw [hl]; show _ ≤ 1004; omega) (by decide) (by decide)
  exact run.trans (mbxRequest_on h fits (by decide) (by decide) rfl ho ((mbDo_pushData _ _ h0).trans e))

theorem pushEnd_exec {now : Bool} (e : (s.asked who tag).mbPushEnd (mbxHeld who tag 0x1A (2 * b2n now) [] true) now = t) :
    exec (.pushEnd who tag now) s = .next (s.mbEnd t) := by
  have run : exec (.pushEnd who tag now) s = powered s (fun s => s.mbxRequest who tag 0x1A [] (2 * b2n now)) := rfl
  have fits : mbFits 0x1A (2 * b2n now) [] :=
    ⟨(0, 0), rfl, by simp, by simp, by decide, by decide, by cases now <;> decide, by cases now <;> decide, .inr rfl⟩
  exact run.trans (mbxRequest_on h fits (by decide) (by decide) rfl ho ((mbDo_pushEnd _ _ _ _ _).trans e))

end

end

/-- GO hands the message of the window over. -/
theorem writeReg_go (s : State) (p : Fin 4) : s.writeReg (.fn (.pf p)) .FMN_MB_CTRL 0 1 = s.rejectOnce (s.mbxGo p) := by
  have hp : Fin.ofNat 4 p.val = p := Fin.ofNat_val_eq_self p
  have hx : s.writeReg (.fn (.pf p)) .FMN_MB_CTRL 0 1 = s.rejectOnce (s.mbxGo (Fin.ofNat 4 p.val)) := rfl
  rw [hx, hp]

/-- The message that a PF's window holds. -/
def State.windowMsg (s : State) (p : Fin 4) : Bytes :=
  let all := (List.range 128).flatMap (fun k => leBytes 8 (s.rdI F.FMN_REQ.DATA p.val k))
  all.take (8 + leAt all 6 2)

theorem mbxGo_eq (s : State) (p : Fin 4) : s.mbxGo p = s.mbxSubmit (.window p) (s.windowMsg p) := rfl

section
variable {s : State} {p : Fin 4} {msg : Bytes} {blown : Bool}

theorem mbxSubmit_windowBusy (hp : s.pins.pwrok = true) (hb : s.rdI F.FMN_MB_STATUS.BUSY p.val 0 = 1) :
    s.mbxSubmit (.window p) msg blown = s.raise .CFG_REJECT := by
  simp only [State.mbxSubmit, hp, hb, Bool.not_true, Bool.false_eq_true, if_false, if_true]

theorem mbxSubmit_window (hp : s.pins.pwrok = true) (hb : s.rdI F.FMN_MB_STATUS.BUSY p.val 0 = 0)
    (ho : (s.boot.outstanding.filter (fun o => o.1 == Mbx.window p)) = []) :
    s.mbxSubmit (.window p) msg blown = ((s.wrI F.FMN_MB_STATUS.BUSY p.val 0 1).wrI F.FMN_MB_STATUS.DONE p.val 0 0).modBoot
      (fun b => { b with outstanding := b.outstanding ++ [(.window p, leAt msg 2 2)], held := b.held ++ [⟨.window p, leAt msg 2 2, msg, blown⟩] }) := by
  have ho' : (((s.wrI F.FMN_MB_STATUS.BUSY p.val 0 1).wrI F.FMN_MB_STATUS.DONE p.val 0 0).boot.outstanding.filter
      (fun o => o.1 == Mbx.window p)) = [] := ho
  simp only [State.mbxSubmit, hp, hb, ho', Bool.not_true, Bool.false_eq_true, if_false, Nat.zero_ne_one]
  rfl

end

/-- Settles O53: a push by what is open and what its image passes, and GO by its window's BUSY. -/
theorem pushesAndTheWindow : Obligations.PushesAndTheWindow := by
  unfold Obligations.PushesAndTheWindow
  intro s who tag
  refine ⟨fun h => ?_, fun p hs => ?_⟩
  · dsimp only
    refine ⟨?_, ?_, ?_⟩
    · intro hot len hh hn
      refine ⟨fun ho => ?_, fun ho => ⟨fun hb => pushBegin_exec h ho hh hn (if_pos hb), fun h1 h2 h3 => ⟨fun hp => ?_, fun hp hb => ?_, fun hp hc hb => ?_⟩⟩⟩
      · have run : exec (.pushBegin who tag hot len) s = powered s (fun s => s.mbxRequest who tag 0x18 (leBytes 1 hot ++ leBytes 4 len)) := rfl
        exact run.trans (mbxRequest_off h pushBegin_fits (by decide) (by decide) rfl rfl ho)
      · exact pushBegin_exec h ho hh hn (mbPushBegin_open h1 h2 h3 hp)
      · exact pushBegin_exec h ho hh hn ((mbPushBegin_eq h1 h2 h3 hp).trans (if_pos hb))
      · refine pushBegin_exec h ho hh hn ((mbPushBegin_eq h1 h2 h3 hp).trans (if_neg ?_))
        rintro (hx | ⟨hx, hy⟩)
        · simp [hc] at hx
        · exact hb.elim (fun h0 => by omega) (fun hn => hn hy)
    · intro o d h0 h1 h2 ho
      refine ⟨fun hp => pushData_exec h ho h0 h1 h2 (mbPushData_closed hp), fun p hp => ⟨fun hb => ?_, fun h3 h4 => ?_⟩⟩
      · exact pushData_exec h ho h0 h1 h2 ((mbPushData_open hp).trans (if_pos hb))
      · exact pushData_exec h ho h0 h1 h2 ((mbPushData_open hp).trans (if_neg (by omega)))
    · intro now ho
      refine ⟨fun hp => pushEnd_exec h ho (mbPushEnd_closed hp), fun p hp => ⟨fun hl => pushEnd_exec h ho (mbPushEnd_short hp hl),
        fun hl hh => ⟨fun i n hc => ?_, fun e n hc => ?_⟩, fun hl hh => ⟨fun e hc => ?_, fun hc => ⟨?_, ?_⟩⟩⟩⟩
      · exact pushEnd_exec h ho (mbPushEnd_staged hp hl hh hc)
      · exact pushEnd_exec h ho (mbPushEnd_hotFails hp hl hh hc)
      · exact pushEnd_exec h ho (mbPushEnd_fullFails hp hl hh hc)
      · rintro rfl
        exact pushEnd_exec h ho (mbPushEnd_waits hp hl hh hc)
      · rintro rfl hr
        exact pushEnd_exec h ho ((mbPushEnd_waits hp hl hh hc).trans (if_pos hr))
  · have hw := pwrok_of_live (live_of_serves hs)
    have run : exec (.go p) s = powered s (fun s => s.regCmd (.fn (.pf p)) .FMN_MB_CTRL 0 1) := rfl
    refine ⟨fun hb => ?_, fun hb ho => ?_⟩
    · refine run.trans (regCmd_exec hs ((writeReg_go s p).trans ?_))
      rw [mbxGo_eq, mbxSubmit_windowBusy hw hb]
      exact rejectOnce_of_one rfl
    · refine run.trans (regCmd_exec hs ((writeReg_go s p).trans ?_))
      rw [mbxGo_eq, mbxSubmit_window hw hb ho]
      exact rejectOnce_of_acts rfl

end Sys2Proof.Machine
end

section
/-! The link layer: replays, and the ways a link goes down (04_link_layer.md). -/

namespace Sys2Proof.Machine

/-! ### Counters -/

section
variable (s : State) {d e : Fld} (i j k : Nat)

theorem rd_inc_reg (h : e.reg.code ≠ d.reg.code) : (s.inc d i k).rd e j = s.rd e j := rd_wr_reg s i j _ h
theorem rd_inc_lo (h : e.lo ≠ d.lo) : (s.inc d i k).rd e j = s.rd e j := rd_wr_lo s i j _ h

end

/-- A counter that does not saturate takes the sum. -/
theorem inc_eq_wr {s : State} {d : Fld} {i : Nat} (h : s.rd d i + 1 < 2 ^ d.w) : s.inc d i = s.wr d (s.rd d i + 1) i := by
  rw [State.inc, satAdd, Nat.min_eq_left (by omega)]

theorem rd_inc_le (s : State) (d : Fld) (i : Nat) : (s.inc d i).rd d i ≤ s.rd d i + 1 := by
  rw [State.inc, rd_wr_same, satAdd]
  exact (Nat.mod_le _ _).trans (Nat.min_le_left _ _)

/-! ### Replays -/

section
variable {s : State} {p : Nat}

/-- A replay within the window's limit leaves the link as it is (R128, R129, R137). -/
theorem startReplay_within (x : Nat) (h1 : s.rd F.LNK_ERR_COUNT.REPLAY_WIN p + 1 ≤ s.rd F.LNK_HEALTH.REPLAY_MAX)
    (h2 : s.rd F.LNK_ERR_COUNT.REPLAY_WIN p + 1 < 2 ^ F.LNK_ERR_COUNT.REPLAY_WIN.w) :
    s.startReplay p x = ((((s.wr F.LNK_REPLAY_STATUS.REPLAYING 1 p).modLink p (fun l => { l with rpos := some x })).inc
      F.LNK_ERR_COUNT.REPLAY_TOTAL p).wr F.LNK_ERR_COUNT.REPLAY_WIN (s.rd F.LNK_ERR_COUNT.REPLAY_WIN p + 1) p) := by
  have hw : ((((s.wr F.LNK_REPLAY_STATUS.REPLAYING 1 p).modLink p (fun l => { l with rpos := some x })).inc
      F.LNK_ERR_COUNT.REPLAY_TOTAL p)).rd F.LNK_ERR_COUNT.REPLAY_WIN p = s.rd F.LNK_ERR_COUNT.REPLAY_WIN p := by
    simp (disch := decide) only [rd_inc_lo, rd_modLink, rd_wr_reg]
  have hi := inc_eq_wr (hw.symm ▸ h2)
  rw [hw] at hi
  rw [State.startReplay]
  rw [hi, if_neg]
  simp (disch := decide) only [rd_inc_reg, rd_modLink, rd_wr_reg, rd_wr_same]
  rw [Nat.mod_eq_of_lt h2]
  omega

theorem ackTimeout_outstanding (hu : s.lnkState p = lnkUp) (ho : 0 < s.rd F.LNK_REPLAY_STATUS.OUTSTANDING p) :
    s.ackTimeout p = s.startReplay p (s.rd F.LNK_REPLAY_STATUS.TX_OLDEST p) := if_pos ⟨hu, ho⟩

/-- The flits before number `x` are acknowledged, `k` of them (R126). -/
def State.ackedTo (s : State) (p x k : Nat) : State :=
  (((s.wr F.LNK_REPLAY_STATUS.TX_OLDEST x p).wr F.LNK_REPLAY_STATUS.OUTSTANDING (s.rd F.LNK_REPLAY_STATUS.OUTSTANDING p - k) p).wr
    F.LNK_REPLAY_STATUS.FULL (b2n (s.rd F.LNK_REPLAY_STATUS.OUTSTANDING p - k == 512)) p).modLink p (fun l => { l with replay := l.replay.drop k })

/-- An ACK of the flit before `x` acknowledges up to it. -/
theorem takeAck_before {x : Nat} (hx : x < 4096) (ho : s.rd F.LNK_REPLAY_STATUS.TX_OLDEST p < 4096)
    (h0 : (x + 4096 - s.rd F.LNK_REPLAY_STATUS.TX_OLDEST p) % 4096 ≠ 0)
    (hk : (x + 4096 - s.rd F.LNK_REPLAY_STATUS.TX_OLDEST p) % 4096 ≤ s.rd F.LNK_REPLAY_STATUS.OUTSTANDING p) :
    s.takeAck p ((x + 4095) % 4096) = s.ackedTo p x ((x + 4096 - s.rd F.LNK_REPLAY_STATUS.TX_OLDEST p) % 4096) := by
  have e1 : ((x + 4095) % 4096 + 4096 - s.rd F.LNK_REPLAY_STATUS.TX_OLDEST p + 1) % 4096 =
      (x + 4096 - s.rd F.LNK_REPLAY_STATUS.TX_OLDEST p) % 4096 := by omega
  have e2 : (s.rd F.LNK_REPLAY_STATUS.TX_OLDEST p + (x + 4096 - s.rd F.LNK_REPLAY_STATUS.TX_OLDEST p) % 4096) % 4096 = x := by omega
  rw [State.takeAck]
  dsimp only
  rw [e1, if_pos ⟨by omega, hk⟩, e2]
  rfl

/-- An ACK of the flit that was acknowledged last changes nothing (R126). -/
theorem takeAck_stale {a : Nat} (h : (a + 4096 - s.rd F.LNK_REPLAY_STATUS.TX_OLDEST p + 1) % 4096 = 0) : s.takeAck p a = s := by
  rw [State.takeAck]
  dsimp only
  rw [h, if_neg (by omega), if_pos (.inl rfl)]

theorem takeNak_outside {x : Nat}
    (h : s.rd F.LNK_REPLAY_STATUS.OUTSTANDING p < (x + 4096 - s.rd F.LNK_REPLAY_STATUS.TX_OLDEST p) % 4096) :
    s.takeNak p x = s.raise .LNK_ACK_BAD p := if_pos h

theorem takeNak_inside {x : Nat}
    (h : ¬ s.rd F.LNK_REPLAY_STATUS.OUTSTANDING p < (x + 4096 - s.rd F.LNK_REPLAY_STATUS.TX_OLDEST p) % 4096) :
    s.takeNak p x =
      let k := (x + 4096 - s.rd F.LNK_REPLAY_STATUS.TX_OLDEST p) % 4096
      let t := if k = 0 then s else s.takeAck p ((x + 4095) % 4096)
      if k = s.rd F.LNK_REPLAY_STATUS.OUTSTANDING p then t else t.startReplay p x := if_neg h

theorem nak_exec {s t : State} {p : Port} {x : Nat} (hl : s.live = true) (hs : s.lnkState p = lnkInit ∨ s.lnkState p = lnkUp) (hx : x < 4096)
    (e : s.takeNak p x = t) : exec (.nak p x) s = .next (s.settle t) := by
  have run : exec (.nak p x) s =
    running s (fun s => if s.lnkState p.val = lnkInit ∨ s.lnkState p.val = lnkUp then s.takeNak p.val (x % 4096) else s) := rfl
  refine run.trans (running_eq hl ?_)
  rw [if_pos hs, Nat.mod_eq_of_lt hx, e]

end

/-- Settles O14: what is outstanding decides whether a replay starts, and where. -/
theorem replayStartsAndEnds : Obligations.ReplayStartsAndEnds := by
  unfold Obligations.ReplayStartsAndEnds
  refine ⟨fun s p hl hu ho h1 h2 => ?_, fun s p x hl hs hx => ⟨fun hk hold h1 h2 => ?_, fun hk => ?_, fun ho hk hold => ?_⟩⟩
  · have run : exec (.ackTimeout p) s = running s (fun s => s.ackTimeout p.val) := rfl
    exact run.trans (running_eq hl ((ackTimeout_outstanding hu ho).trans (startReplay_within _ h1 h2)))
  · refine nak_exec hl hs hx ((takeNak_inside (by omega)).trans ?_)
    dsimp only
    rw [if_neg (by omega)]
    by_cases h0 : (x + 4096 - s.rd F.LNK_REPLAY_STATUS.TX_OLDEST p) % 4096 = 0
    · simp only [h0, if_true]
      exact startReplay_within x h1 h2
    · have hw : (s.ackedTo p x ((x + 4096 - s.rd F.LNK_REPLAY_STATUS.TX_OLDEST p) % 4096)).rd F.LNK_ERR_COUNT.REPLAY_WIN p =
          s.rd F.LNK_ERR_COUNT.REPLAY_WIN p := by
        simp (disch := decide) only [State.ackedTo, rd_modLink, rd_wr_reg]
      have hm : (s.ackedTo p x ((x + 4096 - s.rd F.LNK_REPLAY_STATUS.TX_OLDEST p) % 4096)).rd F.LNK_HEALTH.REPLAY_MAX =
          s.rd F.LNK_HEALTH.REPLAY_MAX := by
        simp (disch := decide) only [State.ackedTo, rd_modLink, rd_wr_reg]
      simp only [h0, if_false]
      rw [takeAck_before hx hold h0 (by omega), startReplay_within x (by rw [hw, hm]; exact h1) (by rw [hw]; exact h2), hw]
      rfl
  · exact nak_exec hl hs hx (takeNak_outside hk)
  · refine nak_exec hl hs hx ((takeNak_inside (by omega)).trans ?_)
    dsimp only
    rw [if_pos hk, if_neg (by omega), takeAck_before hx hold (by omega) (by omega), State.ackedTo, hk, Nat.sub_self]
    rfl

end Sys2Proof.Machine
end

section
/-! What a receiver does with a flit (R102, R118, R120, R137, Tables 4.3 and 4.7). -/

namespace Sys2Proof.Machine

section
variable {s t : State} {p : Nat} {r0 r1 : List Level} {raw : Bytes}

/-- What lanes deliver changes their descramblers alone. -/
theorem delivers_keeps (h : s.delivers p r0 r1 raw t) :
    (∀ (d : Fld) (i : Nat), t.rd d i = s.rd d i) ∧ t.link p = s.link p ∧ t.arrived = s.arrived := by
  rcases h with ⟨-, -, -, rfl⟩ | ⟨-, -, -, rfl⟩ | ⟨-, -, -, -, rfl⟩
  all_goals exact ⟨fun _ _ => rfl, rfl, rfl⟩

theorem evenLane_cases (s : State) (p : Nat) : s.evenLane p = 0 ∨ s.evenLane p = 1 := by
  unfold State.evenLane
  split
  · split
    · exact .inr rfl
    · exact .inl rfl
  · exact .inl rfl

section
variable (hs : s.lnkState p = lnkInit ∨ s.lnkState p = lnkUp)
include hs

/-- A flit that comes whole on the lanes that the port receives on is taken by its bytes (R93). -/
theorem flitReceive_delivers (stamp : Nat) (h : s.delivers p r0 r1 raw t) : s.flitReceive p r0 r1 stamp = t.flitBytes p raw stamp := by
  have hn : ¬ (s.lnkState p ≠ lnkInit ∧ s.lnkState p ≠ lnkUp) := by
    rintro ⟨h1, h2⟩
    exact hs.elim h1 h2
  rw [State.flitReceive, if_neg hn]
  rcases h with ⟨hx, hw, rfl, rfl⟩ | ⟨hx, hw, rfl, rfl⟩ | ⟨hx, h0, h1, rfl, rfl⟩
  · simp [hx, show bitsSet 2 1 = [0] from rfl, foldS, hw]
  · simp [hx, show bitsSet 2 2 = [1] from rfl, foldS, hw]
  · rcases evenLane_cases s p with he | he
    · simp [hx, show bitsSet 2 3 = [0, 1] from rfl, foldS, h0, h1, he]
    · simp [hx, show bitsSet 2 3 = [0, 1] from rfl, foldS, h0, h1, he]

/-- A flit that is cut short on one lane of two is uncorrectable (R102, R120). -/
theorem flitReceive_cut (stamp : Nat) (hx : (s.sp p).rxLanes = 3) (hw : s.laneWhole p 0 128 r0 ≠ s.laneWhole p 1 128 r1) :
    s.flitReceive p r0 r1 stamp = ((s.rxAdvance (2 * p) 128).rxAdvance (2 * p + 1) 128).badFlit p := by
  have hn : ¬ (s.lnkState p ≠ lnkInit ∧ s.lnkState p ≠ lnkUp) := by
    rintro ⟨h1, h2⟩
    exact hs.elim h1 h2
  rw [State.flitReceive, if_neg hn]
  cases h0 : s.laneWhole p 0 128 r0 with
  | false =>
    have h1 : s.laneWhole p 1 128 r1 = true := by simpa [h0] using hw.symm
    simp [hx, show bitsSet 2 3 = [0, 1] from rfl, foldS, h0, h1]
  | true =>
    have h1 : s.laneWhole p 1 128 r1 = false := by simpa [h0] using hw.symm
    simp [hx, show bitsSet 2 3 = [0, 1] from rfl, foldS, h0, h1]

/-- A flit that is cut short on every lane is no received flit. -/
theorem flitReceive_none (stamp : Nat) (hx : (s.sp p).rxLanes = 3) (h0 : s.laneWhole p 0 128 r0 = false)
    (h1 : s.laneWhole p 1 128 r1 = false) : s.flitReceive p r0 r1 stamp = (s.rxAdvance (2 * p) 128).rxAdvance (2 * p + 1) 128 := by
  have hn : ¬ (s.lnkState p ≠ lnkInit ∧ s.lnkState p ≠ lnkUp) := by
    rintro ⟨h1, h2⟩
    exact hs.elim h1 h2
  rw [State.flitReceive, if_neg hn]
  simp [hx, show bitsSet 2 3 = [0, 1] from rfl, foldS, h0, h1]

end

/-! ### Flits by their place relative to E -/

theorem flitBytes_bad (stamp : Nat) (h : flitDecode raw = none) : t.flitBytes p raw stamp = t.badFlit p := by
  simp only [State.flitBytes, h]

theorem flitBytes_up {g : Bytes} (stamp : Nat) (h : flitDecode raw = some (g, 0)) (ho : flitOk (leAt g 0 4) = true)
    (hu : t.lnkState p = lnkUp) : t.flitBytes p raw stamp = t.goodUp p g stamp := by
  simp [State.flitBytes, h, ho, hu]

section
variable {g : Bytes} (stamp : Nat) (hack : (bits (leAt g 0 4) 12 12 + 4096 - t.rd F.LNK_REPLAY_STATUS.TX_OLDEST p + 1) % 4096 = 0)
include hack

theorem goodUp_sequenced (hty : bits (leAt g 0 4) 30 2 = 1 ∨ bits (leAt g 0 4) 30 2 = 2) : t.goodUp p g stamp =
    if (bits (leAt g 0 4) 0 12 + 4096 - t.rd F.LNK_REPLAY_STATUS.RX_EXPECT p) % 4096 = 0 then
      t.accept p (bits (leAt g 0 4) 30 2) (bits (leAt g 0 4) 24 6) (bits (leAt g 0 4) 0 12) ((g.drop 4).take 236) stamp
    else if (bits (leAt g 0 4) 0 12 + 4096 - t.rd F.LNK_REPLAY_STATUS.RX_EXPECT p) % 4096 ≤ 2047 then t.askNak p else t := by
  rw [State.goodUp]
  dsimp only
  rw [takeAck_stale hack, if_pos hty]

theorem goodUp_idle (hty : bits (leAt g 0 4) 30 2 = 0) : t.goodUp p g stamp =
    if 2048 ≤ (bits (leAt g 0 4) 0 12 + 4096 - t.rd F.LNK_REPLAY_STATUS.RX_EXPECT p) % 4096 then t.declare p rsProto
    else if (bits (leAt g 0 4) 0 12 + 4096 - t.rd F.LNK_REPLAY_STATUS.RX_EXPECT p) % 4096 = 0 then t else t.askNak p := by
  rw [State.goodUp]
  dsimp only
  rw [takeAck_stale hack, hty, if_neg (show ¬ (0 = 1 ∨ 0 = 2) by decide), if_neg (show ¬ 0 = 3 by decide)]

end

/-- A DATA flit of SEQ E whose packets are whole, or which fills its body, is accepted (R121). -/
theorem accept_data {words seq : Nat} {body rest : Bytes} {ps : List Bytes} (stamp : Nat) (hr : words = 59 ∨ rest = [])
    (hc : cutPackets 64 ((t.link p).rx ++ body.take (4 * words)) = (ps, rest, true)) :
    t.accept p 1 words seq body stamp =
      { ((((t.wr F.LNK_REPLAY_STATUS.RX_EXPECT ((seq + 1) % 4096) p).wr F.LNK_REPLAY_STATUS.NAK_OUT 0 p).modLink p
          (fun l => { l with acked := some seq, nakDue := false })).modLink p (fun l => { l with rx := rest })) with
        arrived := t.arrived ++ ps.map (fun b => (p, b)) } := by
  have hb : (!true || (decide (words < 59) && !rest.isEmpty)) = false := by
    rcases hr with rfl | rfl <;> simp
  simp only [State.accept, if_true, State.dataBody, link_modLink, link_wr, hc, hb, Bool.false_eq_true, if_false]
  rfl

theorem askNak_up (hu : t.lnkState p = lnkUp) : t.askNak p =
    if t.on F.LNK_REPLAY_STATUS.NAK_OUT p = true then t
    else (t.wr F.LNK_REPLAY_STATUS.NAK_OUT 1 p).modLink p (fun l => { l with nakDue := true }) := by
  simp only [State.askNak, hu, ne_eq, not_true_eq_false, or_false]

/-! ### Uncorrectable flits -/

theorem badFlit_init (hs : t.lnkState p = lnkInit) :
    t.badFlit p = (t.inc F.LNK_ERR_COUNT.UNCORR_TOTAL p).modLink p (fun l => { l with good := 0 }) := by
  have h : (t.inc F.LNK_ERR_COUNT.UNCORR_TOTAL p).lnkState p = lnkInit := (rd_inc_reg t p p 1 (by decide)).trans hs
  exact if_pos h

theorem badFlit_up (hs : t.lnkState p = lnkUp) (hw : t.rd F.LNK_ERR_COUNT.UNCORR_WIN p + 1 ≤ t.rd F.LNK_HEALTH.UNCORR_MAX)
    (hn : t.on F.LNK_REPLAY_STATUS.NAK_OUT p = false) : t.badFlit p =
      (((t.inc F.LNK_ERR_COUNT.UNCORR_TOTAL p).inc F.LNK_ERR_COUNT.UNCORR_WIN p).wr F.LNK_REPLAY_STATUS.NAK_OUT 1 p).modLink p
        (fun l => { l with nakDue := true }) := by
  have h1 : (t.inc F.LNK_ERR_COUNT.UNCORR_TOTAL p).lnkState p = lnkUp := (rd_inc_reg t p p 1 (by decide)).trans hs
  have h2 : ((t.inc F.LNK_ERR_COUNT.UNCORR_TOTAL p).inc F.LNK_ERR_COUNT.UNCORR_WIN p).lnkState p = lnkUp :=
    (rd_inc_reg _ p p 1 (by decide)).trans h1
  have hle := rd_inc_le (t.inc F.LNK_ERR_COUNT.UNCORR_TOTAL p) F.LNK_ERR_COUNT.UNCORR_WIN p
  have hmax : ¬ ((t.inc F.LNK_ERR_COUNT.UNCORR_TOTAL p).inc F.LNK_ERR_COUNT.UNCORR_WIN p).rd F.LNK_HEALTH.UNCORR_MAX <
      ((t.inc F.LNK_ERR_COUNT.UNCORR_TOTAL p).inc F.LNK_ERR_COUNT.UNCORR_WIN p).rd F.LNK_ERR_COUNT.UNCORR_WIN p := by
    simp (disch := decide) only [rd_inc_lo] at hle
    simp (disch := decide) only [rd_inc_reg] at hle ⊢
    omega
  have hnak : ((t.inc F.LNK_ERR_COUNT.UNCORR_TOTAL p).inc F.LNK_ERR_COUNT.UNCORR_WIN p).on F.LNK_REPLAY_STATUS.NAK_OUT p = false := by
    simp (disch := decide) only [State.on, rd_inc_reg]
    exact hn
  rw [State.badFlit]
  dsimp only
  rw [h1, if_neg (by decide), if_neg hmax, askNak_up h2, hnak, if_neg (by decide)]

end

theorem flitReceive_exec {s t : State} {p : Port} {r0 r1 : List Level} {stamp : Nat} (hl : s.live = true)
    (e : s.flitReceive p r0 r1 stamp = t) : exec (.flitReceive p (r0, r1) stamp) s = .next (s.settle t) := by
  have run : exec (.flitReceive p (r0, r1) stamp) s = running s (fun s => s.flitReceive p.val r0 r1 stamp) := rfl
  exact run.trans (running_eq hl e)

/-- Settles O15: a flit is judged by its bytes, its type and its distance from E. -/
theorem receiverTakesOrDiscards : Obligations.ReceiverTakesOrDiscards := by
  unfold Obligations.ReceiverTakesOrDiscards
  refine ⟨fun s t p r0 r1 raw g stamp hl hu hd hg hok hack => ?_, fun s t p r0 r1 stamp hl => ?_⟩
  · obtain ⟨hrd, hlink, harr⟩ := delivers_keeps hd
    have hu' : t.lnkState p = lnkUp := (hrd _ _).trans hu
    have hto := hrd F.LNK_REPLAY_STATUS.TX_OLDEST p
    have hex := hrd F.LNK_REPLAY_STATUS.RX_EXPECT p
    have hon : t.on F.LNK_REPLAY_STATUS.NAK_OUT p = s.on F.LNK_REPLAY_STATUS.NAK_OUT p := by simp only [State.on, hrd]
    have hack' : (bits (leAt g 0 4) 12 12 + 4096 - t.rd F.LNK_REPLAY_STATUS.TX_OLDEST p + 1) % 4096 = 0 := by
      rw [hto]
      exact hack
    have go : ∀ u : State, t.goodUp p g stamp = u → exec (.flitReceive p (r0, r1) stamp) s = .next (s.settle u) := fun u e =>
      flitReceive_exec hl ((flitReceive_delivers (.inr hu) stamp hd).trans ((flitBytes_up stamp hg hok hu').trans e))
    dsimp only
    refine ⟨fun ps rest hty h0 hr hc => ?_, fun hty h1 h2 => ?_, fun hty h1 => ?_, fun hty h0 => ?_, fun hty h1 h2 => ?_, fun hty h1 => ?_⟩
    · refine go _ ((goodUp_sequenced stamp hack' (.inl hty)).trans ?_)
      rw [hex, if_pos h0, hty, accept_data stamp hr (hlink ▸ hc), harr]
    · refine go _ ((goodUp_sequenced stamp hack' hty).trans ?_)
      rw [hex, if_neg (by omega), if_pos h2, askNak_up hu', hon]
    · refine go _ ((goodUp_sequenced stamp hack' hty).trans ?_)
      rw [hex, if_neg (by omega), if_neg (by omega)]
    · refine go _ ((goodUp_idle stamp hack' hty).trans ?_)
      rw [hex, if_neg (by omega), if_pos h0]
    · refine go _ ((goodUp_idle stamp hack' hty).trans ?_)
      rw [hex, if_neg (by omega), if_neg (by omega), askNak_up hu', hon]
    · refine go _ ((goodUp_idle stamp hack' hty).trans ?_)
      rw [hex, if_pos h1]
  · dsimp only
    refine ⟨fun hc => ?_, fun hx hu h0 h1 => flitReceive_exec hl (flitReceive_none (.inr hu) stamp hx h0 h1)⟩
    have bad : (s.lnkState p = lnkInit ∨ s.lnkState p = lnkUp) →
        s.flitReceive p r0 r1 stamp = t.badFlit p ∧ ∀ (d : Fld) (i : Nat), t.rd d i = s.rd d i := by
      intro hs
      rcases hc with ⟨raw, hd, hn⟩ | ⟨hx, hw, rfl⟩
      · exact ⟨(flitReceive_delivers hs stamp hd).trans (flitBytes_bad stamp hn), (delivers_keeps hd).1⟩
      · exact ⟨flitReceive_cut hs stamp hx hw, fun _ _ => rfl⟩
    refine ⟨fun hs => ?_, fun hs hw hn => ?_⟩
    · obtain ⟨hb, hrd⟩ := bad (.inl hs)
      exact flitReceive_exec hl (hb.trans (badFlit_init ((hrd _ _).trans hs)))
    · obtain ⟨hb, hrd⟩ := bad (.inr hs)
      refine flitReceive_exec hl (hb.trans (badFlit_up ((hrd _ _).trans hs) ?_ ?_))
      · rw [hrd, hrd]
        exact hw
      · simp only [State.on, hrd]
        exact hn

end Sys2Proof.Machine
end

section
/-! How a link goes down, its health windows, its credits and CORRUPT (R137 to R146, R167). -/

namespace Sys2Proof.Machine

section
variable {s : State} {p : Nat}

/-- The link enters DOWN with its reason, fenced (R141, R142). -/
theorem serState_fenced (r : Nat) : ((s.fence p).linkDown p r).serState p = s.serState p := by
  unfold State.serState State.linkDown
  dsimp only
  split
  all_goals
    simp only [rd_raise, State.raiseOcc, rd_post]
    simp (disch := decide) only [State.fence, rd_inc_reg, rd_wr_reg, rd_post, rd_modLink]

/-- A link that goes down for another reason than its lanes takes them from ACTIVE to DETECT. -/
theorem declare_of_active {r : Nat} (hs : s.lnkState p = lnkInit ∨ s.lnkState p = lnkUp) (ha : s.serState p = serActive) (hr : r ≠ rsLanes) :
    s.declare p r = ((s.fence p).linkDown p r).serTo p serDetect := by
  rw [State.declare, if_pos hs]
  exact if_pos ⟨hr, (serState_fenced r).trans ha⟩

theorem takeFence_up {reason : Nat} (hs : s.lnkState p = lnkUp) (ha : s.serState p = serActive) :
    s.takeFence p reason =
      (((s.wr F.LNK_PORT_STATUS.PEER_REASON (min reason 15) p).fence p).linkDown p rsPeerFence).serTo p serDetect := by
  rw [State.takeFence, if_pos (.inr hs)]
  exact declare_of_active (.inr ((rd_wr_lo s p p _ (by decide)).trans hs)) ((rd_wr_reg s p p _ (by decide)).trans ha) (by decide)

/-- After the fourth FENCE the lanes of a port that stays on go where the cause says, or to TEST (R142). -/
theorem fenceDone_eq (hs : s.lnkState p = lnkFencing) (h0 : (s.link p).fenceLeft = 0) (hd : (s.link p).fenceDest ≠ serOff) :
    s.fenceDone p = ((s.linkDown p rsLocalFence).serTo p (s.fenceTo p)).settlePort p (s.fenceTo p) ∧
      s.fenceTo p = if s.on F.SER_PORT_CTRL.MODE p then serTest else if (s.link p).fenceDest = serTest then serDetect else (s.link p).fenceDest :=
  ⟨if_pos ⟨hs, h0⟩, if_neg hd⟩

theorem settlePort_on {st : Nat} (h : st ≠ serOff) : s.settlePort p st = s := if_neg h

/-- A health window that is over starts anew (R137). -/
theorem healthRestart_due (hs : s.lnkState p = lnkUp) (hw : (s.link p).winBeats = s.rd F.LNK_HEALTH.WINDOW) (h0 : 0 < s.rd F.LNK_HEALTH.WINDOW) :
    s.healthRestart p = (s.healthStart p).modLink p (fun l => { l with winBeats := 0 }) := by
  rw [State.healthRestart, if_pos ⟨hs, hw.ge⟩]
  dsimp only
  rw [hw, if_neg (by omega), Nat.mod_self]

/-! ### Words of a CREDIT message (R167) -/

section
variable {vn hc n : Nat}

theorem creditWord_bits (hv : vn ≤ 4) (hh : hc ≤ 2) (hn : n ≤ 4095) :
    let w := vn + hc * 8 + n * 256
    bits w 0 3 = vn ∧ bits w 3 2 = hc ∧ bit w 5 = false ∧ bits w 8 12 = n ∧ bits w 6 2 = 0 ∧ bits w 20 12 = 0 := by
  simp only [bits, bit, beq_eq_false_iff_ne]
  omega

/-- A word of no credits is none that R167 allows. -/
theorem creditWord_zero (hv : vn ≤ 4) (hh : hc ≤ 2) : s.creditWord p (vn + hc * 8) = none := by
  obtain ⟨-, -, -, h, -⟩ := creditWord_bits (n := 0) hv hh (by omega)
  rw [Nat.zero_mul, Nat.add_zero] at h
  simp [State.creditWord, h]

theorem creditWord_adds (hv : vn ≤ 4) (hh : hc ≤ 2) (h1 : 1 ≤ n) (hn : n ≤ 4095)
    (hm : tabGetD s.rte.cred (chKey p vn hc false) 0 + n ≤ 4095) :
    s.creditWord p (vn + hc * 8 + n * 256) = some (s.modRte (fun r => { r with
      cred := tabPut r.cred (chKey p vn hc false) (tabGetD r.cred (chKey p vn hc false) 0 + n),
      used := tabSet r.used (chKey p vn hc false) 0 (tabGetD r.used (chKey p vn hc false) 0 - n),
      seen := if r.seen.contains (chKey p vn hc false) then r.seen else r.seen ++ [chKey p vn hc false] })) := by
  obtain ⟨e1, e2, e3, e4, e5, e6⟩ := creditWord_bits hv hh hn
  have h3 : hc ≠ 3 := by omega
  have h4 : ¬ 4 < vn := by omega
  have h0 : n ≠ 0 := by omega
  have hm' : ¬ 4095 < tabGetD s.rte.cred (chKey p vn hc false) 0 + n := by omega
  unfold State.creditWord
  simp only [e1, e2, e3, e4, e5, e6, h0, h3, h4, hm', ne_eq, not_true_eq_false, Bool.false_eq_true, false_and, or_false, if_false]

/-- A message of one word is that word. -/
theorem creditMsg_one {w : Nat} (hw : w < 2 ^ 32) : s.creditMsg p 16 (leBytes 4 w) = (s.creditWord p w).getD (s.declare p rsProto) := by
  have hd : (leBytes 4 w).drop 4 = [] := by simp
  rw [State.creditMsg, if_neg (by simp), leAt_one hw, hd]
  cases s.creditWord p w with
  | none => rfl
  | some t => rfl

end

end

/-- Settles O16: each way down fences, leaves its reason, and takes the lanes where Table 4.7 says. -/
theorem linksEndAndCount : Obligations.LinksEndAndCount := by
  unfold Obligations.LinksEndAndCount
  refine ⟨fun s p => ⟨fun hl hs ha => ?_, fun noFlit hl hs hn ha => ?_, ?_, ?_⟩, fun s p => ⟨fun hl hs h0 hw => ?_, ?_, ?_, ?_⟩⟩
  · have run : exec (.initTimeout p) s = running s (fun s => s.initTimeout p.val) := rfl
    exact run.trans (running_eq hl ((if_pos hs).trans (declare_of_active (.inl hs) ha (by decide))))
  · have run : exec (.noprogUs p noFlit) s = running s (fun s => s.noProgress p.val noFlit) := rfl
    exact run.trans (running_eq hl ((if_pos ⟨hs, hn⟩).trans (declare_of_active (.inr hs) ha (by decide))))
  · intro reason r hl hs ha
    have run : exec (.fence p reason) s = running s (fun s => s.takeFence p.val reason) := rfl
    exact run.trans (running_eq hl (takeFence_up hs ha))
  · intro hp hs h0 hd
    have run : exec (.fenceComplete p) s = powered s (fun s => s.fenceDone p.val) := rfl
    obtain ⟨hf, ht⟩ := fenceDone_eq hs h0 hd
    refine ⟨fun hm => ?_, fun hm hn => ?_⟩
    · rw [hm, if_pos rfl] at ht
      rw [ht] at hf
      exact run.trans (powered_eq hp (hf.trans (settlePort_on (by decide))))
    · rw [hm, if_neg (by decide), if_neg hn] at ht
      rw [ht] at hf
      exact run.trans (powered_eq hp (hf.trans (settlePort_on hd)))
  · have run : exec (.healthWindowRestart p) s = running s (fun s => s.healthRestart p.val) := rfl
    exact run.trans (running_eq hl (healthRestart_due hs hw h0))
  · intro vn hc n hl hs hv hh h1 hn hm
    have run : exec (.credit p (leBytes 4 (vn + hc * 8 + n * 256))) s =
      running s (fun s => s.upLink p.val (fun s => s.creditMsg p.val 16 (leBytes 4 (vn + hc * 8 + n * 256)))) := rfl
    have hmsg := creditMsg_one (s := s) (p := p) (w := vn + hc * 8 + n * 256) (by omega)
    rw [creditWord_adds hv hh h1 hn hm, Option.getD_some] at hmsg
    refine ⟨_, run.trans (running_eq hl ((if_pos hs).trans hmsg)), ?_, fun k hk => ?_, rfl⟩
    · simp only [State.modRte, tabGetD, tabGet_put_same, Option.getD_some]
    · simp only [State.modRte, tabGetD, tabGet_put_ne _ _ hk]
  · intro vn hc hl hs hv hh
    have run : exec (.credit p (leBytes 4 (vn + hc * 8))) s =
      running s (fun s => s.upLink p.val (fun s => s.creditMsg p.val 16 (leBytes 4 (vn + hc * 8)))) := rfl
    have hmsg := creditMsg_one (s := s) (p := p) (w := vn + hc * 8) (by omega)
    rw [creditWord_zero hv hh, Option.getD_none] at hmsg
    exact run.trans (running_eq hl ((if_pos hs).trans hmsg))
  · intro who hs hr
    have run : exec (.corrupt who p) s = powered s (fun s => s.regCmd who .LNK_PORT_CTRL p.val 1) := rfl
    have hu : (s.unusedOut .LNK_PORT_CTRL p.val || s.ringOut who .LNK_PORT_CTRL p.val) = false := by
      have : s.unusedOut .LNK_PORT_CTRL p.val = (s.portRole p.val == 0) := rfl
      rw [this, beq_eq_false_iff_ne.2 hr]
      rfl
    have hw : s.writeReg who .LNK_PORT_CTRL p.val 1 = s.rejectOnce (s.corruptReq p.val) := by
      unfold State.writeReg
      simp only [hu, Bool.false_eq_true, if_false]
      rfl
    refine run.trans (regCmd_exec hs (hw.trans ?_))
    rw [State.corruptReq, if_neg hr]
    exact rejectOnce_of_acts rfl

end Sys2Proof.Machine
end

section
/-! Packets at the router's inputs (R151, R155, R162, R168, R169). -/

namespace Sys2Proof.Machine

theorem routeReads_of_intact {s : State} (b : Bytes) (h : s.intact = true) : s.routeReads b = s := if_pos h

theorem eccLost_of_intact {s : State} (o : EObj) (h : s.intact = true) : s.eccLost o = false := by
  have hw : s.ecc.words = [] := List.isEmpty_iff.1 h
  simp [State.eccLost, hw]

/-- The router takes the oldest packet staged at a port. -/
theorem arriveNext_head {s : State} {p : Nat} {b : Bytes} {rest : List (Nat × Bytes)} (he : s.en uRTE = true) (hu : s.lnkState p = lnkUp)
    (ha : s.arrived = (p, b) :: rest) : s.arriveNext p = ({ s with arrived := rest } : State).packetArrive p b true := by
  simp [State.arriveNext, he, ha, hu]

theorem arriveNext_off {s : State} {p : Nat} (h : s.en uRTE = false ∨ s.arrived = []) : s.arriveNext p = s := by
  rcases h with h | h
  · simp [State.arriveNext, h]
  · simp [State.arriveNext, h]

/-- The packet comes in the detour channel of its port: it has still to go in the port's own dimension (R162). -/
def State.arrivesDetoured (s : State) (p : Nat) (b : Bytes) : Bool :=
  !pkMcast b && ((s.kind p == kRow && s.xFirst (s.target b)) || (s.kind p == kCol && s.target b / 16 != s.ownPos / 16))

section
variable {t : State} {p : Nat} {b : Bytes}

theorem packetArrive_srcBad (hk : t.kind p = kHost) (hs : t.srcBad p b = true) (hv : pkVn b ≤ 4) (hh : pkHc b ≤ 2) :
    t.packetArrive p b true =
      ((t.freeCredits p (pkVn b) (pkHc b) false (pkCredits b)).inc F.RTE_DROP_COUNT.SRC_BAD).raise .RTE_SRC_BAD p := by
  simp [State.packetArrive, hk, hs, hv, hh, State.refund]

/-- What is checked after the source: the channel, its credits, and the class (R155, R168, R169). -/
theorem packetArrive_noChannel (hs : ¬ (t.kind p = kHost ∧ t.srcBad p b = true)) (hc : 4 < pkVn b ∨ 2 < pkHc b) :
    t.packetArrive p b true = t.malformed := by
  have hr : (decide (pkVn b ≤ 4) && decide (pkHc b ≤ 2)) = false := by
    simp only [Bool.and_eq_false_iff, decide_eq_false_iff_not]
    omega
  rw [State.packetArrive]
  dsimp only
  rw [if_neg hs, hr]
  rfl

theorem packetArrive_channel (hs : ¬ (t.kind p = kHost ∧ t.srcBad p b = true)) (hv : pkVn b ≤ 4) (hh : pkHc b ≤ 2) :
    t.packetArrive p b true =
      let key := chKey p (pkVn b) (pkHc b) (t.arrivesDetoured p b)
      if t.allocOf key < t.resident key + pkCredits b then
        (t.raiseOcc { occ .RTE_CREDIT_OVERRUN p with
          info := pkVn b + pkHc b * 8 + b2n (t.arrivesDetoured p b) * 32 + t.allocOf key % 4096 * 2 ^ 16 + pkCredits b % 4096 * 2 ^ 32,
          init := t.rd F.SER_PORT_STATUS.PEER_NODE p, remote := true }).declare p rsProto
      else if badRoute b = true then (t.freeCredits p (pkVn b) (pkHc b) (t.arrivesDetoured p b) (pkCredits b)).malformed
      else t.letIn ⟨b, p, t.arrivesDetoured p b, true, []⟩ := by
  have hr : (decide (pkVn b ≤ 4) && decide (pkHc b ≤ 2)) = true := by simp [hv, hh]
  rw [State.packetArrive]
  dsimp only
  rw [if_neg hs, hr]
  simp only [Bool.not_true, Bool.false_eq_true, if_false, true_and, State.refund, if_true]
  rfl

/-- A packet of a valid class has a channel. -/
theorem channel_of_badRoute (h : badRoute b = false) : pkVn b ≤ 4 ∧ pkHc b ≤ 2 := by
  simp only [badRoute, Bool.or_eq_false_iff, decide_eq_false_iff_not, beq_eq_false_iff_ne] at h
  obtain ⟨⟨⟨⟨hv, hc⟩, -⟩, -⟩, -⟩ := h
  have hlt : pkHc b < 4 := Nat.mod_lt _ (by decide)
  omega

theorem badRoute_ph (h : pkPh b = 3) : badRoute b = true := by simp [badRoute, h]

/-! ### A packet gets its hops -/

theorem letIn_unicast {u : State} {k : Pk} {b' : Bytes} {h : Hop} (hm : pkMcast k.b = false) (hr : t.route k = (some (b', h), u)) :
    t.letIn k = (u.countInject k b').modRte (fun r => { r with held := r.held ++ [{ k with b := b', hops := [h] }] }) := by
  simp [State.letIn, hm, State.withHop, hr]

theorem letIn_multicast {k : Pk} {hs : List Hop} (hm : pkMcast k.b = true) (hh : t.mcHops k = some (hs, 0)) (hn : hs ≠ []) :
    t.letIn k = t.modRte (fun r => { r with held := r.held ++ [{ k with hops := hs }] }) := by
  simp [State.letIn, hm, hh, foldS, hn]

end

theorem packetArrive_exec {s t : State} {p : Port} (hl : s.live = true) (e : s.arriveRead p.val = t) :
    exec (.packetArrive p) s = .next (s.settle t) := by
  have run : exec (.packetArrive p) s = running s (fun s => s.arriveRead p.val) := rfl
  exact run.trans (running_eq hl e)

theorem arriveRead_of_intact {s : State} (p : Nat) (hi : s.intact = true) : s.arriveRead p = s.arriveNext p := by
  unfold State.arriveRead
  split
  · rw [routeReads_of_intact _ hi]
  · rfl

/-- What the checks read does not depend on what else is staged. -/
theorem arrived_reads (s : State) (rest : List (Nat × Bytes)) (p : Nat) (b : Bytes) :
    let t : State := { s with arrived := rest }
    t.kind p = s.kind p ∧ t.srcBad p b = s.srcBad p b ∧ t.arrivesDetoured p b = s.arrivesDetoured p b ∧
      (∀ key, t.allocOf key = s.allocOf key) ∧ (∀ key, t.resident key = s.resident key) ∧
      t.rd F.SER_PORT_STATUS.PEER_NODE p = s.rd F.SER_PORT_STATUS.PEER_NODE p :=
  ⟨rfl, rfl, rfl, fun _ => rfl, fun _ => rfl, rfl⟩

/-- Settles O17: the packet staged first is judged by its source, its channel, its credits and its class, in this order. -/
theorem arrivalIsChecked : Obligations.ArrivalIsChecked := by
  unfold Obligations.ArrivalIsChecked
  intro s p b rest hl hi
  dsimp only
  refine ⟨fun h => packetArrive_exec hl ((arriveRead_of_intact p hi).trans (arriveNext_off h)), fun he hu ha => ?_⟩
  have go : ∀ u : State, ({ s with arrived := rest } : State).packetArrive p.val b true = u → exec (.packetArrive p) s = .next (s.settle u) :=
    fun u e => packetArrive_exec hl ((arriveRead_of_intact p hi).trans ((arriveNext_head he hu ha).trans e))
  obtain ⟨ekind, esrc, edet, ealloc, eres, enode⟩ := arrived_reads s rest p.val b
  have edet' : (!pkMcast b && ((s.kind p.val == kRow && s.xFirst (s.target b)) || (s.kind p.val == kCol && s.target b / 16 != s.ownPos / 16))) =
    s.arrivesDetoured p.val b := rfl
  rw [edet', ← edet, ← ekind, ← esrc, ← enode]
  simp only [← ealloc, ← eres]
  generalize ({ s with arrived := rest } : State) = t at go
  refine ⟨fun hk hs hv hh => ?_, fun hk hc => ?_, fun hk hv hh ho => ?_, fun hk hv hh hp ho => ?_, fun hs hb ho => ?_⟩
  · exact go _ (packetArrive_srcBad hk hs hv hh)
  · exact go _ (packetArrive_noChannel (fun h => hk h.1) hc)
  · exact go _ ((packetArrive_channel (fun h => hk h.1) hv hh).trans (if_pos ho))
  · exact go _ ((packetArrive_channel (fun h => hk h.1) hv hh).trans ((if_neg (Nat.not_lt.2 ho)).trans (if_pos (badRoute_ph hp))))
  · obtain ⟨hv, hh⟩ := channel_of_badRoute hb
    have hs' : ¬ (t.kind p = kHost ∧ t.srcBad p b = true) := by
      rintro ⟨hk, hx⟩
      simp [hs hk] at hx
    have hin := (packetArrive_channel hs' hv hh).trans ((if_neg (Nat.not_lt.2 ho)).trans (if_neg (by simp [hb])))
    exact ⟨fun b' h u hm hr => go _ (hin.trans (letIn_unicast hm hr)), fun hs hm hh hn => go _ (hin.trans (letIn_multicast hm hh hn))⟩

end Sys2Proof.Machine
end

section
/-! Injection and forwarding of unicast packets with their credits (R158, R159, R164 to R167, R172, R174). -/

namespace Sys2Proof.Machine

/-! ### Injection -/

section
variable {u : State} {b : Bytes}

/-- A packet for the node itself is ejected where it was injected (R156, R159). -/
theorem route_own (hd : pkDst b = u.nodeId) (ha : u.aliasAt u.ownPos = none) :
    u.route ⟨b, ownPort, false, false, []⟩ = (some (setPath b 0 0, ⟨ownPort, false⟩), u) := by
  have ht : u.dstTarget (pkDst b) = u.ownPos := by
    have hp : pkDst b % 256 = u.ownPos := by rw [hd, State.ownPos]
    simp only [State.dstTarget, hp, ha]
  have hg : pkDst b / 256 = u.ownGroup := by rw [hd, State.ownGroup]
  have hl : u.leaveHop 1 (pkDst b) = some ⟨ownPort, false⟩ := by simp [State.leaveHop, hd]
  have hr : u.rank ⟨b, ownPort, false, false, []⟩ = 1 := if_pos rfl
  simp [State.route, hr, State.chooseInject, hg, ht, hl]

theorem injectPk_own (hm : pkMcast b = false) (hv : pkVn b = 0 ∨ pkVn b = 3 ∨ pkVn b = 4) (hd : pkDst b = u.nodeId)
    (ha : u.aliasAt u.ownPos = none) :
    u.injectPk b = (u.countInject ⟨b, ownPort, false, false, []⟩ (setPath b 0 0)).modRte (fun r =>
      { r with held := r.held ++ [⟨setPath b 0 0, ownPort, false, false, [⟨ownPort, false⟩]⟩] }) := by
  have h1 : pkVn b ≠ 1 := by omega
  have h2 : (pkVn b == 2) = false := beq_eq_false_iff_ne.2 (by omega)
  rw [State.injectPk]
  simp only [h1, h2, false_and, if_false, Bool.false_and, Bool.false_eq_true]
  exact letIn_unicast hm (route_own hd ha)

end

section
variable {s : State} {n : Nat} {b : Bytes}

theorem inject_agent (he : s.en uRTE = true) (h : s.rte.agent[n]? = some b) : s.inject n =
    if s.limited b = true then s else (s.modRte (fun r => { r with agent := r.agent.eraseIdx n })).injectPk b := by
  simp only [State.inject, he, Bool.not_true, Bool.false_eq_true, if_false, h]

theorem inject_notice (he : s.en uRTE = true) (hn : s.rte.agent.length ≤ n) (h : s.rte.notices[n - s.rte.agent.length]? = some b) :
    s.inject n = (s.modRte (fun r => { r with notices := r.notices.eraseIdx (n - s.rte.agent.length) })).injectPk b := by
  simp only [State.inject, he, Bool.not_true, Bool.false_eq_true, if_false, List.getElem?_eq_none hn, h]

theorem inject_none (he : s.en uRTE = true) (hn : s.rte.agent.length + s.rte.notices.length ≤ n) : s.inject n = s := by
  have h1 : s.rte.agent[n]? = none := List.getElem?_eq_none (by omega)
  have h2 : s.rte.notices[n - s.rte.agent.length]? = none := List.getElem?_eq_none (by omega)
  simp only [State.inject, he, Bool.not_true, Bool.false_eq_true, if_false, h1, h2]

theorem injectRead_of_intact (hi : s.intact = true) : s.injectRead n = s.inject n := by
  unfold State.injectRead
  split
  · rw [routeReads_of_intact _ hi]
  · rfl

theorem not_limited (h : pkVn b ≠ 1) : s.limited b = false := by simp [State.limited, h]

theorem limited_of_empty {l : Limiter} (hv : pkVn b = 1) (hm : pkMcast b = false) (hl : tabGet s.rte.limits (pkDst b) = some l)
    (hb : l.bucket ≤ 0) : s.limited b = true := by simp [State.limited, State.limitedTo, hv, hm, hl, hb]

theorem inject_exec {t : State} (hl : s.live = true) (hi : s.intact = true) (e : s.inject n = t) :
    exec (.packetInject n) s = .next (s.settle t) := by
  have run : exec (.packetInject n) s = running s (fun s => s.injectRead n) := rfl
  exact run.trans (running_eq hl ((injectRead_of_intact hi).trans e))

end

/-! ### Forwarding -/

section
variable {s : State} {out i : Nat} {k : Pk}

theorem arbitrate_none (h : s.candidates out = []) : s.arbitrate out = (none, s) := by
  simp [State.arbitrate, h]

/-- A packet of VN0 goes first (R172). -/
theorem arbitrate_vn0 (h : (s.candidates out).find? (fun x => pkVn x.2.b == 0) = some (i, k)) : s.arbitrate out = (some (i, k), s) := by
  simp only [State.arbitrate, h]

theorem forwardRead_none (h : s.candidates out = []) : s.forwardRead out none = s := by
  simp [State.forwardRead, State.forward, arbitrate_none h]

theorem forwardRead_vn0 (he : s.en uRTE = true) (hi : s.intact = true)
    (h : (s.candidates out).find? (fun x => pkVn x.2.b == 0) = some (i, k)) {d : Bool} (hh : k.hops = [⟨out, d⟩]) :
    s.forwardRead out none = (if out = ownPort then s.eject k.b else s.startOn k ⟨out, d⟩).hopTaken i out k := by
  have hf : k.hops.find? (fun h => h.port == out) = some ⟨out, d⟩ := by simp [hh]
  simp only [State.forwardRead, arbitrate_vn0 h, reads_of_intact _ hi, eccLost_of_intact _ hi, Bool.false_eq_true, if_false,
    State.forward, he, Bool.not_true, hf]

/-- A packet leaves with its last hop, and gives its channel up. -/
theorem hopTaken_last {t : State} {d : Bool} (hh : k.hops = [⟨out, d⟩]) :
    t.hopTaken i out k = (t.modRte (fun r => { r with held := r.held.eraseIdx i })).freePk k := by
  simp [State.hopTaken, hh]

/-- A VN0 packet starts on a link unmarked, and takes the credits of the channel that it enters (R165, R173). -/
theorem startOn_vn0 {p : Nat} {d : Bool} (hv : pkVn k.b = 0) (hk : s.kind p ≠ kGlobal) :
    s.startOn k ⟨p, d⟩ =
      (s.modRte (fun r => { r with
        cred := tabSet r.cred (chKey p 0 (pkHc k.b) d) 0 (tabGetD r.cred (chKey p 0 (pkHc k.b) d) 0 - pkCredits k.b),
        used := tabSet r.used (chKey p 0 (pkHc k.b) d) 0 (tabGetD r.used (chKey p 0 (pkHc k.b) d) 0 + pkCredits k.b) })).modLink p
          (fun l => { l with tx := l.tx ++ k.b }) := by
  have he : s.eddy p k.b = (false, s) := by simp [State.eddy, hv]
  simp only [State.startOn, he, Bool.false_and, Bool.false_eq_true, if_false, State.downKey, hv, if_neg hk]

theorem forward_exec {t : State} {out : Fin 65} (hl : s.live = true) (e : s.forwardRead out.val none = t) :
    exec (.packetForward out none) s = .next (s.settle t) := by
  have run : exec (.packetForward out none) s = running s (fun s => s.forwardRead out.val none) := rfl
  exact run.trans (running_eq hl e)

end

/-- Settles O18: a packet is held with its hop, and its credits move as it starts. -/
theorem packetTravels : Obligations.PacketTravels := by
  unfold Obligations.PacketTravels
  intro s hl he hi
  refine ⟨fun n b hm hv hd ha => ⟨fun h => ?_, fun hn h => ?_⟩, fun n hn => inject_exec hl hi (inject_none he hn),
    fun n b l h hm hv hg hb => ?_, fun out hc => forward_exec hl (forwardRead_none hc), fun i k h hh => ?_, fun p i k det h hh hv hk => ?_⟩
  · refine inject_exec hl hi ((inject_agent he h).trans ((if_neg ?_).trans (injectPk_own hm hv hd ha)))
    simp [not_limited (s := s) (b := b) (by omega)]
  · exact inject_exec hl hi ((inject_notice he hn h).trans (injectPk_own hm hv hd ha))
  · exact inject_exec hl hi ((inject_agent he h).trans (if_pos (limited_of_empty hv hm hg hb)))
  · refine forward_exec (out := 64) hl ((forwardRead_vn0 he hi h hh).trans ?_)
    rw [if_pos rfl, hopTaken_last hh]
  · have hp : (Fin.ofNat 65 p.val).val = p.val := Nat.mod_eq_of_lt (by omega)
    have hne : p.val ≠ ownPort := by have := p.isLt; show p.val ≠ 64; omega
    refine forward_exec hl ?_
    rw [hp, forwardRead_vn0 he hi h hh, if_neg hne, hopTaken_last hh, startOn_vn0 hv hk]

end Sys2Proof.Machine
end

section
/-! Packets that the router takes for itself (R174, R175, R182, R183). -/

namespace Sys2Proof.Machine

section
variable {β : Type} (g : State → β)

/-- What no echo touches stays as an echo is taken. -/
theorem echoAgainst_keeps (h1 : ∀ s (f : Rte → Rte), g (s.modRte f) = g s)
    (h2 : ∀ s (d : Fld) x, d.reg = .RTE_LIMITER_STATUS → g (s.wr d x) = g s) (h3 : ∀ s (c : Src), g (s.raise c) = g s) (s : State) (n : Nat) :
    g (s.echoAgainst n) = g s := by
  have hi : ∀ s (d : Fld), d.reg = .RTE_LIMITER_STATUS → g (s.inc d) = g s := fun s d hd => h2 s d _ hd
  unfold State.echoAgainst
  dsimp only
  split
  · exact h1 _ _
  · rw [h2 _ _ _ rfl, h1]
    split
    · rfl
    · have full : ∀ u : State, g u = g s → g (if (u.inc F.RTE_LIMITER_STATUS.REPLACED).rte.fullLogged = true then u.inc F.RTE_LIMITER_STATUS.REPLACED
          else ((u.inc F.RTE_LIMITER_STATUS.REPLACED).modRte (fun r => { r with fullLogged := true })).raise .RTE_LIMITER_FULL) = g s := by
        intro u hu
        split
        · rw [hi _ _ rfl, hu]
        · rw [h3, h1, hi _ _ rfl, hu]
      split
      · exact full _ (h1 _ _)
      · exact full _ rfl

/-- What no packet's marks touch stays as a unit takes a packet. -/
theorem handed_keeps (h1 : ∀ s (f : Rte → Rte), g (s.modRte f) = g s)
    (h2 : ∀ s (d : Fld) x, d.reg = .RTE_LIMITER_STATUS → g (s.wr d x) = g s) (h3 : ∀ s (c : Src), g (s.raise c) = g s) (s : State) (k : Nat)
    (b : Bytes) : g (s.handed k b) = g s := by
  unfold State.handed State.consumed
  split
  · split <;> simp only [h1]
  · split
    · rw [echoAgainst_keeps g h1 h2 h3, h1]
    · exact h1 _ _

end

theorem handed_intact (s : State) (k : Nat) (b : Bytes) : (s.handed k b).intact = s.intact :=
  handed_keeps State.intact (fun _ _ => rfl) (fun _ _ _ _ => rfl) (fun _ _ => rfl) s k b

/-! ### Management requests (R182) -/

section
variable {t : State} {b : Bytes} {go : State → Fin 4 → Nat → State}

theorem mgmtRequest_denied (h : t.mgmtEntry (pkSrc b) = none) : t.mgmtRequest b go = t.raise .RTE_MGMT_DENIED := by
  simp only [State.mgmtRequest, h]

section
variable {i : Fin 4} (h : t.mgmtEntry (pkSrc b) = some i) (hn : t.mgmtSlots (pkSrc b) < 16)
include h hn

theorem mgmtRequest_beyond (hr : mgmtReach (leAt b 12 4) = false) : t.mgmtRequest b go = t.mgmtAnswer b 3 0 := by
  simp only [State.mgmtRequest, h, if_neg (Nat.not_le.2 hn), hr, Bool.not_false, if_true]

theorem mgmtRequest_reached (hr : mgmtReach (leAt b 12 4) = true) : t.mgmtRequest b go = go t i (leAt b 12 4) := by
  simp only [State.mgmtRequest, h, if_neg (Nat.not_le.2 hn), hr, Bool.not_true, Bool.false_eq_true, if_false]

end

end

section
variable {t : State} {who : Who} {r : Reg} {k a : Nat}

/-- A whole write that reaches a served register writes it. -/
theorem sharedWrite_reg (w : Nat) (ha : a % 8 = 0) (hp : pfLoc a = .reg r k) (hs : t.serves who r k = true) :
    t.sharedWrite who a w = t.writeReg who r k w := by
  simp only [State.sharedWrite, hp, ha, if_true, State.locWrite]
  exact regAccess_of_serves w hs

/-- A whole read that reaches a served register, neither BEA_COUNT nor ECC_WIN, reads it. -/
theorem sharedRead_reg (c u : Nat) (ha : a % 8 = 0) (hp : pfLoc a = .reg r k) (hl : t.live = true) (hn : t.regAbsent r = false)
    (hf : r.fnOnly = false) (h1 : r ≠ .BEA_COUNT) (h2 : r ≠ .ECC_WIN) (hi : t.intact = true) :
    t.sharedRead who a c u = (t.regWord who r k, t) := by
  have hw : t.ecc.words.isEmpty = true := hi
  rw [State.sharedRead, if_neg (by omega), hp]
  dsimp only
  rw [hf, readable_of_live hl, hn, if_neg (by decide), if_neg (by decide)]
  split
  · exact absurd rfl h1
  · exact absurd rfl h2
  · split
    · rw [if_pos hw]
    · rfl

end

theorem limiterFree_due {s : State} {node : Nat} {l : Limiter} (hg : tabGet s.rte.limits node = some l)
    (hb : s.rd F.RTE_LIMITER_CFG.FREE_BEATS ≤ l.capBeats) :
    s.limiterFree node = (s.modRte (fun r => { r with limits := tabDel r.limits node })).wr
      F.RTE_LIMITER_STATUS.IN_USE (tabDel s.rte.limits node).length := by
  simp only [State.limiterFree, hg, if_pos hb]
  rfl

/-- A register that is served to another than a function is no function's alone. -/
theorem serves_mgmt {s : State} {i : Fin 4} {r : Reg} {k : Nat} (h : s.serves (.mgmt i) r k = true) : r.fnOnly = false := by
  simp only [State.serves, Bool.and_eq_true, Bool.not_eq_true'] at h
  exact h.2

/-- A running command by which a unit takes its packet of a KIND. -/
theorem unitPacket_exec {s t : State} {u k : Nat} {b : Bytes} {f : State → Bytes → State} (hl : s.live = true) (h : s.hands u k b = true)
    (e : f (s.handed k b) b = t) : running s (fun s => s.unitPacket u k f) = .next (s.settle t) :=
  running_eq hl ((unitPacket_of_hands f h).trans e)

/-- Settles O19: the router's own packets are consumed, refused, or answered with the register that they reach. -/
theorem routerServesItsPackets : Obligations.RouterServesItsPackets := by
  unfold Obligations.RouterServesItsPackets
  intro s b cycle sub hl
  refine ⟨fun h => ?_, fun h => ?_, fun node l hg hb => ?_, fun h => ?_, fun h => ?_⟩
  · have run : exec .echo s = running s (fun s => s.unitPacket uRTE 0x04 (fun s _ => s)) := rfl
    exact run.trans (unitPacket_exec hl h rfl)
  · have run : exec .mgmtResp s = running s (fun s => s.unitPacket uRTE 0x03 (fun s _ => s)) := rfl
    exact run.trans (unitPacket_exec hl h rfl)
  · have run : exec (.limiterFree node) s = running s (fun s => s.limiterFree node) := rfl
    exact run.trans (running_eq hl (limiterFree_due hg hb))
  · have run : exec .mgmtWrite s = running s (fun s => s.unitPacket uRTE 0x01 State.mgmtWrite) := rfl
    refine ⟨fun hn => ?_, fun i hi hs hr => ?_, fun i r k hi hs hr ha hp hv hw => ?_⟩
    · exact run.trans (unitPacket_exec hl h (mgmtRequest_denied hn))
    · exact run.trans (unitPacket_exec hl h (mgmtRequest_beyond hi hs hr))
    · refine run.trans (unitPacket_exec hl h ((mgmtRequest_reached hi hs hr).trans ?_))
      have hj : (State.writeReg (s.handed 0x01 b) (.mgmt i) r k (leNat ((pkPayload b).take 8))).rejected (s.handed 0x01 b).acts.length = false := by
        simp [State.rejected, hw]
      dsimp only
      rw [sharedWrite_reg _ ha hp hv, hj]
      rfl
  · have run : exec (.mgmtRead cycle sub) s = running s (fun s => s.unitPacket uRTE 0x02 (fun s b => s.mgmtRead b cycle sub)) := rfl
    refine ⟨fun hn => ?_, fun i r k hi hs hr ha hp hv h1 h2 hx => ?_⟩
    · exact run.trans (unitPacket_exec hl h (mgmtRequest_denied hn))
    · obtain ⟨hlive, -, -, hab, -, -⟩ := serves_parts hv
      refine run.trans (unitPacket_exec hl h ((mgmtRequest_reached hi hs hr).trans ?_))
      rw [sharedRead_reg cycle sub ha hp hlive hab (serves_mgmt hv) h1 h2 ((handed_intact s 0x02 b).trans hx)]

end Sys2Proof.Machine
end

section
/-! What the lane states of a port leave alone, and the fields that bring-up reads (03_lanes.md Table 3.4). -/

namespace Sys2Proof.Machine

theorem mem_bitsSet {n x k : Nat} : k ∈ bitsSet n x ↔ k < n ∧ bit x k = true := by
  simp [bitsSet, List.mem_filter]

/-- Elements that change nothing leave the state. -/
theorem foldS_same {α : Type} {f : State → α → State} {s : State} {l : List α} (h : ∀ a ∈ l, f s a = s) : foldS l s f = s := by
  induction l with
  | nil => rfl
  | cons a r ih =>
    have hr : foldS (a :: r) s f = foldS r (f s a) f := rfl
    rw [hr, h a List.mem_cons_self]
    exact ih (fun b hb => h b (List.mem_cons_of_mem a hb))

/-! ### No occurrence comes of a port's lane state -/

theorem putFfe_acts (s : State) (l a b : Nat) : (s.putFfe l a b).acts = s.acts := by
  unfold State.putFfe
  split <;> rfl

theorem serTo_acts (s : State) (p st : Nat) : (s.serTo p st).acts = s.acts := by
  unfold State.serTo
  dsimp only
  have off : ∀ t : State, t.acts = s.acts → (if st = serOff then
      foldS [2 * p, 2 * p + 1] (t.modSp p (fun x => { SerPort.init with seq := x.seq })) (fun s l =>
        (((s.wr F.SER_LANE_STATUS.POWERED 0 l).wr F.SER_LANE_STATUS.CDR_LOCK 0 l).wr F.SER_LANE_STATUS.SIG_DET 0 l).wr F.SER_LANE_STATUS.CAL_OK 0 l)
      else t).acts = s.acts := by
    intro t ht
    split
    · exact ht
    · exact ht
  apply off
  split
  · rw [State.testPreset, State.loadPreset, putFfe_acts, State.testPreset, State.loadPreset, putFfe_acts]
    split <;> split <;> rfl
  · split <;> split <;> rfl

theorem calibrate_acts (s : State) (p st : Nat) : (s.calibrate p st).acts = s.acts := by
  unfold State.calibrate
  split
  · rfl
  · exact serTo_acts _ _ _

theorem portEnable_acts (s : State) (p : Nat) : (s.portEnable p).acts = s.acts := by
  unfold State.portEnable
  split
  · dsimp only
    split
    · exact calibrate_acts _ _ _
    · exact serTo_acts _ _ _
  · rfl

/-- A port that leaves ACTIVE is dead to the router at most. -/
theorem leave_acts (s : State) (p r d : Nat) : (s.leave p r d).acts = s.acts ∨ (s.leave p r d).acts = s.acts ++ [.portDead p] := by
  unfold State.leave
  dsimp only
  split
  · exact .inr rfl
  · split
    · exact .inl rfl
    · left
      unfold State.settlePort
      split
      · rw [portEnable_acts, serTo_acts]
      · exact serTo_acts _ _ _

/-- A write that raises nothing ends with what it leaves. -/
theorem rejectOnce_of_calm {s t : State} {a : Act} (h : t.acts = s.acts ∨ t.acts = s.acts ++ [a]) : s.rejectOnce t = t :=
  h.elim rejectOnce_of_acts rejectOnce_of_one

theorem calibrate_done {s : State} {p : Nat} (st : Nat) (h0 : s.needsCal (2 * p) = false) (h1 : s.needsCal (2 * p + 1) = false) :
    s.calibrate p st = s.serTo p st := by
  simp [State.calibrate, h0, h1]

theorem calibToward_none {s : State} {p : Nat} (h : (s.sp p).calib = none) : s.calibToward p = s := by
  simp [State.calibToward, h]

/-- A port that is not in OFF is not enabled anew. -/
theorem portEnable_of_on {s : State} {p : Nat} (h : s.serState p ≠ serOff) : s.portEnable p = s := by
  simp only [State.portEnable, decide_eq_false h, Bool.false_and, Bool.false_eq_true, if_false]

end Sys2Proof.Machine
end

section
/-! Locks of lanes and PLLs, and the commands of SER_PORT_CTRL (R94, R95, R102, R112, R115, R142, Tables 3.4 and 16.11). -/

namespace Sys2Proof.Machine

/-! ### A write of one field of SER_PORT_CTRL -/

/-- A port's control register is one for all requesters. -/
theorem cellOf_portCtrl (s : State) (who : Who) (p : Nat) : s.cellOf who .SER_PORT_CTRL p = (0, p) := by
  have hi : instOf who .SER_PORT_CTRL = 0 := by cases who <;> rfl
  rw [cellOf_of_not_ring s who .SER_PORT_CTRL p rfl, hi]

section
variable {s : State} {who : Who} {p : Nat} (hr : s.portRole p ≠ 0)
include hr

theorem writeReg_portCtrl (w : Nat) : s.writeReg who .SER_PORT_CTRL p w = s.rejectOnce (s.portCtrl who p w) := by
  have hu : s.unusedOut .SER_PORT_CTRL p = false := beq_eq_false_iff_ne.2 hr
  have ho : s.ringOut who .SER_PORT_CTRL p = false := rfl
  unfold State.writeReg
  simp only [hu, ho, Bool.or_self, Bool.false_eq_true, if_false]

/-- A bit that already holds its value does nothing; another acts. -/
theorem putField_portCtrl {d : Fld} {v : Nat} (hd : d = F.SER_PORT_CTRL.MODE ∨ d = F.SER_PORT_CTRL.POWER_DOWN) (hv : v ≤ 1) :
    rejectIf (s.putField who 0 p (s.fieldWord who d p v) (s, false) d) = if v = s.rd d p then s else s.putL d 0 p v := by
  have hm : d ∈ Reg.SER_PORT_CTRL.fields := by rcases hd with rfl | rfl <;> decide
  have hbits := bits_fieldWord s who d (fields_reg hm) p v hm d hm
  rw [if_pos rfl] at hbits
  have hbv : bits (s.fieldWord who d p v) d.lo d.w = v := by
    rw [hbits]
    rcases hd with rfl | rfl
    · exact Nat.mod_eq_of_lt (show v < 2 ^ 2 by omega)
    · exact Nat.mod_eq_of_lt (show v < 2 ^ 1 by omega)
  have hbad : ∀ w, s.fieldBad who d p v w = false := by
    intro w
    have hfab : s.fabricBad d p v w = (d.lo == 10 && decide (1 < v)) := by
      rcases hd with rfl | rfl
      · have : s.fabricBad F.SER_PORT_CTRL.MODE p v w = ((s.portRole p == 0 || decide (1 < v)) || false || false) := rfl
        rw [this, beq_eq_false_iff_ne.2 hr]
        simp
      · have : s.fabricBad F.SER_PORT_CTRL.POWER_DOWN p v w = ((s.portRole p == 0 || false) || false || false) := rfl
        rw [this, beq_eq_false_iff_ne.2 hr]
        simp
    have h1 : ¬ 1 < v := by omega
    have hx : s.fieldBad who d p v w = s.fabricBad d p v w := by
      rcases hd with rfl | rfl
      · show (false || false || false || s.fabricBad F.SER_PORT_CTRL.MODE p v w || false || false) = _
        simp
      · show (false || false || false || s.fabricBad F.SER_PORT_CTRL.POWER_DOWN p v w || false || false) = _
        simp
    rw [hx, hfab]
    simp [h1]
  have hacc : d.acc = .RW := by rcases hd with rfl | rfl <;> rfl
  have hcls : d.cls = .L := by rcases hd with rfl | rfl <;> rfl
  have hheld : s.heldVal d 0 p = s.rd d p := by
    rw [State.heldVal, hcls]
    rfl
  unfold State.putField
  simp only [hbv, hacc, hheld, hbad, hcls, Bool.false_eq_true, if_false]
  split <;> rfl

theorem portCtrl_restart (hf : s.fits who .SER_PORT_CTRL p = true) : s.portCtrl who p (s.fieldWord who F.SER_PORT_CTRL.RESTART p 1) = s.restart p := by
  have hc := cellOf_portCtrl s who p
  have hput := putFields_fieldWord s who F.SER_PORT_CTRL.RESTART rfl p 1 (by decide) hf (by decide)
  have hbit := bits_fieldWord s who F.SER_PORT_CTRL.RESTART rfl p 1 (by decide) F.SER_PORT_CTRL.RESTART (by decide)
  rw [hc] at hput
  rw [if_pos rfl] at hbit
  have h9 : bit (s.fieldWord who F.SER_PORT_CTRL.RESTART p 1) 9 = true := by
    simpa [bit, bits] using hbit
  have hput' : s.putFields who .SER_PORT_CTRL 0 p (s.fieldWord who F.SER_PORT_CTRL.RESTART p 1) = (s, false) := hput
  rw [State.portCtrl, hput', h9]
  simp only [if_true, if_neg hr]
  rfl

end

/-- A field of SER_PORT_CTRL other than RESTART meets its value alone. -/
theorem portCtrl_field {s : State} {who : Who} {p : Nat} (hf : s.fits who .SER_PORT_CTRL p = true) {d : Fld} (hd : d ∈ Reg.SER_PORT_CTRL.fields) (hn : d ≠ F.SER_PORT_CTRL.RESTART) (v : Nat) :
    s.portCtrl who p (s.fieldWord who d p v) = rejectIf (s.putField who 0 p (s.fieldWord who d p v) (s, false) d) := by
  have hc := cellOf_portCtrl s who p
  have hreg := fields_reg hd
  have hput := putFields_fieldWord s who d hreg p v hd hf (by decide)
  have hbit := bits_fieldWord s who d hreg p v hd F.SER_PORT_CTRL.RESTART (by decide)
  rw [hc] at hput
  rw [if_neg (Ne.symm hn), if_neg (by decide)] at hbit
  have h9 : bit (s.fieldWord who d p v) 9 = false := by
    simpa [bit, bits] using hbit
  rw [State.portCtrl, h9]
  simp only [Bool.false_eq_true, if_false]
  exact congrArg rejectIf hput

/-! ### What RESTART, MODE and POWER_DOWN do -/

section
variable {s : State} {p : Nat}

/-- Writes of the port's control register leave its lanes, its PLL and its state. -/
theorem portCtrl_reads (d : Fld) (v : Nat) (hd : d.reg = .SER_PORT_CTRL) :
    (s.wr d v p).serState p = s.serState p ∧ (s.wr d v p).pllLocked p = s.pllLocked p ∧ ∀ l, (s.wr d v p).needsCal l = s.needsCal l := by
  have h : ∀ (e : Fld) (j : Nat), e.reg.code ≠ Reg.SER_PORT_CTRL.code → (s.wr d v p).rd e j = s.rd e j := fun e j he =>
    rd_wr_reg s p j v (hd ▸ he)
  refine ⟨h F.SER_PORT_STATUS.STATE p (by decide), ?_, fun l => ?_⟩
  · rw [State.pllLocked, h F.SER_PLL_STATUS.LOCK 0 (by decide)]
    rfl
  · rw [State.needsCal, State.on, State.on, h F.SER_LANE_STATUS.CAL_OK l (by decide), h F.SER_LANE_STATUS.FAILED l (by decide)]
    rfl

theorem restart_acts : (s.restart p).acts = s.acts ∨ (s.restart p).acts = s.acts ++ [.portDead p] := by
  unfold State.restart
  dsimp only
  split
  · exact .inl rfl
  · split
    · exact leave_acts _ _ _ _
    · left
      split
      · split
        · exact calibrate_acts _ _ _
        · rfl
      · exact serTo_acts _ _ _

/-- A port in WAIT with its PLL locked and its lanes calibrated goes where RESTART or MODE says (R94). -/
theorem restart_wait (hs : s.serState p = serWait) (hl : s.pllLocked p = true) (h0 : s.needsCal (2 * p) = false)
    (h1 : s.needsCal (2 * p + 1) = false) (hm : s.rd F.SER_PORT_CTRL.MODE p = 0) : s.restart p = s.serTo p serDetect := by
  have hmode : s.modeState p = serDetect := by simp [State.modeState, State.on, hm]
  have h : s.restart p = if s.pllLocked p = true then s.calibrate p (s.modeState p) else s := by
    simp only [State.restart, hs]
    rfl
  rw [h, if_pos hl, hmode, calibrate_done _ h0 h1]

theorem restart_unlocked (hs : s.serState p = serWait) (hl : s.pllLocked p = false) : s.restart p = s := by
  have h : s.restart p = if s.pllLocked p = true then s.calibrate p (s.modeState p) else s := by
    simp only [State.restart, hs]
    rfl
  rw [h, hl]
  rfl

theorem restart_between (hs : s.serState p = serDetect ∨ s.serState p = serCaps ∨ s.serState p = serTrain) : s.restart p = s.serTo p serDetect := by
  rcases hs with hs | hs | hs <;> simp only [State.restart, hs] <;> rfl

theorem restart_active (hs : s.serState p = serActive) : s.restart p = s.leave p fnRestart serDetect := by
  simp only [State.restart, hs]
  rfl

theorem restart_rests (hs : s.serState p = serOff ∨ s.serState p = serTest) : s.restart p = s := if_pos hs

section
variable (hc : (s.sp p).calib = none)
include hc

/-- MODE set, by the state of the port (Table 3.4). -/
theorem modeTest_eq : s.modeTest p =
    let t := s.wr F.SER_PORT_CTRL.MODE 1 p
    if s.serState p = serOff then t.portEnable p
    else if s.serState p = serActive then t.leave p fnTest serTest
    else if s.serState p = serTest then t
    else if s.serState p = serWait then (if s.pllLocked p = true then t.calibrate p serTest else t)
    else t.serTo p serTest := by
  obtain ⟨h1, h2, -⟩ := portCtrl_reads (s := s) (p := p) F.SER_PORT_CTRL.MODE 1 rfl
  rw [State.modeTest]
  dsimp only
  rw [calibToward_none (s := s.wr F.SER_PORT_CTRL.MODE 1 p) hc, h1, h2]

theorem modeTest_wait (hs : s.serState p = serWait) : s.modeTest p =
    if s.pllLocked p = true then (s.wr F.SER_PORT_CTRL.MODE 1 p).calibrate p serTest else s.wr F.SER_PORT_CTRL.MODE 1 p := by
  rw [modeTest_eq hc, hs]
  rfl

theorem modeTest_between (hs : s.serState p = serDetect ∨ s.serState p = serCaps ∨ s.serState p = serTrain) :
    s.modeTest p = (s.wr F.SER_PORT_CTRL.MODE 1 p).serTo p serTest := by
  rcases hs with hs | hs | hs <;> rw [modeTest_eq hc, hs] <;> rfl

theorem modeTest_active (hs : s.serState p = serActive) : s.modeTest p = (s.wr F.SER_PORT_CTRL.MODE 1 p).leave p fnTest serTest := by
  rw [modeTest_eq hc, hs]
  rfl

theorem modeTest_test (hs : s.serState p = serTest) : s.modeTest p = s.wr F.SER_PORT_CTRL.MODE 1 p := by
  rw [modeTest_eq hc, hs]
  rfl

theorem modeTest_off (hs : s.serState p = serOff) : s.modeTest p = (s.wr F.SER_PORT_CTRL.MODE 1 p).portEnable p := by
  rw [modeTest_eq hc, hs]
  rfl

theorem modeTest_acts : (s.modeTest p).acts = s.acts ∨ (s.modeTest p).acts = s.acts ++ [.portDead p] := by
  rw [modeTest_eq hc]
  dsimp only
  split
  · exact .inl (portEnable_acts _ _)
  · split
    · exact leave_acts _ _ _ _
    · left
      split
      · rfl
      · split
        · split
          · exact calibrate_acts _ _ _
          · rfl
        · exact serTo_acts _ _ _

theorem modeOperate_eq : s.modeOperate p =
    let t := s.wr F.SER_PORT_CTRL.MODE 0 p
    if s.serState p = serTest then t.serTo p serDetect else t.portEnable p := by
  obtain ⟨h1, -, -⟩ := portCtrl_reads (s := s) (p := p) F.SER_PORT_CTRL.MODE 0 rfl
  rw [State.modeOperate]
  dsimp only
  rw [calibToward_none (s := s.wr F.SER_PORT_CTRL.MODE 0 p) hc, h1]

theorem modeOperate_acts : (s.modeOperate p).acts = s.acts := by
  rw [modeOperate_eq hc]
  dsimp only
  split
  · exact serTo_acts _ _ _
  · exact portEnable_acts _ _

end

theorem powerDown_eq : s.powerDown p =
    if s.serState p = serActive then (s.wr F.SER_PORT_CTRL.POWER_DOWN 1 p).leave p fnPowerDown serOff
    else (s.wr F.SER_PORT_CTRL.POWER_DOWN 1 p).serTo p serOff := by
  obtain ⟨h1, -, -⟩ := portCtrl_reads (s := s) (p := p) F.SER_PORT_CTRL.POWER_DOWN 1 rfl
  rw [State.powerDown, State.lanesOff, h1]

theorem powerDown_acts : (s.powerDown p).acts = s.acts ∨ (s.powerDown p).acts = s.acts ++ [.portDead p] := by
  rw [powerDown_eq]
  split
  · exact leave_acts _ _ _ _
  · exact .inl (serTo_acts _ _ _)

end

/-! ### The commands -/

section
variable {s t : State} {who : Who} {p : Port} (h : s.serves who .SER_PORT_CTRL p = true) (hf : s.fits who .SER_PORT_CTRL p = true)
  (hr : s.portRole p ≠ 0)
include h hr

/-- A command that is a one-field write of SER_PORT_CTRL ends with what the write leaves. -/
theorem portField_exec {d : Fld} {v : Nat} (hd : d.reg = .SER_PORT_CTRL) (e : s.portCtrl who p (s.fieldWord who d p v) = t)
    (ha : t.acts = s.acts ∨ t.acts = s.acts ++ [.portDead p.val]) :
    powered s (fun s => s.fieldCmd who d p.val v) = .next (s.settle t) := by
  have hx : (fun s : State => s.fieldCmd who d p.val v) = fun s => s.regCmd who .SER_PORT_CTRL p.val (s.fieldWord who d p.val v) := by
    funext s
    rw [State.fieldCmd, hd]
  rw [hx]
  refine powered_eq (pwrok_of_live (live_of_serves h)) ((regCmd_of_serves _ h).trans ?_)
  rw [writeReg_portCtrl hr, e]
  exact rejectOnce_of_calm ha

include hf

theorem restart_exec (e : s.restart p = t) : exec (.restart who p) s = .next (s.settle t) := by
  have run : exec (.restart who p) s = powered s (fun s => s.fieldCmd who F.SER_PORT_CTRL.RESTART p.val 1) := rfl
  exact run.trans (portField_exec h hr rfl ((portCtrl_restart hr hf).trans e) (e ▸ restart_acts))

omit h in
theorem mode_run (v : Nat) (hv : v ≤ 1) : s.portCtrl who p (s.fieldWord who F.SER_PORT_CTRL.MODE p v) =
    if v = s.rd F.SER_PORT_CTRL.MODE p then s else if v = 1 then s.modeTest p else s.modeOperate p :=
  (portCtrl_field hf (by decide) (by decide) v).trans (putField_portCtrl hr (.inl rfl) hv)

theorem modeTest_exec (hc : (s.sp p).calib = none) (hm : s.rd F.SER_PORT_CTRL.MODE p = 0) (e : s.modeTest p = t) :
    exec (.modeTest who p) s = .next (s.settle t) := by
  have run : exec (.modeTest who p) s = powered s (fun s => s.fieldCmd who F.SER_PORT_CTRL.MODE p.val 1) := rfl
  refine run.trans (portField_exec h hr rfl ((mode_run hf hr 1 (by omega)).trans ?_) (e ▸ modeTest_acts hc))
  rw [hm, if_neg (by decide), if_pos rfl, e]

theorem modeOperate_exec (hc : (s.sp p).calib = none) (hm : s.rd F.SER_PORT_CTRL.MODE p = 1) (e : s.modeOperate p = t) :
    exec (.modeOperate who p) s = .next (s.settle t) := by
  have run : exec (.modeOperate who p) s = powered s (fun s => s.fieldCmd who F.SER_PORT_CTRL.MODE p.val 0) := rfl
  refine run.trans (portField_exec h hr rfl ((mode_run hf hr 0 (by omega)).trans ?_) (.inl (e ▸ modeOperate_acts hc)))
  rw [hm, if_neg (by decide), if_neg (by decide), e]

theorem modeTest_held (hm : s.rd F.SER_PORT_CTRL.MODE p = 1) : exec (.modeTest who p) s = .next (s.settle s) := by
  have run : exec (.modeTest who p) s = powered s (fun s => s.fieldCmd who F.SER_PORT_CTRL.MODE p.val 1) := rfl
  exact run.trans (portField_exec h hr rfl ((mode_run hf hr 1 (by omega)).trans (if_pos hm.symm)) (.inl rfl))

theorem modeOperate_held (hm : s.rd F.SER_PORT_CTRL.MODE p = 0) : exec (.modeOperate who p) s = .next (s.settle s) := by
  have run : exec (.modeOperate who p) s = powered s (fun s => s.fieldCmd who F.SER_PORT_CTRL.MODE p.val 0) := rfl
  exact run.trans (portField_exec h hr rfl ((mode_run hf hr 0 (by omega)).trans (if_pos hm.symm)) (.inl rfl))

omit h in
theorem powerDown_run : s.portCtrl who p (s.fieldWord who F.SER_PORT_CTRL.POWER_DOWN p 1) =
    if 1 = s.rd F.SER_PORT_CTRL.POWER_DOWN p then s else s.powerDown p :=
  (portCtrl_field hf (by decide) (by decide) 1).trans (putField_portCtrl hr (.inr rfl) (by omega))

theorem powerDown_exec (hm : s.rd F.SER_PORT_CTRL.POWER_DOWN p = 0) (e : s.powerDown p = t) :
    exec (.powerDown who p) s = .next (s.settle t) := by
  have run : exec (.powerDown who p) s = powered s (fun s => s.fieldCmd who F.SER_PORT_CTRL.POWER_DOWN p.val 1) := rfl
  refine run.trans (portField_exec h hr rfl ((powerDown_run hf hr).trans ?_) (e ▸ powerDown_acts))
  rw [hm, if_neg (by decide), e]

theorem powerDown_held (hm : s.rd F.SER_PORT_CTRL.POWER_DOWN p = 1) : exec (.powerDown who p) s = .next (s.settle s) := by
  have run : exec (.powerDown who p) s = powered s (fun s => s.fieldCmd who F.SER_PORT_CTRL.POWER_DOWN p.val 1) := rfl
  exact run.trans (portField_exec h hr rfl ((powerDown_run hf hr).trans (if_pos hm.symm)) (.inl rfl))

end

end Sys2Proof.Machine
end

section
/-! Locks of lanes and PLLs (R94, R95, R102, Table 16.11). -/

namespace Sys2Proof.Machine

/-- The state in which a lane is without its lock. -/
def State.unlocked (s : State) (p k mv : Nat) : State := (s.sigDetect (2 * p + k) mv).wr F.SER_LANE_STATUS.CDR_LOCK 0 (2 * p + k)

section
variable (s : State) (p k mv : Nat)

theorem rd_sigDetect (d : Fld) (i l : Nat) (h : d.reg.code ≠ Reg.SER_LANE_STATUS.code ∨ d.lo ≠ F.SER_LANE_STATUS.SIG_DET.lo) :
    (s.sigDetect l mv).rd d i = s.rd d i := by
  have hw : ∀ x, (s.wr F.SER_LANE_STATUS.SIG_DET x l).rd d i = s.rd d i := fun x =>
    h.elim (fun hr => rd_wr_reg s l i x hr) (fun hl => rd_wr_lo s l i x hl)
  unfold State.sigDetect
  split
  · exact hw 1
  · split
    · exact hw 0
    · rfl

/-- Only the lane's own status changes. -/
theorem rd_unlocked (d : Fld) (i : Nat) (h : d.reg.code ≠ Reg.SER_LANE_STATUS.code) : (s.unlocked p k mv).rd d i = s.rd d i :=
  (rd_wr_reg _ _ _ _ h).trans (rd_sigDetect s mv d i _ (.inl h))

theorem sp_sigDetect (l q : Nat) : (s.sigDetect l mv).sp q = s.sp q ∧ (s.sigDetect l mv).link q = s.link q := by
  unfold State.sigDetect
  split
  · exact ⟨rfl, rfl⟩
  · split <;> exact ⟨rfl, rfl⟩

theorem sp_unlocked (q : Nat) : (s.unlocked p k mv).sp q = s.sp q := (sp_sigDetect s mv _ q).1

theorem on_unlocked (j : Nat) :
    (s.unlocked p k mv).on F.SER_LANE_STATUS.CDR_LOCK (2 * p + j) = if j = k then false else s.on F.SER_LANE_STATUS.CDR_LOCK (2 * p + j) := by
  unfold State.on State.unlocked
  split
  next h =>
    subst h
    rw [rd_wr_same]
    rfl
  next h => rw [rd_wr_idx _ _ (by omega), rd_sigDetect _ _ _ _ _ (.inr (by decide))]

/-- What a lost lock asks of the port, by the port's state before. -/
theorem laneLockLost_eq : s.laneLockLost p k mv =
    let t := s.unlocked p k mv
    let lost := fun (j : Nat) => !t.on F.SER_LANE_STATUS.CDR_LOCK (2 * p + j)
    let x := s.sp p
    if s.serState p = serCaps then (if lost 0 && (lost 1 || ((x.idOf 0).isSome && x.idOf 0 == x.idOf 1)) then t.serTo p serDetect else t)
    else if s.serState p = serTrain then (if (bitsSet 2 x.training).all lost then t.serTo p serDetect else t)
    else if s.serState p = serActive then
      let used := bitsSet 2 (s.rd F.SER_PORT_STATUS.LANES p)
      if !used.contains k then t
      else if used.all lost then
        let d := if s.lnkState p = lnkFencing then t.fenceTo p else serDetect
        ((t.lanesLost p).serTo p d).settlePort p d
      else ((t.sendWidthReq p 1 (1 - k) 4).raise .SER_NARROWED p)
    else t := by
  have hl := rd_unlocked s p k mv F.SER_PORT_STATUS.LANES p (by decide)
  have hs := rd_unlocked s p k mv F.LNK_PORT_STATUS.STATE p (by decide)
  have hx := sp_unlocked s p k mv p
  rw [← hl, ← hx]
  have hs' : s.lnkState p = (s.unlocked p k mv).lnkState p := hs.symm
  rw [hs']
  rfl

end

section
variable {s : State} {p k mv : Nat} (hk : k < 2)
include hk

/-- Both lanes are without lock, or the other still has it. -/
theorem lost_lanes :
    let t := s.unlocked p k mv
    let other := s.on F.SER_LANE_STATUS.CDR_LOCK (2 * p + (1 - k))
    (other = false → t.on F.SER_LANE_STATUS.CDR_LOCK (2 * p + 0) = false ∧ t.on F.SER_LANE_STATUS.CDR_LOCK (2 * p + 1) = false) ∧
      (other = true → t.on F.SER_LANE_STATUS.CDR_LOCK (2 * p + 0) = decide (k = 1) ∧ t.on F.SER_LANE_STATUS.CDR_LOCK (2 * p + 1) = decide (k = 0)) := by
  have h0 := on_unlocked s p k mv 0
  have h1 := on_unlocked s p k mv 1
  obtain rfl | rfl : k = 0 ∨ k = 1 := by omega
  · exact ⟨fun ho => ⟨h0, h1.trans ho⟩, fun ho => ⟨h0, h1.trans ho⟩⟩
  · exact ⟨fun ho => ⟨h0.trans ho, h1⟩, fun ho => ⟨h0.trans ho, h1⟩⟩

theorem laneLockLost_caps_last (hs : s.serState p = serCaps) (ho : s.on F.SER_LANE_STATUS.CDR_LOCK (2 * p + (1 - k)) = false) :
    s.laneLockLost p k mv = (s.unlocked p k mv).serTo p serDetect := by
  obtain ⟨h0, h1⟩ := (lost_lanes (mv := mv) hk).1 ho
  rw [laneLockLost_eq]
  simp only [hs, if_true, h0, h1, Bool.not_false, Bool.true_or, Bool.and_self]

theorem laneLockLost_caps_other (hs : s.serState p = serCaps) (ho : s.on F.SER_LANE_STATUS.CDR_LOCK (2 * p + (1 - k)) = true)
    (hi : (s.sp p).idOf 0 ≠ (s.sp p).idOf 1) : s.laneLockLost p k mv = s.unlocked p k mv := by
  obtain ⟨h0, h1⟩ := (lost_lanes (mv := mv) hk).2 ho
  have hi' : ((s.sp p).idOf 0 == (s.sp p).idOf 1) = false := by simpa using hi
  rw [laneLockLost_eq]
  simp only [hs, if_true, h0, h1, hi', Bool.and_false, Bool.or_false]
  obtain rfl | rfl : k = 0 ∨ k = 1 := by omega
  · rfl
  · rfl

theorem laneLockLost_train (hs : s.serState p = serTrain) (ht : (s.sp p).training = 3) :
    s.laneLockLost p k mv =
      if s.on F.SER_LANE_STATUS.CDR_LOCK (2 * p + (1 - k)) = false then (s.unlocked p k mv).serTo p serDetect else s.unlocked p k mv := by
  have h2 : bitsSet 2 3 = [0, 1] := rfl
  have hl := lost_lanes (s := s) (p := p) (mv := mv) hk
  have hne : (serTrain = serCaps) = False := by simp
  rw [laneLockLost_eq]
  simp only [hs, hne, if_false, if_true, ht, h2, List.all_cons, List.all_nil, Bool.and_true]
  cases ho : s.on F.SER_LANE_STATUS.CDR_LOCK (2 * p + (1 - k)) with
  | false =>
    obtain ⟨h0, h1⟩ := hl.1 ho
    simp only [h0, h1]
    rfl
  | true =>
    obtain ⟨h0, h1⟩ := hl.2 ho
    obtain rfl | rfl : k = 0 ∨ k = 1 := by omega
    · simp only [h0, h1]
      rfl
    · simp only [h0, h1]
      rfl

/-- One of two used lanes asks to narrow to the other. -/
theorem laneLockLost_narrows (hs : s.serState p = serActive) (hl : s.rd F.SER_PORT_STATUS.LANES p = 3)
    (ho : s.on F.SER_LANE_STATUS.CDR_LOCK (2 * p + (1 - k)) = true) :
    s.laneLockLost p k mv = ((s.unlocked p k mv).sendWidthReq p 1 (1 - k) 4).raise .SER_NARROWED p := by
  obtain ⟨h0, h1⟩ := (lost_lanes (mv := mv) hk).2 ho
  have h2 : bitsSet 2 3 = [0, 1] := rfl
  have hn1 : (serActive = serCaps) = False := by simp
  have hn2 : (serActive = serTrain) = False := by simp
  rw [laneLockLost_eq]
  simp only [hs, hn1, hn2, if_false, if_true, hl, h2, List.all_cons, List.all_nil, h0, h1]
  obtain rfl | rfl : k = 0 ∨ k = 1 := by omega
  · rfl
  · rfl

/-- The last used lane takes the port to DETECT. -/
theorem laneLockLost_last (hs : s.serState p = serActive) (hl : s.rd F.SER_PORT_STATUS.LANES p = 2 ^ k) (hn : s.lnkState p ≠ lnkFencing) :
    s.laneLockLost p k mv = ((s.unlocked p k mv).lanesLost p).serTo p serDetect := by
  have h := on_unlocked s p k mv k
  rw [if_pos rfl] at h
  have h2 : bitsSet 2 (2 ^ k) = [k] := by
    obtain rfl | rfl : k = 0 ∨ k = 1 := by omega
    · rfl
    · rfl
  have hn1 : (serActive = serCaps) = False := by simp
  have hn2 : (serActive = serTrain) = False := by simp
  have hc : [k].contains k = true := by simp
  rw [laneLockLost_eq]
  simp only [hs, hn1, hn2, if_false, if_true, hl, h2, List.all_cons, List.all_nil, h, hc, if_neg hn, Bool.not_true, Bool.not_false,
    Bool.and_self, Bool.false_eq_true]
  exact settlePort_on (by decide)

omit hk in
theorem laneLockLost_unused (hs : s.serState p = serActive) (hl : bit (s.rd F.SER_PORT_STATUS.LANES p) k = false) :
    s.laneLockLost p k mv = s.unlocked p k mv := by
  have hc : (bitsSet 2 (s.rd F.SER_PORT_STATUS.LANES p)).contains k = false := by
    rw [List.contains_eq_mem, decide_eq_false_iff_not, mem_bitsSet, hl]
    simp
  have hn1 : (serActive = serCaps) = False := by simp
  have hn2 : (serActive = serTrain) = False := by simp
  rw [laneLockLost_eq]
  simp only [hs, hn1, hn2, if_false, if_true, hc, Bool.not_false]

omit hk in
theorem laneLockLost_idle (h1 : s.serState p ≠ serCaps) (h2 : s.serState p ≠ serTrain) (h3 : s.serState p ≠ serActive) :
    s.laneLockLost p k mv = s.unlocked p k mv := by
  rw [laneLockLost_eq]
  simp only [h1, h2, h3, if_false]

end

/-- A PLL that loses lock moves no port in OFF or WAIT (R95). -/
theorem pllUnlock_idle {s : State} {c : Nat} (hb : bit (s.rd F.SER_PLL_STATUS.LOCK) c = true)
    (h : ∀ i < 16, s.serState (16 * c + i) = serOff ∨ s.serState (16 * c + i) = serWait) :
    s.pllUnlock c = (s.wr F.SER_PLL_STATUS.LOCK (clrBit (s.rd F.SER_PLL_STATUS.LOCK) c)).raise .SER_PLL_UNLOCK c := by
  have hst : ∀ q x, ((s.wr F.SER_PLL_STATUS.LOCK x).raise .SER_PLL_UNLOCK c).serState q = s.serState q := fun q x =>
    rd_wr_reg s 0 q x (by decide)
  rw [State.pllUnlock]
  simp only [hb, Bool.not_true, Bool.false_eq_true, if_false]
  refine foldS_same fun q hq => ?_
  obtain ⟨i, hi, rfl⟩ := List.mem_map.1 hq
  rw [hst, if_pos (h i (List.mem_range.1 hi))]

theorem laneLockLost_exec {s t : State} {p : Port} {k : Fin 2} {mv : Nat} (hl : s.live = true) (e : s.laneLockLost p.val k.val mv = t) :
    exec (.laneLockLost p ⟨k, mv⟩) s = .next (s.settle t) := by
  have run : exec (.laneLockLost p ⟨k, mv⟩) s = running s (fun s => s.laneLockLost p.val k.val mv) := rfl
  exact run.trans (running_eq hl e)

/-- Settles O10: a lost lock by the lanes that are left, a PLL by the states of its ports, and a write of SER_PORT_CTRL by the port's state. -/
theorem portsLockAndObey : Obligations.PortsLockAndObey := by
  unfold Obligations.PortsLockAndObey
  refine ⟨fun s => ⟨fun p k mv hl => ?_, fun c hp => ?_, fun c hp hb h => ?_⟩, fun s who p h hf hr hc => ?_⟩
  · have hk : k.val < 2 := k.isLt
    refine ⟨fun hs ha ho => ?_, fun hs ha hn => ?_, fun hs hb => ?_, fun hs ho => ?_, fun hs ho hi => ?_, fun hs ht ho => ?_, fun hs ht ho => ?_,
      fun h1 h2 h3 => ?_⟩
    · exact laneLockLost_exec hl (laneLockLost_narrows hk hs ha ho)
    · exact laneLockLost_exec hl (laneLockLost_last hk hs ha hn)
    · exact laneLockLost_exec hl (laneLockLost_unused hs hb)
    · exact laneLockLost_exec hl (laneLockLost_caps_last hk hs ho)
    · exact laneLockLost_exec hl (laneLockLost_caps_other hk hs ho hi)
    · exact laneLockLost_exec hl ((laneLockLost_train hk hs ht).trans (if_pos ho))
    · exact laneLockLost_exec hl ((laneLockLost_train hk hs ht).trans (if_neg (by simp [ho])))
    · exact laneLockLost_exec hl (laneLockLost_idle h1 h2 h3)
  · exact exec_of_powered (fun s => s.pllLock c.val) rfl hp rfl
  · exact exec_of_powered (fun s => s.pllUnlock c.val) rfl hp (pllUnlock_idle hb h)
  · refine ⟨⟨fun hs hcalm hm => ?_, fun hs hu => ?_, fun hs => ?_, fun hs => ?_, fun hs => ?_⟩,
      fun hm => ⟨fun hs hcalm => ?_, fun hs hu => ?_, fun hs => ?_, fun hs => ?_, fun hs => ?_, fun hs => ?_, modeOperate_held h hf hr hm⟩,
      fun hm => ⟨fun hs => ?_, fun h1 h2 => ?_, fun hs => ?_, modeTest_held h hf hr hm⟩,
      fun hm => ⟨fun hs => powerDown_exec h hf hr hm (powerDown_eq.trans (if_neg hs)),
        fun hs => powerDown_exec h hf hr hm (powerDown_eq.trans (if_pos hs))⟩,
      fun hm => powerDown_held h hf hr hm⟩
    · obtain ⟨hu, h0, h1⟩ := hcalm
      exact restart_exec h hf hr (restart_wait hs hu h0 h1 hm)
    · exact restart_exec h hf hr (restart_unlocked hs hu)
    · exact restart_exec h hf hr (restart_between hs)
    · exact restart_exec h hf hr (restart_active hs)
    · exact restart_exec h hf hr (restart_rests hs)
    · obtain ⟨hu, h0, h1⟩ := hcalm
      obtain ⟨-, -, hn⟩ := portCtrl_reads (s := s) (p := p.val) F.SER_PORT_CTRL.MODE 1 rfl
      exact modeTest_exec h hf hr hc hm
        ((modeTest_wait hc hs).trans ((if_pos hu).trans (calibrate_done _ ((hn _).trans h0) ((hn _).trans h1))))
    · exact modeTest_exec h hf hr hc hm ((modeTest_wait hc hs).trans (if_neg (by simp [hu])))
    · exact modeTest_exec h hf hr hc hm (modeTest_between hc hs)
    · exact modeTest_exec h hf hr hc hm (modeTest_active hc hs)
    · exact modeTest_exec h hf hr hc hm (modeTest_test hc hs)
    · exact modeTest_exec h hf hr hc hm (modeTest_off hc hs)
    · exact modeOperate_exec h hf hr hc hm ((modeOperate_eq hc).trans (if_pos hs))
    · refine modeOperate_exec h hf hr hc hm ((modeOperate_eq hc).trans ((if_neg h1).trans (portEnable_of_on ?_)))
      exact fun hx => h2 ((portCtrl_reads F.SER_PORT_CTRL.MODE 0 rfl).1.symm.trans hx)
    · refine modeOperate_exec h hf hr hc hm ((modeOperate_eq hc).trans (if_neg ?_))
      exact fun hx => by simp [hs] at hx

end Sys2Proof.Machine
end

section
/-! FFE messages and width changes on a link that is UP (R97 to R99, R106, R110). -/

namespace Sys2Proof.Machine

section
variable {s : State} {p lane seq : Nat}

/-! ### FFE messages -/

theorem ffeReq_lane {dpre dpost : Int} (h : 1 < lane) :
    s.ffeReq p lane seq dpre dpost = (s.raise .SER_LANE_MSG_BAD p).sendLaneMsg p 1 lane seq 4 0 0 0 0 0 := if_pos (.inl h)

section
variable {dpre dpost : Int} (hl : lane ≤ 1) (h1 : -1 ≤ dpre) (h2 : dpre ≤ 1) (h3 : -1 ≤ dpost) (h4 : dpost ≤ 1)
include hl h1 h2 h3 h4

theorem ffeReq_overridden (h : s.on F.SER_EQ_OVERRIDE.FFE_OVR (2 * p + lane) = true) :
    s.ffeReq p lane seq dpre dpost =
      s.sendLaneMsg p 1 lane seq 2 0 0 (s.rd F.SER_FFE.PRE (2 * p + lane)) (s.rd F.SER_FFE.POST (2 * p + lane)) 0 := by
  have hheld : s.eqHeld (2 * p + lane) .SER_FFE = true := by
    have : s.eqHeld (2 * p + lane) .SER_FFE =
      (s.on F.SER_EQ_OVERRIDE.FREEZE (2 * p + lane) || s.on F.SER_EQ_OVERRIDE.FFE_OVR (2 * p + lane)) := rfl
    rw [this, h, Bool.or_true]
  rw [State.ffeReq, if_neg (by omega)]
  simp only [hheld, Bool.or_true, if_true]

theorem ffeReq_staged (he : s.eqLoop = true) (hh : s.eqHeld (2 * p + lane) .SER_FFE = false)
    (ha : 0 ≤ (s.shadowOf F.SER_FFE.PRE (2 * p + lane) : Int) + dpre) (ha' : (s.shadowOf F.SER_FFE.PRE (2 * p + lane) : Int) + dpre ≤ 12)
    (hb : 0 ≤ (s.shadowOf F.SER_FFE.POST (2 * p + lane) : Int) + dpost) (hb' : (s.shadowOf F.SER_FFE.POST (2 * p + lane) : Int) + dpost ≤ 20) :
    s.ffeReq p lane seq dpre dpost =
      (((s.stage F.SER_FFE.PRE ((s.shadowOf F.SER_FFE.PRE (2 * p + lane) : Int) + dpre).toNat (2 * p + lane)).stage F.SER_FFE.POST
          ((s.shadowOf F.SER_FFE.POST (2 * p + lane) : Int) + dpost).toNat (2 * p + lane)).stage F.SER_FFE.MAIN
            (63 - ((s.shadowOf F.SER_FFE.PRE (2 * p + lane) : Int) + dpre).toNat - ((s.shadowOf F.SER_FFE.POST (2 * p + lane) : Int) + dpost).toNat)
            (2 * p + lane)).modLane (2 * p + lane) (fun x => { x with staged := some (seq, 0, 0) }) := by
  have ea : max 0 (min 12 ((s.shadowOf F.SER_FFE.PRE (2 * p + lane) : Int) + dpre)) = (s.shadowOf F.SER_FFE.PRE (2 * p + lane) : Int) + dpre := by
    omega
  have eb : max 0 (min 20 ((s.shadowOf F.SER_FFE.POST (2 * p + lane) : Int) + dpost)) = (s.shadowOf F.SER_FFE.POST (2 * p + lane) : Int) + dpost := by
    omega
  rw [State.ffeReq, if_neg (by omega)]
  simp only [he, hh, Bool.not_true, Bool.or_self, Bool.false_eq_true, if_false, ea, eb, Int.toNat_of_nonneg ha, Int.toNat_of_nonneg hb, if_true]

end

theorem ffeAck_ends (hl : lane ≤ 1) (h : (s.laneSt (2 * p + (s.sp p).hears lane)).reqSeq = some seq)
    (hf : (s.laneSt (2 * p + (s.sp p).hears lane)).frozen = 0) :
    s.ffeAck p lane seq = s.modLane (2 * p + (s.sp p).hears lane) (fun x => { x with reqSeq := none }) := by
  have hz : ((s.modLane (2 * p + (s.sp p).hears lane) (fun x => { x with reqSeq := none })).laneSt (2 * p + (s.sp p).hears lane)).frozen = 0 := by
    rw [State.modLane, laneSt_setLane]
    exact hf
  rw [State.ffeAck, if_neg (by omega)]
  simp only [h, if_true, hz, Nat.lt_irrefl, if_false]

/-! ### Width changes -/

theorem widthReqMsg_agreed {w at' : Nat} (hl : lane ≤ 1) (hw : w = 1 ∨ w = 2) (hb : s.beatAhead at' = true)
    (ht : w = 1 ∨ s.rd F.SER_PORT_CTRL.TARGET_WIDTH p = 2) :
    s.widthReqMsg p lane seq w at' = (s.modSp p (fun x => { x with
      txChange := some (s.beatOf at', w, (s.sp p).hears lane), rxChange := some (w, (s.sp p).hears lane) })).sendLaneMsg p 3 lane seq 0 0 0 0 0 0 :=
  (if_neg (by omega)).trans (if_pos ⟨hb, ht⟩)

theorem widthReqMsg_refused {at' : Nat} (hl : lane ≤ 1) (h : s.beatAhead at' = false ∨ s.rd F.SER_PORT_CTRL.TARGET_WIDTH p ≠ 2) :
    s.widthReqMsg p lane seq 2 at' = (s.modSp p (fun x => { x with wide := true })).sendLaneMsg p 3 lane seq 3 0 0 0 0 0 := by
  have hw : s.widthReqMsg p lane seq 2 at' =
      (s.modSp p (fun x => { x with wide := x.wide || (2 : Nat) == 2 })).sendLaneMsg p 3 lane seq 3 0 0 0 0 0 := by
    refine (if_neg (by omega)).trans (if_neg ?_)
    rintro ⟨hb, ht⟩
    rcases h with h | h
    · simp [h] at hb
    · omega
  rw [hw]
  simp only [beq_self_eq_true, Bool.or_true]

theorem widthAckMsg_own {st : Nat} {r : WidthReq} (hl : lane ≤ 1) (hr : (s.sp p).widthReq = some r) (hs : r.seq = seq) :
    s.widthAckMsg p lane seq st =
      if st = 0 then
        s.modSp p (fun x => { x with widthReq := none, txChange := some (r.atBeat, r.width, r.lane), rxChange := some (r.width, r.lane) })
      else s.modSp p (fun x => { x with widthReq := some { r with refusedAt := some s.beat } }) := by
  rw [State.widthAckMsg, if_neg (by omega)]
  simp only [hr, hs, ne_eq, not_true_eq_false, if_false]

theorem widthReqRepeat_due {r : WidthReq} {b : Nat} (hr : (s.sp p).widthReq = some r) (hb : r.refusedAt = some b) (h : b + 64 ≤ s.beat) :
    s.widthReqRepeat p =
      if s.serState p = serActive ∧ s.laneGone p ∧ r.width = 1 then s.sendWidthReq p 1 r.lane 4
      else if s.serState p = serActive ∧ s.offerWidth p ≠ s.rd F.SER_PORT_STATUS.WIDTH p then s.sendWidthReq p r.width r.lane 16
      else s.modSp p (fun x => { x with widthReq := none }) := by
  simp only [State.widthReqRepeat, hr, hb, h, if_true]

theorem lanesAt_one {keep : Nat} : lanesAt 1 keep = 2 ^ keep := rfl
theorem lanesAt_two {keep : Nat} : lanesAt 2 keep = 3 := rfl

/-- A width that is left keeps one lane, which was in use. -/
theorem widthChange_narrow {at' keep : Nat} (hk : keep < 2) (ha : at' ≤ s.beat) (hs : s.serState p = serActive)
    (ht : (s.sp p).txChange = some (at', 1, keep)) (hl : s.rd F.SER_PORT_STATUS.LANES p = 3) :
    s.widthChange p = ((((s.sendWidthMarker p 0).sendWidthMarker p 1).wr F.SER_PORT_STATUS.WIDTH 1 p).wr
      F.SER_PORT_STATUS.LANES (2 ^ keep) p).modSp p (fun x => { x with txChange := none, reacqBeats := 0 }) := by
  simp only [State.widthChange, ht, ha, hs, and_self, if_true, hl, lanesAt_one]
  obtain rfl | rfl : keep = 0 ∨ keep = 1 := by omega
  · rfl
  · rfl

theorem widthChange_wide {at' keep : Nat} (ha : at' ≤ s.beat) (hs : s.serState p = serActive)
    (ht : (s.sp p).txChange = some (at', 2, keep)) (hl : s.rd F.SER_PORT_STATUS.LANES p = 1) :
    s.widthChange p = ((((s.sendWidthMarker p 0).modLane (2 * p + 1) (fun x => { x with txScr := scrambler.ones })).wr
      F.SER_PORT_STATUS.WIDTH 2 p).wr F.SER_PORT_STATUS.LANES 3 p).modSp p (fun x => { x with txChange := none, reacqBeats := 0 }) := by
  simp only [State.widthChange, ht, ha, hs, and_self, if_true, hl, lanesAt_two]
  rfl

theorem widthMarkerSeen_narrow {keep : Nat} (hk : keep < 2) (hr : (s.sp p).rxChange = some (1, keep)) (hl : (s.sp p).rxLanes = 3) :
    s.widthMarkerSeen p = s.modSp p (fun x => { x with rxChange := none, rxLanes := 2 ^ keep }) := by
  simp only [State.widthMarkerSeen, hr, hl, lanesAt_one]
  obtain rfl | rfl : keep = 0 ∨ keep = 1 := by omega
  · rfl
  · rfl

theorem widthMarkerSeen_wide {keep : Nat} (hr : (s.sp p).rxChange = some (2, keep)) (hl : (s.sp p).rxLanes = 1) :
    s.widthMarkerSeen p = (s.modLane (2 * p + 1) (fun x => { x with rxScr := scrambler.ones })).modSp p
      (fun x => { x with rxChange := none, rxLanes := 3 }) := by
  simp only [State.widthMarkerSeen, hr, hl, lanesAt_two]
  rfl

end

/-! ### The commands -/

section
variable {s t : State} {p : Port} {lane seq : Nat}

/-- A message acts on a link that is UP. -/
theorem upLink_exec {f : State → State} (hl : s.live = true) (hu : s.lnkState p = lnkUp) (e : f s = t) :
    running s (fun s => s.upLink p.val f) = .next (s.settle t) := running_eq hl ((if_pos hu).trans e)

theorem ffeReq_exec {a b : Int} (hl : s.live = true) (hu : s.lnkState p = lnkUp) (e : s.ffeReq p lane seq a b = t) :
    exec (.ffeReq p lane seq a b) s = .next (s.settle t) := by
  have run : exec (.ffeReq p lane seq a b) s = running s (fun s => s.upLink p.val (fun s => s.ffeReq p.val lane seq a b)) := rfl
  exact run.trans (upLink_exec hl hu e)

theorem ffeAck_exec (hl : s.live = true) (hu : s.lnkState p = lnkUp) (e : s.ffeAck p lane seq = t) :
    exec (.ffeAck p lane seq) s = .next (s.settle t) := by
  have run : exec (.ffeAck p lane seq) s = running s (fun s => s.upLink p.val (fun s => s.ffeAck p.val lane seq)) := rfl
  exact run.trans (upLink_exec hl hu e)

theorem widthReq_exec {w at' : Nat} (hl : s.live = true) (hu : s.lnkState p = lnkUp) (e : s.widthReqMsg p lane seq w at' = t) :
    exec (.widthReq p lane seq w at') s = .next (s.settle t) := by
  have run : exec (.widthReq p lane seq w at') s = running s (fun s => s.upLink p.val (fun s => s.widthReqMsg p.val lane seq w at')) := rfl
  exact run.trans (upLink_exec hl hu e)

theorem widthAck_exec {st : Nat} (hl : s.live = true) (hu : s.lnkState p = lnkUp) (e : s.widthAckMsg p lane seq st = t) :
    exec (.widthAck p lane seq st) s = .next (s.settle t) := by
  have run : exec (.widthAck p lane seq st) s = running s (fun s => s.upLink p.val (fun s => s.widthAckMsg p.val lane seq st)) := rfl
  exact run.trans (upLink_exec hl hu e)

theorem widthReqRepeat_exec (hl : s.live = true) (e : s.widthReqRepeat p = t) : exec (.widthReqRepeat p) s = .next (s.settle t) := by
  have run : exec (.widthReqRepeat p) s = running s (fun s => s.widthReqRepeat p.val) := rfl
  exact run.trans (running_eq hl e)

theorem widthChange_exec (hl : s.live = true) (e : s.widthChange p = t) : exec (.widthChange p) s = .next (s.settle t) := by
  have run : exec (.widthChange p) s = running s (fun s => s.widthChange p.val) := rfl
  exact run.trans (running_eq hl e)

theorem widthMarker_exec (hl : s.live = true) (e : s.widthMarkerSeen p = t) : exec (.widthMarker p) s = .next (s.settle t) := by
  have run : exec (.widthMarker p) s = running s (fun s => s.widthMarkerSeen p.val) := rfl
  exact run.trans (running_eq hl e)

end

/-- Settles O11: each message by its lane and what the port agrees to; each change by the lanes of its two widths. -/
theorem laneMessages : Obligations.LaneMessages := by
  unfold Obligations.LaneMessages
  refine ⟨fun s p lane seq hl hu => ⟨?_, ?_, ?_, ?_⟩, fun s p hl => ⟨?_, ?_, ?_, ?_, ?_, ?_, ?_⟩⟩
  · intro dpre dpost hn h1 h2 h3 h4 l pre post he hh ha ha' hb hb'
    exact ffeReq_exec hl hu (ffeReq_staged hn h1 h2 h3 h4 he hh ha ha' hb hb')
  · intro dpre dpost hn h1 h2 h3 h4 h
    exact ffeReq_exec hl hu (ffeReq_overridden hn h1 h2 h3 h4 h)
  · intro dpre dpost hn
    exact ffeReq_exec hl hu (ffeReq_lane hn)
  · intro hn h hf
    exact ffeAck_exec hl hu (ffeAck_ends hn h hf)
  · intro lane seq at' hu hn hb
    exact widthReq_exec hl hu (widthReqMsg_agreed hn (.inl rfl) hb (.inl rfl))
  · intro lane seq at' hu hn hb ht
    exact widthReq_exec hl hu (widthReqMsg_agreed hn (.inr rfl) hb (.inr ht))
  · intro lane seq at' hu hn h
    exact widthReq_exec hl hu (widthReqMsg_refused hn h)
  · intro lane seq r hu hn hr hs
    exact ⟨widthAck_exec hl hu (widthAckMsg_own hn hr hs), widthAck_exec hl hu (widthAckMsg_own hn hr hs)⟩
  · intro r b hr hb h hs
    refine ⟨fun hg ho => ?_, fun hg hw => ?_⟩
    · exact widthReqRepeat_exec hl ((widthReqRepeat_due hr hb h).trans ((if_neg (by simp [hg])).trans (if_pos ⟨hs, ho⟩)))
    · exact widthReqRepeat_exec hl ((widthReqRepeat_due hr hb h).trans (if_pos ⟨hs, hg, hw⟩))
  · intro at' keep hk ha hs
    exact ⟨fun ht hn => widthChange_exec hl (widthChange_narrow hk ha hs ht hn), fun ht hn => widthChange_exec hl (widthChange_wide ha hs ht hn)⟩
  · intro keep hk
    exact ⟨fun hr hn => widthMarker_exec hl (widthMarkerSeen_narrow hk hr hn), fun hr hn => widthMarker_exec hl (widthMarkerSeen_wide hr hn)⟩

end Sys2Proof.Machine
end

section
/-! Re-acquisition of an unused lane, and the lane tests (R100, R103, R108, R109, R112 to R114). -/

namespace Sys2Proof.Machine

/-! ### Two changes of one entry -/

theorem tabDel_put {v : Type} (t : Tab v) (i : Nat) (x : v) : tabDel (tabPut t i x) i = tabDel t i := by
  induction t with
  | nil => simp [tabPut, tabDel]
  | cons e r ih =>
    obtain ⟨k, y⟩ := e
    unfold tabPut
    split
    · simp [tabDel]
    · split
      next h => simp [tabDel, h]
      next h => simp [tabDel, h, ih]

/-- The later of two changes of an entry stands, where the first leaves it listed. -/
theorem tabSet_set {v : Type} [DecidableEq v] (t : Tab v) (i : Nat) {d x : v} (y : v) (h : x ≠ d) :
    tabSet (tabSet t i d x) i d y = tabSet t i d y := by
  simp only [tabSet, if_neg h]
  split
  · exact tabDel_put t i x
  · exact tabPut_put t i x y

theorem setSp_setSp (s : State) (p : Nat) {x : SerPort} (y : SerPort) (h : x ≠ SerPort.init) : (s.setSp p x).setSp p y = s.setSp p y := by
  simp only [State.setSp, tabSet_set _ _ _ h]

/-! ### Equalizer writes leave the port's bring-up state -/

theorem putFfe_sp (s : State) (l a b p : Nat) : (s.putFfe l a b).sp p = s.sp p := by
  unfold State.putFfe
  split <;> rfl

theorem putEq_sp (s : State) (l : Nat) (e : EqVals) (p : Nat) : (s.putEq l e).sp p = s.sp p := by
  have taps : ∀ t : State, t.sp p = s.sp p → (if t.eqHeld l .SER_DFE_TAPS = true then t
      else foldS (List.zip Reg.SER_DFE_TAPS.fields e.taps) t (fun s t => s.wr t.1 (ofSigned 5 t.2) l)).sp p = s.sp p := by
    intro t ht
    split
    · exact ht
    · exact (foldS_keeps (fun s => s.sp p) (fun s (t : Fld × Int) => s.wr t.1 (ofSigned 5 t.2) l) (fun _ _ => rfl) _ _).trans ht
  unfold State.putEq
  dsimp only
  apply taps
  split <;> rfl

section
variable {s : State} {p : Nat}

theorem keptLane_zero (h : bit (s.rd F.SER_PORT_STATUS.LANES p) 0 = true) : s.keptLane p = 0 := if_pos h

theorem reacquisition_starts (hs : s.serState p = serActive) (hw : s.rd F.SER_PORT_STATUS.WIDTH p < s.offerWidth p)
    (hb : 1024 ≤ (s.sp p).reacqBeats) (hl : bit (s.rd F.SER_PORT_STATUS.LANES p) 0 = true)
    (hf : s.on F.SER_LANE_STATUS.FAILED (2 * p + 1) = false) :
    s.reacquisition p = (s.modSp p (fun x => { x with reacqBeats := 0 })).reacqStart p 1 := by
  simp only [State.reacquisition, keptLane_zero hl, hs, hw, hb, hf, Nat.sub_zero, Bool.not_false, and_self, if_true]

/-- A re-acquisition waits for the peer's result. -/
theorem reacqDecide_waits (h : (s.sp p).reacqPeer = none) : s.reacqDecide p = s := by
  unfold State.reacqDecide
  dsimp only
  split
  next hp => rw [h] at hp; cases hp
  · rfl

/-- Where the lane passes both ways, the port asks to widen. -/
theorem reacqDecide_passes {k peer : Nat} (h1 : (s.sp p).reacq = some k) (h2 : (s.sp p).reacqOwn = some true)
    (h3 : (s.sp p).reacqPeer = some peer) (hb : bit peer k = true) :
    s.reacqDecide p = ((s.modSp p (fun x => { x with reacq := none, reacqOwn := none, reacqPeer := none })).wr
      F.SER_LANE_STATUS.CDR_LOCK 1 (2 * p + k)).sendWidthReq p 2 k 16 := by
  simp only [State.reacqDecide, h1, h2, h3, hb, Bool.and_self, if_true]

theorem reacquisitionEnd_passes {r : PrbsRx} {e : EqVals} (hs : s.serState p = serActive) (h1 : (s.sp p).reacq = some 1)
    (hi : (s.sp p).idOf 1 = some 1) (h3 : (s.sp p).reacqPeer = none)
    (he : prbsErrors (s.rd F.SER_PORT_STATUS.STEP p) (bit (s.rd F.SER_PORT_STATUS.POL_INV p) 1) r ≤ s.rd F.SER_BRINGUP_CFG.ERR_MAX) :
    s.reacquisitionEnd p r e =
      ((((s.putFfe (2 * p + 1) (s.sp p).reacqFfe.1 (s.sp p).reacqFfe.2).putEq (2 * p + 1) e).sendResult p 1 2
        (s.rd F.SER_PORT_STATUS.STEP p)).modSp p (fun x => { x with reacqOwn := some true })) := by
  have hq : (((((s.putFfe (2 * p + 1) (s.sp p).reacqFfe.1 (s.sp p).reacqFfe.2).putEq (2 * p + 1) e).sendResult p 1 2
        (s.rd F.SER_PORT_STATUS.STEP p)).modSp p (fun x => { x with reacqOwn := some true })).sp p).reacqPeer = none := by
    rw [sp_modSp]
    have : (((s.putFfe (2 * p + 1) (s.sp p).reacqFfe.1 (s.sp p).reacqFfe.2).putEq (2 * p + 1) e).sendResult p 1 2
        (s.rd F.SER_PORT_STATUS.STEP p)).sp p = s.sp p := (putEq_sp _ _ _ _).trans (putFfe_sp _ _ _ _ _)
    rw [this]
    exact h3
  simp only [State.reacquisitionEnd, h1, hs, ne_eq, not_true_eq_false, if_false, he, decide_true, if_true, hi, Option.getD_some]
  exact reacqDecide_waits hq

/-- The peer's block that says the same ends a re-acquisition in a request to widen. -/
theorem resultBlock_widens {raw : List Level} (hs : s.serState p = serActive) (h1 : (s.sp p).reacq = some 1) (h2 : (s.sp p).reacqOwn = some true)
    (hp : resultPass (unsymbols (s.rd F.SER_PORT_STATUS.STEP p) (bit (s.rd F.SER_PORT_STATUS.POL_INV p) 1) raw) = some 2) :
    s.resultBlock p 1 raw = ((s.modSp p (fun x => { x with reacq := none, reacqOwn := none, reacqPeer := none })).wr
      F.SER_LANE_STATUS.CDR_LOCK 1 (2 * p + 1)).sendWidthReq p 2 1 16 := by
  have hne : ¬ (serActive = serTrain ∧ (s.sp p).checked = true) := fun h => absurd h.1 (by decide)
  have hx : { s.sp p with reacqPeer := some 2 } ≠ SerPort.init := fun h => by
    have hq := congrArg SerPort.reacqPeer h
    simp [SerPort.init] at hq
  have hmod : (s.modSp p (fun x => { x with reacqPeer := some 2 })).modSp p (fun x => { x with reacq := none, reacqOwn := none, reacqPeer := none }) =
      s.modSp p (fun x => { x with reacq := none, reacqOwn := none, reacqPeer := none }) := by
    simp only [State.modSp, sp_setSp]
    exact setSp_setSp s p _ hx
  simp only [State.resultBlock, hp, hs, hne, if_false, h1, and_self, if_true]
  rw [reacqDecide_passes (k := 1) (peer := 2) (by rw [sp_modSp]; exact h1) (by rw [sp_modSp]; exact h2) (by rw [sp_modSp]) (by decide), hmod]

end

/-! ### The lane tests -/

section
variable {s : State} {l : Nat}

/-- A lane's test register is one for all requesters. -/
theorem cellOf_test (s : State) (who : Who) (l : Nat) : s.cellOf who .SER_TEST l = (0, l) := by
  have hi : instOf who .SER_TEST = 0 := by cases who <;> rfl
  rw [cellOf_of_not_ring s who .SER_TEST l rfl, hi]

theorem writeReg_test (who : Who) (w : Nat) : s.writeReg who .SER_TEST l w = s.rejectOnce (s.testCtrl who l w) := by
  have hu : (s.unusedOut .SER_TEST l || s.ringOut who .SER_TEST l) = false := rfl
  unfold State.writeReg
  simp only [hu, Bool.false_eq_true, if_false]

/-- A test register that holds what it held starts nothing. -/
theorem testChanged_same : s.testChanged s l = s := by simp [State.testChanged]

/-- CLEAR and INJECT change no field of SER_TEST. -/
theorem testCtrl_bit {who : Who} (hf : s.fits who .SER_TEST l = true) {d : Fld} (hd : d = F.SER_TEST.CLEAR ∨ d = F.SER_TEST.INJECT) :
    s.testCtrl who l (s.fieldWord who d l 1) = if d = F.SER_TEST.CLEAR then s.clearPrbs l else s.injectBit l := by
  have hm : d ∈ Reg.SER_TEST.fields := by rcases hd with rfl | rfl <;> decide
  have hput := putFields_fieldWord s who d (fields_reg hm) l 1 hm hf (by decide)
  have hput' : s.putFields who .SER_TEST 0 l (s.fieldWord who d l 1) = (s, false) := by
    rw [cellOf_test] at hput
    refine hput.trans ?_
    rcases hd with rfl | rfl <;> rfl
  have h1 := bits_fieldWord s who d (fields_reg hm) l 1 hm F.SER_TEST.CLEAR (by decide)
  have h0 := bits_fieldWord s who d (fields_reg hm) l 1 hm F.SER_TEST.INJECT (by decide)
  have hkeep : (if s.laneInTest l = true then s.testChanged s l else s) = s := by
    rw [testChanged_same]
    exact ite_self _
  have hrej : rejectIf (s, false) = s := rfl
  rw [State.testCtrl, hput', hrej, hkeep]
  rcases hd with rfl | rfl
  · have b1 : bit (s.fieldWord who F.SER_TEST.CLEAR l 1) 1 = true := by simpa [bit, bits] using h1
    have b0 : bit (s.fieldWord who F.SER_TEST.CLEAR l 1) 0 = false := by simpa [bit, bits] using h0
    simp only [b1, b0, Bool.false_eq_true, if_false, if_true]
  · have b1 : bit (s.fieldWord who F.SER_TEST.INJECT l 1) 1 = false := by simpa [bit, bits] using h1
    have b0 : bit (s.fieldWord who F.SER_TEST.INJECT l 1) 0 = true := by simpa [bit, bits] using h0
    simp only [b1, b0, Bool.false_eq_true, if_false, if_true]
    rfl

theorem clearPrbs_test (h : s.laneInTest l = true) : s.clearPrbs l =
    (((s.wr F.SER_PRBS_COUNT.BITS 0 l).wr F.SER_PRBS_COUNT.ERRORS 0 l).wr F.SER_PRBS_COUNT.SAT 0 l).modLane l (fun x => { x with prbsBits := 0 }) :=
  if_neg (by simp [h])

theorem clearPrbs_outside (h : s.laneInTest l = false) : s.clearPrbs l = s.raise .CFG_REJECT := if_pos (by simp [h])

theorem injectBit_test (h : s.laneInTest l = true) (hg : s.on F.SER_TEST.GEN_EN l = true) (hl : s.rd F.SER_TEST.LOOP l ≠ 3) :
    s.injectBit l = s.modLane l (fun x => { x with flip := true }) :=
  (if_neg (by simp [h])).trans (if_pos ⟨hg, hl⟩)

theorem injectBit_outside (h : s.laneInTest l = false) : s.injectBit l = s.raise .CFG_REJECT := if_pos (by simp [h])

/-- The bits that a lane's symbols stand for. -/
def State.laneBits (s : State) (l : Nat) (rx : List Level) : List Bool :=
  levelBits (s.rd F.SER_TEST.STEP l) (bit (s.rd F.SER_PORT_STATUS.POL_INV (l / 2)) (l % 2)) rx

/-- What a lane in TEST does, by its LOOP and its generator (Table 3.9). -/
theorem laneTest_eq (rx : List Level) (h : s.laneInTest l = true) :
    let got := s.laneBits l rx
    let gen := s.generate l got.length
    (s.rd F.SER_TEST.LOOP l = 0 → s.laneTest l rx =
      if s.on F.SER_TEST.GEN_EN l = true then (gen.2.emit (.wire (l / 2) (l % 2) 1 (levelsOf (s.rd F.SER_TEST.STEP l) gen.1))).check l got
      else s.check l got) ∧
    (s.rd F.SER_TEST.LOOP l = 1 → s.laneTest l rx = if s.on F.SER_TEST.GEN_EN l = true then gen.2.check l got else s.check l got) ∧
    (s.rd F.SER_TEST.LOOP l = 2 → s.laneTest l rx = if s.on F.SER_TEST.GEN_EN l = true then gen.2.check l gen.1 else s) ∧
    (s.rd F.SER_TEST.LOOP l = 3 → s.laneTest l rx = (s.emit (.wire (l / 2) (l % 2) 1 rx)).check l got) := by
  have hstep : s.laneStep l = s.rd F.SER_TEST.STEP l := if_pos h
  have hn : ¬ (!s.laneInTest l) = true := by simp [h]
  refine ⟨fun hl => ?_, fun hl => ?_, fun hl => ?_, fun hl => ?_⟩
  all_goals
    rw [State.laneTest, if_neg hn]
    simp only [hl, hstep]
    rfl

end

/-! ### The commands -/

section
variable {s t : State} {who : Who} {l : Lane} (h : s.serves who .SER_TEST l = true) (hf : s.fits who .SER_TEST l = true)
include h hf

theorem clear_exec (e : s.clearPrbs l = t) (ha : t.acts = s.acts ∨ t.acts = s.acts ++ [.occ (occ .CFG_REJECT)]) :
    exec (.clear who l) s = .next (s.settle t) := by
  have run : exec (.clear who l) s = powered s (fun s => s.regCmd who .SER_TEST l.val (s.fieldWord who F.SER_TEST.CLEAR l.val 1)) := rfl
  refine run.trans (powered_eq (pwrok_of_live (live_of_serves h)) ((regCmd_of_serves _ h).trans ?_))
  rw [writeReg_test, testCtrl_bit hf (.inl rfl), if_pos rfl, e]
  exact rejectOnce_of_calm ha

theorem inject_test_exec (e : s.injectBit l = t) (ha : t.acts = s.acts ∨ t.acts = s.acts ++ [.occ (occ .CFG_REJECT)]) :
    exec (.inject who l) s = .next (s.settle t) := by
  have run : exec (.inject who l) s = powered s (fun s => s.regCmd who .SER_TEST l.val (s.fieldWord who F.SER_TEST.INJECT l.val 1)) := rfl
  refine run.trans (powered_eq (pwrok_of_live (live_of_serves h)) ((regCmd_of_serves _ h).trans ?_))
  rw [writeReg_test, testCtrl_bit hf (.inr rfl), if_neg (by decide), e]
  exact rejectOnce_of_calm ha

end

/-- Settles O12: a re-acquisition by what has come so far, a lane's test by its LOOP and its generator. -/
theorem lanesReacquireAndTest : Obligations.LanesReacquireAndTest := by
  unfold Obligations.LanesReacquireAndTest
  refine ⟨fun s hl => ⟨?_, ?_, ?_, ?_⟩, fun s l => ⟨?_, ?_, ?_⟩⟩
  · intro p hs hw hb hln hf
    have run : exec (.reacquisition p) s = running s (fun s => s.reacquisition p.val) := rfl
    exact run.trans (running_eq hl (reacquisition_starts hs hw hb hln hf))
  · intro p r e hs h1 hi h3 step he
    have run : exec (.reacquisitionEnd p r.start r.syms e) s = running s (fun s => s.reacquisitionEnd p.val ⟨r.start, r.syms⟩ e) := rfl
    exact run.trans (running_eq hl (reacquisitionEnd_passes hs h1 hi h3 he))
  · intro p raw hs h1 h2 hp
    have run : exec (.resultBlock p 1 raw) s = running s (fun s => s.resultBlock p.val 1 raw) := rfl
    exact ⟨_, rfl, run.trans (running_eq hl (resultBlock_widens hs h1 h2 hp))⟩
  · intro l h1 h2
    have run : exec (.eqFreezeEnd l) s = running s (fun s => s.eqFreezeEnd l.val) := rfl
    exact run.trans (running_eq hl (if_pos ⟨h1, by simp [h2]⟩))
  · intro who h hf ht
    exact ⟨clear_exec h hf (clearPrbs_test ht) (.inl rfl), fun hg hn => inject_test_exec h hf (injectBit_test ht hg hn) (.inl rfl)⟩
  · intro who h hf ht
    exact ⟨clear_exec h hf (clearPrbs_outside ht) (.inr rfl), inject_test_exec h hf (injectBit_outside ht) (.inr rfl)⟩
  · intro before during after hl ht
    have go : ∀ t : State, s.laneTest l.val (before ++ during ++ after) = t →
        exec (.checkerLock l before during after) s = .next (s.settle t) := by
      intro t e
      have run : exec (.checkerLock l before during after) s = running s (fun s => s.laneTest l.val (before ++ during ++ after)) := rfl
      exact run.trans (running_eq hl e)
    obtain ⟨h0, h1, h2, h3⟩ := laneTest_eq (before ++ during ++ after) ht
    refine ⟨fun hg hn => ?_, fun hg hn => ?_, fun hg => ⟨fun hn => ?_, fun hn => ?_, fun hn => ?_⟩, fun hn => go _ (h3 hn)⟩
    · obtain hz | ho : s.rd F.SER_TEST.LOOP l = 0 ∨ s.rd F.SER_TEST.LOOP l = 1 := by omega
      · exact go _ ((h0 hz).trans (if_neg (by simp [hg])))
      · exact go _ ((h1 ho).trans (if_neg (by simp [hg])))
    · exact go _ ((h2 hn).trans (if_neg (by simp [hg])))
    · exact go _ ((h0 hn).trans (if_pos hg))
    · exact go _ ((h1 hn).trans (if_pos hg))
    · exact go _ ((h2 hn).trans (if_pos hg))

end Sys2Proof.Machine
end

section
/-! Bring-up of a port up to CAPS (R83 to R86, R89, R91, R94, R95). -/

namespace Sys2Proof.Machine

/-! ### What a capability set leaves alone -/

theorem rd_ite (c : Prop) [Decidable c] (a b : State) (d : Fld) (i : Nat) :
    (if c then a else b).rd d i = if c then a.rd d i else b.rd d i := by split <;> rfl

section
variable {α : Type} (g : State → α) (s : State)

theorem sigDetect_keeps (l mv : Nat) (h : ∀ x, g (s.wr F.SER_LANE_STATUS.SIG_DET x l) = g s) : g (s.sigDetect l mv) = g s := by
  unfold State.sigDetect
  split
  · exact h 1
  · split
    · exact h 0
    · rfl

/-- What a valid set tells is kept in fields, in the port's bring-up state and in an occurrence. -/
theorem hearSet_keeps (p k : Nat) (d : Bytes) (inv : Bool) (peak : Nat) (hw : ∀ t d x i, g (t.wr d x i) = g t)
    (hm : ∀ t f, g (t.modSp p f) = g t) (hr : ∀ t c i, g (t.raise c i) = g t) : g (s.hearSet p k d inv peak) = g s := by
  have ite_keeps : ∀ (c : Prop) [Decidable c] (a b : State), g a = g b → g (if c then a else b) = g b := by
    intro c _ a b h
    split
    · exact h
    · rfl
  unfold State.hearSet
  dsimp only
  simp only [hw, hr, hm, ite_keeps]

end

/-- The state after a set was sent, and the state whose set it was. -/
theorem sendCapSet_spec (s : State) (p k : Nat) : ∃ u : State, u.nodeId = s.nodeId ∧
    (s.sendCapSet p k).out = s.out ++ [.wire p k 1 (symbols 0 (u.capSet p k))] ∧ (s.sendCapSet p k).lnk = s.lnk ∧
    (∀ d i, (s.sendCapSet p k).rd d i = s.rd d i) ∧ (∀ q, q ≠ p → (s.sendCapSet p k).sp q = s.sp q) ∧
    s.sendCapSet p k = { s with ser := (s.sendCapSet p k).ser, out := s.out ++ [.wire p k 1 (symbols 0 (u.capSet p k))] } := by
  refine ⟨s.modSp p (fun x => x.modCap k (fun c => c.start (s.roleFits p && s.serState p == serCaps))), rfl, rfl, rfl, fun _ _ => rfl,
    fun q hq => ?_, rfl⟩
  rw [State.sendCapSet, State.modSp, sp_setSp_ne _ _ hq]
  exact sp_setSp_ne _ _ hq

section
variable (s : State) (p k : Nat) (d : Bytes) (inv : Bool) (peak : Nat)

/-- What a valid set leaves in the fields of its lane and its port. -/
theorem rd_hearSet :
    let t := s.hearSet p k d inv peak
    t.rd F.SER_LANE_STATUS.SIG_DET (2 * p + k) = s.rd F.SER_LANE_STATUS.SIG_DET (2 * p + k) ∧ t.rd F.SER_LANE_STATUS.CDR_LOCK (2 * p + k) = 1 ∧
      t.rd F.SER_PORT_STATUS.PEER_NODE p = leAt d 8 4 % 2 ^ 17 ∧ t.rd F.SER_PORT_STATUS.PEER_PORT p = leAt d 12 1 % 64 ∧
      t.rd F.SER_PORT_STATUS.PEER_ROUTER p = b2n (bit (leAt d 5 1) 1) ∧ t.rd F.SER_PORT_STATUS.PEER_BEAT p = b2n (bit (leAt d 5 1) 2) ∧
      t.rd F.SER_PORT_STATUS.PEER_STEP p = leAt d 6 1 % 4 := by
  have hb : ∀ b : Bool, b2n b % 2 ^ 1 = b2n b := by decide
  have hbits : ∀ x, bits x 0 17 % 2 ^ 17 = x % 2 ^ 17 := by
    intro x
    simp [bits]
  intro t
  simp only [t, State.hearSet]
  simp (disch := decide) only [rd_ite, rd_wr_reg, rd_wr_lo, rd_modSp, rd_raise, rd_wr_same, ite_self]
  refine ⟨trivial, rfl, hbits _, rfl, hb _, hb _, rfl⟩

/-- A valid set takes a port from DETECT to CAPS. -/
theorem serState_hearSet (h : s.serState p = serDetect) : (s.hearSet p k d inv peak).serState p = serCaps := by
  have hrd : ∀ t : State, t.rd F.SER_PORT_STATUS.STATE p = serDetect →
      (if t.serState p = serDetect then t.wr F.SER_PORT_STATUS.STATE serCaps p else t).serState p = serCaps := by
    intro t ht
    rw [if_pos (show t.serState p = serDetect from ht)]
    exact rd_wr_same _ _ _ _
  have h' : s.rd F.SER_PORT_STATUS.STATE p = serDetect := h
  unfold State.hearSet
  dsimp only
  apply hrd
  simp (disch := decide) only [rd_ite, rd_wr_reg, rd_wr_lo, rd_modSp, rd_raise, ite_self, h']

end

section
variable {s : State} {p k : Nat}

/-- A block whose SYNC is upright has the polarity in force. -/
theorem polarity_upright {inv : Bool} {sync : Nat} {l : List Level} (h : leAt (unsymbols 0 inv l) 0 4 = sync) (hs : sync ≠ 0xFFFFFFFF - sync) :
    polarity inv sync l = (unsymbols 0 inv l, inv) := by
  unfold polarity
  dsimp only
  rw [h, if_neg hs]

/-- A set that arrives on a lane of a port in DETECT. -/
theorem capabilitySet_eq {raw : Heard} {peak : Nat} (hs : s.serState p = serDetect) (hf : s.on F.SER_LANE_STATUS.FAILED (2 * p + k) = false)
    (hc : ((s.sp p).cap k).counted = false) (hp : bit (s.rd F.SER_PORT_STATUS.POL_INV p) k = false)
    (hd : leAt (unsymbols 0 false raw.levels) 0 4 = 0x3CA55AC3) :
    s.capabilitySet p k raw peak = (if capSetOk (unsymbols 0 false raw.levels) then
        (s.sigDetect (2 * p + k) raw.mv).hearSet p k (unsymbols 0 false raw.levels) false peak
      else (s.sigDetect (2 * p + k) raw.mv).modSp p (fun x => x.modCap k (fun c => c.count false false))).sendCapSet p k := by
  have hn : ¬ ((s.serState p ≠ serDetect ∧ s.serState p ≠ serCaps) ∨ s.on F.SER_LANE_STATUS.FAILED (2 * p + k) = true ∨
      ((s.sp p).cap k).counted = true) := by
    rw [hf, hc]
    simp [hs]
  rw [State.capabilitySet, if_neg hn, hp]
  dsimp only
  rw [polarity_upright hd (by decide)]

theorem rd_sigDetect_same (l mv : Nat) : (s.sigDetect l mv).rd F.SER_LANE_STATUS.SIG_DET l =
    if 80 < mv then 1 else if mv < 40 then 0 else s.rd F.SER_LANE_STATUS.SIG_DET l := by
  simp only [State.sigDetect, rd_ite, rd_wr_same]
  rfl

theorem capabilitySet_valid {raw : Heard} {peak : Nat} (hs : s.serState p = serDetect) (hf : s.on F.SER_LANE_STATUS.FAILED (2 * p + k) = false)
    (hc : ((s.sp p).cap k).counted = false) (hp : bit (s.rd F.SER_PORT_STATUS.POL_INV p) k = false)
    (hd : leAt (unsymbols 0 false raw.levels) 0 4 = 0x3CA55AC3) (ho : capSetOk (unsymbols 0 false raw.levels) = true) :
    ∃ t u : State, s.capabilitySet p k raw peak = t ∧
      t.out = s.out ++ [.wire p k 1 (symbols 0 (u.capSet p k))] ∧ u.nodeId = s.nodeId ∧ t.serState p = serCaps ∧
      t.rd F.SER_LANE_STATUS.SIG_DET (2 * p + k) =
        (if 80 < raw.mv then 1 else if raw.mv < 40 then 0 else s.rd F.SER_LANE_STATUS.SIG_DET (2 * p + k)) ∧
      t.rd F.SER_LANE_STATUS.CDR_LOCK (2 * p + k) = 1 ∧
      t.rd F.SER_PORT_STATUS.PEER_NODE p = leAt (unsymbols 0 false raw.levels) 8 4 % 2 ^ 17 ∧
      t.rd F.SER_PORT_STATUS.PEER_PORT p = leAt (unsymbols 0 false raw.levels) 12 1 % 64 ∧
      t.rd F.SER_PORT_STATUS.PEER_ROUTER p = b2n (bit (leAt (unsymbols 0 false raw.levels) 5 1) 1) ∧
      t.rd F.SER_PORT_STATUS.PEER_BEAT p = b2n (bit (leAt (unsymbols 0 false raw.levels) 5 1) 2) ∧
      t.rd F.SER_PORT_STATUS.PEER_STEP p = leAt (unsymbols 0 false raw.levels) 6 1 % 4 ∧ t.lnk = s.lnk := by
  have e := capabilitySet_eq (peak := peak) hs hf hc hp hd
  rw [if_pos ho] at e
  generalize unsymbols 0 false raw.levels = d at e
  generalize hv : (s.sigDetect (2 * p + k) raw.mv).hearSet p k d false peak = v at e
  obtain ⟨u, hnode, hout, hlnk, hrd, -, -⟩ := sendCapSet_spec v p k
  have keeps : ∀ {α : Type} (g : State → α), (∀ t d x i, g (t.wr d x i) = g t) → (∀ t f, g (t.modSp p f) = g t) →
      (∀ t c i, g (t.raise c i) = g t) → g v = g s := by
    intro α g hw hm hr
    rw [← hv]
    exact (hearSet_keeps g _ p k d false peak hw hm hr).trans (sigDetect_keeps g s _ _ (fun x => hw s _ x _))
  have hsd : (s.sigDetect (2 * p + k) raw.mv).serState p = serDetect := (rd_sigDetect s _ F.SER_PORT_STATUS.STATE p _ (.inl (by decide))).trans hs
  have hstate := serState_hearSet (s.sigDetect (2 * p + k) raw.mv) p k d false peak hsd
  have hread := rd_hearSet (s.sigDetect (2 * p + k) raw.mv) p k d false peak
  rw [hv] at hstate hread
  obtain ⟨r1, r2, r3, r4, r5, r6, r7⟩ := hread
  refine ⟨v.sendCapSet p k, u, e, ?_, ?_, (hrd _ _).trans hstate, ?_, (hrd _ _).trans r2, (hrd _ _).trans r3, (hrd _ _).trans r4,
    (hrd _ _).trans r5, (hrd _ _).trans r6, (hrd _ _).trans r7, ?_⟩
  · rw [hout, keeps State.out (fun _ _ _ _ => rfl) (fun _ _ => rfl) (fun _ _ _ => rfl)]
  · exact hnode.trans (keeps State.nodeId (fun _ _ _ _ => rfl) (fun _ _ => rfl) (fun _ _ _ => rfl))
  · exact ((hrd _ _).trans r1).trans (rd_sigDetect_same _ _)
  · exact hlnk.trans (keeps State.lnk (fun _ _ _ _ => rfl) (fun _ _ => rfl) (fun _ _ _ => rfl))

theorem capabilitySet_invalid {raw : Heard} {peak : Nat} (hs : s.serState p = serDetect) (hf : s.on F.SER_LANE_STATUS.FAILED (2 * p + k) = false)
    (hc : ((s.sp p).cap k).counted = false) (hp : bit (s.rd F.SER_PORT_STATUS.POL_INV p) k = false)
    (hd : leAt (unsymbols 0 false raw.levels) 0 4 = 0x3CA55AC3) (ho : capSetOk (unsymbols 0 false raw.levels) = false) :
    ∃ t u : State, s.capabilitySet p k raw peak = t ∧
      t = { s.sigDetect (2 * p + k) raw.mv with ser := t.ser, out := s.out ++ [.wire p k 1 (symbols 0 (u.capSet p k))] } ∧ u.nodeId = s.nodeId ∧
      ∀ q, q ≠ p → t.sp q = s.sp q := by
  have e := capabilitySet_eq (peak := peak) hs hf hc hp hd
  rw [if_neg (by rw [ho]; decide)] at e
  have hsp : ∀ q, (s.sigDetect (2 * p + k) raw.mv).sp q = s.sp q := fun q => (sp_sigDetect s _ _ q).1
  have hout := sigDetect_keeps State.out s (2 * p + k) raw.mv (fun _ => rfl)
  have hnode := sigDetect_keeps State.nodeId s (2 * p + k) raw.mv (fun _ => rfl)
  rw [← hout]
  generalize s.sigDetect (2 * p + k) raw.mv = v at e hsp hnode ⊢
  obtain ⟨u, hu, -, -, -, hq, hwhole⟩ := sendCapSet_spec (v.modSp p (fun x => x.modCap k (fun c => c.count false false))) p k
  exact ⟨_, u, e, hwhole, hu.trans hnode, fun q hne => ((hq q hne).trans (sp_setSp_ne _ _ hne)).trans (hsp q)⟩

/-! ### Calibration, the wait and the ends of CAPS and of the result -/

/-- What a lane's calibration leaves (R94). -/
def State.laneCalibrated (s : State) (l : Nat) (ok : Bool) : State :=
  if ok then s.wr F.SER_LANE_STATUS.CAL_OK 1 l else (s.wr F.SER_LANE_STATUS.FAILED 1 l).raise .SER_CAL_FAIL l

theorem calibrationDone_eq {st : Nat} {ok0 ok1 : Bool} (hc : (s.sp p).calib = some st) (hl : s.pllLocked p = true)
    (h0 : s.needsCal (2 * p) = true) (h1 : s.needsCal (2 * p + 1) = true) :
    s.calibrationDone p ok0 ok1 = ((((s.laneCalibrated (2 * p) ok0).laneCalibrated (2 * p + 1) ok1).modSp p
      (fun x => { x with calib := none })).serTo p st) := by
  have hrd : ∀ (t : State) (d : Fld) (l i : Nat) (ok : Bool), i ≠ l ∨ d.reg.code ≠ Reg.SER_LANE_STATUS.code →
      (t.laneCalibrated l ok).rd d i = t.rd d i := by
    intro t d l i ok hd
    rcases hd with hi | hr
    · simp only [State.laneCalibrated, rd_ite, rd_raise, rd_wr_idx _ _ hi, ite_self]
    · have h : ∀ f : Fld, f.reg.code = Reg.SER_LANE_STATUS.code → (t.wr f 1 l).rd d i = t.rd d i := fun f hf =>
        rd_wr_reg t l i 1 (by rw [hf]; exact hr)
      simp only [State.laneCalibrated, rd_ite, rd_raise, h F.SER_LANE_STATUS.CAL_OK rfl, h F.SER_LANE_STATUS.FAILED rfl, ite_self]
  have hn : (s.laneCalibrated (2 * p) ok0).needsCal (2 * p + 1) = true := by
    rw [← h1]
    simp only [State.needsCal, State.on, hrd _ _ (2 * p) (2 * p + 1) _ (.inl (by omega))]
  have hp : (((s.laneCalibrated (2 * p) ok0).laneCalibrated (2 * p + 1) ok1).modSp p (fun x => { x with calib := none })).pllLocked p = true := by
    rw [← hl]
    unfold State.pllLocked
    rw [rd_modSp, hrd _ _ _ _ _ (.inr (by decide)), hrd _ _ _ _ _ (.inr (by decide))]
  have hfold : foldS [0, 1] s (fun s k => if !s.needsCal (2 * p + k) then s
      else if (if k = 0 then ok0 else ok1) then s.wr F.SER_LANE_STATUS.CAL_OK 1 (2 * p + k)
      else (s.wr F.SER_LANE_STATUS.FAILED 1 (2 * p + k)).raise .SER_CAL_FAIL (2 * p + k)) =
      (s.laneCalibrated (2 * p) ok0).laneCalibrated (2 * p + 1) ok1 := by
    have f0 : (if !s.needsCal (2 * p + 0) then s else s.laneCalibrated (2 * p + 0) ok0) = s.laneCalibrated (2 * p) ok0 := by
      rw [Nat.add_zero, h0]
      rfl
    have f1 : (if !(s.laneCalibrated (2 * p) ok0).needsCal (2 * p + 1) then s.laneCalibrated (2 * p) ok0
        else (s.laneCalibrated (2 * p) ok0).laneCalibrated (2 * p + 1) ok1) = (s.laneCalibrated (2 * p) ok0).laneCalibrated (2 * p + 1) ok1 := by
      rw [hn]
      rfl
    rw [← f1, ← f0]
    rfl
  unfold State.calibrationDone
  rw [hc]
  dsimp only
  rw [hfold, hp]
  rfl

theorem retryMs_detects (hs : s.serState p = serWait) (hl : s.pllLocked p = true) (hc : (s.sp p).calib = none)
    (h0 : s.needsCal (2 * p) = false) (h1 : s.needsCal (2 * p + 1) = false) (hm : s.rd F.SER_PORT_CTRL.MODE p = 0) :
    s.retryMs p = s.serTo p serDetect := by
  have hmode : s.modeState p = serDetect := by
    unfold State.modeState State.on
    rw [hm]
    rfl
  rw [State.retryMs, if_pos ⟨hs, hl, by rw [hc]; rfl⟩, hmode, calibrate_done _ h0 h1]

theorem capsTimeout_counting (h : (s.sp p).c0.counting = true ∨ (s.sp p).c1.counting = true) : s.capsTimeout p = s := if_pos (.inr h)

theorem capsTimeout_ends (hs : s.serState p = serCaps) (h0 : (s.sp p).c0.counting = false) (h1 : (s.sp p).c1.counting = false) :
    s.capsTimeout p = if s.roleFits p then s.bringupFail p else (s.raise .SER_PEER_MISMATCH p).serTo p serWait :=
  if_neg (by simp [hs, h0, h1])

/-- No lane is used where the peer passed none. -/
theorem lanesUsed_none : s.lanesUsed p 0 = 0 := by
  have hb : ∀ k, bit 0 k = false := by simp [bit]
  have hf : (bitsSet 2 (s.sp p).ownPass).filter (fun k => bit 0 k) = [] := by simp [hb]
  simp only [State.lanesUsed, hf, List.length_nil, Nat.zero_le, or_true, if_true, List.foldl_nil]

/-- The steps of decideLanes where no lane passed (R91). -/
theorem decideLanes_none : s.decideLanes p 0 =
    if (s.sp p).agreedStep = 0 then s.bringupFail p
    else ((s.serTo p serCaps).modSp p (fun y => { y with
      attempt := (s.sp p).attempt + 1, c0 := { y.c0 with id := none }, c1 := { y.c1 with id := none } })).raise .SER_STEP_FALLBACK p := by
  have hp : popcount 2 0 = 0 := rfl
  simp only [State.decideLanes, lanesUsed_none, hp, if_true]

theorem resultWaitEnd_eq (hs : s.serState p = serTrain) (hc : (s.sp p).checked = true) : s.resultWaitEnd p = s.decideLanes p 0 :=
  if_pos ⟨hs, hc⟩

end

/-- Settles O7: calibration, the wait, CAPS_TIMEOUT and the missing result by the state that each needs, and a capability set by its check. -/
theorem bringUpStarts : Obligations.BringUpStarts := by
  unfold Obligations.BringUpStarts
  refine ⟨?_, ?_⟩
  · intro s p hl fail
    have runCal : ∀ ok0 ok1, exec (.calibrationDone p ok0 ok1) s = running s (fun s => s.calibrationDone p.val ok0 ok1) := fun _ _ => rfl
    have runRetry : exec (.retryMs p) s = running s (fun s => s.retryMs p.val) := rfl
    have runCaps : exec (.capsTimeout p) s = running s (fun s => s.capsTimeout p.val) := rfl
    have runWait : exec (.resultWaitEnd p) s = running s (fun s => s.resultWaitEnd p.val) := rfl
    refine ⟨fun hc hp h0 h1 => ⟨?_, ?_⟩, fun hs hp hc h0 h1 hm => ?_, fun h0 h1 => ⟨fun hs hf => ?_, fun hs hf => ?_⟩, fun hc => ?_,
      fun hs hc ha => ?_, fun hs hc ha => ?_⟩
    · exact (runCal true true).trans (running_eq hl (calibrationDone_eq hc hp h0 h1))
    · exact (runCal false true).trans (running_eq hl (calibrationDone_eq hc hp h0 h1))
    · exact runRetry.trans (running_eq hl (retryMs_detects hs hp hc h0 h1 hm))
    · exact runCaps.trans (running_eq hl ((capsTimeout_ends hs h0 h1).trans (if_pos hf)))
    · exact runCaps.trans (running_eq hl ((capsTimeout_ends hs h0 h1).trans (if_neg (by rw [hf]; decide))))
    · exact runCaps.trans (running_eq hl (capsTimeout_counting hc))
    · exact runWait.trans (running_eq hl ((resultWaitEnd_eq hs hc).trans (decideLanes_none.trans (if_pos ha))))
    · exact runWait.trans (running_eq hl ((resultWaitEnd_eq hs hc).trans (decideLanes_none.trans (if_neg (by omega)))))
  · intro s p k raw mv peak hl hs hf hc hp d hd
    have run : exec (.capabilitySet p k ⟨raw, mv⟩ peak) s = running s (fun s => s.capabilitySet p.val k.val ⟨raw, mv⟩ peak) := rfl
    refine ⟨fun ho => ?_, fun ho => ?_⟩
    · obtain ⟨t, u, e, ht⟩ := capabilitySet_valid (raw := ⟨raw, mv⟩) (peak := peak) hs hf hc hp hd ho
      exact ⟨t, u, run.trans (running_eq hl e), ht⟩
    · obtain ⟨t, u, e, ht⟩ := capabilitySet_invalid (raw := ⟨raw, mv⟩) (peak := peak) hs hf hc hp hd ho
      exact ⟨t, u, run.trans (running_eq hl e), ht⟩

end Sys2Proof.Machine
end

section
/-! Training, the check and the entry to ACTIVE (R85, R87 to R92). -/

namespace Sys2Proof.Machine

section
variable {s : State} {p : Nat}

theorem countdownEnd_trains (hs : s.serState p = serCaps) (hc : (s.sp p).c0.counted = true) (h0 : (s.sp p).idOf 0 = some 0)
    (h1 : (s.sp p).idOf 1 = some 1) :
    let step := min (s.offerStep p) (s.rd F.SER_PORT_STATUS.PEER_STEP p)
    let width := min (s.offerWidth p) (s.sp p).peerWidth
    s.countdownEnd p = ((((s.wr F.SER_PORT_STATUS.STATE serTrain p).wr F.SER_PORT_STATUS.STEP step p).setSp p
      { s.sp p with training := 3, agreedStep := step, agreedWidth := width, trained := false, checked := false, ownPass := 0 }).trainLane
      p 0 step).trainLane p 1 step := by
  have hmask : b2n (some 0 : Option Nat).isSome + (if (some 1 : Option Nat).isSome && !((some 0 : Option Nat).isSome && (some 0 : Option Nat) == some 1)
      then 2 else 0) = 3 := rfl
  intro step width
  have hw : ((s.wr F.SER_PORT_STATUS.STATE serTrain p).wr F.SER_PORT_STATUS.STEP step p).offerWidth p = s.offerWidth p := by
    unfold State.offerWidth
    rw [rd_wr_reg _ _ _ _ (by decide), rd_wr_reg _ _ _ _ (by decide)]
    rfl
  unfold State.countdownEnd
  dsimp only
  rw [if_pos ⟨hs, .inl hc⟩, h0, h1, hmask, hw]
  rfl

theorem trainEnd_one {e0 e1 : EqVals} (hs : s.serState p = serTrain) (ht : (s.sp p).trained = false) (hm : (s.sp p).training = 1) :
    s.trainEnd p e0 e1 = ((s.loadPreset (2 * p) (s.sp p).c0.preset).putEq (2 * p) e0).modSp p (fun x => { x with trained := true }) := by
  have hc : s.serState p = serTrain ∧ (!(s.sp p).trained) = true := ⟨hs, by rw [ht]; rfl⟩
  rw [State.trainEnd, if_pos hc, hm]
  rfl

theorem setBit_zero (i : Nat) : setBit 0 i = 2 ^ i := by simp [setBit, bit]

theorem checkEnd_one {r0 r1 : PrbsRx} {id : Nat} (hs : s.serState p = serTrain) (hc : (s.sp p).checked = false) (hm : (s.sp p).training = 1)
    (hi : (s.sp p).idOf 0 = some id)
    (he : prbsErrors (s.sp p).agreedStep (bit (s.rd F.SER_PORT_STATUS.POL_INV p) 0) r0 ≤ s.rd F.SER_BRINGUP_CFG.ERR_MAX)
    (hk : s.on F.SER_LANE_STATUS.CDR_LOCK (2 * p) = true) :
    s.checkEnd p r0 r1 = (s.setSp p { s.sp p with checked := true, ownPass := 1 }).sendResult p 0 (2 ^ id) (s.sp p).agreedStep := by
  have hcond : s.serState p = serTrain ∧ (!(s.sp p).checked) = true := ⟨hs, by rw [hc]; rfl⟩
  have hset : bitsSet 2 1 = [0] := rfl
  have hok : decide (prbsErrors (s.sp p).agreedStep (bit (s.rd F.SER_PORT_STATUS.POL_INV p) 0) r0 ≤ s.rd F.SER_BRINGUP_CFG.ERR_MAX) = true :=
    decide_eq_true he
  have hpass : 0 + 2 ^ 0 = 1 := rfl
  unfold State.checkEnd
  simp only [hcond, and_self, if_true, hm, hset, List.filter_cons, List.filter_nil, hok, hk, Nat.add_zero, Bool.and_self, List.foldl_cons,
    List.foldl_nil, hi, Option.getD_some, setBit_zero, hpass]
  rfl

/-- Where only lane 0 passed both ways, the port goes on with it (R90). -/
theorem decideLanes_one (ho : (s.sp p).ownPass = 1) (hw : (s.sp p).agreedWidth = 1) :
    s.decideLanes p 1 = (((((s.wr F.SER_PORT_STATUS.STATE serActive p).wr F.SER_PORT_STATUS.LANES 1 p).wr F.SER_PORT_STATUS.WIDTH 1 p).setSp p
      { s.sp p with rxLanes := 1, reacqBeats := 0, reacq := none, reacqOwn := none, reacqPeer := none }).startData p 0
      (s.sp p).agreedStep).linkStart p := by
  have hb : (bitsSet 2 1).filter (fun k => bit 1 k) = [0] := rfl
  have hu : s.lanesUsed p 1 = 1 := by
    simp only [State.lanesUsed, ho, hb, List.length_singleton, Nat.le_refl, or_true, if_true]
    rfl
  have hn : popcount 2 1 = 1 := rfl
  simp only [State.decideLanes, hu, hn, hw, Nat.lt_irrefl, if_false, Nat.one_ne_zero]
  rfl

theorem resultBlock_trains {k pass : Nat} {raw : List Level} (hs : s.serState p = serTrain) (hc : (s.sp p).checked = true)
    (hp : resultPass (unsymbols (s.rd F.SER_PORT_STATUS.STEP p) (bit (s.rd F.SER_PORT_STATUS.POL_INV p) k) raw) = some pass) :
    s.resultBlock p k raw = s.decideLanes p pass := by
  simp only [State.resultBlock, hp, hs, hc, and_self, if_true]

end

/-- Settles O8: the countdown, the training and the check by the lanes that they find, and the result by the lane that both ends name. -/
theorem trainingEndsInActive : Obligations.TrainingEndsInActive := by
  unfold Obligations.TrainingEndsInActive
  refine ⟨?_, ?_⟩
  · intro s p hl
    have runCount : exec (.countdownEnd p) s = running s (fun s => s.countdownEnd p.val) := rfl
    have runTrain : ∀ e0 e1, exec (.trainUsEnd p e0 e1) s = running s (fun s => s.trainEnd p.val e0 e1) := fun _ _ => rfl
    have runCheck : ∀ r0 r1, exec (.checkUsEnd p r0 r1) s = running s (fun s => s.checkEnd p.val r0 r1) := fun _ _ => rfl
    refine ⟨fun hs hc h0 h1 => ?_, fun e0 e1 hs ht hm => ?_, fun r0 r1 id hs hc hm hi he hk => ?_⟩
    · exact runCount.trans (running_eq hl (countdownEnd_trains hs hc h0 h1))
    · exact (runTrain e0 e1).trans (running_eq hl (trainEnd_one hs ht hm))
    · exact (runCheck r0 r1).trans (running_eq hl (checkEnd_one hs hc hm hi he hk))
  · intro s p raw d hl hs hc ho hw hsync hcrc hlane hzero hpass
    have run : exec (.resultBlock p 0 raw) s = running s (fun s => s.resultBlock p.val 0 raw) := rfl
    have hres : resultPass d = some 1 := by
      rw [resultPass, if_pos ⟨hsync, hcrc, hlane, hzero⟩, hpass]
    exact run.trans (running_eq hl ((resultBlock_trains hs hc hres).trans (decideLanes_one ho hw)))

end Sys2Proof.Machine
end

section
/-! The checks that every coherence packet meets, and the homes' part (10_coherent_domains.md R312 to R331, R340, Table 10.6). -/

namespace Sys2Proof.Machine

/-! ### The checks of a packet (R312, R321, R340) -/

section
variable {s : State} {b : Bytes} {f : State → Nat → State}

theorem cohPacket_malformed (h : cohBad b = true) : s.cohPacket b f = s.malformed := if_pos h

section
variable (h : cohBad b = false)
include h

theorem cohPacket_disabled (he : s.en uCOH = false) : s.cohPacket b f = s.inc F.COH_COUNT.STALE := by
  simp only [State.cohPacket, h, he, Bool.false_eq_true, if_false, Bool.not_false, if_true]
  rfl

/-- A packet of a live member in the domain is served. -/
theorem cohPacket_member {m : Nat} (he : s.en uCOH = true) (hm : s.memberOf (pkSrc b) = some m) (hd : leAt b 26 1 = s.rd F.COH_MODE.DOMAIN) :
    s.cohPacket b f = f s m := by
  have hd' : (leAt b 26 1 == s.rd F.COH_MODE.DOMAIN) = true := beq_iff_eq.2 hd
  simp only [State.cohPacket, h, he, Bool.false_eq_true, if_false, Bool.not_true, hm, hd']

/-- Another is refused, which is logged once a Beat for its node. -/
theorem cohPacket_foreign (he : s.en uCOH = true) (hm : s.memberOf (pkSrc b) = none ∨ leAt b 26 1 ≠ s.rd F.COH_MODE.DOMAIN) :
    s.cohPacket b f = if s.coh.notLogged.contains (pkSrc b) then s
      else (s.modCoh (fun c => { c with notLogged := c.notLogged ++ [pkSrc b] })).raise .COH_NOT_MEMBER := by
  have hd : leAt b 26 1 ≠ s.rd F.COH_MODE.DOMAIN → (leAt b 26 1 == s.rd F.COH_MODE.DOMAIN) = false := fun hd => beq_false_of_ne hd
  simp only [State.cohPacket, h, he, Bool.false_eq_true, if_false, Bool.not_true]
  cases hv : s.memberOf (pkSrc b) with
  | none => rfl
  | some m =>
    rw [hd (hm.resolve_left (by rw [hv]; exact fun hn => nomatch hn))]

end

variable {k : Nat} {u : State}

/-- A coherence packet that a unit with intact memories finds ends with what its check leaves. -/
theorem homePacket_exec {g : State → Bytes → Nat → State} (hl : s.live = true) (hi : s.intact = true) (hh : s.hands uCOH k b = true)
    (e : (s.handed k b).cohPacket b (fun s m => g s b m) = u) : running s (fun s => s.homePacket k g) = .next (s.settle u) :=
  unitPacket_exec hl hh ((congrArg (fun t => State.cohPacket t b (fun s m => g s b m))
    (reads_of_intact _ ((handed_intact s k b).trans hi))).trans e)

theorem agentPacket_exec {g : State → Bytes → State} (hl : s.live = true) (hi : s.intact = true) (hh : s.hands uCOH k b = true)
    (e : (s.handed k b).cohPacket b (fun s _ => g s b) = u) : running s (fun s => s.agentPacket k g) = .next (s.settle u) :=
  unitPacket_exec hl hh ((congrArg (fun t => State.cohPacket t b (fun s _ => g s b))
    (reads_of_intact _ ((handed_intact s k b).trans hi))).trans e)

end

/-- The outcomes of a packet that no member's row serves. -/
def State.refusesCoh (s : State) (t : State) (b : Bytes) (o : Host.Outcome State Fault Refusal) : Prop :=
  (cohBad b = true → o = .next (s.settle t.malformed)) ∧
  (cohBad b = false → t.en uCOH = false → o = .next (s.settle (t.inc F.COH_COUNT.STALE))) ∧
  (cohBad b = false → t.en uCOH = true → (t.memberOf (pkSrc b) = none ∨ leAt b 26 1 ≠ t.rd F.COH_MODE.DOMAIN) →
    (t.coh.notLogged.contains (pkSrc b) = true → o = .next (s.settle t)) ∧
    (t.coh.notLogged.contains (pkSrc b) = false → o = .next (s.settle
      ((t.modCoh (fun c => { c with notLogged := c.notLogged ++ [pkSrc b] })).raise .COH_NOT_MEMBER))))

/-- A command that checks its packet refuses by those checks alone. -/
theorem refusesCoh_of_checks {s t : State} {b : Bytes} {o : Host.Outcome State Fault Refusal} (f : State → Nat → State)
    (h : ∀ u, t.cohPacket b f = u → o = .next (s.settle u)) : s.refusesCoh t b o := by
  refine ⟨fun hb => h _ (cohPacket_malformed hb), fun hb he => h _ (cohPacket_disabled hb he), fun hb he hm => ?_⟩
  exact ⟨fun hc => h _ ((cohPacket_foreign hb he hm).trans (if_pos hc)),
    fun hc => h _ ((cohPacket_foreign hb he hm).trans (if_neg (by rw [hc]; decide)))⟩

/-- Settles O35: every row's command takes its packet through the same checks. -/
theorem coherencePacketsAreChecked : Obligations.CoherencePacketsAreChecked := by
  unfold Obligations.CoherencePacketsAreChecked
  intro s b hl hi rows r hr hh t
  have home : ∀ (i : Instr) (k : Nat) (g : State → Bytes → Nat → State), exec i s = running s (fun s => s.homePacket k g) →
      s.hands uCOH k b = true → s.refusesCoh (s.handed k b) b (exec i s) := fun i k g run hh =>
    refusesCoh_of_checks (fun s m => g s b m) fun u e => run.trans (homePacket_exec hl hi hh e)
  have agent : ∀ (i : Instr) (k : Nat) (g : State → Bytes → State), exec i s = running s (fun s => s.agentPacket k g) →
      s.hands uCOH k b = true → s.refusesCoh (s.handed k b) b (exec i s) := fun i k g run hh =>
    refusesCoh_of_checks (fun s _ => g s b) fun u e => run.trans (agentPacket_exec hl hi hh e)
  simp only [rows, List.mem_cons, List.not_mem_nil, or_false] at hr
  rcases hr with rfl | rfl | rfl | rfl | rfl | rfl | rfl | rfl | rfl | rfl | rfl | rfl | rfl | rfl | rfl | rfl | rfl | rfl | rfl
  · exact home .rdS 0x60 (fun s b m => s.onCohReq 0 b m) rfl hh
  · exact home .rdX 0x61 (fun s b m => s.onCohReq 1 b m) rfl hh
  · exact home .upg 0x62 (fun s b m => s.onCohReq 2 b m) rfl hh
  · exact home .atom 0x63 (fun s b m => s.onCohReq 3 b m) rfl hh
  · exact home .wb 0x64 (fun s b m => s.onWb b m) rfl hh
  · exact home .evict 0x65 (fun s b m => s.onEvict b m) rfl hh
  · exact agent .fwdS 0x68 (fun s b => s.onForward 0 b) rfl hh
  · exact agent .fwdX 0x69 (fun s b => s.onForward 1 b) rfl hh
  · exact agent .inv 0x6A (fun s b => s.onForward 2 b) rfl hh
  · exact agent .dataS 0x70 State.onDataS rfl hh
  · exact agent .dataX 0x71 State.onDataX rfl hh
  · exact agent .grantX 0x72 State.onGrantX rfl hh
  · exact home .invAck 0x73 (fun s b m => s.onInvAck b m) rfl hh
  · exact home .fwdAck 0x74 (fun s b m => s.onFwdAck b m) rfl hh
  · exact home .comp 0x75 (fun s b m => s.onComp b m) rfl hh
  · exact agent .wbAck 0x76 State.onWbAck rfl hh
  · exact agent .retry 0x77 State.onRetry rfl hh
  · exact agent .crdGrant 0x78 State.onCrdGrant rfl hh
  · exact agent .atomResp 0x79 State.onAtomResp rfl hh

end Sys2Proof.Machine
end

section
/-! The home of a line: requests, writebacks, evictions and acknowledgements (R313, R314, R316, R329 to R331, R339, Table 10.6). -/

namespace Sys2Proof.Machine

section
variable {s : State} {b : Bytes} {m : Nat}

/-! ### Requests -/

section
variable {kind : Nat}

theorem onCohReq_foreign (h : s.lineOk (cpLine b) = false) : s.onCohReq kind b m = s.badExport m kind b := by
  simp only [State.onCohReq, h, Bool.not_false, if_true]

section
variable (h : s.lineOk (cpLine b) = true)
include h

theorem onCohReq_noAtomics (hk : kind = 3) (ha : s.atomicsServed = false) :
    s.onCohReq kind b m = (s.raise .COH_PROTO).sendAtomResp (cpLine b) m (cpTxid b) 0 (cpAop b) cfNodata 0 := by
  simp only [State.onCohReq, h, hk, ha, Bool.not_true, Bool.false_eq_true, if_false, Bool.not_false, and_self, if_true]

variable (hk : kind = 3 → s.atomicsServed = true) (ht : (s.dirOf (cpLine b)).tx = none) (hw : (s.dirOf (cpLine b)).waiting = [])
include hk ht hw

/-- In RACE_MODE a request of a line with nothing in hand takes an entry, of which a member has 16. -/
theorem onCohReq_race (hr : s.on F.COH_MODE.RACE_MODE = true) :
    s.onCohReq kind b m = if 16 ≤ s.homeUsedBy m then s.raise .COH_PROTO
      else ((s.freeHtx 0 1024).1.map fun h => ((s.freeHtx 0 1024).2.modDir (cpLine b) (fun d => { d with waiting := d.waiting ++
        [⟨m, cpTxid b, kind, cpAop b, pkPayload b, cpFlag b cfResent, h⟩] })).homeKick).getD ((s.freeHtx 0 1024).2.raise .COH_PROTO) := by
  have hka : ¬ (kind = 3 ∧ (!s.atomicsServed) = true) := fun hc => by simp [hk hc.1] at hc
  simp only [State.onCohReq, h, Bool.not_true, Bool.false_eq_true, if_false, hka, ht, hw, hr, Option.any_none, List.any_nil, Bool.or_self, if_true]
  split
  · rfl
  · split
    next h' u he => simp only [he, Option.map_some, Option.getD_some]
    next u he => simp only [he, Option.map_none, Option.getD_none]

/-- Otherwise it takes one where nothing is in its way. -/
theorem onCohReq_credit {k : Nat} {u : State} (hf : s.freeHtx 0 1024 = (some k, u)) (hr : s.on F.COH_MODE.RACE_MODE = false)
    (hs : (s.dirOf (cpLine b)).snoops = []) (hc : s.coh.credits = [])
    (hv : (s.dirOf (cpLine b)).way = true ∨ s.dirWays (cacheSet (cpLine b)) < 16) :
    s.onCohReq kind b m = (u.modDir (cpLine b) (fun d => { d with waiting := d.waiting ++
        [⟨m, cpTxid b, kind, cpAop b, pkPayload b, cpFlag b cfResent, k⟩] })).homeKick := by
  have hka : ¬ (kind = 3 ∧ (!s.atomicsServed) = true) := fun hc => by simp [hk hc.1] at hc
  have hbusy : (s.dirOf (cpLine b)).busy = false := by
    unfold Dir.busy
    rw [ht, hs, hw]
    rfl
  have hway : (!(s.dirOf (cpLine b)).way && decide (16 ≤ s.dirWays (cacheSet (cpLine b)))) = false := by
    rcases hv with hv | hv
    · rw [hv]
      rfl
    · rw [decide_eq_false (by omega), Bool.and_false]
  simp only [State.onCohReq, h, Bool.not_true, Bool.false_eq_true, if_false, hka, ht, hw, hr, hc, hbusy, hway, hf, Option.any_none, List.any_nil,
    List.find?_nil, Bool.or_self, Bool.false_and, ite_self]

end
end

/-! ### Writebacks and evictions -/

/-- WB_ACK of a line to a member. -/
def State.wbAckTo (s : State) (b : Bytes) (m flags : Nat) : State := s.cohSend m 2 0x76 (cpLine b) (cpTxid b) m flags 0 0 []

theorem onWb_other (h : (s.dirOf (cpLine b)).owner ≠ some m) : s.onWb b m = s.wbAckTo b m cfStaleF :=
  if_neg fun hc => h hc.2

theorem onWb_owner (ht : (s.dirOf (cpLine b)).tx = none) (h : (s.dirOf (cpLine b)).owner = some m) :
    s.onWb b m = (((s.toHost (cpLine b) 2 (pkPayload b) (cpFlag b cfPoison)).closeTx (cpLine b) [] none).wbAckTo b m 0).homeKick :=
  if_pos ⟨by rw [ht]; rfl, h⟩

theorem onEvict_stranger (ht : (s.dirOf (cpLine b)).tx = none) (hs : (s.dirOf (cpLine b)).sharers.contains m = false) :
    s.onEvict b m = s.wbAckTo b m 0 := by
  simp only [State.onEvict, ht, hs, Bool.false_eq_true, if_false]
  rfl

theorem onEvict_busy {x : HTx} (ht : (s.dirOf (cpLine b)).tx = some x) (hx : x.st ≠ 3) :
    s.onEvict b m = (s.wbAckTo b m 0).modDir (cpLine b) (fun d => { d with
      sharers := (s.dirOf (cpLine b)).sharers.filter (· != m), tx := some { x with left := x.left ++ [m] } }) := by
  simp only [State.onEvict, ht, hx, if_false]
  rfl

theorem onEvict_sharer {j : Nat} (hj : j ≠ m) (ht : (s.dirOf (cpLine b)).tx = none) (hs : (s.dirOf (cpLine b)).sharers = [j, m]) :
    s.onEvict b m = ((s.wbAckTo b m 0).modDir (cpLine b) (fun d => { d with sharers := [j] })).homeKick := by
  have hrest : [j, m].filter (· != m) = [j] := by simp [hj]
  have hin : [j, m].contains m = true := by simp
  simp only [State.onEvict, ht, hs, hrest, hin, List.isEmpty_cons, Bool.false_eq_true, if_false, if_true, Bool.not_false, Bool.and_true]
  rfl

/-! ### Acknowledgements of a transaction -/

theorem onInvAck_stale (h : s.txFor b = none) : s.onInvAck b m = s.inc F.COH_COUNT.STALE := by
  simp only [State.onInvAck, h]
  rfl

theorem onInvAck_counts {x : HTx} (h : s.txFor b = some x) (hm : x.invs.contains m = true) :
    s.onInvAck b m = (s.modTx (cpLine b) (fun x => { x with invs := x.invs.filter (· != m) })).homeKick := by
  simp only [State.onInvAck, h, hm, if_true]

theorem onFwdAck_stale (h : s.txFor b = none) : s.onFwdAck b m = s.inc F.COH_COUNT.STALE := by
  simp only [State.onFwdAck, h]
  rfl

section
variable {x : HTx} (h : s.txFor b = some x) (hf : x.fwd = true) (ho : x.owner = m)
include h hf ho

theorem onFwdAck_nodata (hn : cpFlag b cfNodata = true) : s.onFwdAck b m = s.failTx (cpLine b) { x with fwd := false } true := by
  simp only [State.onFwdAck, h, hf, ho, hn, Bool.not_true, Bool.false_eq_true, ne_eq, not_true_eq_false, or_self, if_false, if_true]

/-- An answer without data, and one with data, which goes to the host too. -/
theorem onFwdAck_answer (hn : cpFlag b cfNodata = false) :
    s.onFwdAck b m = if pkLong b = true then
        ((s.toHost (cpLine b) 4 (pkPayload b) (cpFlag b cfPoison)).modTx (cpLine b) (fun x => { x with
          fwd := false, data := some (pkPayload b, cpFlag b cfPoison), kept := cpFlag b cfKept })).homeKick
      else (s.modTx (cpLine b) (fun x => { x with fwd := false, data := none, kept := cpFlag b cfKept })).homeKick := by
  cases hp : pkLong b <;>
    simp only [State.onFwdAck, h, hf, ho, hn, hp, Bool.not_true, Bool.false_eq_true, ne_eq, not_true_eq_false, or_self, if_false, if_true]

end

theorem onComp_stale (h : s.txFor b = none) : s.onComp b m = s.inc F.COH_COUNT.STALE := by
  simp only [State.onComp, h]
  rfl

theorem onComp_counts {x : HTx} (h : s.txFor b = some x) (hc : x.comp = true) (hm : x.mid = m) :
    s.onComp b m = (s.modTx (cpLine b) (fun x => { x with comp := false })).homeKick := by
  simp only [State.onComp, h, hc, hm, and_self, if_true]

end

/-- COH finds a packet of a live member of its domain. -/
structure InDomain (s : State) (b : Bytes) (m k : Nat) : Prop where
  live : s.live = true
  intact : s.intact = true
  whole : cohBad b = false
  handed : s.hands uCOH k b = true
  enabled : (s.handed k b).en uCOH = true
  sender : (s.handed k b).memberOf (pkSrc b) = some m
  domain : leAt b 26 1 = (s.handed k b).rd F.COH_MODE.DOMAIN

theorem InDomain.execHome {s u : State} {b : Bytes} {m k : Nat} (h : InDomain s b m k) {i : Instr} {g : State → Bytes → Nat → State}
    (run : exec i s = running s (fun s => s.homePacket k g)) (e : g (s.handed k b) b m = u) : exec i s = .next (s.settle u) :=
  run.trans (homePacket_exec h.live h.intact h.handed ((cohPacket_member h.whole h.enabled h.sender h.domain).trans e))

theorem InDomain.execAgent {s u : State} {b : Bytes} {m k : Nat} (h : InDomain s b m k) {i : Instr} {g : State → Bytes → State}
    (run : exec i s = running s (fun s => s.agentPacket k g)) (e : g (s.handed k b) b = u) : exec i s = .next (s.settle u) :=
  run.trans (agentPacket_exec h.live h.intact h.handed ((cohPacket_member h.whole h.enabled h.sender h.domain).trans e))

/-- Settles O36: requests, writebacks and evictions by the line's directory entry, and acknowledgements by the transaction that they name. -/
theorem homeDecides : Obligations.HomeDecides := by
  unfold Obligations.HomeDecides
  intro s b m hl hi hb line home ack reqs
  have member : ∀ k, home k → InDomain s b m k := fun k ⟨hh, he, hm, hd⟩ => ⟨hl, hi, hb, hh, he, hm, hd⟩
  refine ⟨?_, ?_, ?_, ?_, ?_, ?_⟩
  · intro r hr hh t
    have run : exec r.2.2 s = running s (fun s => s.homePacket r.1 (fun s b m => s.onCohReq r.2.1 b m)) := by
      simp only [reqs, List.mem_cons, List.not_mem_nil, or_false] at hr
      rcases hr with rfl | rfl | rfl | rfl <;> rfl
    refine ⟨fun ho => ?_, fun ho hk ha => ?_, fun ho hk ht hw => ⟨fun hr hn => ?_, fun h u hf => ⟨fun hr hn => ?_, fun hr hs hc hv => ?_⟩⟩⟩
    · exact (member _ hh).execHome run (onCohReq_foreign ho)
    · exact (member _ hh).execHome run (onCohReq_noAtomics ho hk ha)
    · exact (member _ hh).execHome run ((onCohReq_race ho hk ht hw hr).trans (if_pos hn))
    · refine (member _ hh).execHome run ((onCohReq_race ho hk ht hw hr).trans ((if_neg (by omega)).trans ?_))
      simp only [hf, Option.map_some, Option.getD_some, line]
    · exact (member _ hh).execHome run (onCohReq_credit ho hk ht hw hf hr hs hc hv)
  · intro hh t
    have run : exec .wb s = running s (fun s => s.homePacket 0x64 (fun s b m => s.onWb b m)) := rfl
    exact ⟨fun ho => (member _ hh).execHome run (onWb_other ho), fun ht ho => (member _ hh).execHome run (onWb_owner ht ho)⟩
  · intro hh t u
    have run : exec .evict s = running s (fun s => s.homePacket 0x65 (fun s b m => s.onEvict b m)) := rfl
    exact ⟨fun ht hs => (member _ hh).execHome run (onEvict_stranger ht hs), fun x ht hx => (member _ hh).execHome run (onEvict_busy ht hx),
      fun j hj ht hs => (member _ hh).execHome run (onEvict_sharer hj ht hs)⟩
  · intro hh t
    have run : exec .invAck s = running s (fun s => s.homePacket 0x73 (fun s b m => s.onInvAck b m)) := rfl
    exact ⟨fun hx => (member _ hh).execHome run (onInvAck_stale hx), fun x hx hm => (member _ hh).execHome run (onInvAck_counts hx hm)⟩
  · intro hh t
    have run : exec .fwdAck s = running s (fun s => s.homePacket 0x74 (fun s b m => s.onFwdAck b m)) := rfl
    refine ⟨fun hx => (member _ hh).execHome run (onFwdAck_stale hx), fun x hx hf ho hn => (member _ hh).execHome run (onFwdAck_nodata hx hf ho hn),
      fun x hx hf ho hn => ⟨fun hp => ?_, fun hp => ?_⟩⟩
    · exact (member _ hh).execHome run ((onFwdAck_answer hx hf ho hn).trans (if_neg (by rw [hp]; decide)))
    · exact (member _ hh).execHome run ((onFwdAck_answer hx hf ho hn).trans (if_pos hp))
  · intro hh t
    have run : exec .comp s = running s (fun s => s.homePacket 0x75 (fun s b m => s.onComp b m)) := rfl
    exact ⟨fun hx => (member _ hh).execHome run (onComp_stale hx), fun x hx hc hm => (member _ hh).execHome run (onComp_counts hx hc hm)⟩

end Sys2Proof.Machine
end

section
/-! The agent of a line: forwards, invalidations, fills and retries (R322, R326, R329, R332, R339, Table 10.7). -/

namespace Sys2Proof.Machine

section
variable {s : State} {b : Bytes}

/-- A forward as its packet says it. -/
def forwardOf (kind : Nat) (b : Bytes) : CFwd := ⟨kind, cpMid b, cpTxid b, cpHtx b, cpFlag b cfHomereq⟩

/-! ### Forwards and invalidations -/

theorem lst_none (h : s.cline (cpLine b) = none) : s.lst (cpLine b) = none := by
  unfold State.lst
  rw [h]
  rfl

theorem onForward_absent {kind : Nat} (hk : kind ≠ 2) (h : s.cline (cpLine b) = none) :
    s.onForward kind b = s.fwdAck (cpLine b) (forwardOf kind b) cfNodata [] := by
  simp only [State.onForward, lst_none h, hk, if_false]
  rfl

theorem onForward_absent_inv (h : s.cline (cpLine b) = none) : s.onForward 2 b = s.invAck (cpLine b) (forwardOf 2 b) := by
  simp only [State.onForward, lst_none h, if_true]
  rfl

/-- A forward that the line goes on with. -/
def State.recordForward (s : State) (kind : Nat) (b : Bytes) : State :=
  (s.modCline (cpLine b) (fun c => { c with fwd := some (forwardOf kind b), snooped := false })).agentKick

theorem onForward_m {kind : Nat} (h : s.lst (cpLine b) = some .m) : s.onForward kind b = s.recordForward kind b := by
  simp only [State.onForward, h]
  rfl

theorem onForward_s_inv (h : s.lst (cpLine b) = some .s) : s.onForward 2 b = s.recordForward 2 b := by
  simp only [State.onForward, h, if_true]
  rfl

/-! ### Answers that name no open transaction -/

section
variable (h : s.atxFor b = none)
include h

theorem onDataS_stale : s.onDataS b = s.inc F.COH_COUNT.STALE := by
  simp only [State.onDataS, h]
  rfl

theorem onDataX_stale : s.onDataX b = s.inc F.COH_COUNT.STALE := by
  simp only [State.onDataX, h]
  rfl

theorem onGrantX_stale : s.onGrantX b = s.inc F.COH_COUNT.STALE := by
  simp only [State.onGrantX, h]
  rfl

theorem onWbAck_stale : s.onWbAck b = s.inc F.COH_COUNT.STALE := by
  simp only [State.onWbAck, h]
  rfl

theorem onRetry_stale : s.onRetry b = s.inc F.COH_COUNT.STALE := by
  simp only [State.onRetry, h]
  rfl

theorem onCrdGrant_stale : s.onCrdGrant b = s.inc F.COH_COUNT.STALE := by
  simp only [State.onCrdGrant, h]
  rfl

theorem onAtomResp_stale : s.onAtomResp b = s.inc F.COH_COUNT.STALE := by
  simp only [State.onAtomResp, h]
  rfl

end

/-! ### Answers of an open transaction -/

section
variable {i : Nat} {x : ATx} (h : s.atxFor b = some (i, x))
include h

theorem onDataS_fills (hs : s.lst (cpLine b) = some .isd) :
    s.onDataS b = (((s.fill (cpLine b) .s (some (pkPayload b, cpFlag b cfPoison))).serveWaiting (cpLine b)).sendComp b).agentKick := by
  simp only [State.onDataS, h, hs]

theorem onDataX_fills (hs : s.lst (cpLine b) = some .imd ∨ s.lst (cpLine b) = some .sma) :
    s.onDataX b = ((s.fill (cpLine b) .m (some (pkPayload b, cpFlag b cfPoison))).sendComp b).agentKick := by
  rcases hs with hs | hs <;> simp only [State.onDataX, h, hs]

theorem onGrantX_fills (hs : s.lst (cpLine b) = some .sma) : s.onGrantX b = ((s.fill (cpLine b) .m none).sendComp b).agentKick := by
  simp only [State.onGrantX, h, hs]

theorem onWbAck_ends (hs : s.lst (cpLine b) = some .mia) (hf : cpFlag b cfStaleF = false) : s.onWbAck b = (s.toI (cpLine b)).agentKick := by
  simp only [State.onWbAck, h, hs, hf, Bool.false_eq_true, if_false]

theorem onRetry_holds (hk : x.kind < 4) : s.onRetry b = s.restartTx i (fun t => { t with held := true }) := by
  simp only [State.onRetry, h, hk, if_true]

theorem onCrdGrant_sends (hk : x.kind < 4) :
    s.onCrdGrant b = (s.restartTx i (fun t => { t with held := false })).sendReq i x (s.resendKind x) cfCredited := by
  simp only [State.onCrdGrant, h, hk, if_true]

theorem onAtomResp_finishes {a : Atomic} (ha : x.atom.bind (fun a => s.rma.atoms.find? (fun x => x.q == a.1 && x.psn == a.2)) = some a)
    (hp : cpFlag b cfPoison = false) (hn : cpFlag b cfNodata = false) :
    s.onAtomResp b = ((s.freeTx (some i)).atomFinish a (leAt (pkPayload b) 0 a.size)).agentKick := by
  simp only [State.onAtomResp, h, ha, hp, hn, Bool.or_self, Bool.false_eq_true, if_false]

end
end

/-- Settles O37: forwards by the line's state, answers by the transaction that they name. -/
theorem agentFollowsTheTable : Obligations.AgentFollowsTheTable := by
  unfold Obligations.AgentFollowsTheTable
  intro s b m hl hi hb line f agent
  have member : ∀ k, agent k → InDomain s b m k := fun k ⟨hh, he, hm, hd⟩ => ⟨hl, hi, hb, hh, he, hm, hd⟩
  have runFwdS : exec .fwdS s = running s (fun s => s.agentPacket 0x68 (fun s b => s.onForward 0 b)) := rfl
  have runFwdX : exec .fwdX s = running s (fun s => s.agentPacket 0x69 (fun s b => s.onForward 1 b)) := rfl
  have runInv : exec .inv s = running s (fun s => s.agentPacket 0x6A (fun s b => s.onForward 2 b)) := rfl
  have runDataS : exec .dataS s = running s (fun s => s.agentPacket 0x70 State.onDataS) := rfl
  have runDataX : exec .dataX s = running s (fun s => s.agentPacket 0x71 State.onDataX) := rfl
  have runGrantX : exec .grantX s = running s (fun s => s.agentPacket 0x72 State.onGrantX) := rfl
  have runWbAck : exec .wbAck s = running s (fun s => s.agentPacket 0x76 State.onWbAck) := rfl
  have runRetry : exec .retry s = running s (fun s => s.agentPacket 0x77 State.onRetry) := rfl
  have runCrdGrant : exec .crdGrant s = running s (fun s => s.agentPacket 0x78 State.onCrdGrant) := rfl
  have runAtomResp : exec .atomResp s = running s (fun s => s.agentPacket 0x79 State.onAtomResp) := rfl
  refine ⟨fun hh hc => (member _ hh).execAgent runFwdS (onForward_absent (by decide) hc),
    fun hh hc => (member _ hh).execAgent runFwdX (onForward_absent (by decide) hc),
    fun hh hc => (member _ hh).execAgent runInv (onForward_absent_inv hc), ?_, ?_, ?_⟩
  · exact ⟨fun hh hs => (member _ hh).execAgent runFwdS (onForward_m hs), fun hh hs => (member _ hh).execAgent runFwdX (onForward_m hs),
      fun hh hs => (member _ hh).execAgent runInv (onForward_s_inv hs)⟩
  · intro r hr hh hx
    simp only [List.mem_cons, List.not_mem_nil, or_false] at hr
    rcases hr with rfl | rfl | rfl | rfl | rfl | rfl | rfl
    · exact (member _ hh).execAgent runDataS (onDataS_stale hx)
    · exact (member _ hh).execAgent runDataX (onDataX_stale hx)
    · exact (member _ hh).execAgent runGrantX (onGrantX_stale hx)
    · exact (member _ hh).execAgent runWbAck (onWbAck_stale hx)
    · exact (member _ hh).execAgent runRetry (onRetry_stale hx)
    · exact (member _ hh).execAgent runCrdGrant (onCrdGrant_stale hx)
    · exact (member _ hh).execAgent runAtomResp (onAtomResp_stale hx)
  · intro i x fill
    exact ⟨fun hh hx hs => (member _ hh).execAgent runDataS (onDataS_fills hx hs),
      fun hh hx hs => (member _ hh).execAgent runDataX (onDataX_fills hx hs),
      fun hh hx hs => (member _ hh).execAgent runGrantX (onGrantX_fills hx hs),
      fun hh hx hs hf => (member _ hh).execAgent runWbAck (onWbAck_ends hx hs hf),
      fun hh hx hk => (member _ hh).execAgent runRetry (onRetry_holds hx hk),
      fun hh hx hk => (member _ hh).execAgent runCrdGrant (onCrdGrant_sends hx hk),
      fun hh a hx ha hp hn => (member _ hh).execAgent runAtomResp (onAtomResp_finishes hx ha hp hn)⟩

end Sys2Proof.Machine
end

section
/-! Hosts of a domain: data returns, snoops, CXL.mem, back-invalidate answers and decoders (R314 to R318, R392, R393, Table 13.6). -/

namespace Sys2Proof.Machine

section
variable {s : State}

theorem phase_ne_rom (h : s.live = true) : s.phase ≠ phRom := by
  rw [((live_iff s).1 h).2.1]
  decide

/-- The host's data joins the transaction that reads it. -/
theorem hostData_joins {line : Nat} {data : Bytes} {poison : Bool} {x : HTx} (ht : (s.dirOf line).tx = some x) (hr : x.read = true)
    (hd : data.length = 64) :
    s.hostData line data poison = (s.modTx line (fun t => { t with read := false, data := some (data, poison) })).homeKick := by
  have htake : (data ++ List.replicate 64 0).take 64 = data := by simp [hd]
  simp only [State.hostData, ht, hr, if_true, htake]

/-! ### Snoops -/

section
variable (hl : s.live = true) {k addr : Nat} {inv : Bool}
include hl

theorem snoopReq_sleeps (h : s.gatedUnit uCOH = true ∨ bit s.pwr.l1 (2 * k) = true) : s.snoopReq k addr inv = s.sleepOn (.snoop k addr inv) := by
  have hc : (s.gatedUnit uCOH || bit s.pwr.l1 (2 * k)) = true := by simpa using h
  simp only [State.snoopReq, hl, hc, Bool.not_true, Bool.false_eq_true, if_false, if_true]

theorem snoopReq_awake (hi : s.intact = true) (hg : s.gatedUnit uCOH = false) (h1 : bit s.pwr.l1 (2 * k) = false) :
    s.snoopReq k addr inv = s.hostSnoop k addr inv := by
  simp only [State.snoopReq, hl, hg, h1, Bool.not_true, Bool.or_self, Bool.false_eq_true, if_false, State.dirRead, reads_of_intact _ hi]

end

theorem hostSnoop_outside {k addr : Nat} {inv : Bool} (h : s.en uCOH = false ∨ addr < s.rd F.COH_EXPORT.BASE k * 2 ^ 28 ∨
    s.rd F.COH_EXPORT.SIZE k * 2 ^ 28 ≤ (addr - s.rd F.COH_EXPORT.BASE k * 2 ^ 28) / 64 * 64 ∨ s.on F.COH_EXPORT.VALID k = false) :
    s.hostSnoop k addr inv = s.emit (.snpRsp k addr 0 []) := by
  have hc : (!s.en uCOH) = true ∨ addr < s.rd F.COH_EXPORT.BASE k * 2 ^ 28 ∨
      s.rd F.COH_EXPORT.SIZE k * 2 ^ 28 ≤ (addr - s.rd F.COH_EXPORT.BASE k * 2 ^ 28) / 64 * 64 ∨ (!s.on F.COH_EXPORT.VALID k) = true := by
    simpa using h
  exact if_pos hc

/-- The line of an address that the host exports (R313). -/
def State.snoopLine (s : State) (k addr : Nat) : Nat :=
  (s.ownMid * 2 ^ 40 + k * 2 ^ 39 + (addr - s.rd F.COH_EXPORT.BASE k * 2 ^ 28) / 64 * 64) / 64

section
variable {k addr : Nat} {inv : Bool} (he : s.en uCOH = true) (hb : s.rd F.COH_EXPORT.BASE k * 2 ^ 28 ≤ addr)
  (ho : (addr - s.rd F.COH_EXPORT.BASE k * 2 ^ 28) / 64 * 64 < s.rd F.COH_EXPORT.SIZE k * 2 ^ 28) (hv : s.on F.COH_EXPORT.VALID k = true)
include he hb ho hv

/-- A snoop of an exported line is answered from its directory entry. -/
theorem hostSnoop_inside : s.hostSnoop k addr inv =
    if (s.dirOf (s.snoopLine k addr)).tx.any (fun t => t.st == 0 && t.read) then s.snoopAnswer (s.snoopLine k addr) 1 []
    else if (s.dirOf (s.snoopLine k addr)).tx.isNone ∧ (s.dirOf (s.snoopLine k addr)).sharers.isEmpty ∧
      (s.dirOf (s.snoopLine k addr)).owner.isNone then s.snoopAnswer (s.snoopLine k addr) 0 []
    else (s.modDir (s.snoopLine k addr) (fun d => { d with snoops := d.snoops ++ [if inv then 4 else 5] })).homeKick := by
  have hc : ¬ ((!s.en uCOH) = true ∨ addr < s.rd F.COH_EXPORT.BASE k * 2 ^ 28 ∨
      s.rd F.COH_EXPORT.SIZE k * 2 ^ 28 ≤ (addr - s.rd F.COH_EXPORT.BASE k * 2 ^ 28) / 64 * 64 ∨ (!s.on F.COH_EXPORT.VALID k) = true) := by
    simp only [he, hv, Bool.not_true, Bool.false_eq_true, false_or, or_false]
    omega
  exact if_neg hc

theorem hostSnoop_reading {x : HTx} (ht : (s.dirOf (s.snoopLine k addr)).tx = some x) (hs : x.st = 0) (hr : x.read = true) :
    s.hostSnoop k addr inv = s.snoopAnswer (s.snoopLine k addr) 1 [] := by
  have ha : (some x).any (fun t => t.st == 0 && t.read) = true := by simp [hs, hr]
  rw [hostSnoop_inside he hb ho hv, ht, if_pos ha]

theorem hostSnoop_unheld (ht : (s.dirOf (s.snoopLine k addr)).tx = none) (hs : (s.dirOf (s.snoopLine k addr)).sharers = [])
    (hw : (s.dirOf (s.snoopLine k addr)).owner = none) : s.hostSnoop k addr inv = s.snoopAnswer (s.snoopLine k addr) 0 [] := by
  rw [hostSnoop_inside he hb ho hv, ht, hs, hw, if_neg (by simp), if_pos (by simp)]

theorem hostSnoop_owned {j : Nat} (ht : (s.dirOf (s.snoopLine k addr)).tx = none) (hw : (s.dirOf (s.snoopLine k addr)).owner = some j) :
    s.hostSnoop k addr inv = (s.modDir (s.snoopLine k addr) (fun d => { d with snoops := d.snoops ++ [if inv then 4 else 5] })).homeKick := by
  rw [hostSnoop_inside he hb ho hv, ht, hw, if_neg (by simp), if_neg (by simp)]

end

/-! ### CXL.mem -/

section
variable {port tag hpa kind mv mask : Nat} {data : Bytes}

theorem memReq_sleeps (hl : s.live = true) (h : s.gatedEngines = true ∨ bit s.pwr.l1 (2 * port) = true) :
    s.memReq port tag hpa kind mv data mask = s.sleepOn (.mem port tag hpa kind mv data mask) := by
  have hc : (s.gatedEngines || bit s.pwr.l1 (2 * port)) = true := by simpa using h
  simp only [State.memReq, spill_of_live hl, phase_ne_rom hl, hl, hc, Bool.not_true, Bool.false_eq_true, if_false, if_true]

theorem memReq_awake (hl : s.live = true) (hg : s.gatedEngines = false) (h1 : bit s.pwr.l1 (2 * port) = false) :
    s.memReq port tag hpa kind mv data mask = s.hostReq port tag hpa kind mv data mask := by
  simp only [State.memReq, spill_of_live hl, phase_ne_rom hl, hl, hg, h1, Bool.not_true, Bool.or_self, Bool.false_eq_true, if_false]

/-- COH_PROTO of an access outside the windows, once a Beat. -/
def State.windowMissed (s : State) : State :=
  if s.coh.protoLogged then s else (s.modCoh (fun c => { c with protoLogged := true })).raise .COH_PROTO

theorem hostReq_outside (he : s.en uCOH = true) (hw : s.windowLine port hpa = none) :
    s.hostReq port tag hpa kind mv data mask = s.windowMissed.memPoison ⟨0, port, tag, hpa, kind, mv, data, mask⟩ := by
  simp only [State.hostReq, he, hw, Option.filter_none, Bool.not_true, Bool.false_eq_true, if_false]
  rfl

theorem hostReq_inside {l : Nat} (he : s.en uCOH = true) (hw : s.windowLine port hpa = some l) (ho : s.windowOk l = true) :
    s.hostReq port tag hpa kind mv data mask =
      (s.modCoh (fun c => { c with wait := c.wait ++ [⟨l, port, tag, hpa / 64 * 64, kind, mv, data, mask⟩] })).agentKick := by
  have hf : (some l).filter (fun l => s.windowOk l) = some l := by simp [ho]
  simp only [State.hostReq, he, hw, hf, Bool.not_true, Bool.false_eq_true, if_false]

end

/-- BIRSP records the copy that the host keeps. -/
theorem biRsp_records {port hpa : Nat} {shared : Bool} {e : Nat × CLine}
    (h : s.coh.lines.find? (fun e => e.2.snp && e.2.port == port && e.2.hpa == hpa / 64 * 64) = some e) :
    s.biRsp port hpa shared = (s.modCline e.1 (fun c => { c with
      snp := false, snooped := c.fwd.isSome, host := if shared then 1 else 0 })).agentKick := by
  simp only [State.biRsp, h]

/-! ### The commands -/

section
variable {t : State} (hl : s.live = true) (port : Fin 2)
include hl

theorem hostSnoop_exec {addr : Nat} {inv : Bool} (e : s.snoopReq port.val addr inv = t) : exec (.hostSnoop port addr inv) s = .next (s.settle t) := by
  have run : exec (.hostSnoop port addr inv) s = powered s (fun s => s.snoopReq port.val addr inv) := rfl
  exact run.trans (powered_eq (pwrok_of_live hl) e)

section
variable {tag hpa : Nat} {mv : Fin 3} {data : Bytes}

theorem memrd_exec (e : s.memReq port.val tag hpa 0 mv.val [] 0 = t) : exec (.memrd port tag hpa mv) s = .next (s.settle t) := by
  have run : exec (.memrd port tag hpa mv) s = powered s (fun s => s.memReq port.val tag hpa 0 mv.val [] 0) := rfl
  exact run.trans (powered_eq (pwrok_of_live hl) e)

theorem memwr_exec (e : s.memReq port.val tag hpa 1 mv.val data 0 = t) : exec (.memwr port tag hpa mv data) s = .next (s.settle t) := by
  have run : exec (.memwr port tag hpa mv data) s = powered s (fun s => s.memReq port.val tag hpa 1 mv.val data 0) := rfl
  exact run.trans (powered_eq (pwrok_of_live hl) e)

theorem memwrptl_exec {mask : Nat} (e : s.memReq port.val tag hpa 2 mv.val data mask = t) :
    exec (.memwrptl port tag hpa mv data mask) s = .next (s.settle t) := by
  have run : exec (.memwrptl port tag hpa mv data mask) s = powered s (fun s => s.memReq port.val tag hpa 2 mv.val data mask) := rfl
  exact run.trans (powered_eq (pwrok_of_live hl) e)

end

theorem hdmDecoderCommit_exec {d base size ways : Nat} (e : s.hdmCommit port.val d base size ways = t) :
    exec (.hdmDecoderCommit port d base size ways) s = .next (s.settle t) := by
  have run : exec (.hdmDecoderCommit port d base size ways) s =
      powered s (fun s => if s.phase = phRom || s.spill then s else s.hdmCommit port.val d base size ways) := rfl
  have hc : ¬ (decide (s.phase = phRom) || s.spill) = true := by
    rw [decide_eq_false (phase_ne_rom hl), spill_of_live hl]
    decide
  exact run.trans (powered_eq (pwrok_of_live hl) ((if_neg hc).trans e))

end
end

/-- Settles O38: each access waits for its wake, or is answered from its line, its window or its decoder. -/
theorem hostsOfADomain : Obligations.HostsOfADomain := by
  unfold Obligations.HostsOfADomain
  intro s port hl
  refine ⟨fun line data poison x ht hr hd => ?_, fun addr inv h => ?_, fun tag hpa mask mv data h => ?_, ?_, ?_, fun hpa shared e h => ?_,
    fun d base size ways => ⟨fun hw => ?_, fun hw => ?_⟩⟩
  · have run : exec (.hostDataReturn line data poison) s = running s (fun s => s.hostData line data poison) := rfl
    exact run.trans (running_eq hl (hostData_joins ht hr hd))
  · exact hostSnoop_exec hl port (snoopReq_sleeps hl h)
  · exact ⟨memrd_exec hl port (memReq_sleeps hl h), memwr_exec hl port (memReq_sleeps hl h), memwrptl_exec hl port (memReq_sleeps hl h)⟩
  · intro addr inv hi hg h1 base off line
    have awake : ∀ {t : State}, s.hostSnoop port.val addr inv = t → exec (.hostSnoop port addr inv) s = .next (s.settle t) :=
      fun e => hostSnoop_exec hl port ((snoopReq_awake hl hi hg h1).trans e)
    refine ⟨fun h => awake (hostSnoop_outside h), fun he hb ho hv => ⟨fun x ht hs hr => ?_, fun ht hs hw => ?_, fun j ht hw => ?_⟩⟩
    · exact awake (hostSnoop_reading he hb ho hv ht hs hr)
    · exact awake (hostSnoop_unheld he hb ho hv ht hs hw)
    · exact awake (hostSnoop_owned he hb ho hv ht hw)
  · intro tag hpa mask mv data hg h1 he
    have awake : ∀ (kind : Nat) (d : Bytes) (m : Nat), s.memReq port.val tag hpa kind mv.val d m = s.hostReq port.val tag hpa kind mv.val d m :=
      fun kind d m => memReq_awake hl hg h1
    refine ⟨fun hw => ?_, fun l hw ho => ?_⟩
    · exact ⟨memrd_exec hl port ((awake _ _ _).trans (hostReq_outside he hw)), memwr_exec hl port ((awake _ _ _).trans (hostReq_outside he hw)),
        memwrptl_exec hl port ((awake _ _ _).trans (hostReq_outside he hw))⟩
    · exact ⟨memrd_exec hl port ((awake _ _ _).trans (hostReq_inside he hw ho)), memwr_exec hl port ((awake _ _ _).trans (hostReq_inside he hw ho)),
        memwrptl_exec hl port ((awake _ _ _).trans (hostReq_inside he hw ho))⟩
  · have run : exec (.birsp port hpa shared) s = running s (fun s => s.biRsp port.val hpa shared) := rfl
    exact run.trans (running_eq hl (biRsp_records h))
  · exact hdmDecoderCommit_exec hl port (if_pos hw)
  · exact hdmDecoderCommit_exec hl port (if_neg hw)

end Sys2Proof.Machine
end

section
/-! Timers and commands of a domain (R329, R333 to R337, R340, Table 10.13). -/

namespace Sys2Proof.Machine

section
variable {s : State}

/-! ### Timers -/

section
variable {line : Nat} {x : HTx} (ht : (s.dirOf line).tx = some x)
include ht

theorem txExpire_early (h : s.beat - x.opened < s.rd F.COH_FWD_TIMEOUT.FWD_BEATS) : s.txExpire line = s := by
  simp only [State.txExpire, ht, h, or_true, if_true]

theorem txExpire_due (h : s.rd F.COH_FWD_TIMEOUT.FWD_BEATS ≤ s.beat - x.opened) (hd : x.doomed = false) : s.txExpire line = s.txEnd line x := by
  simp only [State.txExpire, ht, Nat.not_lt.2 h, hd, Bool.false_eq_true, or_self, if_false]

end

section
variable {c : Credit} (hc : s.coh.credits.head? = some c)
include hc

theorem credit_first : s.coh.credits[0]? = some c := by rw [← List.head?_eq_getElem?, hc]

theorem creditExpire_early (h : s.beat - c.beat < s.rd F.COH_FWD_TIMEOUT.FWD_BEATS) : s.creditExpire 0 = s := by
  simp only [State.creditExpire, credit_first hc, h, if_true]

theorem creditExpire_due (h : s.rd F.COH_FWD_TIMEOUT.FWD_BEATS ≤ s.beat - c.beat) :
    s.creditExpire 0 = ((s.modCoh (fun k => { k with credits := k.credits.drop 1 })).inc F.COH_COUNT.STALE).homeKick := by
  simp only [State.creditExpire, credit_first hc, Nat.not_lt.2 h, if_false, List.eraseIdx_zero, List.drop_one]
  rfl

end

section
variable {i : Nat} {x : ATx} (hx : tabGet s.coh.txs i = some x)
include hx

theorem reqExpire_early (h : s.beat - x.timer < s.rd F.COH_FWD_TIMEOUT.REQ_BEATS) : s.reqExpire i = s := by
  simp only [State.reqExpire, hx, h, if_true]

/-- A request that may be sent once more is sent RESENT. -/
theorem reqExpire_resends (h : s.rd F.COH_FWD_TIMEOUT.REQ_BEATS ≤ s.beat - x.timer) (hl : s.cline x.line = none)
    (hm : x.resends + 1 ≤ s.rd F.COH_FWD_TIMEOUT.REQ_RETRY_MAX) :
    s.reqExpire i = (s.restartTx i (fun t => { t with resends := t.resends + 1 })).sendReq i x (s.resendKind x) cfResent := by
  simp only [State.reqExpire, hx, Nat.not_lt.2 h, if_false, hl, Option.any_none, Bool.false_eq_true, Nat.not_lt.2 hm, and_false]

end

/-! ### The ends of walks and flushes -/

theorem walkEnd_counts {m n who : Nat} (h : s.coh.walk = some (m, n, who)) :
    s.walkEnd =
      let t := (((s.modCoh (fun c => { c with walk := none })).wr F.COH_STATUS.RECLAIMING 0).wr F.COH_RESULT.LINES n).cohResult 1 0 m false
      let u := t.inc F.COH_COUNT.DEAD_LOST 0 n
      if n = 0 then u else u.raiseOcc { occ .COH_DEAD_LOSS m with info := n, init := who } := by
  simp only [State.walkEnd, h]

theorem flushEnd_ends {n : Nat} (h : s.coh.flush = some n) (hl : s.coh.lines = []) :
    s.flushEnd =
      ((s.wr F.COH_RESULT.LINES n).cohResult 2 0 (s.rd F.COH_RESULT.MEMBER) false).modCoh (fun c => { c with flush := none }) := by
  simp only [State.flushEnd, h, hl, List.any_nil, Bool.false_eq_true, if_false]

/-! ### A domain with nothing in hand -/

theorem modCoh_same {f : Coh → Coh} (h : f s.coh = s.coh) : s.modCoh f = s := by
  unfold State.modCoh
  rw [h]

theorem homeGrants_none (h : s.coh.retry = []) (n : Nat) : s.homeGrants n = s := by
  have hs : s.modCoh (fun c => { c with retry := [] }) = s := modCoh_same (by rw [← h])
  have hnil : ∀ n, (s.modCoh (fun c => { c with retry := [] })).homeGrants n = s.modCoh (fun c => { c with retry := [] }) := fun n => by
    cases n with
    | zero => rfl
    | succ n => rfl
  rw [hs] at hnil
  exact hnil n

theorem homeKick_idle (hd : s.coh.dir = []) (hr : s.coh.retry = []) : s.homeKick = s := by
  simp only [State.homeKick, hd, List.filter_nil, List.map_nil, foldS, List.foldl_nil]
  exact homeGrants_none hr 4096

theorem homeDead_idle (m : Nat) (hd : s.coh.dir = []) (hr : s.coh.retry = []) : s.homeDead m = s := by
  have hsame : s.modCoh (fun c => { c with
      retry := c.retry.filter (fun e => e.1 != m),
      dir := c.dir.map (fun e => (e.1, { e.2 with waiting := e.2.waiting.filter (fun r => r.mid != m) })) }) = s := by
    apply modCoh_same
    simp only [hr, hd, List.filter_nil, List.map_nil]
    rw [← hr, ← hd]
  simp only [State.homeDead, hsame, hd, List.map_nil, foldS, List.foldl_nil]
  exact homeKick_idle hd hr

theorem agentRound_idle (hl : s.coh.lines = []) (hw : s.coh.wait = []) (ha : s.rma.atoms = []) : s.agentRound = s := by
  have hsame : s.modCoh (fun c => { c with wait := [] }) = s := modCoh_same (by simp only [← hw])
  have hlines : foldS (s.coh.lines.map (·.1)) s (fun s l => s.agentLine l) = s := by
    rw [hl]
    rfl
  have hhosts : s.tryHosts = s := by
    simp only [State.tryHosts, hw, hsame]
    rfl
  have hatoms : s.tryAtomics = s := by
    simp only [State.tryAtomics, ha]
    rfl
  rw [State.agentRound, hlines, hhosts, hatoms]

theorem agentKick_idle (hl : s.coh.lines = []) (hw : s.coh.wait = []) (ha : s.rma.atoms = []) : s.agentKick = s := by
  simp only [State.agentKick, agentRound_idle hl hw ha]

/-! ### DECLARE_DEAD, FLUSH and REVIVE -/

section
variable {who m : Nat}

theorem declareDead_disabled (he : s.en uCOH = false) : s.declareDead who m = s.cohResult 1 5 m false := by
  simp only [State.declareDead, he, Bool.not_false, if_true]

theorem cohFlush_disabled (he : s.en uCOH = false) : s.cohFlush m = s.cohResult 2 5 m false := by
  simp only [State.cohFlush, he, Bool.not_false, if_true]

theorem cohRevive_disabled (he : s.en uCOH = false) : s.cohRevive m = s.cohResult 3 5 m false := by
  simp only [State.cohRevive, he, Bool.not_false, if_true]

section
variable (he : s.en uCOH = true)
include he

theorem declareDead_invalid (hv : s.on F.COH_MEMBER.VALID m = false) : s.declareDead who m = s.cohResult 1 1 m false := by
  simp only [State.declareDead, he, hv, Bool.not_true, Bool.false_eq_true, if_false, Bool.not_false, if_true]

theorem cohRevive_invalid (hv : s.on F.COH_MEMBER.VALID m = false) : s.cohRevive m = s.cohResult 3 1 m false := by
  simp only [State.cohRevive, he, hv, Bool.not_true, Bool.false_eq_true, if_false, Bool.not_false, if_true]

theorem cohFlush_idle (hl : s.coh.lines = []) (hw : s.coh.wait = []) (ha : s.rma.atoms = []) :
    s.cohFlush m = (s.cohResult 2 0 m true).modCoh (fun c => { c with flush := some 0 }) := by
  have hsame : (s.cohResult 2 0 m true).modCoh (fun c => { c with flush := some 0, lines := c.lines.map (fun e => (e.1, { e.2 with vict := true })) }) =
      (s.cohResult 2 0 m true).modCoh (fun c => { c with flush := some 0 }) := by
    have hl' : (s.cohResult 2 0 m true).coh.lines = [] := hl
    simp only [State.modCoh, hl', List.map_nil]
  simp only [State.cohFlush, he, Bool.not_true, Bool.false_eq_true, if_false, hsame]
  exact agentKick_idle hl hw ha

section
variable (hv : s.on F.COH_MEMBER.VALID m = true)
include hv

theorem declareDead_refused (h : m = s.ownMid ∨ s.memberDead m = true) : s.declareDead who m = s.cohResult 1 2 m false := by
  simp only [State.declareDead, he, hv, Bool.not_true, Bool.false_eq_true, if_false, h, if_true]

theorem cohRevive_refused (h : s.memberDead m = false ∨ s.coh.walk ≠ none) : s.cohRevive m = s.cohResult 3 2 m false := by
  have hc : (!s.memberDead m) = true ∨ s.coh.walk.isSome = true := by
    simpa [Option.isSome_iff_ne_none] using h
  simp only [State.cohRevive, he, hv, Bool.not_true, Bool.false_eq_true, if_false, hc, if_true]

theorem cohRevive_done (hd : s.memberDead m = true) (hw : s.coh.walk = none) :
    s.cohRevive m = (s.wr F.COH_MEMBER.DEAD 0 m).cohResult 3 0 m false := by
  simp only [State.cohRevive, he, hv, hd, hw, Bool.not_true, Option.isSome_none, Bool.false_eq_true, or_self, if_false]

/-- With nothing in hand the command leaves the walk alone to end. -/
theorem declareDead_idle (hd : s.memberDead m = false) (ho : m ≠ s.ownMid) (hl : s.coh.lines = []) (hw : s.coh.wait = [])
    (ha : s.rma.atoms = []) (hdir : s.coh.dir = []) (hr : s.coh.retry = []) :
    s.declareDead who m = ((((s.wr F.COH_MEMBER.DEAD 1 m).wr F.COH_STATUS.RECLAIMING 1).cohResult 1 0 m true).modCoh (fun c => { c with
      walk := some (m, 0, who) })) := by
  have hn : ¬ (m = s.ownMid ∨ s.memberDead m = true) := by simp [ho, hd]
  have hidle : ∀ t : State, t.coh.lines = [] → t.coh.wait = [] → t.rma.atoms = [] → t.coh.dir = [] → t.coh.retry = [] →
      (foldS (((t.homeDead m).coh.lines.filter (fun e => lineMid e.1 == m)).map (·.1))
        (foldS ((t.homeDead m).coh.wait.filter (fun r => lineMid r.line == m)) (t.homeDead m) (fun s r => s.poisonWaiting r.line))
        (fun s l => s.modCline l (fun c => { c with dead := true, fwd := none }))).agentKick = t := by
    intro t tl tw ta tdir tr
    rw [homeDead_idle m tdir tr, tl, tw]
    exact agentKick_idle tl tw ta
  simp only [State.declareDead, he, hv, Bool.not_true, Bool.false_eq_true, if_false, hn]
  exact hidle _ hl hw ha hdir hr

end
end
end

/-! ### The command register -/

section
variable {t : State} {who : Who} {m : Nat} (h : s.serves who .COH_CMD 0 = true) (hb : s.on F.COH_RESULT.BUSY = false)
include h hb

/-- A command of COH_CMD that no other runs before ends with what it leaves. -/
theorem cohCommand {w cmd : Nat} (hc : w % 16 = cmd) (h1 : cmd ≠ 0) (h3 : cmd ≤ 3) (e : s.cohCmd who cmd (bits w 8 6) = t) (ha : t.acts = s.acts) :
    powered s (fun s => s.regCmd who .COH_CMD 0 w) = .next (s.settle t) := by
  apply regCmd_exec h
  have hu : (s.unusedOut .COH_CMD 0 || s.ringOut who .COH_CMD 0) = false := rfl
  have htop : decide (3 < cmd) = false := decide_eq_false (by omega)
  unfold State.writeReg
  simp only [hu, Bool.false_eq_true, if_false, State.command, hc, h1, hb, htop, Bool.or_self, e]
  exact rejectOnce_of_acts ha

variable (hm : m < 64)
include hm

theorem declareDead_exec (e : s.declareDead (whoOwner who) m = t) (ha : t.acts = s.acts) : exec (.declareDead who m) s = .next (s.settle t) := by
  have run : exec (.declareDead who m) s = powered s (fun s => s.regCmd who .COH_CMD 0 (m % 64 * 256 + 1)) := rfl
  have hbits : bits (m % 64 * 256 + 1) 8 6 = m := by
    simp only [bits]
    omega
  refine run.trans (cohCommand h hb (cmd := 1) (by omega) (by decide) (by decide) ?_ ha)
  rw [hbits]
  exact e

theorem revive_exec (e : s.cohRevive m = t) (ha : t.acts = s.acts) : exec (.revive who m) s = .next (s.settle t) := by
  have run : exec (.revive who m) s = powered s (fun s => s.regCmd who .COH_CMD 0 (m % 64 * 256 + 3)) := rfl
  have hbits : bits (m % 64 * 256 + 3) 8 6 = m := by
    simp only [bits]
    omega
  refine run.trans (cohCommand h hb (cmd := 3) (by omega) (by decide) (by decide) ?_ ha)
  rw [hbits]
  exact e

omit hm in
theorem flush_exec (e : s.cohFlush 0 = t) (ha : t.acts = s.acts) : exec (.flush who) s = .next (s.settle t) := by
  have run : exec (.flush who) s = powered s (fun s => s.regCmd who .COH_CMD 0 2) := rfl
  exact run.trans (cohCommand h hb (cmd := 2) rfl (by decide) (by decide) e ha)

end
end

/-- Settles O39: each timer by its time, each command by the unit, the member and what the domain has in hand. -/
theorem domainTimersAndCommands : Obligations.DomainTimersAndCommands := by
  unfold Obligations.DomainTimersAndCommands
  refine fun s => ⟨fun hl => ⟨fun line x ht => ?_, fun c hc => ?_, fun i x hx => ?_, fun m n who hw => ?_, fun n hf hlines => ?_⟩,
    fun who m h hb hm => ⟨fun he => ?_, fun he hv => ?_, fun he hv hd => ?_, fun he hv ho => ?_, fun he hv hd => ?_, ?_, ?_⟩⟩
  · have run : exec (.transactionTimerExpire line) s = running s (fun s => s.txExpire line) := rfl
    exact ⟨fun h => run.trans (running_eq hl (txExpire_early ht h)),
      fun h hd hs => run.trans (running_eq hl ((txExpire_due ht h hd).trans (if_pos hs))),
      fun h hd hs => run.trans (running_eq hl ((txExpire_due ht h hd).trans (if_neg hs)))⟩
  · have run : exec (.creditReserveExpire 0) s = running s (fun s => s.creditExpire 0) := rfl
    exact ⟨fun h => run.trans (running_eq hl (creditExpire_early hc h)), fun h => run.trans (running_eq hl (creditExpire_due hc h))⟩
  · have run : exec (.requestTimerExpire i) s = running s (fun s => s.reqExpire i) := rfl
    exact ⟨fun h => run.trans (running_eq hl (reqExpire_early hx h)), fun h hc hm => run.trans (running_eq hl (reqExpire_resends hx h hc hm))⟩
  · have run : exec .declareDeadWalkEnd s = running s State.walkEnd := rfl
    exact run.trans (running_eq hl (walkEnd_counts hw))
  · have run : exec .flushEnd s = running s State.flushEnd := rfl
    exact run.trans (running_eq hl (flushEnd_ends hf hlines))
  · exact ⟨declareDead_exec h hb hm (declareDead_disabled he) rfl, flush_exec h hb (cohFlush_disabled he) rfl,
      revive_exec h hb hm (cohRevive_disabled he) rfl⟩
  · exact ⟨declareDead_exec h hb hm (declareDead_invalid he hv) rfl, revive_exec h hb hm (cohRevive_invalid he hv) rfl⟩
  · exact ⟨declareDead_exec h hb hm (declareDead_refused he hv (.inr hd)) rfl,
      fun hw => revive_exec h hb hm (cohRevive_refused he hv (.inr hw)) rfl, fun hw => revive_exec h hb hm (cohRevive_done he hv hd hw) rfl⟩
  · exact declareDead_exec h hb hm (declareDead_refused he hv (.inl ho)) rfl
  · exact revive_exec h hb hm (cohRevive_refused he hv (.inl hd)) rfl
  · exact fun he hv hd ho hl hw ha hdir hr => declareDead_exec h hb hm (declareDead_idle he hv hd ho hl hw ha hdir hr) rfl
  · exact fun he hl hw ha => flush_exec h hb (cohFlush_idle he hl hw ha) rfl

end Sys2Proof.Machine
end

section
/-! Tree commands and their result codes (R195, R212, R213, Tables 6.6 and 6.19). -/

namespace Sys2Proof.Machine

/-! ### The state that a tree command reads -/

theorem tabGet_mod_same {v : Type} {t : Tab v} {i : Nat} {x : v} (f : v → v) (h : tabGet t i = some x) : tabGet (tabMod t i f) i = some (f x) := by
  unfold tabMod
  rw [h]
  exact tabGet_put_same t i (f x)

section
variable {s : State} {t : Nat} {x : Tree}

theorem tree_modTree (f : Tree → Tree) (h : s.tree t = some x) : (s.modTree t f).tree t = some (f x) := tabGet_mod_same f h

theorem confOn_wr (s : State) (d : Fld) (v i : Nat) (h : d.reg.code ≠ Reg.MCT_CTRL.code ∧ d.reg.code ≠ Reg.TRS_ENABLE.code) :
    (s.wr d v i).confOn = s.confOn := by
  have he : (s.wr d v i).en uMCT = s.en uMCT := congrArg (· == 1) (rd_wr_reg (e := F.MCT_CTRL.ENABLE) s i 0 v h.1.symm)
  have hi : (s.wr d v i).imageEnables uCONF = s.imageEnables uCONF :=
    congrArg (fun n => bit n uCONF) (rd_wr_reg (e := F.TRS_ENABLE.ENABLE) s i 0 v h.2.symm)
  simp only [State.confOn, he, hi]
  rfl

/-- With no open operation the next OP_SEQ is the base, and nothing is to be ended. -/
theorem base_of_idle (h : x.openOps = []) : x.base = x.nextSeq := by simp only [Tree.base, h]

theorem collEndAll_idle {st : Nat} (ht : s.tree t = some x) (h : x.openOps = []) : s.collEndAll t st = s := by
  simp only [State.collEndAll, ht, h]
  rfl

/-! ### What an abort leaves alone -/

theorem cfSend_eq (s : State) (x : Tree) (ep i kind hi q c ty n b28 b29 : Nat) (pl : Bytes) :
    ∃ f, s.cfSend x ep i kind hi q c ty n b28 b29 pl = s.modRte f := by
  rcases hp : x.peer i with ⟨node, idx, me⟩
  unfold State.cfSend
  rw [hp]
  exact ⟨_, rfl⟩

theorem cfAborts_keeps {α : Type} (g : State → α) (h1 : ∀ s f, g (State.modRte s f) = g s) (h2 : ∀ s f, g (State.modMct s f) = g s)
    (fr : Option Nat) (q st : Nat) : g (s.cfAborts t x fr q st) = g s := by
  unfold State.cfAborts
  split
  · rfl
  · exact (h2 _ _).trans (foldS_keeps g (fun s i => s.cfSend x (s.epochOf t) i 0x8B 0 q 0 0 0 st 0 []) (fun s i => by
      obtain ⟨f, hf⟩ := cfSend_eq s x (s.epochOf t) i 0x8B 0 q 0 0 0 st 0 []
      rw [hf]
      exact h1 s f) _ _)

theorem treeBreak_keeps {α : Type} (g : State → α) (hm : ∀ s f, g (State.modMct s f) = g s)
    (hw : ∀ s (d : Fld) v, d = F.MCT_TREE_STATUS.STATE ∨ d = F.MCT_TREE_STATUS.OP_SEQ → g (s.wr d v t) = g s) : g (s.treeBreak t) = g s := by
  have refresh : ∀ u : State, g (u.treeRefresh t) = g u := by
    intro u
    unfold State.treeRefresh
    split
    · rfl
    · dsimp only
      split
      · exact (hw _ _ _ (.inl rfl)).trans (hw _ _ _ (.inr rfl))
      · exact hw _ _ _ (.inr rfl)
  exact (hw _ _ _ (.inl rfl)).trans ((refresh _).trans (hm _ _))

/-- An abort of a tree with no open operation tells the neighbours and breaks the tree. -/
theorem treeAbort_idle {q st : Nat} (ht : s.tree t = some x) (hb : s.treeState t ≠ tsBroken) (h : x.openOps = []) :
    s.treeAbort t q st = ((s.cfAborts t x none q st).treeBreak t).raiseOcc { occ .MCT_CF_ABORT t with
      info := q + st * 2 ^ 16 + s.epochOf t * 2 ^ 32 } := by
  have he : ((s.cfAborts t x none q st).treeBreak t).epochOf t = s.epochOf t :=
    (treeBreak_keeps (fun s => s.epochOf t) (fun _ _ => rfl) (fun s d v hd => rd_wr_lo s t t v (by rcases hd with rfl | rfl <;> decide))).trans
      (cfAborts_keeps (fun s => s.epochOf t) (fun _ _ => rfl) (fun _ _ => rfl) none q st)
  simp only [State.treeAbort, ht, hb, if_false, collEndAll_idle ht h, he]

theorem treeAbort_acts_idle {q st : Nat} (ht : s.tree t = some x) (hb : s.treeState t ≠ tsBroken) (h : x.openOps = []) :
    ∃ a, (s.treeAbort t q st).acts = s.acts ++ [a] := by
  have ha : ((s.cfAborts t x none q st).treeBreak t).acts = s.acts :=
    (treeBreak_keeps State.acts (fun _ _ => rfl) (fun _ _ _ _ => rfl)).trans (cfAborts_keeps State.acts (fun _ _ => rfl) (fun _ _ => rfl) none q st)
  rw [treeAbort_idle ht hb h, ← ha]
  exact ⟨_, rfl⟩

/-! ### The end of a command -/

/-- A tree command ends with a code (Table 6.19). -/
def State.treeCode (s : State) (code t : Nat) : State :=
  (((s.modMct (fun m => { m with cmd := none })).wr F.MCT_TREE_RESULT.BUSY 0).wr F.MCT_TREE_RESULT.CODE code).wr F.MCT_TREE_RESULT.TREE t

theorem treeResult_quiet {code : Nat} (h : ¬ (code = 1 ∨ code = 2 ∨ code = 6)) : s.treeResult code t = s.treeCode code t := if_neg h

theorem treeResult_loud {code : Nat} (h : code = 1 ∨ code = 2 ∨ code = 6) :
    s.treeResult code t = (s.treeCode code t).raise .MCT_TREE_LOAD_FAIL t := if_pos h

/-! ### The read of a LOAD -/

section
variable {f : Fn} (hc : s.mct.cmd = some (f, t))
include hc

theorem treeDescDone_refused {a : Ans} (ha : a = .err ∨ a = .poison) : s.treeDescDone a = (s.treeCode 6 t).raise .MCT_TREE_LOAD_FAIL t := by
  have e : s.treeDescDone a = s.treeResult 6 t := by
    rcases ha with rfl | rfl <;> simp only [State.treeDescDone, hc]
  exact e.trans (treeResult_loud (by decide))

section
variable {d : Bytes} (hd : d.length = 192)
include hd

theorem treeDescDone_bad (h : treeDescBad d t = true) : s.treeDescDone (.ok d) = (s.treeCode 1 t).raise .MCT_TREE_LOAD_FAIL t := by
  have htake : (d ++ List.replicate 192 0).take 192 = d := by simp [hd]
  simp only [State.treeDescDone, hc, htake, h, if_true]
  exact treeResult_loud (by decide)

theorem treeDescDone_full {u : State} (h : treeDescBad d t = false) (hp : s.placeOn 1 ((leAt d 3 1 + 2) * leAt d 4 2 * 4096) = (none, u)) :
    s.treeDescDone (.ok d) = (u.treeCode 2 t).raise .MCT_TREE_LOAD_FAIL t := by
  have htake : (d ++ List.replicate 192 0).take 192 = d := by simp [hd]
  simp only [State.treeDescDone, hc, htake, h, Bool.false_eq_true, if_false, hp]
  exact treeResult_loud (by decide)

theorem treeDescDone_placed {u : State} {n : Nat} (h : treeDescBad d t = false)
    (hp : s.placeOn 1 ((leAt d 3 1 + 2) * leAt d 4 2 * 4096) = (some n, u)) :
    s.treeDescDone (.ok d) = (((u.modMct (fun m => { m with trees := tabPut m.trees t ⟨d, 0, [], [], [], [], 0, false, false, 0, []⟩ })).wr
      F.MCT_TREE_STATUS.ENGINE n t).treeReady t (leAt d 24 2)).treeCode 0 t := by
  have htake : (d ++ List.replicate 192 0).take 192 = d := by simp [hd]
  simp only [State.treeDescDone, hc, htake, h, Bool.false_eq_true, if_false, hp]
  exact treeResult_quiet (by decide)

end
end

/-! ### Commands -/

section
variable {f : Option Fn} {cmd e : Nat}

theorem treeCmd_disabled (h : (s.wr F.MCT_TREE_RESULT.TREE t).confOn = false) :
    s.treeCmd f cmd t e = (s.wr F.MCT_TREE_RESULT.TREE t).treeCode 5 t := by
  simp only [State.treeCmd, h, Bool.not_false, if_true]
  exact treeResult_quiet (by decide)

section
variable (h : (s.wr F.MCT_TREE_RESULT.TREE t).confOn = true)
include h

section
variable (ht : s.tree t = none)
include ht

theorem treeCmd_load {f : Fn} : s.treeCmd (some f) 1 t e =
    ((((s.wr F.MCT_TREE_RESULT.TREE t).modMct (fun m => { m with cmd := some (f, t) })).wr F.MCT_TREE_RESULT.BUSY 1).readHost f
      (s.rd F.MCT_TREE_ADDR.ADDR * 64) 192) := by
  have ht' : (s.wr F.MCT_TREE_RESULT.TREE t).tree t = none := ht
  have ha : ((((s.wr F.MCT_TREE_RESULT.TREE t).modMct (fun m => { m with cmd := some (f, t) })).wr F.MCT_TREE_RESULT.BUSY 1).rd
      F.MCT_TREE_ADDR.ADDR) = s.rd F.MCT_TREE_ADDR.ADDR :=
    (rd_wr_reg _ _ _ _ (by decide)).trans (rd_wr_reg s _ _ _ (by decide))
  simp only [State.treeCmd, h, ht', Bool.not_true, Bool.false_eq_true, if_false, ha]

theorem treeCmd_load_hostless : s.treeCmd none 1 t e = ((s.wr F.MCT_TREE_RESULT.TREE t).treeCode 6 t).raise .MCT_TREE_LOAD_FAIL t := by
  have ht' : (s.wr F.MCT_TREE_RESULT.TREE t).tree t = none := ht
  simp only [State.treeCmd, h, ht', Bool.not_true, Bool.false_eq_true, if_false]
  exact treeResult_loud (by decide)

theorem treeCmd_absent (hc : cmd = 2 ∨ cmd = 3 ∨ cmd = 4) : s.treeCmd f cmd t e = (s.wr F.MCT_TREE_RESULT.TREE t).treeCode 4 t := by
  have ht' : (s.wr F.MCT_TREE_RESULT.TREE t).tree t = none := ht
  have he : s.treeCmd f cmd t e = (s.wr F.MCT_TREE_RESULT.TREE t).treeResult 4 t := by
    rcases hc with rfl | rfl | rfl <;> simp only [State.treeCmd, h, ht', Bool.not_true, Bool.false_eq_true, if_false]
  exact he.trans (treeResult_quiet (by decide))

end

section
variable (ht : s.tree t = some x)
include ht

theorem treeCmd_load_there : s.treeCmd f 1 t e = (s.wr F.MCT_TREE_RESULT.TREE t).treeCode 3 t := by
  have ht' : (s.wr F.MCT_TREE_RESULT.TREE t).tree t = some x := ht
  simp only [State.treeCmd, h, ht', Bool.not_true, Bool.false_eq_true, if_false]
  exact treeResult_quiet (by decide)

variable (ho : x.openOps = [])
include ho

theorem treeCmd_reset : s.treeCmd f 2 t e = (((s.wr F.MCT_TREE_RESULT.TREE t).treeReads t).treeReady t e).treeCode 0 t := by
  have ht' : (s.wr F.MCT_TREE_RESULT.TREE t).tree t = some x := ht
  simp only [State.treeCmd, h, ht', Bool.not_true, Bool.false_eq_true, if_false, collEndAll_idle ht' ho]
  exact treeResult_quiet (by decide)

theorem treeCmd_unload : s.treeCmd f 3 t e = ((s.wr F.MCT_TREE_RESULT.TREE t).treeFree t).treeCode 0 t := by
  have ht' : (s.wr F.MCT_TREE_RESULT.TREE t).tree t = some x := ht
  simp only [State.treeCmd, h, ht', Bool.not_true, Bool.false_eq_true, if_false, collEndAll_idle ht' ho]
  exact treeResult_quiet (by decide)

theorem treeCmd_abort : s.treeCmd f 4 t e = ((s.wr F.MCT_TREE_RESULT.TREE t).treeAbort t x.nextSeq ccSw).treeCode 0 t := by
  have ht' : (s.wr F.MCT_TREE_RESULT.TREE t).tree t = some x := ht
  simp only [State.treeCmd, h, ht', Bool.not_true, Bool.false_eq_true, if_false, base_of_idle ho]
  exact treeResult_quiet (by decide)

end
end
end
end

/-! ### The command register -/

section
variable {s u : State} {who : Who} {t e : Nat} (h : s.serves who .MCT_TREE_CMD 0 = true)
include h

/-- A write of MCT_TREE_CMD is refused while a command runs, and goes to the tree otherwise. -/
theorem treeCommand {w cmd : Nat} (hc : w % 16 = cmd) (h1 : cmd ≠ 0) (h4 : cmd ≤ 4)
    (hu : (if s.on F.MCT_TREE_RESULT.BUSY then s.raise .CFG_REJECT else s.treeCmd (whoFn who) cmd (bits w 4 10) (bits w 16 16)) = u)
    (ha : u.acts = s.acts ∨ ∃ a, u.acts = s.acts ++ [a]) : powered s (fun s => s.regCmd who .MCT_TREE_CMD 0 w) = .next (s.settle u) := by
  apply regCmd_exec h
  have hun : (s.unusedOut .MCT_TREE_CMD 0 || s.ringOut who .MCT_TREE_CMD 0) = false := rfl
  have htop : decide (4 < cmd) = false := decide_eq_false (by omega)
  have hreject : s.rejectOnce u = u := by
    rcases ha with ha | ⟨a, ha⟩
    · exact rejectOnce_of_acts ha
    · exact rejectOnce_of_one ha
  unfold State.writeReg
  simp only [hun, Bool.false_eq_true, if_false, State.command, hc, h1, htop, Bool.or_false, hu]
  exact hreject

variable (ht : t < 1024)
include ht

/-- The four commands, each a write of the same register. -/
theorem treeCommand_exec (he : e < 65536) {cmd : Nat} {i : Instr} (hi : (cmd, i) ∈ [(1, Instr.treeLoad who t), (2, .treeReset who t e),
      (3, .treeUnload who t), (4, .treeAbort who t)])
    (hu : (if s.on F.MCT_TREE_RESULT.BUSY then s.raise .CFG_REJECT else s.treeCmd (whoFn who) cmd t (if cmd = 2 then e else 0)) = u)
    (ha : u.acts = s.acts ∨ ∃ a, u.acts = s.acts ++ [a]) : exec i s = .next (s.settle u) := by
  have runLoad : exec (.treeLoad who t) s = powered s (fun s => s.regCmd who .MCT_TREE_CMD 0 (t % 1024 * 16 + 1)) := rfl
  have runReset : exec (.treeReset who t e) s =
    powered s (fun s => s.regCmd who .MCT_TREE_CMD 0 (e % 65536 * 65536 + t % 1024 * 16 + 2)) := rfl
  have runUnload : exec (.treeUnload who t) s = powered s (fun s => s.regCmd who .MCT_TREE_CMD 0 (t % 1024 * 16 + 3)) := rfl
  have runAbort : exec (.treeAbort who t) s = powered s (fun s => s.regCmd who .MCT_TREE_CMD 0 (t % 1024 * 16 + 4)) := rfl
  have htree : ∀ y c, c < 16 → bits (y * 65536 + t % 1024 * 16 + c) 4 10 = t := fun y c hc => by
    simp only [bits]
    omega
  have htree0 : ∀ c, c < 16 → bits (t % 1024 * 16 + c) 4 10 = t := fun c hc => by
    simp only [bits]
    omega
  have hepoch0 : ∀ c, c < 16 → bits (t % 1024 * 16 + c) 16 16 = 0 := fun c hc => by
    simp only [bits]
    omega
  have hepoch : bits (e % 65536 * 65536 + t % 1024 * 16 + 2) 16 16 = e := by
    simp only [bits]
    omega
  simp only [List.mem_cons, Prod.mk.injEq, List.not_mem_nil, or_false] at hi
  rcases hi with ⟨rfl, rfl⟩ | ⟨rfl, rfl⟩ | ⟨rfl, rfl⟩ | ⟨rfl, rfl⟩
  · exact runLoad.trans (treeCommand h (cmd := 1) (by omega) (by decide) (by decide)
      (by rw [htree0 _ (by decide), hepoch0 _ (by decide)]; exact hu) ha)
  · exact runReset.trans (treeCommand h (cmd := 2) (by omega) (by decide) (by decide) (by rw [htree _ _ (by decide), hepoch]; exact hu) ha)
  · exact runUnload.trans (treeCommand h (cmd := 3) (by omega) (by decide) (by decide)
      (by rw [htree0 _ (by decide), hepoch0 _ (by decide)]; exact hu) ha)
  · exact runAbort.trans (treeCommand h (cmd := 4) (by omega) (by decide) (by decide)
      (by rw [htree0 _ (by decide), hepoch0 _ (by decide)]; exact hu) ha)

end

theorem readHost_acts (s : State) (f : Fn) (a n : Nat) : (s.readHost f a n).acts = s.acts := by
  unfold State.readHost
  split <;> rfl

/-- Settles O20: the read of a LOAD by its descriptor and place, each command by the unit and the tree that it finds. -/
theorem treeCommandsEnd : Obligations.TreeCommandsEnd := by
  unfold Obligations.TreeCommandsEnd
  refine fun s who t e x => ⟨fun hl f hc => ?_, fun h ht he => ?_⟩
  · have run : ∀ a, exec (.descriptorFetchDone .tree a) s = running s (fun s => s.descDone .tree a) := fun _ => rfl
    exact ⟨fun d hd => ⟨fun hb => (run (.ok d)).trans (running_eq hl (treeDescDone_bad hc hd hb)),
        fun u hb hp => (run (.ok d)).trans (running_eq hl (treeDescDone_full hc hd hb hp)),
        fun n u hb hp => (run (.ok d)).trans (running_eq hl (treeDescDone_placed hc hd hb hp))⟩,
      fun a ha => (run a).trans (running_eq hl (treeDescDone_refused hc ha))⟩
  · intro result s0
    have hmem : ∀ {cmd : Nat} {i : Instr}, (cmd, i) ∈ [(1, Instr.treeLoad who t), (2, .treeReset who t e), (3, .treeUnload who t),
        (4, .treeAbort who t)] → ∀ {u : State}, (if s.on F.MCT_TREE_RESULT.BUSY then s.raise .CFG_REJECT
          else s.treeCmd (whoFn who) cmd t (if cmd = 2 then e else 0)) = u → (u.acts = s.acts ∨ ∃ a, u.acts = s.acts ++ [a]) →
        exec i s = .next (s.settle u) := fun hi u hu ha => treeCommand_exec h ht he hi hu ha
    have h1 : (1, Instr.treeLoad who t) ∈ [(1, Instr.treeLoad who t), (2, .treeReset who t e), (3, .treeUnload who t), (4, .treeAbort who t)] := by simp
    have h2 : (2, Instr.treeReset who t e) ∈ [(1, Instr.treeLoad who t), (2, .treeReset who t e), (3, .treeUnload who t), (4, .treeAbort who t)] := by simp
    have h3 : (3, Instr.treeUnload who t) ∈ [(1, Instr.treeLoad who t), (2, .treeReset who t e), (3, .treeUnload who t), (4, .treeAbort who t)] := by simp
    have h4 : (4, Instr.treeAbort who t) ∈ [(1, Instr.treeLoad who t), (2, .treeReset who t e), (3, .treeUnload who t), (4, .treeAbort who t)] := by simp
    have idle : s.on F.MCT_TREE_RESULT.BUSY = false → ∀ {u v : State}, v = u → (if s.on F.MCT_TREE_RESULT.BUSY then s.raise .CFG_REJECT else v) = u :=
      fun hb u v hv => (if_neg (by rw [hb]; decide)).trans hv
    have hconf : (s.wr F.MCT_TREE_RESULT.TREE t).confOn = s.confOn := confOn_wr s _ _ _ (by decide)
    refine ⟨fun hb => ?_, fun hb hc => ?_, fun hb hc hx => ?_, fun hb hc hx => ?_⟩
    · exact ⟨hmem h1 (if_pos hb) (.inr ⟨_, rfl⟩), hmem h2 (if_pos hb) (.inr ⟨_, rfl⟩), hmem h3 (if_pos hb) (.inr ⟨_, rfl⟩),
        hmem h4 (if_pos hb) (.inr ⟨_, rfl⟩)⟩
    · have off := hconf.trans hc
      exact ⟨hmem h1 (idle hb (treeCmd_disabled off)) (.inl rfl), hmem h2 (idle hb (treeCmd_disabled off)) (.inl rfl),
        hmem h3 (idle hb (treeCmd_disabled off)) (.inl rfl), hmem h4 (idle hb (treeCmd_disabled off)) (.inl rfl)⟩
    · have on := hconf.trans hc
      refine ⟨fun f hw => ?_, fun hw => ?_, hmem h2 (idle hb (treeCmd_absent on hx (.inl rfl))) (.inl rfl),
        hmem h3 (idle hb (treeCmd_absent on hx (.inr (.inl rfl)))) (.inl rfl), hmem h4 (idle hb (treeCmd_absent on hx (.inr (.inr rfl)))) (.inl rfl)⟩
      · have hf : whoFn who = some f := by rw [hw]; rfl
        exact hmem h1 (idle hb (by rw [hf]; exact treeCmd_load on hx)) (.inl (readHost_acts _ _ _ _))
      · exact hmem h1 (idle hb (by rw [hw]; exact treeCmd_load_hostless on hx)) (.inr ⟨_, rfl⟩)
    · have on := hconf.trans hc
      refine ⟨hmem h1 (idle hb (treeCmd_load_there on hx)) (.inl rfl), fun ho => ⟨hmem h2 (idle hb (treeCmd_reset on hx ho)) (.inl rfl),
        hmem h3 (idle hb (treeCmd_unload on hx ho)) (.inl rfl), fun hs => ?_⟩⟩
      have hx0 : s0.tree t = some x := hx
      have hs0 : s0.treeState t ≠ tsBroken := by
        have : s0.treeState t = s.treeState t := rd_wr_reg s _ _ _ (by decide)
        rwa [this]
      have hep : s0.epochOf t = s.epochOf t := rd_wr_reg s _ _ _ (by decide)
      have eq := treeAbort_idle (q := x.nextSeq) (st := ccSw) hx0 hs0 ho
      rw [hep] at eq
      have acts := treeAbort_acts_idle (q := x.nextSeq) (st := ccSw) hx0 hs0 ho
      rw [eq] at acts
      exact hmem h4 (idle hb ((treeCmd_abort on hx ho).trans (congrArg (State.treeCode · 0 t) eq))) (.inr acts)

end Sys2Proof.Machine
end

section
/-! Packets of a tree: stale, ahead, unposted, grants, aborts and time-outs (R198 to R201, R206, R210, R212, Table 6.6). -/

namespace Sys2Proof.Machine

section
variable {s : State} {b : Bytes} {t : Nat} {x : Tree}

/-- A packet of the own epoch meets the tree that it names. -/
theorem tree_of_cfTree (h : s.cfTree b = some (t, x)) : s.tree t = some x := by
  unfold State.cfTree at h
  dsimp only at h
  split at h
  · cases h
  next y hy =>
    split at h
    · cases h
      exact hy
    · cases h

/-! ### Chunks -/

/-- The chunk of a CF_UP or CF_DOWN. -/
def chunkOf (up : Bool) (b : Bytes) : Chunk :=
  ⟨up, if up then leAt b 22 1 else 0, leAt b 14 2, leAt b 16 4, leAt b 28 1, leAt b 23 1, bit (pkFrame b) 31, leAt b 24 4, pkPayload b⟩

theorem onChunk_stale {up : Bool} (h : s.cfTree b = none) : s.onChunk up b = s.inc F.MCT_COUNT.STALE := by
  simp only [State.onChunk, h]
  rfl

section
variable {up : Bool} (h : s.cfTree b = some (t, x)) (hb : s.treeState t ≠ tsBroken)
  (hc : up = false ∨ (1 ≤ leAt b 22 1 ∧ leAt b 22 1 ≤ x.nchild))
include h hb

theorem onChunk_ahead (ha : 15 < ((chunkOf up b).seq + 65536 - x.base) % 65536) :
    s.onChunk up b = s.treeAbort t (chunkOf up b).seq ccMismatch := by
  have hcond : 15 < (leAt b 14 2 + 65536 - x.base) % 65536 ∨
      (up = true ∧ ((if up = true then leAt b 22 1 else 0) = 0 ∨ x.nchild < if up = true then leAt b 22 1 else 0)) := .inl ha
  simp only [State.onChunk, h, hb, if_false, if_pos hcond]
  rfl

variable (ha : ((chunkOf up b).seq + 65536 - x.base) % 65536 ≤ 15) (hr : up = true ∨ x.root = false)
include hc ha hr

/-- A chunk within the window is judged by the slots of its side, then by its operation. -/
theorem onChunk_near :
    s.onChunk up b = if x.slots ≤ (x.chunks.filter (fun j => j.up == up && j.child == (chunkOf up b).child)).length then
        s.treeAbort t (chunkOf up b).seq ccProto
      else ((x.opOf (chunkOf up b).seq).map fun o => if !o.agrees (chunkOf up b) then s.treeAbort t (chunkOf up b).seq ccMismatch
        else (((s.modTree t (fun x => { x with chunks := x.chunks ++ [chunkOf up b] })).treeProgress t (chunkOf up b).seq).takeChunk t
          (chunkOf up b)).treeRefresh t).getD ((s.modTree t (fun x => { x with chunks := x.chunks ++ [chunkOf up b] })).treeRefresh t) := by
  have hcond : ¬ (15 < (leAt b 14 2 + 65536 - x.base) % 65536 ∨
      (up = true ∧ ((if up = true then leAt b 22 1 else 0) = 0 ∨ x.nchild < if up = true then leAt b 22 1 else 0))) := by
    rintro (hn | ⟨hu, hn⟩)
    · exact absurd hn (Nat.not_lt.2 ha)
    · rw [if_pos hu] at hn
      rcases hc with hc | hc
      · rw [hu] at hc
        cases hc
      · omega
  have hslots : (if up = true ∨ (!x.root) = true then x.slots else 0) = x.slots := if_pos (by simpa using hr)
  unfold State.onChunk
  rw [h]
  dsimp only
  rw [if_neg hb, if_neg hcond, hslots]
  cases ho : x.opOf (chunkOf up b).seq with
  | none =>
    rw [show x.opOf (leAt b 14 2) = none from ho]
    simp only [decide_eq_true_eq, Option.map_none, Option.getD_none]
    rfl
  | some o =>
    rw [show x.opOf (leAt b 14 2) = some o from ho]
    simp only [decide_eq_true_eq, Option.map_some, Option.getD_some]
    rfl

theorem onChunk_full (hs : x.slots ≤ (x.chunks.filter (fun j => j.up == up && j.child == (chunkOf up b).child)).length) :
    s.onChunk up b = s.treeAbort t (chunkOf up b).seq ccProto := (onChunk_near h hb hc ha hr).trans (if_pos hs)

variable (hs : (x.chunks.filter (fun j => j.up == up && j.child == (chunkOf up b).child)).length < x.slots)
include hs

theorem onChunk_unposted (ho : x.opOf (chunkOf up b).seq = none) :
    s.onChunk up b = (s.modTree t (fun x => { x with chunks := x.chunks ++ [chunkOf up b] })).treeRefresh t := by
  rw [onChunk_near h hb hc ha hr, if_neg (Nat.not_le.2 hs), ho, Option.map_none, Option.getD_none]

theorem onChunk_posted {o : COp} (ho : x.opOf (chunkOf up b).seq = some o) (hg : o.agrees (chunkOf up b) = true) :
    s.onChunk up b = (((s.modTree t (fun x => { x with chunks := x.chunks ++ [chunkOf up b] })).treeProgress t (chunkOf up b).seq).takeChunk t
      (chunkOf up b)).treeRefresh t := by
  rw [onChunk_near h hb hc ha hr, if_neg (Nat.not_le.2 hs), ho, Option.map_some, Option.getD_some, if_neg (by rw [hg]; decide)]

end

/-- A held chunk and progress leave the tree's operations as they are. -/
theorem tree_held (k : Chunk) (q : Nat) (ht : s.tree t = some x) :
    ∃ y, ((s.modTree t (fun x => { x with chunks := x.chunks ++ [k] })).treeProgress t q).tree t = some y ∧ y.ops = x.ops := by
  refine ⟨_, tree_modTree _ (tree_modTree _ ht), ?_⟩
  split <;> rfl

theorem takeChunk_held {k : Chunk} {y : Tree} {o : COp} (hu : k.up = true) (ht : s.tree t = some y) (ho : y.opOf k.seq = some o)
    (hn : o.op ≠ opBarrier) : s.takeChunk t k = s.treeProgress t k.seq := by
  simp only [State.takeChunk, ht, ho, hu, if_true, hn, if_false]

theorem takeChunk_written {k : Chunk} {y : Tree} {o : COp} (hu : k.up = false) (ht : s.tree t = some y) (ho : y.opOf k.seq = some o)
    (hn : o.done.contains k.c = false) : s.takeChunk t k = (s.writeResult t y o k.c k.b).opSettle t k.seq := by
  simp only [State.takeChunk, ht, ho, hu, hn, Bool.false_eq_true, if_false]

/-! ### Grants, aborts and time-outs -/

section
variable (h : s.cfTree b = some (t, x)) (hb : s.treeState t ≠ tsBroken)
include h hb

theorem onGrant_up (hg : leAt b 29 1 = 0) : s.onGrant b = s.modTree t (fun x => { x with upCred := x.upCred + leAt b 28 1 }) := by
  simp only [State.onGrant, h, hb, if_false, hg, if_true]

theorem onAbort_forwards (hs : leAt b 28 1 ≠ ccLost) :
    s.onAbort b = ((s.collEndAll t (leAt b 28 1 % 128 + 128)).cfAborts t x (some (leAt b 22 1)) (leAt b 14 2) (leAt b 28 1)).treeBreak t := by
  have hn : ¬ (leAt b 28 1 = ccLost ∧ (x.peer (leAt b 22 1)).1 % 2 ^ 17 ≠ pkSrc b) := fun hc => hs hc.1
  simp only [State.onAbort, h, if_neg hn, State.treeForward, tree_of_cfTree h, if_neg hb]

end

theorem phaseTimeout_aborts (ht : s.tree t = some x) (ha : s.treeState t = tsActive) (hp : 0 < x.phase) (hq : x.phase ≤ x.quiet) :
    s.phaseTimeout t = s.treeAbort t x.base ccTimeout := by
  have hc : s.treeState t = tsActive ∧ x.phase ≠ 0 ∧ x.phase ≤ x.quiet := ⟨ha, by omega, hq⟩
  simp only [State.phaseTimeout, ht, if_pos hc]

end

/-- A VN4 packet that MCT finds ends with what its row leaves. -/
theorem treePacket_exec {s u : State} {b : Bytes} {k : Nat} {f : State → Bytes → State} (hl : s.live = true) (hh : s.hands uMCT k b = true)
    (e : f ((s.handed k b).reads (.tree (leAt b 12 2))) b = u) : running s (fun s => s.treePacket k f) = .next (s.settle u) :=
  unitPacket_exec hl hh e

/-- Settles O21: chunks by the window, the slots and the operation that they meet, the others by the tree. -/
theorem treePacketsAreJudged : Obligations.TreePacketsAreJudged := by
  unfold Obligations.TreePacketsAreJudged
  intro s b x hl t k s1
  refine ⟨fun up => ?_, fun hh ht hb hg => ?_, fun hh ht hb hs => ?_, fun n hk ht ha hp hq => ?_⟩
  · intro c cmd hh
    have run : ∀ {u : State}, (s1 c).onChunk up b = u → exec cmd s = .next (s.settle u) := by
      intro u e
      have runUp : exec .cfUp s = running s (fun s => s.treePacket 0x88 (fun s b => s.onChunk true b)) := rfl
      have runDown : exec .cfDown s = running s (fun s => s.treePacket 0x89 (fun s b => s.onChunk false b)) := rfl
      cases up with
      | true => exact runUp.trans (treePacket_exec hl hh e)
      | false => exact runDown.trans (treePacket_exec hl hh e)
    refine ⟨fun hn => run (onChunk_stale hn), fun ht hb hc => ?_⟩
    refine ⟨fun ha => run (onChunk_ahead ht hb ha), fun ha hr hs => run (onChunk_full ht hb hc ha hr hs),
      fun ha hr hs ho => run (onChunk_unposted ht hb hc ha hr hs ho), fun o ha hr hs ho hg => ?_⟩
    have posted := onChunk_posted ht hb hc ha hr hs ho hg
    refine ⟨fun hu hn => ?_, fun y hu hy hyo hd =>
      run (posted.trans (congrArg (State.treeRefresh · t) (takeChunk_written (k := chunkOf up b) hu hy hyo hd)))⟩
    · obtain ⟨y, hy, hops⟩ := tree_held (chunkOf up b) (chunkOf up b).seq (tree_of_cfTree ht)
      have hyo : y.opOf (chunkOf up b).seq = some o := by
        unfold Tree.opOf
        rw [hops]
        exact ho
      exact run (posted.trans (congrArg (State.treeRefresh · t) (takeChunk_held (k := chunkOf up b) hu hy hyo hn)))
  · have run : exec .cfGrant s = running s (fun s => s.treePacket 0x8A State.onGrant) := rfl
    exact run.trans (treePacket_exec hl hh (onGrant_up ht hb hg))
  · have run : exec .cfAbort s = running s (fun s => s.treePacket 0x8B State.onAbort) := rfl
    exact run.trans (treePacket_exec hl hh (onAbort_forwards ht hb hs))
  · have run : exec (.phaseTimeout n) s = running s (fun s => if s.task 0 then s.phaseTimeout n else s) := rfl
    exact run.trans (running_eq hl ((if_pos hk).trans (phaseTimeout_aborts ht ha hp hq)))

end Sys2Proof.Machine
end

section
/-! Chunks combined and sent, and multicast replicas that land (R187, R193, R194, R198, R204, R207, R260). -/

namespace Sys2Proof.Machine

section
variable {s : State} {t seq c : Nat} {x : Tree} {o : COp}

/-! ### A vertex at work -/

section
variable (hx : s.tree t = some x) (ho : x.opOf seq = some o) (hc : s.confOn = true)
include hx ho hc

/-- A combined chunk goes to the parent for one credit. -/
theorem chunkSend_up {b : Bytes} (hop : o.op = opAll ∨ o.op = opReduce) (hb : tabGet o.acc c = some b) (hr : x.root = false) :
    s.chunkSend t seq c 0 = if x.upCred = 0 then s else
      (((((s.chunkPacket t x o 0 c b).modTree t (fun x => { x with upCred := x.upCred - 1 })).modOp t seq
        (fun o => { o with acc := tabDel o.acc c, sent := o.sent ++ [c] })).treeProgress t seq).opSettle t seq) := by
  have h3 : o.op ≠ opBarrier := by rcases hop with h | h <;> rw [h] <;> decide
  have h2 : o.op ≠ opBcast := by rcases hop with h | h <;> rw [h] <;> decide
  simp only [State.chunkSend, hx, ho, hc, Bool.not_true, Bool.false_eq_true, if_false, if_true, h3, h2, hb, hr, false_or]

/-- The chunk of every child, as far as it is there. -/
def Tree.kidChunks (x : Tree) (seq c : Nat) : List Chunk :=
  x.kids.filterMap (fun i => x.chunks.find? (fun k => k.up && k.child == i && k.seq == seq && k.c == c))

omit hx ho hc in
theorem kidChunks_eq : (x.kids.map (fun i => x.chunks.find? (fun k => k.up && k.child == i && k.seq == seq && k.c == c))).filterMap id =
    x.kidChunks seq c := by
  simp only [Tree.kidChunks, List.filterMap_map]
  rfl

theorem chunkCombine_waits (hk : (x.kidChunks seq c).length ≠ x.nchild) : s.chunkCombine t seq c = s := by
  simp only [State.chunkCombine, hx, ho, hc, kidChunks_eq, hk, ne_eq, not_false_eq_true, Bool.not_true, Bool.false_eq_true, or_true,
    true_or, if_true]

/-- A vertex without a host of its own folds its children's chunks for the parent. -/
theorem chunkCombine_folds (hk : (x.kidChunks seq c).length = x.nchild) (hop : o.op = opAll ∨ o.op = opReduce) (hex : o.exact' = false)
    (hco : o.comb.contains c = false) (hn : c < chunksOf o.count o.upE) (hl : x.isLocal = false) (hr : x.root = false)
    (hw : s.working t x < x.slots) (hown : tabGet o.own c = none) :
    s.chunkCombine t seq c =
      let u := (s.modTree t (fun y => { y with chunks := y.chunks.filter (fun k => !(x.kidChunks seq c).contains k) })).modOp t seq
        (fun o => { o with own := tabDel o.own c, comb := o.comb ++ [c] })
      (((foldS x.kids u (fun s i => s.cfGrant t i)).modOp t seq (fun y => { y with
        acc := tabPut y.acc c (foldChunk o.dt (o.typeop / 16) (inChunk o.count o.upE c) ((x.kidChunks seq c).map (·.b))) })).treeProgress
          t seq).opSettle t seq := by
  have hop' : ¬ (o.op ≠ opAll ∧ o.op ≠ opReduce) := by
    rintro ⟨h0, h1⟩
    exact hop.elim h0 h1
  have hcond : ¬ ((!s.confOn) = true ∨ (o.op ≠ opAll ∧ o.op ≠ opReduce) ∨ o.comb.contains c = true ∨ chunksOf o.count o.upE ≤ c ∨
      (x.kidChunks seq c).length ≠ x.nchild ∨ (x.isLocal = true ∧ (tabGet o.own c).isNone = true) ∨
      ((!x.isLocal) = true ∧ x.slots ≤ s.working t x)) := by
    rw [hc, hco, hl, hk]
    simp only [hop', Bool.not_true, Bool.false_eq_true, false_or, ne_eq, not_true_eq_false, false_and, Bool.not_false, true_and]
    omega
  unfold State.chunkCombine
  rw [hx]
  dsimp only
  rw [ho]
  dsimp only
  rw [kidChunks_eq, if_neg hcond, hown, hex, hr]
  rfl

end

/-- An engine that is awake, with nothing to find in its memory, does its work at once. -/
theorem onEngine_awake {e : Nat} {f : State → State} (hp : s.pState = 0) (hi : s.intact = true) : s.onEngine e f = f s := by
  have hg : s.gatedEngines = false := by
    unfold State.gatedEngines
    rw [hp]
    rfl
  have hw : s.wake (some (e / 16)) = s := by simp only [State.wake, hp]
  simp only [State.onEngine, hg, Bool.false_eq_true, if_false, hw, reads_of_intact _ hi]

/-! ### A replica at a member -/

section
variable {b : Bytes}

/-- Group, landing and landing CQ of a replica (R193). -/
def mcGroup (b : Bytes) : Nat := pkDst b % 2 ^ 14
def State.mcLand (s : State) (b : Bytes) : Nat := s.rd F.MCT_MC_CTL.LAND (mcGroup b)
def State.mcCq (s : State) (b : Bytes) : Nat := s.rd F.MCT_MC_LAND.CQ (s.mcLand b)

section
variable (hf : s.rte.ejected.find? (fun b => pkKind b == 0x80) = some b) (hg : s.gatedUnit uHIF = false)
include hf hg

theorem replica_fetches (hv : s.on F.MCT_MC_LAND.VALID (s.mcLand b) = true) (hc : (s.c (s.mcCq b)).cached = false) :
    s.replica = s.needCtx (s.mcCq b) := by
  have hroom : s.mcRoom b = false := by
    show (!s.on F.MCT_MC_LAND.VALID (s.mcLand b) || ((s.c (s.mcCq b)).cached && _)) = false
    rw [hv, hc]
    rfl
  unfold State.replica
  rw [hf]
  dsimp only
  rw [hg, hroom]
  simp only [Bool.false_eq_true, if_false]
  exact if_neg (show ¬ (s.c (s.mcCq b)).cached = true by rw [hc]; decide)

theorem replica_reads (hr : s.mcRoom b = true) (hp : s.mcPages b ≠ []) : s.replica = s.pagesAsk (s.mcPages b) := by
  have he : (!(s.mcPages b).isEmpty) = true := by simpa using hp
  simp only [State.replica, hf, hg, hr, he, Bool.false_eq_true, if_false, if_true]

/-- A replica that nothing holds up is taken by the member. -/
theorem replica_lands (hr : s.mcRoom b = true) (hp : s.mcPages b = []) (hi : s.intact = true)
    (hn : s.ecc.refetch.contains (s.rd F.MCT_MC_LAND.KEY (s.mcLand b) / 256 % 2 ^ 24) = false) :
    s.replica = s.unitPacket uMCT 0x80 (fun s b => (s.reads (.mcast (mcGroup b))).mcMember b) := by
  have hread : s.regionRead (s.rd F.MCT_MC_LAND.KEY (s.mcLand b)) = (true, s) := by
    unfold State.regionRead
    rw [show s.ecc.words.isEmpty = true from hi]
    dsimp only
    rw [if_pos rfl, hn]
    rfl
  have hread' : s.regionRead (s.rd F.MCT_MC_LAND.KEY (s.rd F.MCT_MC_CTL.LAND (pkDst b % 2 ^ 14))) = (true, s) := hread
  simp only [State.replica, hf, hg, hr, hp, hread', Bool.false_eq_true, if_false, if_true, List.isEmpty_nil, Bool.not_true]
  rfl

end

section
variable (hroot : s.rd F.MCT_MC_CTL.ROOT (mcGroup b) ≠ s.nodeId)
include hroot

/-- A member other than the root expects the next number. -/
def State.mcNumbered (s : State) (b : Bytes) : State := s.wr F.MCT_MC_CTL.NEXT_SEQ (leAt b 12 2 + 1) (mcGroup b)

theorem mcMember_unlanded (h : s.on F.MCT_MC_LAND.VALID (s.mcLand b) = false ∨
      (s.mcNumbered b).q ((s.mcNumbered b).rd F.MCT_MC_LAND.CQ (s.mcLand b)) Q.CQ_STATE = cqOver) :
    s.mcMember b = ((s.mcNumbered b).inc F.MCT_COUNT.MC_GAPS).raise .MCT_MC_NO_LAND (mcGroup b) := by
  have hb : (s.rd F.MCT_MC_CTL.ROOT (mcGroup b) == s.nodeId) = false := beq_false_of_ne hroot
  have hv : (s.mcNumbered b).on F.MCT_MC_LAND.VALID (s.mcLand b) = s.on F.MCT_MC_LAND.VALID (s.mcLand b) :=
    congrArg (· == 1) (rd_wr_reg s _ _ _ (by decide))
  have hc : (!(s.mcNumbered b).on F.MCT_MC_LAND.VALID (s.mcLand b) ||
      (s.mcNumbered b).q ((s.mcNumbered b).rd F.MCT_MC_LAND.CQ (s.mcLand b)) Q.CQ_STATE == cqOver) = true := by
    rw [hv]
    rcases h with h | h
    · rw [h]
      rfl
    · rw [h]
      simp
  unfold State.mcMember
  dsimp only
  rw [show (s.rd F.MCT_MC_CTL.ROOT (pkDst b % 2 ^ 14) == s.nodeId) = false from hb]
  exact if_pos hc

theorem mcMember_lands {idx : Nat} {u : State} (hv : s.on F.MCT_MC_LAND.VALID (s.mcLand b) = true)
    (hq : (s.mcNumbered b).q ((s.mcNumbered b).rd F.MCT_MC_LAND.CQ (s.mcLand b)) Q.CQ_STATE ≠ cqOver)
    (hp : (pkPayload b).length ≠ 0) (hs : leAt b 12 2 = s.rd F.MCT_MC_CTL.NEXT_SEQ (mcGroup b))
    (hk : (s.mcNumbered b).keyUse .mcland ((s.mcNumbered b).rd F.MCT_MC_LAND.KEY (s.mcLand b)) (leAt b 16 8) (pkPayload b).length
      ⟨0, (s.mcNumbered b).ownerOf ((s.mcNumbered b).rd F.MCT_MC_LAND.CQ (s.mcLand b)), 0, 0, 0⟩ = (.ok idx, u)) :
    s.mcMember b = (u.place idx (leAt b 16 8) (pkPayload b)).complete
      ⟨(s.mcNumbered b).rd F.MCT_MC_LAND.CQ (s.mcLand b), leAt b 24 8, s.mcLand b, 0, 0x30, true, (pkPayload b).length, pkSrc b,
        leAt b 12 2 + mcGroup b * 65536, 0, 0, none⟩ := by
  have hb : (s.rd F.MCT_MC_CTL.ROOT (mcGroup b) == s.nodeId) = false := beq_false_of_ne hroot
  have hv' : (s.mcNumbered b).on F.MCT_MC_LAND.VALID (s.mcLand b) = true := (congrArg (· == 1) (rd_wr_reg s _ _ _ (by decide))).trans hv
  have hc : ¬ (!(s.mcNumbered b).on F.MCT_MC_LAND.VALID (s.mcLand b) ||
      (s.mcNumbered b).q ((s.mcNumbered b).rd F.MCT_MC_LAND.CQ (s.mcLand b)) Q.CQ_STATE == cqOver) = true := by
    rw [hv', beq_false_of_ne hq]
    decide
  have he : (pkPayload b).isEmpty = false := by simpa using hp
  have hseq : (false = true ∨ leAt b 12 2 = s.rd F.MCT_MC_CTL.NEXT_SEQ (mcGroup b)) := .inr hs
  unfold State.mcMember
  dsimp only
  rw [show (s.rd F.MCT_MC_CTL.ROOT (pkDst b % 2 ^ 14) == s.nodeId) = false from hb]
  refine (if_neg hc).trans ?_
  have hk' : (if false = true then s else s.wr F.MCT_MC_CTL.NEXT_SEQ (leAt b 12 2 + 1) (pkDst b % 2 ^ 14)) = s.mcNumbered b := rfl
  rw [hk']
  have hl : s.rd F.MCT_MC_CTL.LAND (pkDst b % 2 ^ 14) = s.mcLand b := rfl
  rw [hl, hk]
  dsimp only
  rw [he]
  exact if_pos hseq

end
end
end

/-- Settles O22: a vertex by its credits, its children's chunks and its slots, a replica by its landing's context, pages and key. -/
theorem treesCombineAndReplicate : Obligations.TreesCombineAndReplicate := by
  unfold Obligations.TreesCombineAndReplicate
  refine ⟨fun s t seq c x o hl hi hc hx ho => ⟨fun b hop hb hr => ?_, ?_⟩, fun s b hl hg hf => ?_⟩
  · have run : exec (.chunkSend t seq c 0) s = running s (fun s => (s.reads (.tree t)).chunkSend t seq c 0) := rfl
    have sent : ∀ {u : State}, s.chunkSend t seq c 0 = u → exec (.chunkSend t seq c 0) s = .next (s.settle u) := fun e =>
      run.trans (running_eq hl ((congrArg (State.chunkSend · t seq c 0) (reads_of_intact (.tree t) hi)).trans e))
    exact ⟨fun h => sent ((chunkSend_up hx ho hc hop hb hr).trans (if_pos h)),
      fun h => sent ((chunkSend_up hx ho hc hop hb hr).trans (if_neg (by omega)))⟩
  · intro ks hp
    have run : exec (.chunkCombine t seq c) s =
      running s (fun s => s.onEngine (s.rd F.MCT_TREE_STATUS.ENGINE t) (fun s => (s.reads (.tree t)).chunkCombine t seq c)) := rfl
    have combined : ∀ {u : State}, s.chunkCombine t seq c = u → exec (.chunkCombine t seq c) s = .next (s.settle u) := fun e =>
      run.trans (running_eq hl ((onEngine_awake hp hi).trans
        ((congrArg (State.chunkCombine · t seq c) (reads_of_intact (.tree t) hi)).trans e)))
    exact ⟨fun hk => combined (chunkCombine_waits hx ho hc hk), fun hk hop hex hco hn hlo hr hw hown =>
      combined (chunkCombine_folds hx ho hc hk hop hex hco hn hlo hr hw hown)⟩
  · intro g l cq
    have run : exec .mcPut s = running s State.replica := rfl
    refine ⟨fun hv hc => run.trans (running_eq hl (replica_fetches hf hg hv hc)), fun hr hp => run.trans (running_eq hl (replica_reads hf hg hr hp)),
      fun hr hp hh hi hn => ?_⟩
    intro t hroot n l
    have landed : ∀ {u : State}, t.mcMember b = u → exec .mcPut s = .next (s.settle u) := fun e =>
      run.trans (running_eq hl ((replica_lands hf hg hr hp hi hn).trans ((unitPacket_of_hands _ hh).trans e)))
    exact ⟨fun h => landed (mcMember_unlanded hroot h), fun idx u hv hq hpl hs hk => landed (mcMember_lands hroot hv hq hpl hs hk)⟩

end Sys2Proof.Machine
end

section
/-! What the host interface's completions and events leave alone: the work of a refused write, and stubs (R16, R229, R248 to R253). -/

namespace Sys2Proof.Machine

/-! ### Work that refuses no write -/

/-- Work that is a refusal of a write. -/
def Act.rejects : Act → Bool
  | .occ o => o.src == Src.CFG_REJECT.num
  | _ => false

theorem onceReject_of_calm (l : List Act) (h : ∀ a ∈ l, a.rejects = false) (seen : Bool) : onceReject seen l = l := by
  induction l with
  | nil => cases seen <;> rfl
  | cons a r ih =>
    have hr := ih (fun b hb => h b (List.mem_cons_of_mem a hb))
    have ha := h a List.mem_cons_self
    cases a with
    | occ o =>
      have hn : ¬ o.src = Src.CFG_REJECT.num := by simpa [Act.rejects] using ha
      unfold onceReject
      rw [if_neg hn, hr]
    | _ =>
      unfold onceReject
      rw [hr]

/-- The further work of a state refuses no write. -/
def State.Calm (s t : State) : Prop := ∃ l, t.acts = s.acts ++ l ∧ ∀ a ∈ l, a.rejects = false

theorem State.Calm.rejectOnce {s t : State} (h : s.Calm t) : s.rejectOnce t = t := by
  obtain ⟨l, ha, hl⟩ := h
  exact rejectOnce_of_append l ha (onceReject_of_calm l hl false)

theorem calm_of_acts {s t : State} (h : t.acts = s.acts) : s.Calm t := ⟨[], by simp [h], by simp⟩

theorem State.Calm.trans {s t u : State} (h : s.Calm t) (g : t.Calm u) : s.Calm u := by
  obtain ⟨l, hl, ha⟩ := h
  obtain ⟨m, hm, hb⟩ := g
  refine ⟨l ++ m, by rw [hm, hl, List.append_assoc], fun a hx => ?_⟩
  rcases List.mem_append.1 hx with hx | hx
  · exact ha a hx
  · exact hb a hx

/-! ### Relations that the steps of completions and events keep -/

/-- A change of the host interface's tables that an event makes: of held events and of pending vectors. -/
def Hif.eventChange (f : Hif → Hif) : Prop := ∀ h, ∃ held pba, f h = { h with held := held, pba := pba }

/-- A relation that holds across each elementary change that an event makes of the state: host writes, fields, held events, pending vectors,
and work that refuses nothing. -/
structure EvSteady (R : State → State → Prop) : Prop where
  refl : ∀ s, R s s
  trans : ∀ {s t u}, R s t → R t u → R s u
  emit : ∀ (s : State) o, R s (s.emit o)
  field : ∀ (s : State) d a x i, R s (s.wrI d a i x)
  event : ∀ (s : State) (f : Hif → Hif), Hif.eventChange f → R s (s.modHif f)
  post : ∀ (s : State) a, a.rejects = false → R s (s.post a)

/-- And across those of completions and retirements: contexts whose stub mark stays, and the other tables of HIF and MAT. -/
structure Steady (R : State → State → Prop) : Prop extends EvSteady R where
  ctx : ∀ (s : State) g (f : Ctx → Ctx), (∀ c, (f c).stub = c.stub) → R s (s.modCtx g f)
  hif : ∀ (s : State) (f : Hif → Hif), (∀ h, (f h).ctx = h.ctx) → R s (s.modHif f)
  mat : ∀ (s : State) f, R s (s.modMat f)

/-- The contexts and the waiting completions stay across events. -/
def State.SameCtx (s t : State) : Prop := t.hif.ctx = s.hif.ctx ∧ t.hif.wait = s.hif.wait

theorem evSteady_sameCtx : EvSteady State.SameCtx where
  refl _ := ⟨rfl, rfl⟩
  trans h g := ⟨g.1.trans h.1, g.2.trans h.2⟩
  emit _ _ := ⟨rfl, rfl⟩
  field _ _ _ _ _ := ⟨rfl, rfl⟩
  event s f hf := by
    obtain ⟨held, pba, e⟩ := hf s.hif
    unfold State.SameCtx State.modHif
    rw [e]
    exact ⟨rfl, rfl⟩
  post _ _ _ := ⟨rfl, rfl⟩

theorem steady_calm : Steady State.Calm where
  refl s := calm_of_acts rfl
  trans h g := h.trans g
  emit _ _ := calm_of_acts rfl
  field _ _ _ _ _ := calm_of_acts rfl
  event _ _ _ := calm_of_acts rfl
  ctx _ _ _ _ := calm_of_acts rfl
  hif _ _ _ := calm_of_acts rfl
  mat _ _ := calm_of_acts rfl
  post s a h := ⟨[a], rfl, by simpa using h⟩

theorem c_modCtx (s : State) (g : Nat) (f : Ctx → Ctx) : (s.modCtx g f).c g = { f (s.c g) with lastUse := s.hif.clock } := by
  simp only [State.c, State.modCtx, State.modHif, tabGetD, tabGet_put_same, Option.getD_some]

theorem c_modCtx_ne (s : State) {g i : Nat} (f : Ctx → Ctx) (h : i ≠ g) : (s.modCtx g f).c i = s.c i := by
  simp only [State.c, State.modCtx, State.modHif, tabGetD, tabGet_put_ne _ _ h]

/-- Whether a number is a stub stays. -/
theorem steady_stub (g : Nat) : Steady (fun s t => (t.c g).stub = (s.c g).stub) where
  refl _ := rfl
  trans h g := g.trans h
  emit _ _ := rfl
  field _ _ _ _ _ := rfl
  event s f hf := by
    obtain ⟨held, pba, e⟩ := hf s.hif
    unfold State.c State.modHif
    rw [e]
  ctx s i f hf := by
    rcases Nat.decEq g i with h | h
    · rw [c_modCtx_ne s f h]
    · rw [h, c_modCtx]
      exact hf _
  hif s f hf := by
    unfold State.c State.modHif
    rw [hf]
  mat _ _ := rfl
  post _ _ _ := rfl

section
variable {R : State → State → Prop}

theorem Steady.ite {c : Prop} [Decidable c] {s t u : State} (a : R s t) (b : R s u) : R s (if c then t else u) := by
  split
  · exact a
  · exact b

section
variable (h : EvSteady R)
include h

/-- A step after others, the last named first. -/
theorem EvSteady.after {s t u : State} (b : R t u) (a : R s t) : R s u := h.trans a b

theorem EvSteady.foldS {α : Type} {f : State → α → State} (hf : ∀ s a, R s (f s a)) (l : List α) (s : State) : R s (foldS l s f) := by
  induction l generalizing s with
  | nil => exact h.refl s
  | cons a r ih => exact h.trans (hf s a) (ih (f s a))

variable (s : State)

theorem EvSteady.raise (c : Src) (i : Nat) (hc : c.num ≠ Src.CFG_REJECT.num) : R s (s.raise c i) :=
  h.post s (.occ (occ c i)) (beq_false_of_ne hc)

theorem EvSteady.readHost (f : Fn) (a n : Nat) : R s (s.readHost f a n) := Steady.ite (h.refl s) (h.emit s _)

/-! ### Events (R251 to R253) -/

theorem EvSteady.sendMsi (i e : Nat) : R s (s.sendMsi i e) := by
  unfold State.sendMsi
  refine Steady.ite (h.refl s) (Steady.ite (Steady.ite (h.field s _ _ _ _) ?_) ?_)
  · exact h.after (h.event _ _ (fun _ => ⟨_, _, rfl⟩)) (h.field s _ _ _ _)
  · exact h.after (h.emit _ _) (h.field s _ _ _ _)

theorem EvSteady.msiCheck (i e : Nat) : R s (s.msiCheck i e) := Steady.ite (h.sendMsi s i e) (h.refl s)

theorem EvSteady.writeEv (e : Ev) : R s (s.writeEv e) := h.after (h.msiCheck _ _ _) (h.after (h.field _ _ _ _ _) (h.emit s _))

theorem EvSteady.holdEv (e : Ev) : R s (s.holdEv e) := by
  unfold State.holdEv
  dsimp only
  refine Steady.ite ?_ (Steady.ite (h.after (h.raise _ _ _ (by decide)) ?_) ?_)
  · exact h.after (h.field _ _ _ _ _) (h.event s _ (fun _ => ⟨_, _, rfl⟩))
  · exact h.after (h.field _ _ _ _ _) (h.event s _ (fun _ => ⟨_, _, rfl⟩))
  · exact h.after (h.field _ _ _ _ _) (h.event s _ (fun _ => ⟨_, _, rfl⟩))

theorem EvSteady.eventIf (may : Bool) (f : Fn) (ring ty detail obj info : Nat) : R s (s.eventIf may f ring ty detail obj info) :=
  Steady.ite (h.writeEv s _) (h.holdEv s _)

theorem EvSteady.cqEvent (cq ty info : Nat) : R s (s.cqEvent cq ty info) := Steady.ite (h.refl s) (h.eventIf s _ _ _ _ _ _ _)

theorem EvSteady.qEvent (g ty detail info : Nat) : R s (s.qEvent g ty detail info) := Steady.ite (h.refl s) (h.eventIf s _ _ _ _ _ _ _)

theorem EvSteady.drainEv (i e n : Nat) : R s (s.drainEv i e n) := by
  induction n generalizing s with
  | zero => exact h.refl s
  | succ n ih =>
    unfold State.drainEv
    split
    · exact h.field s _ _ _ _
    · split
      · exact h.after (ih _) (h.after (h.writeEv _ _) (h.event s _ (fun _ => ⟨_, _, rfl⟩)))
      · exact h.refl s

end

variable (h : Steady R)
include h
variable (s : State)

theorem Steady.setQ (g : Nat) (f : Nat × Nat) (v : Nat) : R s (s.setQ g f v) := h.ctx s g _ (fun _ => rfl)

/-! ### Completions (R248 to R250) -/

theorem Steady.needCtx (g : Nat) : R s (s.needCtx g) := Steady.ite (h.refl s) (h.after (h.readHost _ _ _ _) (h.hif s _ (fun _ => rfl)))

theorem Steady.writeCqe (e : Cqe) : R s (s.writeCqe e) := by
  have notified : ∀ (c : Prop) [Decidable c] (t : State) (v n : Nat), R s t →
      R s (if c then (t.setQ e.cq Q.CQ_FLAGS v).cqEvent e.cq evNotify n else t) :=
    fun c _ t v n ht => Steady.ite (h.after (h.cqEvent _ _ _ _) (h.after (h.setQ t _ _ _) ht)) ht
  have filled : ∀ (c : Prop) [Decidable c] (t : State) (v : Nat), R s t →
      R s (if c then ((t.setQ e.cq Q.CQ_STATE cqFull).setQ e.cq Q.FULL_BEATS 0).cqEvent e.cq evPressure v else t) :=
    fun c _ t v ht => Steady.ite (h.after (h.cqEvent _ _ _ _) (h.after (h.setQ _ _ _ _) (h.after (h.setQ t _ _ _) ht))) ht
  have written : ∀ (o : Out) (v : Nat), R s ((s.emit o).setQ e.cq Q.PI v) := fun o v => h.after (h.setQ _ _ _ _) (h.emit s o)
  unfold State.writeCqe
  dsimp only
  rcases e.own with _ | ⟨q, i⟩
  · exact filled _ _ _ (notified _ _ _ _ (written _ _))
  · exact h.after (h.post _ _ rfl) (filled _ _ _ (notified _ _ _ _ (written _ _)))

theorem Steady.drainCq (cq n : Nat) : R s (s.drainCq cq n) := by
  induction n generalizing s with
  | zero => exact h.refl s
  | succ n ih =>
    unfold State.drainCq
    split
    · exact h.refl s
    · refine Steady.ite (h.needCtx s cq) (Steady.ite (h.after (ih _) ?_) (Steady.ite (h.after (ih _) (h.after (h.writeCqe _ _) ?_)) (h.refl s)))
      · exact h.hif s _ (fun _ => rfl)
      · exact h.hif s _ (fun _ => rfl)

theorem Steady.complete (e : Cqe) : R s (s.complete e) :=
  Steady.ite (h.after (h.drainCq _ _ _) (h.hif s _ (fun _ => rfl))) (h.hif s _ (fun _ => rfl))

/-! ### A queue that is freed, and the reads of its ring -/

theorem Steady.rdvFail (r : Rdv) : R s (s.rdvFail r) := by
  unfold State.rdvFail
  split
  · exact Steady.ite (h.complete s _) (h.complete s _)
  · exact h.refl s

theorem Steady.dropHeld (g : Nat) : R s (s.dropHeld g) :=
  Steady.ite (h.after (h.ctx _ _ _ (fun _ => rfl)) (h.after (h.setQ _ _ _ _) (h.setQ s _ _ _))) (h.refl s)

theorem Steady.matQueueGone (g : Nat) (b : Bool) : R s (s.matQueueGone g b) := by
  have dropped := fun f f' => h.after (h.dropHeld _ g) (h.after (h.mat _ f') (h.mat s f))
  exact Steady.ite (h.after (h.foldS h.rdvFail _ _) (dropped _ _)) (dropped _ _)

theorem Steady.queueGone (g : Nat) : R s (s.queueGone g) := by
  unfold State.queueGone
  refine h.after (h.ctx _ _ _ ?_) (h.after (h.hif _ _ ?_) (h.hif s _ ?_)) <;> exact fun _ => rfl

theorem Steady.ringFetch (g : Nat) : R s (s.ringFetch g) := by
  have read : ∀ (c : Prop) [Decidable c] (t : State) (f : Fn) (a n : Nat), R s t → R s (if c then t.readHost f a n else t) :=
    fun c _ t f a n ht => Steady.ite (h.after (h.readHost t f a n) ht) ht
  unfold State.ringFetch
  exact Steady.ite (h.refl s) (h.after (h.ctx _ _ _ (fun _ => rfl)) (h.after (h.hif _ _ (fun _ => rfl)) (read _ _ _ _ _ (h.readHost s _ _ _))))

end

end Sys2Proof.Machine
end

section
/-! Queue and CQ commands and their result codes (R226, R233, Tables 7.7, 7.8, 7.25 and 7.26). -/

namespace Sys2Proof.Machine

/-! ### A use of a context -/

/-- A change at a listed key that a test does not see leaves whether any entry passes it. -/
theorem any_tabPut {v : Type} {t : Tab v} {i : Nat} {x : v} (y : v) (p : Nat × v → Bool) (h : tabGet t i = some x) (hp : p (i, y) = p (i, x)) :
    (tabPut t i y).any p = t.any p := by
  have listed : ∀ r : Tab v, tabGet r i = some x → p (i, x) = true → r.any p = true := by
    intro r hr hx
    induction r with
    | nil => cases hr
    | cons e r ih =>
      obtain ⟨k, z⟩ := e
      unfold tabGet at hr
      split at hr
      next hk =>
        cases hr
        simp [← hk, hx]
      next => simp [ih hr]
  induction t with
  | nil => cases h
  | cons e r ih =>
    obtain ⟨k, z⟩ := e
    unfold tabGet at h
    unfold tabPut
    by_cases hk : i = k
    · rw [if_pos hk] at h
      cases h
      rw [if_neg (by omega), if_pos hk, List.any_cons, List.any_cons, hp, hk]
    · rw [if_neg hk] at h
      by_cases hlt : i < k
      · rw [if_pos hlt, List.any_cons, hp]
        cases hx : p (i, x) with
        | false => rfl
        | true => simp [listed r h hx]
      · rw [if_neg hlt, if_neg hk, List.any_cons, List.any_cons, ih h]

section
variable {s : State} {g : Nat}

theorem c_useCtx (i : Nat) : (s.useCtx g).c i = if i = g ∧ (s.c g).cached = true then { s.c g with lastUse := s.hif.clock } else s.c i := by
  unfold State.useCtx
  by_cases hc : (s.c g).cached = true
  · rw [if_pos hc]
    rcases Nat.decEq i g with h | h
    · rw [c_modCtx_ne s id h, if_neg (fun hx => h hx.1)]
    · rw [h, c_modCtx, if_pos ⟨rfl, hc⟩]
      rfl
  · rw [if_neg hc, if_neg (fun hx => hc hx.2)]

/-- A use changes no field of a context. -/
theorem q_useCtx (i : Nat) (f : Nat × Nat) : (s.useCtx g).q i f = s.q i f := by
  unfold State.q
  rw [c_useCtx]
  split
  next h => rw [h.1]; rfl
  next => rfl

/-- A cached context is listed. -/
theorem tabGet_of_cached (h : (s.c g).cached = true) : tabGet s.hif.ctx g = some (s.c g) := by
  unfold State.c tabGetD at h ⊢
  cases hx : tabGet s.hif.ctx g with
  | none =>
    rw [hx] at h
    cases h
  | some c => rfl

theorem isEmpty_map_filter {α β : Type} (f : α → β) (p : α → Bool) (l : List α) : (!((l.filter p).map f).isEmpty) = l.any p := by
  induction l with
  | nil => rfl
  | cons a r ih =>
    cases hp : p a with
    | true => simp [hp]
    | false => simpa [List.filter_cons, hp] using ih

/-- The queues bound to a CQ, as one test of the contexts. -/
theorem boundQueues_any (cq : Nat) : (!(s.boundQueues cq).isEmpty) = s.hif.ctx.any (fun e =>
    e.2.f Q.STATE != qFree && (let b := s.qBase (s.ownerOf e.1); b + e.2.f Q.CQ == cq || b + e.2.f Q.RCQ == cq)) := by
  unfold State.boundQueues
  exact isEmpty_map_filter _ _ _

theorem bound_useCtx (h : (s.c g).cached = true) (cq : Nat) :
    (!((s.useCtx g).boundQueues cq).isEmpty) = !(s.boundQueues cq).isEmpty := by
  rw [boundQueues_any, boundQueues_any, State.useCtx, if_pos h]
  exact any_tabPut _ _ (tabGet_of_cached h) rfl

/-- The VF map alone says whose a number is. -/
theorem vfMap_wrI (d : Fld) (a i x : Nat) (h : d.reg.code ≠ Reg.HIF_VF_MAP.code) {f : Fld} (hf : f.reg.code = Reg.HIF_VF_MAP.code) (p v : Nat) :
    (s.wrI d a i x).vfMap f p v = s.vfMap f p v := rdI_wrI_ne s x (fun hc => h (hc.1 ▸ hf))

theorem ownerOf_wrI (d : Fld) (a i x : Nat) (h : d.reg.code ≠ Reg.HIF_VF_MAP.code) (n : Nat) : (s.wrI d a i x).ownerOf n = s.ownerOf n := by
  have hb := fun p v => vfMap_wrI (s := s) d a i x h (f := F.HIF_VF_MAP.QBASE) rfl p v
  have hc := fun p v => vfMap_wrI (s := s) d a i x h (f := F.HIF_VF_MAP.QCOUNT) rfl p v
  unfold State.ownerOf
  simp only [hb, hc]
  rfl

theorem qBase_ownerOf_wrI (d : Fld) (a i x : Nat) (h : d.reg.code ≠ Reg.HIF_VF_MAP.code) (n : Nat) :
    (s.wrI d a i x).qBase ((s.wrI d a i x).ownerOf n) = s.qBase (s.ownerOf n) := by
  rw [ownerOf_wrI d a i x h]
  unfold State.qBase
  simp only [vfMap_wrI (s := s) d a i x h (f := F.HIF_VF_MAP.QBASE) rfl]

theorem cqBound_wrI (d : Fld) (a i x : Nat) (hv : d.reg.code ≠ Reg.HIF_VF_MAP.code) (hl : d.reg.code ≠ Reg.MCT_MC_LAND.code) (cq : Nat) :
    (s.wrI d a i x).cqBound cq = s.cqBound cq ∧ (s.wrI d a i x).boundQueues cq = s.boundQueues cq := by
  have hb : (s.wrI d a i x).boundQueues cq = s.boundQueues cq := by
    simp only [State.boundQueues, qBase_ownerOf_wrI d a i x hv, wrI_hif]
  have hr : ∀ (f : Fld) n, f.reg.code = Reg.MCT_MC_LAND.code → (s.wrI d a i x).rd f n = s.rd f n := fun f n hf =>
    rdI_wrI_ne s x (fun hc => hl (hc.1 ▸ hf))
  have hq : ∀ n, (s.wrI d a i x).rd F.MCT_MC_LAND.CQ n = s.rd F.MCT_MC_LAND.CQ n := fun n => hr _ n rfl
  have ho : ∀ n, (s.wrI d a i x).on F.MCT_MC_LAND.VALID n = s.on F.MCT_MC_LAND.VALID n := fun n => congrArg (· == 1) (hr _ n rfl)
  refine ⟨?_, hb⟩
  simp only [State.cqBound, hb, hq, ho]

theorem cqBound_useCtx (h : (s.c g).cached = true) (cq : Nat) : (s.useCtx g).cqBound cq = s.cqBound cq := by
  have hr : ∀ f n, (s.useCtx g).rd f n = s.rd f n := fun f n => by
    rw [State.useCtx, if_pos h]
    rfl
  unfold State.cqBound
  rw [bound_useCtx h]
  simp only [hr, State.on]

end

/-! ### A command on a cached context -/

/-- A queue command is taken up: it runs, with its result register busy. -/
def State.queueCmdStart (s : State) (f : Fn) (c n g : Nat) : State :=
  (((s.modHif (fun h => { h with cmds := h.cmds ++ [⟨f, c, n, g, false⟩] })).wrI
    F.HIF_QUEUE_RESULT.BUSY (fnInst f) 0 1).wrI F.HIF_QUEUE_RESULT.CMD (fnInst f) 0 c).wrI F.HIF_QUEUE_RESULT.NUM (fnInst f) 0 n

section
variable {s : State} {f : Fn} {c n g : Nat}

theorem queueCmdStart_bound (cq : Nat) :
    (s.queueCmdStart f c n g).cqBound cq = s.cqBound cq ∧ (s.queueCmdStart f c n g).boundQueues cq = s.boundQueues cq := by
  have step := fun (t : State) (d : Fld) (x : Nat) (hd : d.reg = .HIF_QUEUE_RESULT) =>
    cqBound_wrI (s := t) d (fnInst f) 0 x (by rw [hd]; decide) (by rw [hd]; decide) cq
  obtain ⟨a1, b1⟩ := step (s.modHif (fun h => { h with cmds := h.cmds ++ [⟨f, c, n, g, false⟩] })) F.HIF_QUEUE_RESULT.BUSY 1 rfl
  obtain ⟨a2, b2⟩ := step _ F.HIF_QUEUE_RESULT.CMD c rfl
  obtain ⟨a3, b3⟩ := step _ F.HIF_QUEUE_RESULT.NUM n rfl
  exact ⟨a3.trans (a2.trans a1), b3.trans (b2.trans b1)⟩

theorem c_queueCmdStart (i : Nat) : (s.queueCmdStart f c n g).c i = s.c i := rfl

/-- A command that starts, and the use of its context, change no field of a context. -/
theorem q_started (i : Nat) (x : Nat × Nat) : ((s.queueCmdStart f c n g).useCtx g).q i x = s.q i x := by
  rw [q_useCtx]
  unfold State.q
  rw [c_queueCmdStart]

theorem qcmdGo_create : s.qcmdGo ⟨f, 1, n, g, false⟩ =
    if (s.useCtx g).q g Q.STATE = qFree then (s.useCtx g).qcmdFetch ⟨f, 1, n, g, false⟩ else (s.useCtx g).qcmdEnd f 1 2 n := rfl

theorem qcmdGo_cqCreate : s.qcmdGo ⟨f, 3, n, g, false⟩ =
    if (s.useCtx g).q g Q.CQ_STATE = cqFree then (s.useCtx g).qcmdFetch ⟨f, 3, n, g, false⟩ else (s.useCtx g).qcmdEnd f 3 2 n := rfl

/-- A queue and what hangs on it are gone (Table 7.7). -/
def State.queueDestroyed (s : State) (g : Nat) : State :=
  ((((s.wr F.HIF_Q_CTRL.ENABLE 0 g).modCtx g (fun c =>
    (c.put Q.STATE qFree).put Q.QGEN ((c.f Q.QGEN + 1) % 256))).matQueueGone g true).queueGone g).post (.queueFreed g)

theorem queueDestroyed_steady {R : State → State → Prop} (h : Steady R) : R s (s.queueDestroyed g) :=
  h.after (h.post _ _ rfl) (h.after (h.queueGone _ _) (h.after (h.matQueueGone _ _ _) (h.after (h.ctx _ _ _ (fun _ => rfl)) (h.field s _ _ _ _))))

theorem qcmdGo_destroy (hq : s.q g Q.STATE = qOff) (hs : (s.c g).stub = false) :
    s.qcmdGo ⟨f, 2, n, g, false⟩ = ((s.useCtx g).queueDestroyed g).qcmdEnd f 2 0 n := by
  have hoff : (s.useCtx g).q g Q.STATE = qOff := (q_useCtx g Q.STATE).trans hq
  have hstub : (((s.useCtx g).queueDestroyed g).c g).stub = false := by
    refine (queueDestroyed_steady (steady_stub g)).trans ?_
    rw [c_useCtx]
    split
    · exact hs
    · exact hs
  have hkeep : ((s.useCtx g).queueDestroyed g).dropStub g = (s.useCtx g).queueDestroyed g := if_neg (by rw [hstub]; exact fun h => nomatch h.1)
  have hgo : s.qcmdGo ⟨f, 2, n, g, false⟩ =
      if (s.useCtx g).q g Q.STATE = qOff ∨ ((s.useCtx g).q g Q.STATE = qError ∧ (s.useCtx g).q g Q.REASON = erCtx ∧ ((s.useCtx g).c g).ents.isEmpty)
      then (((s.useCtx g).queueDestroyed g).dropStub g).qcmdEnd f 2 0 n else (s.useCtx g).qcmdEnd f 2 2 n := rfl
  rw [hgo, if_pos (.inl hoff), hkeep]

theorem qcmdGo_reset (hc : (s.c g).cached = true) (hq : s.q g Q.CQ_STATE = cqOver) (hw : s.cqWaiting g = false) (hb : s.boundQueues g = []) :
    s.qcmdGo ⟨f, 4, n, g, false⟩ = ((s.useCtx g).setQ g Q.CQ_STATE cqReady).qcmdEnd f 4 0 n := by
  have hover : ¬ (s.useCtx g).q g Q.CQ_STATE ≠ cqOver := by rw [q_useCtx]; exact not_not.2 hq
  have hwait : (s.useCtx g).cqWaiting g = false := by
    rw [State.useCtx, if_pos hc]
    exact hw
  have hbound : (s.useCtx g).boundQueues g = [] := by
    have := bound_useCtx hc g
    rw [hb] at this
    simpa using this
  have hgo : s.qcmdGo ⟨f, 4, n, g, false⟩ = if (s.useCtx g).q g Q.CQ_STATE ≠ cqOver then (s.useCtx g).qcmdEnd f 4 2 n
      else if (s.useCtx g).cqWaiting g ∨ ((s.useCtx g).boundQueues g).any (fun q => (s.useCtx g).q q Q.STATE == qActive ||
        (s.useCtx g).q q Q.STATE == qStopping) then (s.useCtx g).qcmdEnd f 4 6 n
      else ((s.useCtx g).setQ g Q.CQ_STATE cqReady).qcmdEnd f 4 0 n := rfl
  rw [hgo, if_neg hover, hwait, hbound, if_neg (by simp)]

theorem qcmdGo_cqDestroy (hc : (s.c g).cached = true) (hq : s.q g Q.CQ_STATE = cqReady) :
    s.qcmdGo ⟨f, 5, n, g, false⟩ = if s.cqBound g then (s.useCtx g).qcmdEnd f 5 6 n
      else ((s.useCtx g).setQ g Q.CQ_STATE cqFree).qcmdEnd f 5 0 n := by
  have hready : (s.useCtx g).q g Q.CQ_STATE = cqReady := (q_useCtx g Q.CQ_STATE).trans hq
  rw [← cqBound_useCtx hc g]
  exact if_pos hready

/-! ### The command register -/

theorem queueCmd_disabled (h : s.en uHIF = false) : s.queueCmd f c n = s.qcmdEnd f c 5 n := by
  simp only [State.queueCmd, h, Bool.not_false, if_true]

section
variable (h : s.en uHIF = true)
include h

theorem queueCmd_none (hg : s.gOf f n = none) : s.queueCmd f c n = s.qcmdEnd f c 3 n := by
  simp only [State.queueCmd, h, Bool.not_true, Bool.false_eq_true, if_false, hg]

variable (hg : s.gOf f n = some g)
include hg

theorem queueCmd_uncovered (hc : s.qctCovers g = false) : s.queueCmd f c n = s.qcmdEnd f c 3 n := by
  simp only [State.queueCmd, h, Bool.not_true, Bool.false_eq_true, if_false, hg, hc, Bool.not_false, if_true]

theorem queueCmd_covered (hc : s.qctCovers g = true) : s.queueCmd f c n =
    if (s.c g).cached then (s.queueCmdStart f c n g).qcmdGo ⟨f, c, n, g, false⟩ else (s.queueCmdStart f c n g).needCtx g := by
  simp only [State.queueCmd, h, Bool.not_true, Bool.false_eq_true, if_false, hg, hc]
  rfl

end

/-- The five commands are writes of the function's command register. -/
theorem queueCommand_exec {t : State} {i : Instr} (h : s.serves (.fn f) .HIF_QUEUE_CMD 0 = true)
    (hb : s.rdI F.HIF_QUEUE_RESULT.BUSY (fnInst f) 0 = 0) (hn : n < 2 ^ 20)
    (hi : (c, i) ∈ [(1, Instr.qCreate f n), (2, .qDestroy f n), (3, .cqCreate f n), (4, .cqReset f n), (5, .cqDestroy f n)])
    (e : s.queueCmd f c n = t) (ha : s.Calm t) : exec i s = .next (s.settle t) := by
  have run : exec i s = powered s (fun s => s.regCmd (.fn f) .HIF_QUEUE_CMD 0 (n % 2 ^ 20 * 16 + c)) ∧ 1 ≤ c ∧ c ≤ 5 := by
    simp only [List.mem_cons, Prod.mk.injEq, List.not_mem_nil, or_false] at hi
    rcases hi with ⟨rfl, rfl⟩ | ⟨rfl, rfl⟩ | ⟨rfl, rfl⟩ | ⟨rfl, rfl⟩ | ⟨rfl, rfl⟩ <;> exact ⟨rfl, by decide, by decide⟩
  obtain ⟨run, h1, h5⟩ := run
  refine run.trans (regCmd_exec h ?_)
  have hu : (s.unusedOut .HIF_QUEUE_CMD 0 || s.ringOut (.fn f) .HIF_QUEUE_CMD 0) = false := rfl
  have hcell : s.cellOf (.fn f) .HIF_QUEUE_CMD 0 = (fnInst f, 0) := rfl
  have hcmd : (n % 2 ^ 20 * 16 + c) % 16 = c := by omega
  have hnum : bits (n % 2 ^ 20 * 16 + c) 4 20 = n := by
    simp only [bits]
    omega
  have hne : c ≠ 0 := by omega
  have htop : decide (5 < c) = false := decide_eq_false (by omega)
  have hbusy : (s.rdI F.HIF_QUEUE_RESULT.BUSY (fnInst f) 0 == 1) = false := by rw [hb]; rfl
  have hf : (whoFn (.fn f)).getD (.pf 0) = f := rfl
  unfold State.writeReg
  simp only [hu, hcell, hf, Bool.false_eq_true, if_false, State.command, hcmd, hne, hbusy, htop, Bool.or_self, hnum, e]
  exact ha.rejectOnce

end

/-- Settles O23: each command by the unit, the number, the cached context and its state. -/
theorem queueCommandsEnd : Obligations.QueueCommandsEnd := by
  unfold Obligations.QueueCommandsEnd
  intro s f n h hb hn cmds
  have run : ∀ c ∈ cmds, ∀ {t : State}, s.queueCmd f c.1 n = t → s.Calm t → exec c.2 s = .next (s.settle t) := fun c hc t e ha =>
    queueCommand_exec h hb hn hc e ha
  refine ⟨fun c hc he => run c hc (queueCmd_disabled he) (calm_of_acts rfl), fun c hc he hg => run c hc (queueCmd_none he hg) (calm_of_acts rfl), ?_⟩
  intro g he hg i t
  refine ⟨fun c hc hq => run c hc (queueCmd_uncovered he hg hq) (calm_of_acts rfl), fun c hc hq hca =>
    run c hc ((queueCmd_covered he hg hq).trans (if_neg (by rw [hca]; decide))) (State.Calm.trans (calm_of_acts rfl) (steady_calm.needCtx (t c.1) g)), ?_⟩
  intro u hq hca
  have go : ∀ {c : Nat} {x : Instr} {v : State}, (c, x) ∈ cmds → (s.queueCmdStart f c n g).qcmdGo ⟨f, c, n, g, false⟩ = v → s.Calm v →
      exec x s = .next (s.settle v) := fun hc e ha => run _ hc ((queueCmd_covered he hg hq).trans ((if_pos hca).trans e)) ha
  have h1 : (1, Instr.qCreate f n) ∈ cmds := by simp [cmds]
  have h2 : (2, Instr.qDestroy f n) ∈ cmds := by simp [cmds]
  have h3 : (3, Instr.cqCreate f n) ∈ cmds := by simp [cmds]
  have h4 : (4, Instr.cqReset f n) ∈ cmds := by simp [cmds]
  have h5 : (5, Instr.cqDestroy f n) ∈ cmds := by simp [cmds]
  have used : ∀ c, s.Calm (u c) := fun c => (calm_of_acts (t := t c) rfl).trans (Steady.ite (calm_of_acts rfl) (calm_of_acts rfl))
  have cached : ∀ c, ((t c).c g).cached = true := fun _ => hca
  have start : ∀ c x {v : Nat}, s.q g x = v → (t c).q g x = v := fun c x v hv => by
    unfold State.q at hv ⊢
    exact hv
  refine ⟨fun hs => ?_, fun hs => ?_, fun hs => ?_, fun hs => ?_, fun hs hst => ?_, fun hs hw hbq => ?_, fun hs hbd => ?_, fun hs hbd => ?_⟩
  · exact go h1 (qcmdGo_create.trans (if_neg (by rw [q_started]; exact hs))) ((used 1).trans (calm_of_acts rfl))
  · exact go h1 (qcmdGo_create.trans (if_pos ((q_started g Q.STATE).trans hs)))
      ((used 1).trans (State.Calm.trans (calm_of_acts rfl) (steady_calm.readHost _ _ _ _)))
  · exact go h3 (qcmdGo_cqCreate.trans (if_neg (by rw [q_started]; exact hs))) ((used 3).trans (calm_of_acts rfl))
  · exact go h3 (qcmdGo_cqCreate.trans (if_pos ((q_started g Q.CQ_STATE).trans hs)))
      ((used 3).trans (State.Calm.trans (calm_of_acts rfl) (steady_calm.readHost _ _ _ _)))
  · exact go h2 (qcmdGo_destroy (start 2 Q.STATE hs) hst) ((used 2).trans (State.Calm.trans (queueDestroyed_steady steady_calm) (calm_of_acts rfl)))
  · exact go h4 (qcmdGo_reset (cached 4) (start 4 Q.CQ_STATE hs) hw ((queueCmdStart_bound g).2.trans hbq)) ((used 4).trans (calm_of_acts rfl))
  · exact go h5 ((qcmdGo_cqDestroy (cached 5) (start 5 Q.CQ_STATE hs)).trans (if_pos ((queueCmdStart_bound g).1.trans hbd))) ((used 5).trans (calm_of_acts rfl))
  · have hfree : (t 5).cqBound g = false := (queueCmdStart_bound g).1.trans hbd
    exact go h5 ((qcmdGo_cqDestroy (cached 5) (start 5 Q.CQ_STATE hs)).trans (if_neg (by rw [hfree]; decide)))
      ((used 5).trans (calm_of_acts rfl))

end Sys2Proof.Machine
end

section
/-! Fields of a context read after they are written (R225). -/

namespace Sys2Proof.Machine

/-! ### Numbers within a run of bytes -/

section
variable {b v : Bytes} {o : Nat}

theorem length_putBytes (h : o + v.length ≤ b.length) : (putBytes b o v).length = b.length := by
  unfold putBytes
  simp only [List.length_append, List.length_take, List.length_drop]
  omega

/-- The bytes of another place stay. -/
theorem putBytes_other {p m : Nat} (h : o + v.length ≤ b.length) (hd : p + m ≤ o ∨ o + v.length ≤ p) :
    ((putBytes b o v).drop p).take m = (b.drop p).take m := by
  refine List.ext_getElem? (fun i => ?_)
  unfold putBytes
  simp only [List.getElem?_take, List.getElem?_drop, List.getElem?_append, List.length_append, List.length_take]
  rcases Nat.lt_or_ge i m with hi | hi
  · rcases hd with hd | hd
    · simp [hi, show p + i < min o b.length + v.length by omega, show p + i < min o b.length by omega, show p + i < o by omega]
    · simp [hi, show ¬ p + i < min o b.length + v.length by omega,
        show o + v.length + (p + i - (min o b.length + v.length)) = p + i by omega]
  · simp [show ¬ i < m by omega]

theorem leAt_put_same {n x : Nat} (h : o + n ≤ b.length) : leAt (putBytes b o (leBytes n x)) o n = x % 256 ^ n := by
  unfold leAt putBytes
  rw [List.append_assoc, List.drop_append_of_le_length (by simp; omega), List.drop_take, Nat.sub_self]
  simp [leNat_leBytes]

theorem leAt_put_ne {p m n x : Nat} (h : o + n ≤ b.length) (hd : p + m ≤ o ∨ o + n ≤ p) :
    leAt (putBytes b o (leBytes n x)) p m = leAt b p m :=
  congrArg leNat (putBytes_other (by simpa using h) (by simpa using hd))

end

/-! ### Fields of a context of 256 bytes -/

section
variable {c : Ctx} {q r : Nat × Nat}

theorem length_put {v : Nat} (h : c.b.length = 256) (hq : q.1 + q.2 ≤ 256) : (c.put q v).b.length = 256 := by
  refine (length_putBytes ?_).trans h
  rw [leBytes_length, h]
  exact hq

theorem f_put_same {v : Nat} (h : c.b.length = 256) (hq : q.1 + q.2 ≤ 256) : (c.put q v).f q = v % 256 ^ q.2 := leAt_put_same (by omega)

theorem f_put_ne {v : Nat} (h : c.b.length = 256) (hq : q.1 + q.2 ≤ 256) (hd : r.1 + r.2 ≤ q.1 ∨ q.1 + q.2 ≤ r.1) : (c.put q v).f r = c.f r :=
  leAt_put_ne (by omega) hd

variable {s : State} {g : Nat}

theorem length_setQ {v : Nat} (h : (s.c g).b.length = 256) (hq : q.1 + q.2 ≤ 256) : ((s.setQ g q v).c g).b.length = 256 := by
  rw [State.setQ, c_modCtx]
  exact length_put h hq

theorem q_setQ_same {v : Nat} (h : (s.c g).b.length = 256) (hq : q.1 + q.2 ≤ 256) : (s.setQ g q v).q g q = v % 256 ^ q.2 := by
  unfold State.q
  rw [State.setQ, c_modCtx]
  exact f_put_same h hq

theorem q_setQ_ne {v : Nat} (h : (s.c g).b.length = 256) (hq : q.1 + q.2 ≤ 256) (hd : r.1 + r.2 ≤ q.1 ∨ q.1 + q.2 ≤ r.1) :
    (s.setQ g q v).q g r = s.q g r := by
  unfold State.q
  rw [State.setQ, c_modCtx]
  exact f_put_ne h hq hd

/-- Whether a context is cached or a stub is not among its fields. -/
theorem marks_setQ (v : Nat) : ((s.setQ g q v).c g).cached = (s.c g).cached ∧ ((s.setQ g q v).c g).stub = (s.c g).stub := by
  rw [State.setQ, c_modCtx]
  exact ⟨rfl, rfl⟩

end

/-- What the events leave in the place of a context. -/
theorem State.SameCtx.c {s t : State} (h : s.SameCtx t) (g : Nat) : t.c g = s.c g := by
  unfold State.c
  rw [h.1]

theorem State.SameCtx.q {s t : State} (h : s.SameCtx t) (g : Nat) (f : Nat × Nat) : t.q g f = s.q g f := congrArg (Ctx.f · f) (h.c g)

end Sys2Proof.Machine
end

section
/-! Doorbell pages: work and CQ doorbells, ENABLE and the status reads (R228, R230, R232, R241, R242, Tables 7.7 and 7.8). -/

namespace Sys2Proof.Machine

section
variable {s : State} {f : Fn} {n g v : Nat}

/-! ### The doors of a cached context -/

theorem ownerOf_useCtx (i : Nat) : (s.useCtx g).ownerOf i = s.ownerOf i := by
  unfold State.useCtx
  split
  · rfl
  · rfl

section
variable (hg : s.gOf f n = some g) (hq : s.qctCovers g = true)
include hg hq

theorem door_away (hc : (s.c g).cached = false) (sq : Bool) : s.door sq f n v = s.await g (.door sq v) := by
  simp only [State.door, hg, hq, hc, Bool.not_true, Bool.false_eq_true, if_false]

theorem door_sq (hc : (s.c g).cached = true) : s.door true f n v = (s.useCtx g).sqDoor g (v % 2 ^ 32) := by
  simp only [State.door, hg, hq, hc, Bool.not_true, Bool.false_eq_true, if_false, if_true]

theorem door_cq (hc : (s.c g).cached = true) : s.door false f n v = (s.useCtx g).cqDoor g v := by
  simp only [State.door, hg, hq, hc, Bool.not_true, Bool.false_eq_true, if_false, if_true]

end

theorem sqDoor_eq : s.sqDoor g v =
    if s.q g Q.STATE = qFree then s.dbBad (s.ownerOf g) g
    else if diff32 v (s.q g Q.TAKEN) ≤ diff32 (s.q g Q.DB) (s.q g Q.TAKEN) then s
    else if diff32 v (s.q g Q.TAKEN) ≤ 2 ^ s.q g Q.LOG_SIZE then (s.setQ g Q.DB v).ringFetch g
    else if s.q g Q.STATE = qActive then s.queueError g erDbRange (s.q g Q.DB)
    else s.dbBad (s.ownerOf g) g := rfl

/-- The work doorbell, after the use of the context that it makes. -/
theorem sqDoor_used : (s.useCtx g).sqDoor g v =
    if s.q g Q.STATE = qFree then (s.useCtx g).dbBad (s.ownerOf g) g
    else if diff32 v (s.q g Q.TAKEN) ≤ diff32 (s.q g Q.DB) (s.q g Q.TAKEN) then s.useCtx g
    else if diff32 v (s.q g Q.TAKEN) ≤ 2 ^ s.q g Q.LOG_SIZE then ((s.useCtx g).setQ g Q.DB v).ringFetch g
    else if s.q g Q.STATE = qActive then (s.useCtx g).queueError g erDbRange (s.q g Q.DB)
    else (s.useCtx g).dbBad (s.ownerOf g) g := by
  simp only [sqDoor_eq, q_useCtx, ownerOf_useCtx]

/-- A CQ doorbell has moved CI, and armed the notify where its bit 32 is set. -/
def State.cqMoved (s : State) (g v : Nat) : State :=
  let s := s.setQ g Q.CI (v % 2 ^ 32)
  if bit v 32 then s.setQ g Q.CQ_FLAGS (setBit (s.q g Q.CQ_FLAGS) 0) else s

/-- A CQ is FULL although it has room. -/
abbrev State.cqOpens (s : State) (g : Nat) : Prop :=
  s.q g Q.CQ_STATE = cqFull ∧ diff32 (s.q g Q.PI) (s.q g Q.CI) < 2 ^ s.q g Q.CQ_LOG

/-- A FULL CQ that has room again is READY (Table 7.8). -/
def State.cqRelieved (s : State) (g : Nat) : State := if s.cqOpens g then s.setQ g Q.CQ_STATE cqReady else s

theorem cqDoor_eq : s.cqDoor g v =
    if s.q g Q.CQ_STATE = cqFree ∨ diff32 (s.q g Q.PI) (s.q g Q.CI) < diff32 (v % 2 ^ 32) (s.q g Q.CI) then s.dbBad (s.ownerOf g) g
    else ((s.cqMoved g v).flushCq g).cqRelieved g := rfl

theorem not_cqOpens (h : s.q g Q.CQ_STATE ≠ cqFull) : ¬ s.cqOpens g := fun hx => h hx.1

/-- With no completion waiting, none is let in. -/
theorem flushCq_none (h : s.hif.wait = []) : s.flushCq g = s := by
  simp [State.flushCq, State.drainCq, h]

/-! ### A moved CI, read back -/

theorem cqMoved_plain (hv : bit v 32 = false) : s.cqMoved g v = s.setQ g Q.CI (v % 2 ^ 32) := if_neg (by rw [hv]; decide)

theorem wait_cqMoved : (s.cqMoved g v).hif.wait = s.hif.wait := by
  unfold State.cqMoved
  dsimp only
  split <;> rfl

section
variable (hb : (s.c g).b.length = 256)
include hb

theorem cqMoved_armed (hv : bit v 32 = true) :
    s.cqMoved g v = (s.setQ g Q.CI (v % 2 ^ 32)).setQ g Q.CQ_FLAGS (setBit (s.q g Q.CQ_FLAGS) 0) := by
  rw [← q_setQ_ne (q := Q.CI) (v := v % 2 ^ 32) (r := Q.CQ_FLAGS) hb (by decide) (by decide)]
  exact if_pos hv

theorem state_cqMoved : (s.cqMoved g v).q g Q.CQ_STATE = s.q g Q.CQ_STATE := by
  have hci : (s.setQ g Q.CI (v % 2 ^ 32)).q g Q.CQ_STATE = s.q g Q.CQ_STATE := q_setQ_ne hb (by decide) (by decide)
  cases hv : bit v 32 with
  | false => rw [cqMoved_plain hv, hci]
  | true => rw [cqMoved_armed hb hv, q_setQ_ne (length_setQ hb (by decide)) (by decide) (by decide), hci]

/-- A CQ doorbell with no completion waiting. -/
theorem cqMoved_done (hr : s.q g Q.CQ_STATE = cqReady) (hw : s.hif.wait = []) : ((s.cqMoved g v).flushCq g).cqRelieved g = s.cqMoved g v := by
  rw [flushCq_none (wait_cqMoved.trans hw), State.cqRelieved, if_neg (not_cqOpens (by rw [state_cqMoved hb, hr]; decide))]

end

/-! ### A completion that a CQ doorbell lets in -/

/-- The entry of a completion is written, and the notify that it asks for is made (R248, R249). -/
def State.cqePut (s : State) (e : Cqe) : State :=
  let pi := s.q e.cq Q.PI
  let t := (s.emit (.hostWrite (s.ownerOf e.cq) (s.q e.cq Q.CQ_RING + 32 * (pi % 2 ^ s.q e.cq Q.CQ_LOG))
    (cqeBytes e (!bit pi (s.q e.cq Q.CQ_LOG))))).setQ e.cq Q.PI (add32 pi 1)
  if bit (s.q e.cq Q.CQ_FLAGS) 0 then
    (t.setQ e.cq Q.CQ_FLAGS (clrBit (s.q e.cq Q.CQ_FLAGS) 0)).cqEvent e.cq evNotify (add32 pi 1)
  else t

/-- A CQ whose last place was taken is FULL (Table 7.8). -/
def State.cqFilled (s : State) (cq : Nat) : State :=
  if s.q cq Q.CQ_STATE = cqReady ∧ diff32 (s.q cq Q.PI) (s.q cq Q.CI) = 2 ^ s.q cq Q.CQ_LOG then
    ((s.setQ cq Q.CQ_STATE cqFull).setQ cq Q.FULL_BEATS 0).cqEvent cq evPressure (s.q cq Q.PI)
  else s

theorem writeCqe_eq (e : Cqe) : s.writeCqe e =
    match e.own with
    | some (q, _) => ((s.cqePut e).cqFilled e.cq).post (.run q)
    | none => (s.cqePut e).cqFilled e.cq := rfl

theorem cqePut_parts (e : Cqe) (hb : (s.c e.cq).b.length = 256) :
    (s.cqePut e).hif.wait = s.hif.wait ∧ ((s.cqePut e).c e.cq).b.length = 256 ∧ (s.cqePut e).q e.cq Q.CQ_STATE = s.q e.cq Q.CQ_STATE := by
  have h1 := length_setQ (q := Q.PI) (v := add32 (s.q e.cq Q.PI) 1) hb (by decide)
  have h2 := length_setQ (q := Q.CQ_FLAGS) (v := clrBit (s.q e.cq Q.CQ_FLAGS) 0) h1 (by decide)
  have q1 : (s.setQ e.cq Q.PI (add32 (s.q e.cq Q.PI) 1)).q e.cq Q.CQ_STATE = s.q e.cq Q.CQ_STATE := q_setQ_ne hb (by decide) (by decide)
  have q2 := q_setQ_ne (q := Q.CQ_FLAGS) (v := clrBit (s.q e.cq Q.CQ_FLAGS) 0) (r := Q.CQ_STATE) h1 (by decide) (by decide)
  unfold State.cqePut
  dsimp only
  split
  · have hev : State.SameCtx _ _ := evSteady_sameCtx.cqEvent (((s.emit (.hostWrite (s.ownerOf e.cq) (s.q e.cq Q.CQ_RING +
      32 * (s.q e.cq Q.PI % 2 ^ s.q e.cq Q.CQ_LOG)) (cqeBytes e (!bit (s.q e.cq Q.PI) (s.q e.cq Q.CQ_LOG))))).setQ e.cq Q.PI
      (add32 (s.q e.cq Q.PI) 1)).setQ e.cq Q.CQ_FLAGS (clrBit (s.q e.cq Q.CQ_FLAGS) 0)) e.cq evNotify (add32 (s.q e.cq Q.PI) 1)
    exact ⟨hev.2, by rw [hev.c]; exact h2, by rw [hev.q]; exact q2.trans q1⟩
  · exact ⟨rfl, h1, q1⟩

/-- A CQ that fills is FULL with no place left; no other is FULL then. -/
theorem cqFilled_parts {cq : Nat} (hb : (s.c cq).b.length = 256) (hr : s.q cq Q.CQ_STATE = cqReady) :
    (s.cqFilled cq).hif.wait = s.hif.wait ∧ ¬ (s.cqFilled cq).cqOpens cq := by
  unfold State.cqFilled
  by_cases hf : s.q cq Q.CQ_STATE = cqReady ∧ diff32 (s.q cq Q.PI) (s.q cq Q.CI) = 2 ^ s.q cq Q.CQ_LOG
  · rw [if_pos hf]
    have h1 := length_setQ (q := Q.CQ_STATE) (v := cqFull) hb (by decide)
    have hev : State.SameCtx _ _ := evSteady_sameCtx.cqEvent ((s.setQ cq Q.CQ_STATE cqFull).setQ cq Q.FULL_BEATS 0) cq evPressure (s.q cq Q.PI)
    have keeps : ∀ r : Nat × Nat, r = Q.PI ∨ r = Q.CI ∨ r = Q.CQ_LOG →
        (((s.setQ cq Q.CQ_STATE cqFull).setQ cq Q.FULL_BEATS 0).cqEvent cq evPressure (s.q cq Q.PI)).q cq r = s.q cq r := by
      rintro r (rfl | rfl | rfl)
      all_goals rw [hev.q, q_setQ_ne h1 (by decide) (by decide), q_setQ_ne hb (by decide) (by decide)]
    refine ⟨hev.2, fun hx => ?_⟩
    rw [State.cqOpens, keeps _ (.inl rfl), keeps _ (.inr (.inl rfl)), keeps _ (.inr (.inr rfl)), hf.2] at hx
    exact Nat.lt_irrefl _ hx.2
  · rw [if_neg hf]
    exact ⟨rfl, not_cqOpens (by rw [hr]; decide)⟩

theorem writeCqe_parts (e : Cqe) (hb : (s.c e.cq).b.length = 256) (hr : s.q e.cq Q.CQ_STATE = cqReady) :
    (s.writeCqe e).hif.wait = s.hif.wait ∧ ¬ (s.writeCqe e).cqOpens e.cq := by
  obtain ⟨hw, hl, hq⟩ := cqePut_parts e hb
  obtain ⟨fw, fr⟩ := cqFilled_parts hl (hq.trans hr)
  rw [writeCqe_eq]
  cases e.own with
  | none => exact ⟨fw.trans hw, fr⟩
  | some o => exact ⟨fw.trans hw, fr⟩

/-- The one completion that waits is written where the CQ has a place. -/
theorem flushCq_one {e : Cqe} (hw : s.hif.wait = [e]) (hc : (s.c e.cq).cached = true) (hs : (s.c e.cq).stub = false) (hb : (s.c e.cq).b.length = 256)
    (hr : s.q e.cq Q.CQ_STATE = cqReady) (hroom : diff32 (s.q e.cq Q.PI) (s.q e.cq Q.CI) < 2 ^ s.q e.cq Q.CQ_LOG)
    (hl : s.linkUpPf (s.pfOf e.cq) = true) (hp : s.spill = false) :
    s.flushCq e.cq = (s.modHif (fun h => { h with wait := [] })).writeCqe e := by
  have hfree : ¬ (s.c e.cq).f Q.CQ_STATE = cqFree := by rw [show (s.c e.cq).f Q.CQ_STATE = cqReady from hr]; decide
  have hgo : (s.c e.cq).cqUsed < (s.c e.cq).cqSize ∧ !(s.c e.cq).stub ∧ s.linkUpPf (s.pfOf e.cq) ∧ !s.spill := by
    rw [hs, hl, hp]
    exact ⟨hroom, rfl, rfl, rfl⟩
  have hend : ∀ t : State, t.hif.wait = [] → State.drainCq t e.cq 1 = t := fun t ht => by simp [State.drainCq, ht]
  have hwritten := (writeCqe_parts (s := s.modHif (fun h => { h with wait := [] })) e hb hr).1
  have hgone : s.modHif (fun h => { h with wait := h.wait.eraseP (fun w => w.cq == e.cq) }) = s.modHif (fun h => { h with wait := [] }) := by
    simp [State.modHif, hw]
  have hfind : s.hif.wait.find? (fun w => w.cq == e.cq) = some e := by simp [hw]
  rw [State.flushCq, hw, List.length_singleton, State.drainCq, hfind]
  dsimp only
  rw [hgone, if_neg (by rw [hc]; decide), if_neg hfree, if_pos hgo]
  exact hend _ hwritten

/-! ### ENABLE -/

theorem ctrlNeeds_off (hc : (s.c g).cached = true) : s.ctrlNeeds g false = none := by
  simp [State.ctrlNeeds, State.away, hc]

theorem ctrlNeeds_notOff (hc : (s.c g).cached = true) (hq : s.q g Q.STATE ≠ qOff) : s.ctrlNeeds g true = none := by
  have h : (s.q g Q.STATE == qOff) = false := beq_false_of_ne hq
  simp [State.ctrlNeeds, State.away, hc, h]

theorem ctrlNeeds_ready (hc : (s.c g).cached = true) (hcq : (s.c (s.cqOf g)).cached = true) (hrcq : (s.c (s.rcqOf g)).cached = true) :
    s.ctrlNeeds g true = none := by
  simp [State.ctrlNeeds, State.away, hc, hcq, hrcq]

theorem queueCtrl_away (hq : s.qctCovers g = true) (hc : (s.c g).cached = false) (on : Bool) : s.queueCtrl g on = s.await g (.ctrl g on) := by
  simp [State.queueCtrl, State.ctrlNeeds, State.away, hc, hq]

theorem queueCtrl_set (h : s.ctrlNeeds g true = none) :
    s.queueCtrl g true = if s.on F.HIF_Q_CTRL.ENABLE g then s else (s.queueEnable g).getD (s.raise .CFG_REJECT) := by
  unfold State.queueCtrl
  rw [h]
  simp only [Bool.true_and, if_true]
  cases s.queueEnable g <;> rfl

theorem queueCtrl_clear (hc : (s.c g).cached = true) : s.queueCtrl g false = s.queueDisable g := by
  simp [State.queueCtrl, ctrlNeeds_off hc]

theorem queueEnable_other (ha : s.q g Q.STATE ≠ qActive) (ho : s.q g Q.STATE ≠ qOff) : s.queueEnable g = none :=
  (if_neg ha).trans (if_neg ho)

theorem queueEnable_off (ho : s.q g Q.STATE = qOff) : s.queueEnable g =
    if (s.q (s.cqOf g) Q.CQ_STATE == cqReady || s.q (s.cqOf g) Q.CQ_STATE == cqFull) &&
      (s.q (s.rcqOf g) Q.CQ_STATE == cqReady || s.q (s.rcqOf g) Q.CQ_STATE == cqFull) then
      some (((((s.wr F.HIF_Q_CTRL.ENABLE 1 g).dropRings g).modCtx g (fun c =>
        let c := ((c.put Q.STATE qActive).put Q.REASON 0).put Q.ERR_INDEX 0
        { c with asked := c.f Q.TAKEN, slots := [] })).ringFetch g).post (.run g))
    else none :=
  (if_neg (fun h : s.q g Q.STATE = qActive => by rw [ho] at h; cases h)).trans (if_pos ho)

theorem queueDisable_idle (ha : s.q g Q.STATE = qActive) (he : (s.c g).ents = []) : s.queueDisable g =
    ((s.wr F.HIF_Q_CTRL.ENABLE 0 g).modCtx g (fun c => { c with slots := [], asked := c.f Q.TAKEN })).queueOff g :=
  (if_pos ha).trans (if_pos (by rw [he]; rfl))

/-! ### The page -/

section
variable (h : s.page f n g = true)
include h

theorem page_exec {c : Instr} {t : State} {r : Reg} {w : Nat} (run : exec c s = powered s (fun s => s.fnWrite f .bar2 (pageAddr r n) 8 w))
    (e : s.fnWrite f .bar2 (pageAddr r n) 8 w = t) : exec c s = .next (s.settle t) :=
  run.trans (powered_eq (pwrok_of_live (page_parts h).1) e)

theorem sqDb_exec {t : State} (e : s.door true f n v = t) : exec (.hifSqDb f n v) s = .next (s.settle t) := by
  have run : exec (.hifSqDb f n v) s = powered s (fun s => s.fnWrite f .bar2 (pageAddr .HIF_SQ_DB n) 8 v) := rfl
  exact page_exec h run ((pageWrite_of_page .HIF_SQ_DB v (by decide) (by decide) h).trans e)

theorem cqDb_exec {t : State} (e : s.door false f n v = t) : exec (.hifCqDb f n v) s = .next (s.settle t) := by
  have run : exec (.hifCqDb f n v) s = powered s (fun s => s.fnWrite f .bar2 (pageAddr .HIF_CQ_DB n) 8 v) := rfl
  exact page_exec h run ((pageWrite_of_page .HIF_CQ_DB v (by decide) (by decide) h).trans e)

theorem qEnable_exec {t : State} (e : s.queueCtrl g true = t) : exec (.qEnable f n) s = .next (s.settle t) := by
  have run : exec (.qEnable f n) s = powered s (fun s => s.fnWrite f .bar2 (pageAddr .HIF_Q_CTRL n) 8 1) := rfl
  exact page_exec h run ((pageWrite_of_page .HIF_Q_CTRL 1 (by decide) (by decide) h).trans e)

theorem qDisable_exec {t : State} (e : s.queueCtrl g false = t) : exec (.qDisable f n) s = .next (s.settle t) := by
  have run : exec (.qDisable f n) s = powered s (fun s => s.fnWrite f .bar2 (pageAddr .HIF_Q_CTRL n) 8 0) := rfl
  exact page_exec h run ((pageWrite_of_page .HIF_Q_CTRL 0 (by decide) (by decide) h).trans e)

theorem pageStatus_whole (hc : (s.c g).cached = true) (hi : s.intact = true) (what : Nat) :
    s.pageStatus f n what true = (s.useCtx g).emit (.regValue (.fn f) (s.statusWord what g)) := by
  obtain ⟨hl, he, ha, _, hg, _, hw, hz⟩ := page_parts h
  have hu : unitOfGroup 7 = uHIF := rfl
  simp only [State.pageStatus, ha, State.sleeps, State.locGated, Loc.blk, hu, hw, hz, Bool.and_false, Bool.or_self, Bool.not_true, Bool.false_eq_true,
    if_false, hl, State.pagesOn, he, Bool.and_self, hg, reads_of_intact _ hi, State.statusRead, hc, Bool.true_or, if_true]

theorem pageStatus_narrow (what : Nat) : s.pageStatus f n what false = (s.raise .REG_ACCESS).emit (.regValue (.fn f) 0) := by
  obtain ⟨hl, _, ha, _, _, _, hw, hz⟩ := page_parts h
  have hu : unitOfGroup 7 = uHIF := rfl
  simp only [State.pageStatus, ha, State.sleeps, State.locGated, Loc.blk, hu, hw, hz, Bool.and_false, Bool.or_self, Bool.not_true, Bool.false_eq_true,
    if_false, hl, Bool.not_false, if_true]
  rfl

theorem statusRead_exec {t : State} {whole : Bool} {what : Fin 3} (e : s.pageStatus f n what.val whole = t) :
    exec (.contextStatusRead ⟨f, whole⟩ n what) s = .next (s.settle t) := by
  have run : exec (.contextStatusRead ⟨f, whole⟩ n what) s = powered s (fun s => s.pageStatus f n what.val whole) := rfl
  exact run.trans (powered_eq (pwrok_of_live (page_parts h).1) e)

end

end

/-- Settles O24: the page's registers by the context's state. -/
theorem doorbellPages : Obligations.DoorbellPages := by
  unfold Obligations.DoorbellPages
  intro s f n g v h hq
  obtain ⟨hl, _, _, _, hg, _⟩ := page_parts h
  refine ⟨fun what => ⟨fun hc hi => statusRead_exec h (pageStatus_whole h hc hi what), statusRead_exec h (pageStatus_narrow h what)⟩,
    ?_, ?_, ?_, ?_, ?_⟩
  · intro hc waits
    have door : ∀ sq, s.door sq f n v = waits (.door sq v) := door_away hg hq hc
    exact ⟨sqDb_exec h (door true), cqDb_exec h (door false), qEnable_exec h (queueCtrl_away hq hc true), qDisable_exec h (queueCtrl_away hq hc false)⟩
  · intro hc w moved u
    have sq : ∀ {t}, (s.useCtx g).sqDoor g (v % 2 ^ 32) = t → exec (.hifSqDb f n v) s = .next (s.settle t) := fun e =>
      sqDb_exec h ((door_sq hg hq hc).trans e)
    have cq : ∀ {t}, (s.useCtx g).cqDoor g v = t → exec (.hifCqDb f n v) s = .next (s.settle t) := fun e =>
      cqDb_exec h ((door_cq hg hq hc).trans e)
    refine ⟨fun hs => sq (sqDoor_used.trans (if_pos hs)), fun hs hm => sq (sqDoor_used.trans ((if_neg hs).trans (if_pos hm))),
      fun hs hm hr => sq (sqDoor_used.trans ((if_neg hs).trans ((if_neg (Nat.not_le.2 hm)).trans (if_pos hr)))), fun hs hm hr => ?_, fun hp => ?_, ?_⟩
    · have hf : ¬ s.q g Q.STATE = qFree := by rw [hs]; decide
      exact sq (sqDoor_used.trans ((if_neg hf).trans ((if_neg (Nat.not_le.2 hm)).trans ((if_neg (Nat.not_le.2 hr)).trans (if_pos hs)))))
    · refine cq (cqDoor_eq.trans ?_)
      simp only [q_useCtx, ownerOf_useCtx]
      exact if_pos (.inr hp)
    · intro hs hp hb
      have hbu : (u.c g).b.length = 256 := by
        rw [c_useCtx]
        split
        · exact hb
        · exact hb
      have hsu : u.q g Q.CQ_STATE = cqReady := (q_useCtx g Q.CQ_STATE).trans hs
      have hwu : u.hif.wait = s.hif.wait := by
        simp only [u, State.useCtx, hc, if_true]
        rfl
      have cq : ∀ {t}, ((u.cqMoved g v).flushCq g).cqRelieved g = t → exec (.hifCqDb f n v) s = .next (s.settle t) := fun e =>
        cq (cqDoor_eq.trans ((if_neg (by
          simp only [q_useCtx, hs]
          rintro (hx | hx)
          · cases hx
          · exact Nat.not_lt.2 hp hx)).trans e))
      refine ⟨fun hv hw => cq ?_, fun hv hw => cq ?_, fun e hv hw he hst hlk hroom => cq ?_⟩
      · rw [cqMoved_done hbu hsu (hwu.trans hw), cqMoved_plain hv]
      · rw [cqMoved_done hbu hsu (hwu.trans hw), cqMoved_armed hbu hv, q_useCtx]
      · subst he
        have hbm := length_setQ (q := Q.CI) (v := w) hbu (by decide)
        have hsm : (u.setQ e.cq Q.CI w).q e.cq Q.CQ_STATE = cqReady := (q_setQ_ne hbu (by decide) (by decide)).trans hsu
        have keep : ∀ r : Nat × Nat, r = Q.PI ∨ r = Q.CQ_LOG → (u.setQ e.cq Q.CI w).q e.cq r = s.q e.cq r := by
          rintro r (rfl | rfl)
          all_goals exact (q_setQ_ne hbu (by decide) (by decide)).trans (q_useCtx _ _)
        have hci : (u.setQ e.cq Q.CI w).q e.cq Q.CI = w := by
          rw [q_setQ_same hbu (by decide), show 256 ^ Q.CI.2 = 2 ^ 32 from by norm_num, Nat.mod_mod]
        have hmarks : ((u.setQ e.cq Q.CI w).c e.cq).cached = true ∧ ((u.setQ e.cq Q.CI w).c e.cq).stub = false := by
          obtain ⟨m1, m2⟩ := marks_setQ (s := u) (g := e.cq) (q := Q.CI) w
          rw [m1, m2, c_useCtx, if_pos ⟨rfl, hc⟩]
          exact ⟨hc, hst⟩
        have hsame : (u.setQ e.cq Q.CI w).linkUpPf ((u.setQ e.cq Q.CI w).pfOf e.cq) = true ∧ (u.setQ e.cq Q.CI w).spill = false := by
          have : ∀ t : State, t = s ∨ t = s.modCtx e.cq id → (t.setQ e.cq Q.CI w).linkUpPf ((t.setQ e.cq Q.CI w).pfOf e.cq) = true ∧
              (t.setQ e.cq Q.CI w).spill = false := by
            rintro t (rfl | rfl)
            · exact ⟨hlk, spill_of_live hl⟩
            · exact ⟨hlk, spill_of_live hl⟩
          exact this u (.inr (if_pos hc))
        have hflush := flushCq_one (s := u.setQ e.cq Q.CI w) (hwu.trans hw) hmarks.1 hmarks.2 hbm hsm
          (by rw [keep _ (.inl rfl), keep _ (.inr rfl), hci]; exact hroom) hsame.1 hsame.2
        rw [cqMoved_plain hv, hflush]
        exact if_neg (writeCqe_parts (s := (u.setQ e.cq Q.CI w).modHif (fun h => { h with wait := [] })) e hbm hsm).2
  · intro hc hs
    have need := ctrlNeeds_notOff hc hs
    refine ⟨fun hon => qEnable_exec h ((queueCtrl_set need).trans (if_pos hon)), fun hoff ha => qEnable_exec h ((queueCtrl_set need).trans ?_)⟩
    rw [if_neg (by rw [hoff]; decide), queueEnable_other ha hs]
    rfl
  · intro hc hs hoff hcq hrcq ok
    have set : s.queueCtrl g true = (s.queueEnable g).getD (s.raise .CFG_REJECT) :=
      (queueCtrl_set (ctrlNeeds_ready hc hcq hrcq)).trans (if_neg (by rw [hoff]; decide))
    refine ⟨fun hok => qEnable_exec h (set.trans ?_), fun h1 h2 => qEnable_exec h (set.trans ?_)⟩
    · rw [queueEnable_off hs, if_neg]
      · rfl
      · simp only [ok] at hok
        rw [hok, Bool.false_and]
        decide
    · rw [queueEnable_off hs, if_pos]
      · rfl
      · simp only [ok] at h1 h2
        rw [h1, h2]
        rfl
  · intro hc hs he
    exact qDisable_exec h ((queueCtrl_clear hc).trans (queueDisable_idle hs he))

end Sys2Proof.Machine
end

section
/-! Event rings, vectors and push windows (R219, R244, R245, R253). -/

namespace Sys2Proof.Machine

section
variable {s : State} {f : Fn}

/-! ### The doorbell of an event ring -/

theorem eqDoor_eq (e v : Nat) : s.eqDoor f e v =
    if s.eqCount f ≤ e then s
    else if s.unread (s.ringOf f e).1 (s.ringOf f e).2 < diff32 (v % 2 ^ 32) (s.rdI F.HIF_EQ_DB.CI (s.ringOf f e).1 (s.ringOf f e).2) then
      (s.incI F.HIF_COUNT.DB_BAD (fnInst f) 0).raise .HIF_DB_BAD (s.ringOf f e).2
    else
      let i := (s.ringOf f e).1
      let r := (s.ringOf f e).2
      let t := s.wrI F.HIF_EQ_DB.CI i r (v % 2 ^ 32)
      ((if bit v 32 then t.wrI F.HIF_EQ_STATUS.ARMED i r 1 else t).flushEv i r).msiCheck i r := rfl

theorem eqDb_exec {e v : Nat} {t : State} (h : s.serves (.fn f) .HIF_EQ_DB e = true) (he : e < s.eqCount f) (hd : s.eqDoor f e v = t) (ha : s.Calm t) :
    exec (.hifEqDb f e v) s = .next (s.settle t) := by
  have run : exec (.hifEqDb f e v) s = powered s (fun s => s.regCmd (.fn f) .HIF_EQ_DB e v) := rfl
  refine run.trans (regCmd_exec h ?_)
  have hu : (s.unusedOut .HIF_EQ_DB e || s.ringOut (.fn f) .HIF_EQ_DB e) = false := by
    have hr : s.ringOut (.fn f) .HIF_EQ_DB e = decide (s.eqCount f ≤ e) := rfl
    rw [hr, decide_eq_false (Nat.not_le.2 he)]
    rfl
  have hf : (whoFn (.fn f)).getD (.pf 0) = f := rfl
  unfold State.writeReg
  simp only [hu, hf, Bool.false_eq_true, if_false, hd]
  exact ha.rejectOnce

/-! ### The message of a ring -/

theorem ringOwner_wrI (d : Fld) (a i x : Nat) (hd : d.reg.code ≠ Reg.HIF_VF_MAP.code) (p e : Nat) : (s.wrI d a i x).ringOwner p e = s.ringOwner p e := by
  have hb : ∀ v, (s.wrI d a i x).vfMap F.HIF_VF_MAP.EQBASE p v = s.vfMap F.HIF_VF_MAP.EQBASE p v := fun v =>
    rdI_wrI_ne s x (fun hc => hd (hc.1 ▸ rfl))
  have hc : ∀ v, (s.wrI d a i x).vfMap F.HIF_VF_MAP.EQCOUNT p v = s.vfMap F.HIF_VF_MAP.EQCOUNT p v := fun v =>
    rdI_wrI_ne s x (fun hc => hd (hc.1 ▸ rfl))
  unfold State.ringOwner
  simp only [hb, hc]
  rfl

/-- The message of a ring goes out, or pends while its vector is masked. -/
theorem sendMsi_eq (h : s.spill = false) (i e : Nat) : s.sendMsi i e =
    let o := s.ringOwner i e
    let v := s.rdI F.HIF_EQ_CFG.VECTOR i e
    let x := s.vec (fnInst o) v
    let t := s.wrI F.HIF_EQ_STATUS.ARMED i e 0
    if x.2.2 then (if s.hif.pba.contains (fnInst o * 2048 + v) then t else t.modHif (fun h => { h with pba := h.pba ++ [fnInst o * 2048 + v] }))
    else t.emit (.msix o v x.1 x.2.1) := by
  have hv : (s.wrI F.HIF_EQ_STATUS.ARMED i e 0).rdI F.HIF_EQ_CFG.VECTOR i e = s.rdI F.HIF_EQ_CFG.VECTOR i e :=
    rdI_wrI_ne s 0 (fun hc => absurd hc.1 (by decide))
  unfold State.sendMsi
  rw [h]
  simp only [Bool.false_eq_true, if_false, ringOwner_wrI F.HIF_EQ_STATUS.ARMED i e 0 (by decide), hv]
  rfl

theorem modTime_due {e : Nat} (h : s.rdI F.HIF_EQ_CFG.ENABLE (s.ringOf f e).1 (s.ringOf f e).2 = 1)
    (ha : s.rdI F.HIF_EQ_STATUS.ARMED (s.ringOf f e).1 (s.ringOf f e).2 = 1) (hu : 0 < s.unread (s.ringOf f e).1 (s.ringOf f e).2)
    (hm : s.rdI F.HIF_EQ_CFG.MOD_TIME (s.ringOf f e).1 (s.ringOf f e).2 ≠ 0) :
    s.modTime f e = s.sendMsi (s.ringOf f e).1 (s.ringOf f e).2 := if_pos ⟨h, ha, hu, hm⟩

theorem modTime_exec {e : Nat} {t : State} (h : s.live = true) (hd : s.modTime f e = t) : exec (.modTimeExpire f e) s = .next (s.settle t) := by
  have run : exec (.modTimeExpire f e) s = running s (fun s => s.modTime f e) := rfl
  exact run.trans (running_eq h hd)

/-! ### A vector that is unmasked -/

/-- The place of a vector's control word in BAR0. -/
theorem fnLoc_msix {v : Nat} (h : v < (match f with | .pf _ => 2048 | .vf _ _ => 64)) : s.fnLoc f .bar0 (msixAddr f v + 12) = .msix v 12 := by
  cases f with
  | pf p =>
    have hv : v < 2048 := h
    have hl : s.fnLoc (.pf p) .bar0 (msixAddr (.pf p) v + 12) = pfLoc (0x2000000 + 16 * v + 12) := rfl
    have h1 : 0x2000000 ≤ 0x2000000 + 16 * v + 12 := by omega
    have h2 : 0x2000000 + 16 * v + 12 < 0x2008000 := by omega
    rw [hl, pfLoc, if_pos h1, if_pos h2, show (0x2000000 + 16 * v + 12 - 0x2000000) / 16 = v by omega, show (0x2000000 + 16 * v + 12) % 16 = 12 by omega]
  | vf p w =>
    have hv : v < 64 := h
    have hl : s.fnLoc (.vf p w) .bar0 (msixAddr (.vf p w) v + 12) = vfLoc (s.rdI F.PEG_VF_MAP.PCOUNT p.val w.val) (0x400000 + 16 * v + 12) := rfl
    have h1 : 0x400000 ≤ 0x400000 + 16 * v + 12 := by omega
    have h2 : 0x400000 + 16 * v + 12 < 0x400400 := by omega
    rw [hl, vfLoc, if_pos h1, if_pos h2, show (0x400000 + 16 * v + 12 - 0x400000) / 16 = v by omega, show (0x400000 + 16 * v + 12) % 16 = 12 by omega]

/-- The table entry of a vector with the mask bit cleared. -/
theorem vecBytes_unmasked (a d : Nat) (m : Bool) (ha : a < 2 ^ 64) (hd : d < 2 ^ 32) :
    let b := putBytes (leBytes 8 a ++ leBytes 4 d ++ leBytes 4 (b2n m)) 12 (leBytes 4 0)
    leAt b 0 8 = a ∧ leAt b 8 4 = d ∧ leAt b 12 4 = 0 := by
  have hlen : (leBytes 8 a ++ leBytes 4 d ++ leBytes 4 (b2n m)).length = 16 := by simp
  refine ⟨?_, ?_, ?_⟩
  · rw [leAt_put_ne (by rw [hlen]) (.inl (by decide)), List.append_assoc, leAt_leBytes]
    exact Nat.mod_eq_of_lt (by simpa using ha)
  · rw [leAt_put_ne (by rw [hlen]) (.inl (by decide))]
    unfold leAt
    rw [List.append_assoc, List.drop_left' (leBytes_length 8 a)]
    exact (leAt_leBytes 4 d _).trans (Nat.mod_eq_of_lt (by simpa using hd))
  · exact (leAt_put_same (by rw [hlen])).trans (Nat.zero_mod _)

/-- The vector's table entry, unmasked. -/
def State.unmasked (s : State) (f : Fn) (v : Nat) : State :=
  let x := s.vec (fnInst f) v
  s.modHif (fun h => { h with msix := tabPut h.msix (fnInst f * 2048 + v) (x.1, x.2.1, false) })

theorem vec_unmasked (v : Nat) : (s.unmasked f v).vec (fnInst f) v = ((s.vec (fnInst f) v).1, (s.vec (fnInst f) v).2.1, false) := by
  simp only [State.unmasked, State.vec, State.modHif, tabGetD, tabGet_put_same, Option.getD_some]

theorem unmasked_unmasked (v : Nat) : (s.unmasked f v).unmasked f v = s.unmasked f v := by
  rw [State.unmasked, vec_unmasked]
  simp only [State.unmasked, State.modHif, tabPut_put]

theorem unmask_eq (h : s.spill = false) (v : Nat) : s.unmask f v =
    if s.hif.pba.contains (fnInst f * 2048 + v) then
      ((s.unmasked f v).modHif (fun h => { h with pba := h.pba.erase (fnInst f * 2048 + v) })).emit
        (.msix f v (s.vec (fnInst f) v).1 (s.vec (fnInst f) v).2.1)
    else s.unmasked f v := by
  have hu : s.unmask f v = if s.hif.pba.contains (fnInst f * 2048 + v) && !s.spill then
      ((s.unmasked f v).modHif (fun h => { h with pba := h.pba.erase (fnInst f * 2048 + v) })).emit
        (.msix f v (s.vec (fnInst f) v).1 (s.vec (fnInst f) v).2.1)
    else s.unmasked f v := rfl
  rw [hu, h, Bool.not_false, Bool.and_true]

theorem msixWrite_unmask {v : Nat} (h : s.spill = false) (hm : (s.vec (fnInst f) v).2.2 = true) (ha : (s.vec (fnInst f) v).1 < 2 ^ 64)
    (hd : (s.vec (fnInst f) v).2.1 < 2 ^ 32) : s.msixWrite f v 12 4 0 = (s.unmasked f v).unmask f v := by
  obtain ⟨h0, h8, h12⟩ := vecBytes_unmasked (s.vec (fnInst f) v).1 (s.vec (fnInst f) v).2.1 (s.vec (fnInst f) v).2.2 ha hd
  have hs : (s.spill || !((4 == 4 || 4 == 8) && 12 % 4 == 0)) = false := by rw [h]; rfl
  have hb : bit 0 0 = false := rfl
  unfold State.msixWrite
  rw [if_neg (by rw [hs]; decide)]
  dsimp only
  rw [h0, h8, h12, hb, if_pos (by rw [hm]; rfl)]
  rfl

theorem pwrok_of_answers (h : s.hostAnswers f = true) : s.pins.pwrok = true := by
  unfold State.hostAnswers at h
  simp only [Bool.and_eq_true] at h
  exact h.1.1

theorem msixUnmask_exec {v : Nat} (hl : s.hostAnswers f = true) (hc : s.postedCredit = true) (h : s.spill = false) (hz : s.sleeps f (.msix v 12) = false)
    (hloc : s.fnLoc f .bar0 (msixAddr f v + 12) = .msix v 12) (hm : (s.vec (fnInst f) v).2.2 = true) (ha : (s.vec (fnInst f) v).1 < 2 ^ 64)
    (hd : (s.vec (fnInst f) v).2.1 < 2 ^ 32) :
    exec (.msixUnmask f v) s = .next (s.settle ((s.unmasked f v).unmask f v)) := by
  have run : exec (.msixUnmask f v) s = powered s (fun s => s.fnWrite f .bar0 (msixAddr f v + 12) 4 0) := rfl
  refine run.trans (powered_eq (pwrok_of_answers hl) ?_)
  unfold State.fnWrite
  simp only [hl, hc, Bool.not_true, Bool.or_self, Bool.false_eq_true, if_false, hloc, hz]
  exact msixWrite_unmask h hm ha hd

/-! ### Push windows -/

theorem tabDel_del {v : Type} (t : Tab v) (i : Nat) : tabDel (tabDel t i) i = tabDel t i := by
  induction t with
  | nil => rfl
  | cons e r ih =>
    obtain ⟨k, y⟩ := e
    by_cases h : i = k <;> simp [tabDel, h, ih]
    exact h ▸ ih

theorem tabPut_length {v : Type} (t : Tab v) (i : Nat) (x : v) : (tabPut t i x).length ≤ t.length + 1 := by
  induction t with
  | nil => simp [tabPut]
  | cons e r ih =>
    obtain ⟨k, y⟩ := e
    unfold tabPut
    split
    · simp
    · split
      · simp
      · simpa using ih

/-- A key beyond those of a table goes to its end. -/
theorem tabPut_last {v : Type} {t : Tab v} {i : Nat} (x : v) (h : ∀ e ∈ t, e.1 < i) : tabPut t i x = t ++ [(i, x)] := by
  induction t with
  | nil => rfl
  | cons e r ih =>
    have hk : e.1 < i := h e List.mem_cons_self
    obtain ⟨k, y⟩ := e
    have hk : k < i := hk
    rw [tabPut, if_neg (by omega), if_neg (by omega), ih (fun e he => h e (List.mem_cons_of_mem _ he)), List.cons_append]

/-- Bytes put one after the other stand one after the other. -/
theorem foldl_put_zipIdx (b : Bytes) (k : Nat) (t : Tab Byte) (h : ∀ e ∈ t, e.1 < k) :
    ((b.zipIdx k).map (fun e => (e.2, e.1))).foldl (fun t e => tabPut t e.1 e.2) t = t ++ (b.zipIdx k).map (fun e => (e.2, e.1)) := by
  induction b generalizing k t with
  | nil => simp
  | cons a r ih =>
    rw [List.zipIdx_cons, List.map_cons, List.foldl_cons, tabPut_last a h, ih (k + 1) (t ++ [(k, a)])]
    · simp
    · intro e he
      rcases List.mem_append.1 he with he | he
      · exact Nat.lt_succ_of_lt (h e he)
      · rw [List.mem_singleton.1 he]
        exact Nat.lt_succ_self k

theorem half_setHalf (g k : Nat) (x : Half) : (s.setHalf g k x).half g k = x := tabGetD_set_same _ _ _ _

/-- A half that is cleared stays as if it had never been written. -/
theorem setHalf_clear (g k : Nat) (x : Half) : (s.setHalf g k x).setHalf g k ⟨[], 0⟩ = s.setHalf g k ⟨[], 0⟩ := by
  have hd : ∀ t : Tab Half, tabDel (tabSet t (2 * g + k) ⟨[], 0⟩ x) (2 * g + k) = tabDel t (2 * g + k) := fun t => by
    unfold tabSet
    split
    · exact tabDel_del _ _
    · exact tabDel_put _ _ _
  have hset : ∀ t : Tab Half, tabSet t (2 * g + k) ⟨[], 0⟩ ⟨[], 0⟩ = tabDel t (2 * g + k) := fun t => if_pos rfl
  simp only [State.setHalf, State.modHif, hset, hd]

/-- The bytes of a write at offset `o` of a window that fall into its half `k`. -/
def pushPart (o : Nat) (b : Bytes) (k : Nat) : List (Nat × Byte) :=
  (((b.zipIdx).map (fun e => (o + e.2, e.1))).filter (fun e => e.1 / 64 == k)).map (fun e => (e.1 % 64, e.2))

theorem pushPart_byte {o : Nat} (b : Byte) (h : o < 64) : pushPart o [b] 0 = [(o, b)] ∧ pushPart o [b] 1 = [] := by
  have hd : o / 64 = 0 := Nat.div_eq_of_lt h
  simp [pushPart, hd, Nat.mod_eq_of_lt h]

theorem pushPart_half {b : Bytes} (h : b.length ≤ 64) : pushPart 0 b 0 = b.zipIdx.map (fun e => (e.2, e.1)) ∧ pushPart 0 b 1 = [] := by
  have low : ∀ e ∈ b.zipIdx, e.2 < 64 := fun e he => by
    have := (List.mem_zipIdx he).2.1
    omega
  unfold pushPart
  constructor
  · rw [List.filter_eq_self.2, List.map_map]
    · refine List.map_congr_left (fun e he => ?_)
      have := low e he
      simp [Nat.mod_eq_of_lt this]
    · intro e he
      obtain ⟨d, hd, rfl⟩ := List.mem_map.1 he
      have := low d hd
      simp [Nat.div_eq_of_lt this]
  · rw [List.filter_eq_nil_iff.2]
    · rfl
    · intro e he
      obtain ⟨d, hd, rfl⟩ := List.mem_map.1 he
      have := low d hd
      simp [Nat.div_eq_of_lt this]

section
variable {n g : Nat} (h : s.page f n g = true)
include h

theorem pushWrite_page (o : Nat) (b : Bytes) : s.pushWrite f n o b = (s.pushHalf g 0 (pushPart o b 0)).pushHalf g 1 (pushPart o b 1) := by
  obtain ⟨_, _, _, _, hg, _⟩ := page_parts h
  simp only [State.pushWrite, hg]
  rfl

theorem pushWrite_exec {o : Nat} {b : Bytes} {t : State} (ho : o < 128) (e : s.pushWrite f n o b = t) :
    exec (.pushWrite f n o b) s = .next (s.settle t) := by
  obtain ⟨hl, he, ha, hc, hg, hb, hw, hz⟩ := page_parts h
  have run : exec (.pushWrite f n o b) s = powered s (fun s => s.pushTo f n o b) := rfl
  have hu : unitOfGroup 7 = uHIF := rfl
  have ho' : decide (128 ≤ o) = false := decide_eq_false (by omega)
  refine run.trans (powered_eq (pwrok_of_live hl) ?_)
  simp only [State.pushTo, ha, ho', hc, Bool.not_true, Bool.or_self, Bool.false_eq_true, if_false, State.sleeps, State.locGated, Loc.blk, hu, hw, hz,
    Bool.and_false, State.windowWrite, State.pagesOn, hl, he, Bool.and_self, hb, hg, Option.isNone_some, e]

end

theorem pushHalf_nil (g k : Nat) : s.pushHalf g k [] = s := by
  simp [State.pushHalf]

theorem pushHalf_fresh {g k : Nat} {bs : List (Nat × Byte)} (hb : bs.isEmpty = false) (hf : (s.half g k).full = false)
    (hn : bs.any (fun b => (tabGet (s.half g k).bytes b.1).isSome) = false) :
    s.pushHalf g k bs = (s.setHalf g k { s.half g k with bytes := bs.foldl (fun t b => tabPut t b.1 b.2) (s.half g k).bytes }).pushCheck g :=
  (if_neg (by rw [hb, hf]; decide)).trans (if_neg (by rw [hn]; decide))

/-- A byte that its half does not hold waits there. -/
theorem pushHalf_byte {g o : Nat} (b : Byte) (hn : tabGet (s.half g 0).bytes o = none) (hl : (s.half g 0).bytes.length < 63) :
    s.pushHalf g 0 [(o, b)] = s.setHalf g 0 { s.half g 0 with bytes := tabPut (s.half g 0).bytes o b } := by
  have full : ∀ x : Half, x.bytes.length < 64 → x.full = false := fun x hx => beq_false_of_ne (by omega)
  refine (pushHalf_fresh rfl (full _ (by omega)) (by simp [hn])).trans (if_neg (fun hx => ?_))
  have hx := hx.1
  rw [half_setHalf, full _ (lt_of_le_of_lt (tabPut_length _ o b) (by omega))] at hx
  cases hx

/-- An entry that a push makes is at DB, and DB moves past it (R245). -/
theorem pushDone_taken {g : Nat} {b : Bytes} {x : Half} (hx : (s.half g 0) = x) (hxb : x.bytes.map (·.2) = b) (h1 : leAt b 2 1 = 1)
    (hc : (s.c g).cached = true) (hq : s.q g Q.STATE = qActive) (hf : bit (s.q g Q.FLAGS) 0 = true) (hi : leAt b 4 2 = s.q g Q.DB % 65536)
    (hr : diff32 (add32 (s.q g Q.DB) 1) (s.q g Q.TAKEN) ≤ 2 ^ s.q g Q.LOG_SIZE) :
    s.pushDone g = ((s.setHalf g 0 ⟨[], 0⟩).setHalf g 1 ⟨[], 0⟩).modCtx g (fun c =>
      { c.put Q.DB (add32 (s.q g Q.DB) 1) with
        asked := if c.asked = s.q g Q.DB then add32 (s.q g Q.DB) 1 else c.asked, slots := tabPut c.slots (s.q g Q.DB) b }) := by
  have take : (s.c g).cached = true ∧ (s.c g).f Q.STATE = qActive ∧ bit ((s.c g).f Q.FLAGS) 0 = true ∧ (1 = 1 ∨ 1 = 2) ∧
      leAt b 4 2 = (s.c g).f Q.DB % 65536 ∧ diff32 (add32 ((s.c g).f Q.DB) 1) ((s.c g).f Q.TAKEN) ≤ 2 ^ (s.c g).f Q.LOG_SIZE :=
    ⟨hc, hq, hf, .inl rfl, hi, hr⟩
  have h12 : ¬ (1 : Nat) = 2 := by decide
  unfold State.pushDone
  rw [hx, hxb]
  dsimp only
  rw [h1, if_pos take]
  simp only [h12, if_false]
  rfl

theorem pushHalf_entry {g : Nat} {b : Bytes} (hb : b.length = 64) (h0 : s.half g 0 = ⟨[], 0⟩) (h1 : leAt b 2 1 = 1)
    (hc : (s.c g).cached = true) (hq : s.q g Q.STATE = qActive) (hf : bit (s.q g Q.FLAGS) 0 = true) (hi : leAt b 4 2 = s.q g Q.DB % 65536)
    (hr : diff32 (add32 (s.q g Q.DB) 1) (s.q g Q.TAKEN) ≤ 2 ^ s.q g Q.LOG_SIZE) :
    s.pushHalf g 0 (pushPart 0 b 0) = ((s.setHalf g 0 ⟨[], 0⟩).setHalf g 1 ⟨[], 0⟩).modCtx g (fun c =>
      { c.put Q.DB (add32 (s.q g Q.DB) 1) with
        asked := if c.asked = s.q g Q.DB then add32 (s.q g Q.DB) 1 else c.asked, slots := tabPut c.slots (s.q g Q.DB) b }) := by
  obtain ⟨hpart, -⟩ := pushPart_half (b := b) (by omega)
  have hlen : (b.zipIdx.map (fun e => (e.2, e.1))).length = 64 := by simpa using hb
  have hnil : (b.zipIdx.map (fun e => (e.2, e.1))).isEmpty = false := by
    rw [List.isEmpty_eq_false_iff, ← List.length_pos_iff, hlen]
    decide
  have hput := foldl_put_zipIdx b 0 [] (by simp)
  have hbytes : (b.zipIdx.map (fun e => (e.2, e.1))).map (·.2) = b := by
    rw [List.map_map]
    exact List.zipIdx_map_fst 0 b
  rw [hpart, pushHalf_fresh hnil (by rw [h0]; rfl) (by rw [h0]; simp [tabGet]), h0, hput, List.nil_append]
  have hx := half_setHalf (s := s) g 0 ⟨b.zipIdx.map (fun e => (e.2, e.1)), 0⟩
  have hfull : (Half.mk (b.zipIdx.map (fun e => (e.2, e.1))) 0).full = true := beq_iff_eq.2 hlen
  have hcheck : ((s.setHalf g 0 ⟨b.zipIdx.map (fun e => (e.2, e.1)), 0⟩).half g 0).full ∧
      (leAt (((s.setHalf g 0 ⟨b.zipIdx.map (fun e => (e.2, e.1)), 0⟩).half g 0).bytes.map (·.2)) 2 1 ≠ 2 ∨
        ((s.setHalf g 0 ⟨b.zipIdx.map (fun e => (e.2, e.1)), 0⟩).half g 1).full) := by
    rw [hx, hbytes, h1]
    exact ⟨hfull, .inl (by decide)⟩
  rw [State.pushCheck, if_pos hcheck, pushDone_taken hx hbytes h1 hc hq hf hi hr, setHalf_clear]
  rfl

theorem pushExpire_exec {g : Nat} {k : Fin 2} (h : s.live = true) (hb : (s.half g k).bytes ≠ []) (hl : (s.half g k).bytes.length ≠ 64)
    (h2 : 2 ≤ (s.half g k).beats) : exec (.pushHalfExpire g k) s = .next (s.settle
      ((s.incI F.HIF_COUNT.PUSH_DROP (fnInst (s.ownerOf g)) 0).setHalf g k ⟨[], 0⟩)) := by
  have run : exec (.pushHalfExpire g k) s = running s (fun s => s.pushExpire g k.val) := rfl
  have hf : (s.half g k).full = false := beq_false_of_ne hl
  have he : (s.half g k).bytes.isEmpty = false := List.isEmpty_eq_false_iff.2 hb
  exact run.trans (running_eq h (if_pos (by rw [hf, he]; exact ⟨rfl, rfl, h2⟩)))

end

/-- Settles O25: rings, vectors and push windows, each by the lemma of its own. -/
theorem ringsVectorsAndPushes : Obligations.RingsVectorsAndPushes := by
  unfold Obligations.RingsVectorsAndPushes
  intro s f
  refine ⟨?_, ?_, ?_, ?_, ?_, fun g k hl hb hn h2 => pushExpire_exec hl hb hn h2⟩
  · intro e v h he i r ci
    have hin : ¬ s.eqCount f ≤ e := Nat.not_le.2 he
    refine ⟨fun hb => eqDb_exec h he ((eqDoor_eq e v).trans ((if_neg hin).trans (if_pos hb))) ?_, fun hb hv => eqDb_exec h he ?_ ?_⟩
    · exact State.Calm.trans (calm_of_acts rfl) (steady_calm.raise _ .HIF_DB_BAD r (by decide))
    · refine (eqDoor_eq e v).trans ((if_neg hin).trans ((if_neg (Nat.not_lt.2 hb)).trans ?_))
      dsimp only
      rw [if_neg (by rw [hv]; decide)]
    · exact steady_calm.after (steady_calm.msiCheck _ _ _) (steady_calm.after (steady_calm.drainEv _ _ _ _) (calm_of_acts rfl))
  · intro e hl i r hen ha hu hm o v x t
    have hmsi := (modTime_due hen ha hu hm).trans (sendMsi_eq (spill_of_live hl) i r)
    refine ⟨fun hx => modTime_exec hl (hmsi.trans ?_), fun hx hp => modTime_exec hl (hmsi.trans ?_)⟩
    · dsimp only
      rw [if_neg (by rw [hx]; decide)]
    · dsimp only
      rw [if_pos hx, hp, if_neg (by decide)]
  · intro v hl hc hs hz hv hm ha hd x
    have run := msixUnmask_exec hl hc hs hz (fnLoc_msix hv) hm ha hd
    have hun := unmask_eq (s := s.unmasked f v) (f := f) hs v
    rw [unmasked_unmasked, vec_unmasked] at hun
    refine ⟨fun hp => ⟨_, run, ?_⟩, fun hp => ⟨_, run, ?_⟩⟩
    · rw [hun.trans (if_pos hp)]
      exact ⟨rfl, rfl, vec_unmasked v⟩
    · rw [hun.trans (if_neg (fun hx => by rw [show (s.unmasked f v).hif.pba = s.hif.pba from rfl, hp] at hx; cases hx))]
      exact ⟨rfl, rfl, vec_unmasked v⟩
  · intro n g o b h ho hn hl
    refine pushWrite_exec h (by omega) ((pushWrite_page h o [b]).trans ?_)
    rw [(pushPart_byte b ho).1, (pushPart_byte b ho).2, pushHalf_byte b hn hl, pushHalf_nil]
  · intro n g b h hb h1 h0 hc hq hf hi hr db
    refine pushWrite_exec h (by decide) ((pushWrite_page h 0 b).trans ?_)
    rw [(pushPart_half (b := b) (by omega)).2, pushHalf_nil]
    exact pushHalf_entry hb h0 h1 hc hq hf hi hr

end Sys2Proof.Machine
end

section
/-! Reads of host memory that end: descriptors, contexts, slots of work rings and local data (R226, R228, R229, R243, Table 7.26). -/

namespace Sys2Proof.Machine

section
variable {s : State}

/-- Bytes that are all there are not padded. -/
theorem padded_whole {b z : Bytes} {n : Nat} (h : b.length = n) : (b ++ z).take n = b := h ▸ List.take_left

/-! ### Descriptors of queue commands -/

theorem descDone_exec {k : DescRead} {a : Ans} {t : State} (hl : s.live = true) (e : s.descDone k a = t) :
    exec (.descriptorFetchDone k a) s = .next (s.settle t) := by
  have run : exec (.descriptorFetchDone k a) s = running s (fun s => s.descDone k a) := rfl
  exact run.trans (running_eq hl e)

section
variable {f : Fn} {k : QCmd} (h : s.hif.cmds.find? (fun k => fnInst k.fn == fnInst f && k.desc) = some k)
include h

theorem queueDesc_refused {a : Ans} (ha : a = .err ∨ a = .poison) : s.queueDescDone f a = (s.raise .HIF_DMA_ERR).qcmdEnd f k.cmd 4 k.num := by
  unfold State.queueDescDone
  rw [h]
  rcases ha with rfl | rfl
  · rfl
  · rfl

variable {d : Bytes} (hd : d.length = 256)
include hd

theorem queueDesc_create (hk : k.cmd = 1) : s.queueDescDone f (.ok d) =
    if !queueDescOk d (s.qCount (s.ownerOf k.g)) || !s.transportOk f d || !s.matchOk (s.ownerOf k.g) d then s.qcmdEnd f 1 1 k.num
    else (s.modCtx k.g (fun c =>
      ({ c with b := d.take 32 ++ List.replicate 32 0 ++ (c.b.drop 64).take 64 ++ (transportInit d (c.f Q.QGEN)).drop 128,
                asked := 0, slots := [] } : Ctx).put Q.STATE qOff)).qcmdEnd f 1 0 k.num := by
  unfold State.queueDescDone
  rw [h]
  dsimp only
  rw [padded_whole hd, if_pos hk]

theorem queueDesc_cq (hk : k.cmd = 3) : s.queueDescDone f (.ok d) =
    if !cqDescOk d (s.eqCount (s.ownerOf k.g)) then s.qcmdEnd f 3 1 k.num
    else (s.modCtx k.g (fun c =>
      ({ c with b := putBytes c.b 64 ((d.drop 64).take 16 ++ List.replicate 44 0), stub := false } : Ctx).put Q.CQ_STATE cqReady)).qcmdEnd f 3 0 k.num := by
  unfold State.queueDescDone
  rw [h]
  dsimp only
  rw [padded_whole hd, if_neg (by rw [hk]; decide)]

end

/-! ### Contexts -/

section
variable {g : Nat} (h : s.hif.fetch.contains g = true) (hroom : (s.hif.ctx.filter (fun e => e.2.cached)).length < 32768)
include h hroom

theorem ctxFetched_refused : s.ctxFetched g .err =
    let t := (s.modHif (fun h => { h with fetch := h.fetch.erase g })).raise .HIF_DMA_ERR g
    (((((t.makeStub g).raiseOcc { occ .HIF_CTX_ERR g with
      addr := t.qctAddr g, info := 0, init := fnOwner (.pf (Fin.ofNat 4 (t.pfOf g))) }).replay g).flushCq g).ringFetch g).post (.ctxReady g) := by
  have hev : s.evict = some s := if_pos hroom
  unfold State.ctxFetched
  rw [h, if_neg (by decide), hev]

theorem ctxFetched_whole {b : Bytes} (hb : b.length = 256) (hc : leAt b 124 4 = crc32 (b.take 124 ++ b.drop 128)) : s.ctxFetched g (.ok b) =
    (((((s.modHif (fun h => { h with fetch := h.fetch.erase g })).modHif (fun h =>
      { h with ctx := tabPut h.ctx g { Ctx.of b with lastUse := h.clock }, clock := h.clock + 1 })).replay g).flushCq g).ringFetch g).post
      (.ctxReady g) := by
  have hev : s.evict = some s := if_pos hroom
  have ht : b.take 256 = b := List.take_of_length_le (by omega)
  unfold State.ctxFetched
  rw [h, if_neg (by decide), hev]
  dsimp only
  rw [ht, if_pos ⟨hc, by omega⟩]

end

theorem ctxFetched_exec {g : Nat} {a : Ans} {t : State} (hl : s.live = true) (e : s.ctxFetched g a = t) :
    exec (.contextFetchDone g a) s = .next (s.settle t) := by
  have run : exec (.contextFetchDone g a) s = running s (fun s => s.ctxFetched g a) := rfl
  exact run.trans (running_eq hl e)

/-! ### Slots of a work ring -/

theorem ringDone_exec {g : Nat} {a : Ans} {t : State} (hl : s.live = true) (e : s.ringDone g a = t) :
    exec (.ringReadDone g a) s = .next (s.settle t) := by
  have run : exec (.ringReadDone g a) s = running s (fun s => s.ringDone g a) := rfl
  exact run.trans (running_eq hl e)

theorem ringDone_stale {g i : Nat} (h : s.hif.rings.find? (fun r => r.1 == g) = some (g, i, 0)) (a : Ans) :
    s.ringDone g a = s.modHif (fun h => { h with rings := h.rings.eraseP (fun x => x.1 == g) }) := by
  unfold State.ringDone
  rw [h]
  rfl

section
variable {g i n : Nat} (h : s.hif.rings.find? (fun r => r.1 == g) = some (g, i, n)) (hn : n ≠ 0) (hq : s.q g Q.STATE = qActive)
include h hn hq

theorem ringDone_slots (b : Bytes) : s.ringDone g (.ok b) =
    ((s.modHif (fun h => { h with rings := h.rings.eraseP (fun x => x.1 == g) })).modCtx g (fun c => { c with
      slots := (cutSlots n i b).foldl (fun t e => if (tabGet t e.1).isSome then t else tabPut t e.1 e.2) c.slots })).ringFetch g := by
  unfold State.ringDone
  rw [h]
  dsimp only
  exact (if_neg hn).trans (if_neg (not_not.2 hq))

theorem ringDone_refused : s.ringDone g .err =
    ((s.modHif (fun h => { h with rings := h.rings.eraseP (fun x => x.1 == g) })).raise .HIF_DMA_ERR g).queueError g erFetch i := by
  unfold State.ringDone
  rw [h]
  dsimp only
  exact (if_neg hn).trans (if_neg (not_not.2 hq))

end

/-! ### Local data of an entry -/

theorem readDone_exec {i : Nat} {a : Ans} {t : State} (hl : s.live = true) (e : s.readDone i a = t) :
    exec (.dataReadDone i a) s = .next (s.settle t) := by
  have run : exec (.dataReadDone i a) s = running s (fun s => s.readDone i a) := rfl
  exact run.trans (running_eq hl e)

theorem readDone_data {r : Rd} {rest : List Rd} {g idx : Nat} (h : s.hif.reads = r :: rest) (hj : r.job = .data g idx) (a : Ans) :
    s.readDone 0 a = (s.modHif (fun h => { h with reads := rest })).dataRead g idx a := by
  have hf : s.readFirst 0 r.job = true := by simp [State.readFirst]
  have he : s.modHif (fun h => { h with reads := h.reads.eraseIdx 0 }) = s.modHif (fun h => { h with reads := rest }) := by
    simp only [State.modHif, h, List.eraseIdx_zero, List.tail_cons]
  unfold State.readDone
  rw [h, List.getElem?_cons_zero]
  dsimp only
  rw [hf, if_neg (by decide), he, hj]

section
variable {g idx : Nat} {e : Ent} (h : s.ent g idx = some e) (hf : e.fin = none)
include h hf

theorem dataRead_whole {b : Bytes} (hb : b.length = eLen e.b) : s.dataRead g idx (.ok b) = (s.entData g e b).post (.run g) := by
  unfold State.dataRead
  rw [h]
  dsimp only
  rw [hf, if_neg (by decide), padded_whole hb]

theorem dataRead_refused : s.dataRead g idx .err = ((s.raise .HIF_DMA_ERR g).entFail g e 7).post (.run g) := by
  unfold State.dataRead
  rw [h]
  dsimp only
  rw [hf, if_neg (by decide)]

end

end

/-- Settles O26: each read by what it was made for and by its answer. -/
theorem hostReadsEnd : Obligations.HostReadsEnd := by
  unfold Obligations.HostReadsEnd
  intro s g b hl
  refine ⟨fun f k a hk => ⟨fun ha => descDone_exec hl (queueDesc_refused hk ha), fun d hd hc ho => ?_, fun d hd hc ho ht hm => ?_, fun d hd hc ho => ?_⟩,
    ?_, fun i hr a => ringDone_exec hl (ringDone_stale hr a), ?_, ?_⟩
  · exact descDone_exec hl ((queueDesc_create hk hd hc).trans (if_pos (by rw [ho]; rfl)))
  · exact descDone_exec hl ((queueDesc_create hk hd hc).trans (if_neg (by rw [ho, ht, hm]; decide)))
  · exact descDone_exec hl ((queueDesc_cq hk hd hc).trans (if_neg (by rw [ho]; decide)))
  · intro hf hroom t goOn
    exact ⟨fun hb hc => ctxFetched_exec hl (ctxFetched_whole hf hroom hb hc), ctxFetched_exec hl (ctxFetched_refused hf hroom)⟩
  · intro i n hr hn hq t
    exact ⟨ringDone_exec hl (ringDone_slots hr hn hq b), ringDone_exec hl (ringDone_refused hr hn hq)⟩
  · intro r rest idx e hr hj he hf t
    have hent : t.ent g idx = some e := he
    exact ⟨fun hb => readDone_exec hl ((readDone_data hr hj (.ok b)).trans (dataRead_whole hent hf hb)),
      readDone_exec hl ((readDone_data hr hj .err).trans (dataRead_refused hent hf))⟩

end Sys2Proof.Machine
end

section
/-! Work entries at their taking (R235, R236, R238, R239, R243, R247, R299, Table 7.11). -/

namespace Sys2Proof.Machine

/-- An entry as it is taken. -/
def takenEnt (idx n : Nat) (b : Bytes) : Ent := ⟨idx, n, b, true, false, none, false, none, [], [], none, none, false⟩

/-- An entry joins those of its queue. -/
def State.joinEnt (s : State) (g : Nat) (e : Ent) : State := s.modCtx g (fun c => { c with ents := c.ents ++ [e] })

/-- A queue that took an entry asks for more slots, and runs. -/
def State.tookOn (s : State) (g : Nat) : State := (s.ringFetch g).post (.run g)

section
variable {s t : State} {g n : Nat} {b : Bytes} {ok : Nat → Bool}

/-- What an entry without a fault begins with: its fragment table, the check of its landing, or nothing. -/
def State.joined (t : State) (g idx n : Nat) (b : Bytes) : State :=
  if eFrag b then
    let u := t.joinEnt g { takenEnt idx n b with ready := false }
    (u.modHif (fun h => { h with reads := h.reads ++ [⟨.frag g idx, u.ownerOf g, 16 * leAt b 72 2⟩] })).readHost (u.ownerOf g) (leAt b 64 8)
      (16 * leAt b 72 2)
  else if eOp b = oRecv then (t.joinEnt g { takenEnt idx n b with ready := false }).recvCheck g (takenEnt idx n b)
  else t.joinEnt g (takenEnt idx n b)

theorem takeEntry_none (h : s.serve ok = none) : s.takeEntry ok = s := by
  unfold State.takeEntry
  rw [h]

section
variable (h : s.serve ok = some (g, n, b, t))
include h

theorem takeEntry_bad {why : Nat} (hb : t.entryBad g (diff32 (t.q g Q.TAKEN) n) b = some why) : s.takeEntry ok =
    ((t.joinEnt g { takenEnt (diff32 (t.q g Q.TAKEN) n) n b with fin := some ⟨2, 0, 0, 0, 0⟩ }).queueError g why
      (diff32 (t.q g Q.TAKEN) n)).tookOn g := by
  unfold State.takeEntry
  rw [h]
  dsimp only
  rw [hb]
  rfl

theorem takeEntry_good (hb : t.entryBad g (diff32 (t.q g Q.TAKEN) n) b = none) : s.takeEntry ok =
    (if eOp b = oRecv ∨ eOp b = oCancel then (t.joined g (diff32 (t.q g Q.TAKEN) n) n b).matTaken g (diff32 (t.q g Q.TAKEN) n)
      else t.joined g (diff32 (t.q g Q.TAKEN) n) n b).tookOn g := by
  unfold State.takeEntry
  rw [h]
  dsimp only
  rw [hb]
  rfl

end

theorem joined_frag (idx : Nat) (hf : eFrag b = true) : t.joined g idx n b =
    (((t.joinEnt g { takenEnt idx n b with ready := false }).modHif (fun h => { h with reads := h.reads ++
      [⟨.frag g idx, (t.joinEnt g { takenEnt idx n b with ready := false }).ownerOf g, 16 * leAt b 72 2⟩] })).readHost
      ((t.joinEnt g { takenEnt idx n b with ready := false }).ownerOf g) (leAt b 64 8) (16 * leAt b 72 2)) := if_pos hf

theorem joined_recv (idx : Nat) (hf : eFrag b = false) (ho : eOp b = oRecv) :
    t.joined g idx n b = (t.joinEnt g { takenEnt idx n b with ready := false }).recvCheck g (takenEnt idx n b) :=
  (if_neg (by rw [hf]; decide)).trans (if_pos ho)

theorem joined_plain (idx : Nat) (hf : eFrag b = false) (ho : eOp b ≠ oRecv) : t.joined g idx n b = t.joinEnt g (takenEnt idx n b) :=
  (if_neg (by rw [hf]; decide)).trans (if_neg ho)

/-- An entry that passed its checks with a fragment table is of an opcode that may have one (Table 7.11). -/
theorem mayFrag_of_good {idx : Nat} (h : t.entryBad g idx b = none) (hf : eFrag b = true) : mayFrag (eOp b) = true := by
  by_contra hm
  have hform : formBad b = true := by simp [formBad, hf, Bool.not_eq_true _ ▸ hm]
  unfold State.entryBad at h
  rw [hform] at h
  simp only [if_true] at h
  split at h
  · cases h
  · split at h
    · cases h
    · cases h

section
variable {e : Ent}

theorem recvCheck_waits (h : s.partsDue .lwrite (s.keyCtx g) e.parts ≠ []) :
    s.recvCheck g e = s.pagesAsk (s.partsDue .lwrite (s.keyCtx g) e.parts) := by
  unfold State.recvCheck
  split
  next hd => exact absurd hd h
  next => rfl

variable (h : s.partsDue .lwrite (s.keyCtx g) e.parts = [])
include h

theorem recvCheck_lands (hu : s.partsUse .lwrite (s.keyCtx g) e.parts = (true, t)) :
    s.recvCheck g e = t.modEnt g e.idx (fun x => { x with ready := true, regs := e.partRegs }) := by
  unfold State.recvCheck
  rw [h]
  dsimp only
  rw [hu]

theorem recvCheck_fails (hu : s.partsUse .lwrite (s.keyCtx g) e.parts = (false, t)) :
    s.recvCheck g e = t.modEnt g e.idx (fun x => { x with ready := true, fin := some ⟨0, stLocal, 0, 0, 0⟩ }) := by
  unfold State.recvCheck
  rw [h]
  dsimp only
  rw [hu]

end

/-- The ten rows of work entries. -/
def entryRows : List (Instr × (Nat → Bool)) := [(.nopEntry, fun o => o == oNop || !opAssigned o), (.putEntry, (· == oPut)),
  (.putImmEntry, (· == oPutImm)), (.getEntry, (· == oGet)), (.atomicEntry, (· == oAtomic)), (.sendEntry, (· == oSend)),
  (.recvEntry, (· == oRecv)), (.cancelEntry, (· == oCancel)), (.mcPutEntry, (· == oMcPut)), (.collectiveEntry, (· == oColl))]

theorem entry_exec {r : Instr × (Nat → Bool)} (hr : r ∈ entryRows) (hl : s.live = true) (hi : s.intact = true) {u : State} (e : s.takeEntry r.2 = u) :
    exec r.1 s = .next (s.settle u) := by
  have run : exec r.1 s = running s (fun s => s.serveEntry r.2) := by
    simp only [entryRows, List.mem_cons, List.not_mem_nil, or_false] at hr
    rcases hr with rfl | rfl | rfl | rfl | rfl | rfl | rfl | rfl | rfl | rfl <;> rfl
  exact run.trans (running_eq hl ((if_pos hi).trans e))

end

/-- Settles O27: each row takes the entry of the queue in turn, by its checks and its opcode. -/
theorem entriesAreTaken : Obligations.EntriesAreTaken := by
  unfold Obligations.EntriesAreTaken
  intro s t g n b hl hi rows r hr
  refine ⟨fun h => entry_exec hr hl hi (takeEntry_none h), ?_⟩
  intro h idx e add goOn
  refine ⟨fun why hb => entry_exec hr hl hi (takeEntry_bad h hb), fun hb => ?_⟩
  have listed : eOp b = oRecv ∨ eOp b = oCancel → ∀ {u}, t.joined g idx n b = u → exec r.1 s = .next (s.settle ((u.matTaken g idx).tookOn g)) :=
    fun ho u e => entry_exec hr hl hi ((takeEntry_good h hb).trans (by rw [if_pos ho, e]))
  have other : eOp b ≠ oRecv → eOp b ≠ oCancel → ∀ {u}, t.joined g idx n b = u → exec r.1 s = .next (s.settle (u.tookOn g)) :=
    fun h1 h2 u e => entry_exec hr hl hi ((takeEntry_good h hb).trans (by rw [if_neg (not_or.2 ⟨h1, h2⟩), e]))
  refine ⟨fun hf h1 h2 => other h1 h2 (joined_plain idx hf h1), fun hf ho => listed (.inr ho) (joined_plain idx hf (by rw [ho]; decide)), ?_, ?_⟩
  · intro hf u
    have hm := mayFrag_of_good hb hf
    exact other (fun ho => by rw [ho] at hm; cases hm) (fun ho => by rw [ho] at hm; cases hm) (joined_frag idx hf)
  · intro hf ho w due landed
    have recv : ∀ {u}, w.recvCheck g e = u → exec r.1 s = .next (s.settle ((u.matTaken g idx).tookOn g)) := fun e =>
      listed (.inl ho) ((joined_recv idx hf ho).trans e)
    exact ⟨fun hd => recv (recvCheck_waits hd), fun u hd => ⟨fun hu => recv (recvCheck_lands hd hu), fun hu => recv (recvCheck_fails hd hu)⟩⟩

end Sys2Proof.Machine
end

section
/-! The host's side: links, PERST_L, function resets, full CQs and LTR (R218, R233, R254, R390, R410, R419). -/

namespace Sys2Proof.Machine

section
variable {s : State}

/-! ### Links -/

theorem hostLinkDown_idle {pf : Fin 4} (h : s.linkUpPf pf = true) (hn : s.numbersOf (.pf pf) = []) :
    s.hostLinkDown pf.val = (s.wrI F.HIF_PORT_STATUS.LINK_UP pf 0 0).raise .HIF_LINK_DOWN := by
  have hpf : Fin.ofNat 4 pf.val = pf := Fin.ofNat_val_eq_self pf
  have hns : ((s.wrI F.HIF_PORT_STATUS.LINK_UP pf 0 0).raise .HIF_LINK_DOWN).numbersOf (.pf pf) = [] := hn
  unfold State.hostLinkDown
  rw [h, if_neg (by decide)]
  dsimp only
  rw [hpf, hns]
  rfl

/-- What a link that came up negotiated (R218). -/
def State.linkFields (s : State) (pf rate width : Nat) (flit cxl cache mem : Bool) : State :=
  let low := pf % 2 == 0 && s.imageEnables uCOH
  ((((((s.wrI F.HIF_PORT_STATUS.LINK_UP pf 0 1).wrI F.HIF_PORT_STATUS.FLIT pf 0 (b2n flit)).wrI F.HIF_PORT_STATUS.CXL pf 0 (b2n cxl)).wrI
    F.HIF_PORT_STATUS.CACHE pf 0 (b2n (cxl && cache && low))).wrI F.HIF_PORT_STATUS.MEM pf 0 (b2n (cxl && mem && low))).wrI
    F.HIF_PORT_STATUS.RATE pf 0 rate).wrI F.HIF_PORT_STATUS.WIDTH pf 0 width

theorem hostLinkUp_idle {pf : Fin 4} (rate width : Nat) (flit cxl cache mem : Bool) (h : s.pfExists pf = true) (hn : s.numbersOf (.pf pf) = [])
    (hh : s.hif.held = []) : s.hostLinkUp pf.val rate width flit cxl cache mem = s.linkFields pf rate width flit cxl cache mem := by
  have hpf : Fin.ofNat 4 pf.val = pf := Fin.ofNat_val_eq_self pf
  have hns : (s.linkFields pf rate width flit cxl cache mem).numbersOf (.pf pf) = [] := hn
  have hheld : (s.linkFields pf rate width flit cxl cache mem).hif.held = [] := hh
  have hup : s.hostLinkUp pf.val rate width flit cxl cache mem = if !s.pfExists pf then s else
      let t := foldS ((s.linkFields pf rate width flit cxl cache mem).numbersOf (.pf (Fin.ofNat 4 pf.val)))
        (s.linkFields pf rate width flit cxl cache mem) (fun s g => s.flushCq g)
      foldS ((t.hif.held.map (fun e => (e.inst, e.ring))).filter (fun e => e.1 == pf.val)) t (fun s e => s.flushEv e.1 e.2) := rfl
  rw [hup, h, if_neg (by decide), hpf, hns]
  dsimp only [foldS, List.foldl_nil]
  rw [hheld]
  rfl

theorem rdI_wrI_lo {d e : Fld} (a i b j x : Nat) (h : e.lo ≠ d.lo) : (s.wrI d a i x).rdI e b j = s.rdI e b j := rdI_wrI_ne s x (fun hk => h hk.2.1)

theorem b2n_mod_two (b : Bool) : b2n b % 2 = b2n b := by
  cases b <;> rfl

theorem linkFields_reads (pf rate width : Nat) (flit cxl cache mem : Bool) (hr : rate < 2 ^ F.HIF_PORT_STATUS.RATE.w)
    (hw : width < 2 ^ F.HIF_PORT_STATUS.WIDTH.w) :
    let t := s.linkFields pf rate width flit cxl cache mem
    t.linkUpPf pf = true ∧ t.rdI F.HIF_PORT_STATUS.RATE pf 0 = rate ∧ t.rdI F.HIF_PORT_STATUS.WIDTH pf 0 = width ∧
      t.rdI F.HIF_PORT_STATUS.CACHE pf 0 = b2n (cxl && cache && pf % 2 == 0 && s.imageEnables uCOH) ∧
      t.rdI F.HIF_PORT_STATUS.MEM pf 0 = b2n (cxl && mem && pf % 2 == 0 && s.imageEnables uCOH) := by
  dsimp only
  simp (disch := decide) only [State.linkFields, State.linkUpPf, rdI_wrI_lo, rdI_wrI_same, b2n_mod_two, Bool.and_assoc, pow_one]
  exact ⟨rfl, Nat.mod_eq_of_lt hr, Nat.mod_eq_of_lt hw, trivial, trivial⟩

/-! ### Registers of a function that is reset -/

theorem tabGet_absent {v : Type} {t : Tab v} {k : Nat} (h : ∀ e ∈ t, e.1 ≠ k) : tabGet t k = none := by
  induction t with
  | nil => rfl
  | cons e r ih =>
    have hk : e.1 ≠ k := h e List.mem_cons_self
    obtain ⟨i, x⟩ := e
    exact (if_neg (fun he => hk he.symm)).trans (ih (fun e he => h e (List.mem_cons_of_mem _ he)))

/-- The fields of a function whose registers are cleared read their reset values. -/
theorem rdI_clearInst {rs : List Reg} {r : Reg} (hr : r ∈ rs) {d : Fld} (hd : d ∈ r.fields) (a i : Nat) : (s.clearInst rs a).rdI d a i = rstOf d i := by
  have hreg : (rs.map Reg.code).contains d.reg.code = true := by
    rw [fields_reg hd, List.contains_iff_mem]
    exact List.mem_map_of_mem hr
  have hgone : tabGet (s.clearInst rs a).regs (fkey d a i) = none := by
    refine tabGet_absent (fun e he hk => ?_)
    have hkeep := (List.mem_filter.1 he).2
    simp only [hk, fkey, Nat.unpair_pair, BEq.rfl, hreg, Bool.and_self, Bool.not_true] at hkeep
    cases hkeep
  unfold State.rdI tabGetD
  rw [hgone]
  rfl

/-! ### The commands -/

section
variable {t : State}

theorem hostLinkDown_exec {pf : Fin 4} (hp : s.pins.pwrok = true) (e : s.hostLinkDown pf.val = t) :
    exec (.hostLinkDown pf) s = .next (s.settle (t.dropWaits [pf.val])) := by
  have run : exec (.hostLinkDown pf) s = powered s (fun s => (s.hostLinkDown pf.val).dropWaits [pf.val]) := rfl
  exact run.trans (powered_eq hp (by rw [e]))

theorem hostLinkUp_exec {pf : Fin 4} {rate width : Nat} {flit cxl cache mem : Bool} (hp : s.pins.pwrok = true) (h0 : s.pins.perst0 = false)
    (h1 : s.pins.perst1 = false) (hr : s.phase ≠ phRom) (e : s.hostLinkUp pf.val rate width flit cxl cache mem = t) :
    exec (.hostLinkUp pf rate width flit cxl cache mem) s = .next (s.settle t) := by
  have run : exec (.hostLinkUp pf rate width flit cxl cache mem) s = powered s (fun s =>
    if (if pf.val < 2 then s.pins.perst0 else s.pins.perst1) || s.phase == phRom then s
    else s.hostLinkUp pf.val rate width flit cxl cache mem) := rfl
  have hb : (s.phase == phRom) = false := beq_false_of_ne hr
  refine run.trans (powered_eq hp ?_)
  rw [h0, h1, hb, ite_self, if_neg (by decide), e]

theorem perstL_exec (h : Fin 2) (low : Bool) : exec (.perstL h low) s =
    powered (s.perstPin h.val low) (fun s => if low then s.hostReset h.val else s) := rfl

theorem pwrok_perstPin (h : Nat) (low : Bool) : (s.perstPin h low).pins.pwrok = s.pins.pwrok := by
  unfold State.perstPin State.modPins
  split <;> rfl

theorem flr_exec {f : Fn} (h : s.hostAnswers f = true) (e : s.flr f = t) : exec (.flr f) s = .next (s.settle t) := by
  have run : exec (.flr f) s = powered s (fun s => if s.hostAnswers f then s.flr f else s) := rfl
  exact run.trans (powered_eq (pwrok_of_answers h) ((if_pos h).trans e))

theorem ltrUpdate_exec {pf : Fin 4} {en : Bool} {a b : Nat} (h : s.hostAnswers (.pf pf) = true) (e : s.ltrUpdate pf.val en a b = t) :
    exec (.ltrUpdate pf en a b) s = .next (s.settle t) := by
  have run : exec (.ltrUpdate pf en a b) s = powered s (fun s => if s.hostAnswers (.pf pf) then s.ltrUpdate pf.val en a b else s) := rfl
  exact run.trans (powered_eq (pwrok_of_answers h) ((if_pos h).trans e))

theorem cqOverflow_exec {g : Nat} (h : s.live = true) (e : s.cqFullExpire g = t) : exec (.cqOverflow g) s = .next (s.settle t) := by
  have run : exec (.cqOverflow g) s = running s (fun s => s.cqFullExpire g) := rfl
  exact run.trans (running_eq h e)

end

theorem hostReset_fitted {h : Nat} (hf : s.fitted (uHIF + h) = true) : s.hostReset h =
    let pfs := [2 * h, 2 * h + 1].filter s.pfExists
    let down := foldS pfs s (fun s pf => s.clearInst [.HIF_PORT_STATUS] pf)
    let gone := (foldS pfs down (fun s pf => s.fnReset (.pf (Fin.ofNat 4 pf)) false)).pegPfReset pfs true
    let clear := foldS pfs gone (fun s pf => s.fnClear (.pf (Fin.ofNat 4 pf)))
    ((({ clear with pwr := { clear.pwr with ltr := clear.pwr.ltr.filter (fun e => !pfs.contains e.1) } } :
      State).dropWaits pfs).exportLost h).hostCopiesLost h := by
  unfold State.hostReset
  rw [hf, if_neg (by decide)]

end

/-- Settles O28: each event of the host's side. -/
theorem hostSideChanges : Obligations.HostSideChanges := by
  unfold Obligations.HostSideChanges
  intro s
  refine ⟨fun pf hp hl hn => hostLinkDown_exec hp (hostLinkDown_idle hl hn), fun pf rate width flit cxl cache mem hp h0 h1 hr hx hrate hwidth hn hh =>
    ⟨_, hostLinkUp_exec hp h0 h1 hr (hostLinkUp_idle rate width flit cxl cache mem hx hn hh),
      linkFields_reads pf rate width flit cxl cache mem hrate hwidth⟩, ?_, ?_,
    fun p h => flr_exec h rfl, ?_, fun pf en a b h => ltrUpdate_exec h rfl⟩
  · intro h low t
    have hpin : t.pins.pwrok = s.pins.pwrok := pwrok_perstPin h.val low
    refine ⟨fun hp => (perstL_exec h low).trans (congrArg Host.Outcome.next (if_neg (by rw [pwrok_perstPin, hp]; decide))), fun hp hlow => ?_, fun hp hlow hf => ?_⟩
    · exact (perstL_exec h low).trans (powered_eq (hpin.trans hp) (if_neg (by rw [hlow]; decide)))
    · exact (perstL_exec h low).trans (powered_eq (hpin.trans hp) ((if_pos hlow).trans (hostReset_fitted hf)))
  · intro p v h t
    exact ⟨flr_exec h rfl, fun r hr d hd i => rdI_clearInst hr hd _ i⟩
  · intro g hl hq
    exact ⟨fun hb => cqOverflow_exec hl (if_pos ⟨hq, hb⟩), fun hb => cqOverflow_exec hl (if_neg (fun hx => Nat.not_le.2 hb hx.2))⟩

end Sys2Proof.Machine
end

section
/-! Region commands and their result codes (R256, R258 to R260, Tables 8.20 and 8.21). -/

namespace Sys2Proof.Machine

section
variable {s t : State} {f : Fn} {n idx : Nat}

/-! ### The command register -/

theorem regCommand_exec {c : Nat} {i : Instr} (h : s.serves (.fn f) .RMA_REG_CMD 0 = true) (hb : s.rdI F.RMA_REG_RESULT.BUSY (fnInst f) 0 = 0)
    (hn : n < 2 ^ 24) (hi : (c, i) = (1, .regEnable f n) ∨ (c, i) = (2, .regDisable f n))
    (e : (if c = 1 then s.regEnable f n else s.regDisable f n) = t) (ha : s.Calm t) : exec i s = .next (s.settle t) := by
  have run : exec i s = powered s (fun s => s.regCmd (.fn f) .RMA_REG_CMD 0 (n % 2 ^ 24 * 256 + c)) ∧ 1 ≤ c ∧ c ≤ 2 := by
    simp only [Prod.mk.injEq] at hi
    rcases hi with ⟨rfl, rfl⟩ | ⟨rfl, rfl⟩
    · exact ⟨rfl, by decide, by decide⟩
    · exact ⟨rfl, by decide, by decide⟩
  obtain ⟨run, h1, h2⟩ := run
  refine run.trans (regCmd_exec h ?_)
  have hu : (s.unusedOut .RMA_REG_CMD 0 || s.ringOut (.fn f) .RMA_REG_CMD 0) = false := rfl
  have hcell : s.cellOf (.fn f) .RMA_REG_CMD 0 = (fnInst f, 0) := rfl
  have hcmd : (n % 2 ^ 24 * 256 + c) % 16 = c := by omega
  have hnum : bits (n % 2 ^ 24 * 256 + c) 8 24 = n := by
    simp only [bits]
    omega
  have hne : c ≠ 0 := by omega
  have htop : decide (2 < c) = false := decide_eq_false (by omega)
  have hbusy : (s.rdI F.RMA_REG_RESULT.BUSY (fnInst f) 0 == 1) = false := by rw [hb]; rfl
  have hf : (whoFn (.fn f)).getD (.pf 0) = f := rfl
  unfold State.writeReg
  simp only [hu, hcell, hf, Bool.false_eq_true, if_false, State.command, hcmd, hne, hbusy, htop, Bool.or_self, hnum, e]
  exact ha.rejectOnce

/-! ### REG_ENABLE -/

theorem regEnable_disabled (h : s.en uRMA = false) : s.regEnable f n = s.regEndOpen f 1 5 := by
  simp only [State.regEnable, h, Bool.not_false, if_true]

theorem regEnable_none (h : s.en uRMA = true) (hi : s.regIndex f n = none) : s.regEnable f n = s.regEndOpen f 1 3 := by
  simp only [State.regEnable, h, Bool.not_true, Bool.false_eq_true, if_false, hi]

theorem regEnable_some (h : s.en uRMA = true) (hi : s.regIndex f n = some idx) : s.regEnable f n =
    (((s.modRma (fun r => { r with cmds := r.cmds ++ [⟨f, 1, idx⟩] })).wrI F.RMA_REG_RESULT.BUSY (fnInst f) 0 1).wrI F.RMA_REG_RESULT.CMD
      (fnInst f) 0 1).readHost (.pf (Fin.ofNat 4 (idx / 2 ^ 22))) (s.descAddr idx) 64 := by
  have hb : ∀ d x, d.reg = .RMA_REG_RESULT → ∀ t : State, (t.wrI d (fnInst f) 0 x).descAddr idx = t.descAddr idx := fun d x hd t => by
    unfold State.descAddr
    rw [rdI_wrI_ne t x (fun hk => by rw [hd] at hk; exact absurd hk.1 (by decide))]
  simp only [State.regEnable, h, Bool.not_true, Bool.false_eq_true, if_false, hi, hb F.RMA_REG_RESULT.CMD 1 rfl, hb F.RMA_REG_RESULT.BUSY 1 rfl]
  rfl

/-! ### REG_DISABLE -/

/-- A page entry of a region that is closed serves nothing any more. -/
def closedRead (idx : Nat) (r : Rd) : Rd :=
  match r.job with
  | .page i _ => if i = idx then { r with job := .gone } else r
  | _ => r

/-- A CLOSING region without users is FREE with the next GEN (R259). -/
def State.regClosed (s : State) (f : Fn) (idx : Nat) : State :=
  let r := s.region idx
  let g := (r.f RG.GEN + 1) % 256
  (((s.modRma (fun x => { x with regions := tabDel x.regions idx })).modHif (fun h => { h with reads := h.reads.map (closedRead idx) })).writeDesc
    idx (descPut (descPut r.d RG.GEN g) RG.STATE 0)).regEnd f 2 0 (idx * 256 + g)

theorem regClose_some {k : RegCmd} (h : s.rma.cmds.find? (fun k => fnInst k.fn == fnInst f && k.cmd == 2) = some k) :
    s.regClose f = if s.regionUsed k.idx then s else s.regClosed f k.idx := by
  unfold State.regClose
  rw [h]
  rfl

theorem regClose_exec (h : s.live = true) (e : s.regClose f = t) : exec (.regDisableComplete f) s = .next (s.settle t) := by
  have run : exec (.regDisableComplete f) s = running s (fun s => s.regClose f) := rfl
  exact run.trans (running_eq h e)

/-- A region is CLOSING, in its descriptor too, and its command runs. -/
def State.regClosing (s : State) (f : Fn) (idx : Nat) (r : Region) : State :=
  let d := descPut r.d RG.STATE 2
  (((s.modRma (fun y => { y with regions := tabPut y.regions idx { r with d := d }, cmds := y.cmds ++ [⟨f, 2, idx⟩] })).wrI F.RMA_REG_RESULT.BUSY
    (fnInst f) 0 1).wrI F.RMA_REG_RESULT.CMD (fnInst f) 0 2).writeDesc idx d

theorem regDisable_disabled (h : s.en uRMA = false) : s.regDisable f n = s.regEndOpen f 2 5 := by
  simp only [State.regDisable, h, Bool.not_false, if_true]

section
variable (h : s.en uRMA = true)
include h

theorem regDisable_none (hi : s.regIndex f n = none) : s.regDisable f n = s.regEndOpen f 2 3 := by
  simp only [State.regDisable, h, Bool.not_true, Bool.false_eq_true, if_false, hi]

variable (hi : s.regIndex f n = some idx)
include hi

theorem regDisable_free (hr : tabGet s.rma.regions idx = none) : s.regDisable f n = s.regEndOpen f 2 2 := by
  simp only [State.regDisable, h, Bool.not_true, Bool.false_eq_true, if_false, hi, hr]

theorem regDisable_some {r : Region} (hr : tabGet s.rma.regions idx = some r) : s.regDisable f n =
    if r.f RG.STATE ≠ 1 then s.regEnd f 2 2 (idx * 256 + r.f RG.GEN) else (s.regClosing f idx r).regClose f := by
  simp only [State.regDisable, h, Bool.not_true, Bool.false_eq_true, if_false, hi, hr]
  rfl

end

/-- The command that closes a region closes it at once where nothing uses it. -/
theorem regClosing_close {r : Region} (h : s.rma.cmds.find? (fun k => fnInst k.fn == fnInst f && k.cmd == 2) = none) :
    (s.regClosing f idx r).regClose f = if s.regionUsed idx then s.regClosing f idx r else (s.regClosing f idx r).regClosed f idx := by
  have hfind : (s.regClosing f idx r).rma.cmds.find? (fun k => fnInst k.fn == fnInst f && k.cmd == 2) = some ⟨f, 2, idx⟩ := by
    have hc : (s.regClosing f idx r).rma.cmds = s.rma.cmds ++ [⟨f, 2, idx⟩] := rfl
    rw [hc, List.find?_append, h]
    simp
  exact regClose_some hfind

/-! ### The descriptor and page entries -/

/-- OWNER of a function's regions (Table 8.1). -/
def regOwner : Fn → Nat
  | .pf _ => 0
  | .vf _ v => v.val + 1

/-- The descriptor of a region as it is enabled. -/
def regOn (f : Fn) (d : Bytes) : Bytes := descPut (descPut d RG.OWNER (regOwner f)) RG.STATE 1

/-- A descriptor within Table 8.1 makes a region of the function. -/
def State.regMade (s : State) (f : Fn) (idx : Nat) (d : Bytes) : State :=
  ((s.modRma (fun r => { r with regions := tabPut r.regions idx ⟨regOn f d, [], [], false⟩ })).writeDesc idx (regOn f d)).regEnd f 1 0
    (idx * 256 + leAt (regOn f d) 26 1)

section
variable {k : RegCmd} (h : s.rma.cmds.find? (fun k => fnInst k.fn == fnInst f && k.cmd == 1) = some k)
include h

theorem regDesc_refused : s.regDescDone f .err = (s.raise .HIF_DMA_ERR).regEndOpen f 1 4 := by
  unfold State.regDescDone
  rw [h]

theorem regDesc_whole {d : Bytes} (hd : d.length = 64) : s.regDescDone f (.ok d) =
    if (tabGet s.rma.regions k.idx).isSome ∨ !descOk d ∨ !s.pdOk f (leAt d 20 2) then s.regEnd f 1 1 (k.idx * 256 + leAt d 26 1)
    else s.regMade f k.idx d := by
  unfold State.regDescDone State.regMade regOn
  rw [h]
  dsimp only
  rw [padded_whole hd]
  cases f with
  | pf p => rfl
  | vf p v => rfl

end

theorem readDone_page {r : Rd} {rest : List Rd} {k p : Nat} (h : s.hif.reads = r :: rest) (hj : r.job = .page k p) (a : Ans) :
    s.readDone 0 a = ((s.modHif (fun h => { h with reads := rest })).pageRead k p a).pagesThere := by
  have hf : s.readFirst 0 r.job = true := by simp [State.readFirst]
  have he : s.modHif (fun h => { h with reads := h.reads.eraseIdx 0 }) = s.modHif (fun h => { h with reads := rest }) := by
    simp only [State.modHif, h, List.eraseIdx_zero, List.tail_cons]
  unfold State.readDone
  rw [h, List.getElem?_cons_zero]
  dsimp only
  rw [hf, if_neg (by decide), he, hj]

end

/-- Settles O29: each command by the unit, the index and the region; its descriptor and page entries by what was read. -/
theorem regionCommandsEnd : Obligations.RegionCommandsEnd := by
  unfold Obligations.RegionCommandsEnd
  intro s f mine busy closed
  refine ⟨?_, ?_, ?_, ?_⟩
  · intro n h hb hn
    have enable : ∀ {t}, s.regEnable f n = t → s.Calm t → exec (.regEnable f n) s = .next (s.settle t) := fun e ha =>
      regCommand_exec h hb hn (.inl rfl) e ha
    have disable : ∀ {t}, s.regDisable f n = t → s.Calm t → exec (.regDisable f n) s = .next (s.settle t) := fun e ha =>
      regCommand_exec h hb hn (.inr rfl) e ha
    refine ⟨fun he => ⟨enable (regEnable_disabled he) (calm_of_acts rfl), disable (regDisable_disabled he) (calm_of_acts rfl)⟩,
      fun he hi => ⟨enable (regEnable_none he hi) (calm_of_acts rfl), disable (regDisable_none he hi) (calm_of_acts rfl)⟩, ?_⟩
    intro idx he hi
    refine ⟨enable (regEnable_some he hi) (State.Calm.trans (calm_of_acts rfl) (steady_calm.readHost _ _ _ _)),
      fun hr => disable (regDisable_free he hi hr) (calm_of_acts rfl), fun r hr => ⟨fun hs => ?_, fun hs hm => ?_⟩⟩
    · exact disable ((regDisable_some he hi hr).trans (if_pos hs)) (calm_of_acts rfl)
    · intro d t
      have close := (regDisable_some he hi hr).trans ((if_neg (not_not.2 hs)).trans (regClosing_close (r := r) hm))
      exact ⟨fun hu => disable (close.trans (if_pos hu)) (calm_of_acts rfl),
        fun hu => disable (close.trans (if_neg (by rw [hu]; decide))) (calm_of_acts rfl)⟩
  · intro k hl hm
    exact ⟨fun hu => regClose_exec hl ((regClose_some hm).trans (if_pos hu)),
      fun hu => regClose_exec hl ((regClose_some hm).trans (if_neg (by rw [hu]; decide)))⟩
  · intro k hl hm
    refine ⟨descDone_exec hl (regDesc_refused hm), ?_⟩
    intro d hd key
    refine ⟨fun hb => descDone_exec hl ((regDesc_whole hm hd).trans (if_pos ?_)), fun hr ho hp => ?_⟩
    · rcases hb with hb | hb | hb
      · exact .inl (Option.isSome_iff_ne_none.2 hb)
      · exact .inr (.inl (by rw [hb]; rfl))
      · exact .inr (.inr (by rw [hb]; rfl))
    · have hbad : ¬ ((tabGet s.rma.regions k.idx).isSome ∨ !descOk d ∨ !s.pdOk f (leAt d 20 2)) := by
        rw [hr, ho, hp]
        decide
      exact descDone_exec hl ((regDesc_whole hm hd).trans (if_neg hbad))
  · intro r rest k p a hl hr hj e
    exact readDone_exec hl (readDone_page hr hj a)

end Sys2Proof.Machine
end

section
/-! Requests at their target: the page entries that they wait for, and the checks of the ledger (R260, R268 to R271, Table 8.11). -/

namespace Sys2Proof.Machine

section
variable {s t : State} {b : Bytes} {g : Nat}

/-! ### Key checks -/

/-- A check that passes needs no page entry (R260). -/
theorem pagesDue_of_check {u : Use} {key off len idx : Nat} {k : KeyCtx} (h : s.keyCheck u key off len k = .ok idx) : s.pagesDue u key off len k = [] := by
  unfold State.keyCheck at h
  unfold State.pagesDue
  cases hr : s.keyRows u key off len k with
  | error c => rfl
  | ok i =>
    rw [hr] at h
    dsimp only at h ⊢
    split at h
    · cases h
    next hgood =>
      obtain ⟨hbad, hpages⟩ := not_or.1 hgood
      have hall : ∀ p ∈ (s.region i).touched off len, (s.region i).known.contains p = true := fun p hp => by
        have hp := List.all_eq_true.1 (by simpa using hpages : (s.region i).pagesOk off len = true) p hp
        exact (Bool.and_eq_true_iff.1 hp).1
      rw [if_neg hbad, List.filter_eq_nil_iff.2 (fun p hp => by rw [hall p hp]; decide)]
      rfl

/-- What a use of a region that passes its check leaves. -/
theorem keyUse_ok {u : Use} {key off len idx : Nat} {k : KeyCtx} (h : s.keyUse u key off len k = (.ok idx, t)) :
    s.keyCheck u key off len k = .ok idx ∧ t = s := by
  unfold State.keyUse at h
  split at h
  next hk =>
    simp only [Prod.mk.injEq, Except.ok.injEq] at h
    exact ⟨h.1 ▸ hk, h.2.symm⟩
  next => cases congrArg Prod.fst h
  next => cases congrArg Prod.fst h

/-- The page entries that an access needs depend on the regions alone. -/
theorem pagesDue_same (hr : t.rma.regions = s.rma.regions) (hl : ∀ pf, t.rdI F.RMA_RT_BASE.LOG_LIMIT pf 0 = s.rdI F.RMA_RT_BASE.LOG_LIMIT pf 0)
    (u : Use) (key off len : Nat) (k : KeyCtx) : t.pagesDue u key off len k = s.pagesDue u key off len k := by
  have hrows : t.keyRows u key off len k = s.keyRows u key off len k := by
    unfold State.keyRows
    simp only [hr, hl]
  have hreg : ∀ i, t.region i = s.region i := fun i => by
    unfold State.region
    rw [hr]
  unfold State.pagesDue
  simp only [hrows, hreg]

/-! ### The state in which a request is judged -/

theorem useCtx_rma : (s.useCtx g).rma = s.rma ∧ (s.useCtx g).regs = s.regs := by
  unfold State.useCtx
  split
  · exact ⟨rfl, rfl⟩
  · exact ⟨rfl, rfl⟩

/-- A request uses its context, and frees the records that it leaves behind (R274). -/
def State.judged (s : State) (b : Bytes) : State := (s.useCtx (pkDq b)).freeRecs (pkDq b) (pkPsn b) (pkAdist b)

theorem q_judged (i : Nat) (x : Nat × Nat) : (s.judged b).q i x = s.q i x := q_useCtx i x

theorem judged_regions : (s.judged b).rma.regions = s.rma.regions := by
  show (s.useCtx (pkDq b)).rma.regions = s.rma.regions
  rw [useCtx_rma.1]

theorem rdI_judged {d : Fld} (h : d.reg.code ≠ Reg.RMA_STATUS.code) (a i : Nat) : (s.judged b).rdI d a i = s.rdI d a i := by
  refine (rdI_wrI_ne _ _ (fun hk => h hk.1)).trans ?_
  show tabGetD (s.useCtx (pkDq b)).regs _ _ = tabGetD s.regs _ _
  rw [useCtx_rma.2]

theorem ownerOf_judged (i : Nat) : (s.judged b).ownerOf i = s.ownerOf i :=
  (ownerOf_wrI (s := (s.useCtx (pkDq b)).modRma _) _ _ _ _ (by decide) i).trans (ownerOf_useCtx i)

theorem keyCtx_judged : (s.judged b).keyCtx g = s.keyCtx g := by
  unfold State.keyCtx
  rw [q_judged, q_judged, ownerOf_judged]

theorem pagesDue_judged (u : Use) (key off len : Nat) (k : KeyCtx) : (s.judged b).pagesDue u key off len k = s.pagesDue u key off len k :=
  pagesDue_same judged_regions (fun pf => rdI_judged (by decide) pf 0) u key off len k

/-- A counted duplicate needs the same page entries. -/
theorem pagesDue_inc {d : Fld} (h : d.reg.code ≠ Reg.RMA_RT_BASE.code) (i : Nat) (u : Use) (key off len : Nat) (k : KeyCtx) :
    (s.inc d i).pagesDue u key off len k = s.pagesDue u key off len k :=
  pagesDue_same (s := s) (t := s.inc d i) rfl (fun _ => rdI_wrI_ne (d := d) (e := F.RMA_RT_BASE.LOG_LIMIT) s _ (fun hk => h hk.1.symm)) u key off len k

theorem keyCtx_inc {d : Fld} (h : d.reg.code ≠ Reg.HIF_VF_MAP.code) (i : Nat) : (s.inc d i).keyCtx g = s.keyCtx g := by
  unfold State.keyCtx
  rw [show (s.inc d i).ownerOf g = s.ownerOf g from ownerOf_wrI d _ _ _ h g]
  rfl

/-! ### The checks of the ledger -/

theorem pre_uncovered (hc : s.qctCovers (pkDq b) = false) : s.targetPre b = .stop s.rmaStale := if_pos (by rw [hc]; rfl)

section
variable (hc : s.qctCovers (pkDq b) = true)
include hc

theorem pre_away (ha : (s.c (pkDq b)).cached = false) : s.targetPre b = .stop (s.park b) :=
  (if_neg (by rw [hc]; decide)).trans (if_pos (by rw [ha]; rfl))

variable (ha : (s.c (pkDq b)).cached = true)
include ha

theorem pre_stale (h : pkDqgen b ≠ s.q (pkDq b) Q.QGEN ∨ s.q (pkDq b) Q.STATE = qFree) : s.targetPre b = .stop s.rmaStale :=
  (if_neg (by rw [hc]; decide)).trans ((if_neg (by rw [ha]; decide)).trans (if_pos h))

variable (hg : pkDqgen b = s.q (pkDq b) Q.QGEN) (hs : s.q (pkDq b) Q.STATE ≠ qFree)
include hg hs

theorem pre_foreign (h : pkSrc b ≠ s.q (pkDq b) Q.REMOTE_NODE) : s.targetPre b = .stop (s.raise .RMA_CONN_MISMATCH (pkDq b)) :=
  (if_neg (by rw [hc]; decide)).trans ((if_neg (by rw [ha]; decide)).trans ((if_neg (not_or.2 ⟨not_not.2 hg, hs⟩)).trans (if_pos h)))

variable (hn : pkSrc b = s.q (pkDq b) Q.REMOTE_NODE)
include hn

theorem pre_connected : s.targetPre b =
    if s.q (pkDq b) Q.STATE = qOff then .stop (s.nak (pkDq b) (pkPsn b) nkBusy 2)
    else if s.q (pkDq b) Q.STATE = qError then .stop (s.nak (pkDq b) (pkPsn b) nkConn 0)
    else if (s.c (pkDq b)).isDup (diff24 (pkPsn b) (s.q (pkDq b) Q.CUM_PSN)) then .dup ((s.judged b).inc F.RMA_COUNT.DUPLICATES) (pkDq b)
    else if 257 ≤ diff24 (pkPsn b) (s.q (pkDq b) Q.CUM_PSN) then .stop ((s.judged b).raise .RMA_HORIZON (pkDq b))
    else .new (s.judged b) (pkDq b) (diff24 (pkPsn b) (s.q (pkDq b) Q.CUM_PSN)) :=
  (if_neg (by rw [hc]; decide)).trans ((if_neg (by rw [ha]; decide)).trans ((if_neg (not_or.2 ⟨not_not.2 hg, hs⟩)).trans (if_neg (not_not.2 hn))))

end

theorem isDup_iff {c : Ctx} {d : Nat} : c.isDup d = true ↔ d = 0 ∨ 2 ^ 23 ≤ d ∨ (d ≤ 256 ∧ bit (c.f Q.LEDGER) (d - 1) = true) := by
  simp [Ctx.isDup, or_assoc]

theorem isNew_iff {c : Ctx} {d : Nat} : c.isNew d = true ↔ 1 ≤ d ∧ d ≤ 256 ∧ bit (c.f Q.LEDGER) (d - 1) = false := by
  simp [Ctx.isNew, and_assoc]

theorem not_new_of_dup {c : Ctx} {d : Nat} (h : c.isDup d = true) : c.isNew d = false := by
  rw [Bool.eq_false_iff]
  intro hn
  obtain ⟨h1, h2, hb⟩ := isNew_iff.1 hn
  rcases isDup_iff.1 h with h | h | ⟨_, h⟩
  · omega
  · omega
  · rw [hb] at h
    cases h

theorem not_dup_of_new {c : Ctx} {d : Nat} (h : c.isNew d = true) : c.isDup d = false := by
  rw [Bool.eq_false_iff]
  intro hd
  rw [not_new_of_dup hd] at h
  cases h

/-! ### The page entries that a request waits for -/

theorem packetPages_none (h : rmaBad b = true ∨ s.en uRMA = false ∨ s.passes4 b = false) : s.packetPages b = [] := by
  refine if_pos ?_
  rcases h with h | h | h
  all_goals simp [h]

/-- A request whose context takes no packet passes nothing. -/
theorem passes4_of_parts : s.passes4 b = (s.qctCovers (pkDq b) && (s.c (pkDq b)).cached && pkDqgen b == s.q (pkDq b) Q.QGEN &&
    pkSrc b == s.q (pkDq b) Q.REMOTE_NODE && (s.q (pkDq b) Q.STATE == qActive || s.q (pkDq b) Q.STATE == qStopping)) := rfl

/-- How a request stands in the ledger of its queue. -/
def State.newPsn (s : State) (b : Bytes) : Bool := (s.c (pkDq b)).isNew (diff24 (pkPsn b) ((s.c (pkDq b)).f Q.CUM_PSN))
def State.dupPsn (s : State) (b : Bytes) : Bool := (s.c (pkDq b)).isDup (diff24 (pkPsn b) ((s.c (pkDq b)).f Q.CUM_PSN))

/-- A PUT that is new and whole makes its key check. -/
theorem packetPages_put (hk : pkKind b = 0x10) (h : (s.newPsn b && pkWhole b) = false ∨
    s.pagesDue .rwrite (pkKey b) (pkOff b) (pkData b).length (s.keyCtx (pkDq b)) = []) : s.packetPages b = [] := by
  have e : s.packetPages b = if rmaBad b || !s.en uRMA || !s.passes4 b then [] else if s.newPsn b && pkWhole b then
      s.pagesDue .rwrite (pkKey b) (pkOff b) (pkData b).length (s.keyCtx (pkDq b)) else [] := by
    simp only [State.packetPages, hk]
    rfl
  rw [e]
  rcases h with h | h
  · rw [h, if_neg Bool.false_ne_true, ite_self]
  · rw [h, ite_self, ite_self]

/-- A PUT_IMM makes none. -/
theorem packetPages_putImm (hk : pkKind b = 0x11) : s.packetPages b = [] := by
  simp only [State.packetPages, hk, ite_self]

/-- A GET_REQ makes its key check, a duplicate too. -/
theorem packetPages_get (hk : pkKind b = 0x12) (h : (s.newPsn b || s.dupPsn b) = false ∨
    s.pagesDue .rread (pkKey b) (pkOff b) (leAt (pkPayload b) 0 4) (s.keyCtx (pkDq b)) = []) : s.packetPages b = [] := by
  have e : s.packetPages b = if rmaBad b || !s.en uRMA || !s.passes4 b then [] else if s.newPsn b || s.dupPsn b then
      s.pagesDue .rread (pkKey b) (pkOff b) (leAt (pkPayload b) 0 4) (s.keyCtx (pkDq b)) else [] := by
    simp only [State.packetPages, hk]
    rfl
  rw [e]
  rcases h with h | h
  · rw [h, if_neg Bool.false_ne_true, ite_self]
  · rw [h, ite_self, ite_self]

/-- The key context of an ATOMIC_REQ: its size and operation are checked too. -/
def State.atomCtx (s : State) (b : Bytes) : KeyCtx :=
  { s.keyCtx (pkDq b) with asize := sizeOf' (bits (pkMod b) 4 2), aop := bits (pkMod b) 0 4 }

/-- A new ATOMIC_REQ makes its key check. -/
theorem packetPages_atomic (hk : pkKind b = 0x13) (h : s.newPsn b = false ∨
    s.pagesDue .ratomic (pkKey b) (pkOff b) (sizeOf' (bits (pkMod b) 4 2)) (s.atomCtx b) = []) : s.packetPages b = [] := by
  have e : s.packetPages b = if rmaBad b || !s.en uRMA || !s.passes4 b then [] else if s.newPsn b then
      s.pagesDue .ratomic (pkKey b) (pkOff b) (sizeOf' (bits (pkMod b) 4 2)) (s.atomCtx b) else [] := by
    simp only [State.packetPages, hk]
    rfl
  rw [e]
  rcases h with h | h
  · rw [h, if_neg Bool.false_ne_true, ite_self]
  · rw [h, ite_self, ite_self]

/-- A request beyond the horizon makes no key check. -/
theorem packetPages_far (hk : 0x10 ≤ pkKind b ∧ pkKind b ≤ 0x13) (hn : s.newPsn b = false) (hd : s.dupPsn b = false) : s.packetPages b = [] := by
  have kinds : pkKind b = 0x10 ∨ pkKind b = 0x11 ∨ pkKind b = 0x12 ∨ pkKind b = 0x13 := by omega
  rcases kinds with h | h | h | h
  · exact packetPages_put h (.inl (by rw [hn]; rfl))
  · exact packetPages_putImm h
  · exact packetPages_get h (.inl (by rw [hn, hd]; rfl))
  · exact packetPages_atomic h (.inl hn)

/-! ### The request at its unit -/

theorem heldPages_request (hk : 0x10 ≤ pkKind b ∧ pkKind b ≤ 0x13) : s.heldPages b = s.packetPages b := if_neg (by omega)

section
variable (hi : s.intact = true) (hk : 0x10 ≤ pkKind b ∧ pkKind b ≤ 0x13)
include hi hk

theorem request_waits (hp : s.packetPages b ≠ []) :
    s.request b = (s.pagesAsk (s.packetPages b)).modRte (fun x => { x with ejected := b :: x.ejected }) := by
  have hne : (!(s.heldPages b).isEmpty) = true := by
    rw [heldPages_request hk, Bool.not_eq_true', List.isEmpty_eq_false_iff]
    exact hp
  unfold State.request
  rw [reads_of_intact _ hi]
  dsimp only
  rw [if_pos hne, heldPages_request hk]

theorem request_goes (hr : s.refetching b = false) (hp : s.packetPages b = []) :
    s.request b = (s.rmaPacket b (fun s => s.onRequest s.cohAddr b)).agentKick := by
  have hnil : (s.heldPages b).isEmpty = true := by rw [heldPages_request hk, hp]; rfl
  have heng : s.engineReads 3 = s := if_pos hi
  unfold State.request
  rw [reads_of_intact _ hi]
  dsimp only
  rw [hnil, if_neg (by decide), if_neg (by omega), reads_of_intact _ hi, ite_self, heng, ite_self, hr, if_neg (by decide)]

end

theorem rmaPacket_bad {f : State → State} (h : rmaBad b = true) : s.rmaPacket b f = s.malformed := if_pos h

theorem rmaPacket_disabled {f : State → State} (h : rmaBad b = false) (he : s.en uRMA = false) : s.rmaPacket b f = s.rmaStale :=
  (if_neg (by rw [h]; decide)).trans (if_pos (by rw [he]; rfl))

theorem rmaPacket_good {f : State → State} (h : rmaBad b = false) (he : s.en uRMA = true) : s.rmaPacket b f = f s :=
  (if_neg (by rw [h]; decide)).trans (if_neg (by rw [he]; decide))

/-- What is at hand does not wait for a region that is fetched again. -/
theorem refetching_handed {k : Nat} (h : s.hands uRMA k b = true) : (s.handed k b).refetching b = false := by
  have hecc : (s.handed k b).ecc = s.ecc := handed_keeps State.ecc (fun _ _ => rfl) (fun _ _ _ _ => rfl) (fun _ _ => rfl) s k b
  have hready : s.refetching b = false := by
    simp only [State.hands, Bool.and_eq_true, Bool.not_eq_true', beq_iff_eq] at h
    have hf := List.find?_some h.2
    simp only [State.ready, Bool.and_eq_true, Bool.not_eq_true'] at hf
    exact hf.1.1.2
  unfold State.refetching at hready ⊢
  rw [hecc]
  exact hready

end

end Sys2Proof.Machine
end

section
/-! Requests at their target: the Landing ledger (R268 to R275, Table 8.11). -/

namespace Sys2Proof.Machine

section
variable {s u : State} {b : Bytes} {g d : Nat} {coh : Fn → Nat → Bool}

/-! ### The handlers by kind -/

theorem onRequest_put (hk : pkKind b = 0x10) : s.onRequest coh b = s.onPut b := by
  simp only [State.onRequest, hk]

theorem onRequest_putImm (hk : pkKind b = 0x11) : s.onRequest coh b = s.onPutImm b := by
  simp only [State.onRequest, hk]

theorem onRequest_get (hk : pkKind b = 0x12) : s.onRequest coh b = s.onGetReq b := by
  simp only [State.onRequest, hk]

theorem onRequest_atomic (hk : pkKind b = 0x13) : s.onRequest coh b = s.onAtomicReq coh b := by
  simp only [State.onRequest, hk]

/-- A request that the ledger ends does nothing more, whatever its kind. -/
theorem onRequest_stop (h : s.targetPre b = .stop u) : s.onRequest coh b = u := by
  have hput : s.onPut b = u := by simp only [State.onPut, h]
  have himm : s.onPutImm b = u := by simp only [State.onPutImm, h]
  have hget : s.onGetReq b = u := by simp only [State.onGetReq, h]
  have hatom : s.onAtomicReq coh b = u := by simp only [State.onAtomicReq, h]
  unfold State.onRequest
  split
  · exact hput
  · exact himm
  · exact hget
  · exact hatom

/-! ### Duplicates -/

section
variable (h : s.targetPre b = .dup u g)
include h

theorem onPut_dup : s.onPut b = u.ackNow g := by
  simp only [State.onPut, h]

theorem onPutImm_dup : s.onPutImm b = u.ackNow g := by
  simp only [State.onPutImm, h]

theorem onGetReq_dup {idx : Nat} (hk : u.keyCheck .rread (pkKey b) (pkOff b) (leAt (pkPayload b) 0 4) (u.keyCtx g) = .ok idx) :
    s.onGetReq b = u.serveGet g idx b := by
  simp only [State.onGetReq, h, hk]

theorem onGetReq_dup_refused {c : Nat} (hk : u.keyCheck .rread (pkKey b) (pkOff b) (leAt (pkPayload b) 0 4) (u.keyCtx g) = .error c) :
    s.onGetReq b = u := by
  simp only [State.onGetReq, h, hk]

theorem onAtomicReq_dup {x : ARec} (hx : u.rma.recs.find? (fun x => x.q == g && x.psn == pkPsn b) = some x) :
    s.onAtomicReq coh b = u.atomResp x := by
  simp only [State.onAtomicReq, h, hx]

end

/-! ### New requests -/

section
variable (h : s.targetPre b = .new u g d)
include h

theorem onPut_parked (hw : pkWhole b = false) : s.onPut b = u.nak g (pkPsn b) nkResend 0 := by
  simp only [State.onPut, h, hw, Bool.not_false, if_true]

section
variable (hw : pkWhole b = true) {v : State}
include hw

theorem onPut_violation {c : Nat} (hk : u.keyUse .rwrite (pkKey b) (pkOff b) (pkData b).length (u.keyCtx g) = (.error c, v)) :
    s.onPut b = v.violation g d c b := by
  simp only [State.onPut, h, hw, Bool.not_true, Bool.false_eq_true, if_false, hk]

theorem onPut_lands {idx : Nat} (hk : u.keyUse .rwrite (pkKey b) (pkOff b) (pkData b).length (u.keyCtx g) = (.ok idx, v)) :
    s.onPut b = ((v.place idx (pkOff b) (pkData b)).settlePsn g d).ackLater g := by
  simp only [State.onPut, h, hw, Bool.not_true, Bool.false_eq_true, if_false, hk]

end

section
variable (hq : u.q (u.rcqOf g) Q.CQ_STATE ≠ cqOver)
include hq

theorem onPutImm_full (h0 : ((u.c g).hold 0).2.1 = true) (h1 : ((u.c g).hold 1).2.1 = true) : s.onPutImm b = u.nak g (pkPsn b) nkBusy 3 := by
  simp only [State.onPutImm, h, hq, if_false, List.find?_cons, h0, h1, Bool.not_true, List.find?_nil]

theorem onPutImm_holds (h0 : ((u.c g).hold 0).2.1 = false) : s.onPutImm b = ((u.modCtx g (fun c =>
    let x := putBytes c.b 192 (leBytes 3 (pkPsn b) ++ leBytes 1 1 ++ leBytes 4 (leAt (pkPayload b) 8 4) ++ leBytes 8 (leAt (pkPayload b) 0 8))
    { c with b := putBytes x 155 (leBytes 1 (setBit (leAt x 155 1) 0)) })).settlePsn g d).ackLater g := by
  simp only [State.onPutImm, h, hq, if_false, List.find?_cons, h0, Bool.not_false, Nat.mul_zero, Nat.add_zero]

end

theorem onGetReq_serves {idx : Nat} {v : State} (hk : u.keyUse .rread (pkKey b) (pkOff b) (leAt (pkPayload b) 0 4) (u.keyCtx g) = (.ok idx, v)) :
    s.onGetReq b = (v.settlePsn g d).serveGet g idx b := by
  simp only [State.onGetReq, h, hk]

/-- An atomic that joins those in progress. -/
def State.atomOf (s : State) (coh : Fn → Nat → Bool) (g idx : Nat) (b : Bytes) : Atomic :=
  let size := sizeOf' (bits (pkMod b) 4 2)
  let e := s.region idx
  let a := e.addr (pkOff b)
  ⟨g, pkPsn b, bits (pkMod b) 0 4, size, leAt (pkPayload b) 0 size, leAt (pkPayload b) size size, idx, a, bit (e.f RG.ACCESS) 4,
    coh (regionFn idx e) a, false⟩

theorem onAtomicReq_starts {idx : Nat} {v : State} (hk : u.keyUse .ratomic (pkKey b) (pkOff b) (sizeOf' (bits (pkMod b) 4 2))
    { u.keyCtx g with asize := sizeOf' (bits (pkMod b) 4 2), aop := bits (pkMod b) 0 4 } = (.ok idx, v))
    (hr : v.rma.recs.length + v.rma.atoms.length < 512 * (v.enginesFor 3).length) :
    s.onAtomicReq coh b = ((v.settlePsn g d).modRma (fun r => { r with atoms := r.atoms ++ [v.atomOf coh g idx b] })).atomKick := by
  have hn := Nat.not_le.2 hr
  simp only [State.onAtomicReq, h, hk, hn, if_false]
  rfl

end

/-! ### The command -/

/-- The rows of requests. -/
def requestRows : List (Nat × Instr) := [(0x10, .put), (0x11, .putImm), (0x12, .getReq), (0x13, .atomicReq)]

theorem requestRow_kind {r : Nat × Instr} (hr : r ∈ requestRows) : 0x10 ≤ r.1 ∧ r.1 ≤ 0x13 := by
  simp only [requestRows, List.mem_cons, List.not_mem_nil, or_false] at hr
  rcases hr with rfl | rfl | rfl | rfl <;> exact ⟨by decide, by decide⟩

section
variable {r : Nat × Instr} (hr : r ∈ requestRows) (hl : s.live = true) (hi : s.intact = true) (hh : s.hands uRMA r.1 b = true)
include hr hl hi hh

omit hi in
theorem request_exec {t : State} (e : (s.handed r.1 b).request b = t) : exec r.2 s = .next (s.settle t) := by
  have run : exec r.2 s = running s (fun s => s.unitPacket uRMA r.1 State.request) := by
    simp only [requestRows, List.mem_cons, List.not_mem_nil, or_false] at hr
    rcases hr with rfl | rfl | rfl | rfl <;> rfl
  exact run.trans (unitPacket_exec hl hh e)

theorem request_waits_exec (hp : (s.handed r.1 b).packetPages b ≠ []) : exec r.2 s = .next (s.settle
    (((s.handed r.1 b).pagesAsk ((s.handed r.1 b).packetPages b)).modRte (fun x => { x with ejected := b :: x.ejected }))) :=
  request_exec hr hl hh (request_waits ((handed_intact s r.1 b).trans hi) (kind_of_hands hh ▸ requestRow_kind hr) hp)

theorem request_goes_exec (hp : (s.handed r.1 b).packetPages b = [])
    (e : (s.handed r.1 b).rmaPacket b (fun s => s.onRequest s.cohAddr b) = u) : exec r.2 s = .next (s.settle u.agentKick) :=
  request_exec hr hl hh ((request_goes ((handed_intact s r.1 b).trans hi) (kind_of_hands hh ▸ requestRow_kind hr) (refetching_handed hh) hp).trans
    (by rw [e]))

end

end

/-- Settles O30: each request by the steps of Table 8.11. -/
theorem targetLedger : Obligations.TargetLedger := by
  unfold Obligations.TargetLedger
  intro s b hl hi rows g psn r hr hh t t1 d dup fresh answers
  have hk : pkKind b = r.1 := kind_of_hands hh
  have hrange : 0x10 ≤ pkKind b ∧ pkKind b ≤ 0x13 := hk ▸ requestRow_kind hr
  have go : ∀ {u}, t.packetPages b = [] → t.rmaPacket b (fun s => s.onRequest s.cohAddr b) = u → answers u := fun hp e =>
    request_goes_exec hr hl hi hh hp e
  refine ⟨fun hb => go (packetPages_none (.inl hb)) (rmaPacket_bad hb), request_waits_exec hr hl hi hh,
    fun hb he => go (packetPages_none (.inr (.inl he))) (rmaPacket_disabled hb he), fun hb he => ?_⟩
  have handle : ∀ {u}, t.packetPages b = [] → t.onRequest t.cohAddr b = u → answers u := fun hp e => go hp ((rmaPacket_good hb he).trans e)
  have stop : ∀ {u}, t.passes4 b = false → t.targetPre b = .stop u → answers u := fun h4 e =>
    handle (packetPages_none (.inr (.inr h4))) (onRequest_stop e)
  refine ⟨fun hc => stop (by simp [passes4_of_parts, g, hc]) (pre_uncovered hc),
    fun hc ha => stop (by simp [passes4_of_parts, g, ha]) (pre_away hc ha), fun hc ha => ⟨fun h => stop ?_ (pre_stale hc ha h),
    fun hg hs hn => stop (by simp [passes4_of_parts, g, hn]) (pre_foreign hc ha hg hs hn), fun hg hn => ⟨fun hs => ?_, fun hs => ?_, fun hs => ?_⟩⟩⟩
  · rcases h with h | h
    · have h : pkDqgen b ≠ t.q (pkDq b) Q.QGEN := h
      simp [passes4_of_parts, h]
    · have h : t.q (pkDq b) Q.STATE = qFree := h
      simp [passes4_of_parts, h]
  · have hf : t.q g Q.STATE ≠ qFree := by rw [hs]; decide
    exact stop (by simp [passes4_of_parts, g, hs]) ((pre_connected hc ha hg hf hn).trans (if_pos hs))
  · have hf : t.q g Q.STATE ≠ qFree := by rw [hs]; decide
    have ho : ¬ t.q g Q.STATE = qOff := by rw [hs]; decide
    exact stop (by simp [passes4_of_parts, g, hs]) ((pre_connected hc ha hg hf hn).trans ((if_neg ho).trans (if_pos hs)))
  have states : t.q g Q.STATE ≠ qFree ∧ t.q g Q.STATE ≠ qOff ∧ t.q g Q.STATE ≠ qError := by
    rcases hs with hs | hs
    · rw [hs]
      decide
    · rw [hs]
      decide
  obtain ⟨hf, ho, herr⟩ := states
  have pre := (pre_connected hc ha hg hf hn).trans ((if_neg ho).trans (if_neg herr))
  have preDup : dup → t.newPsn b = false ∧ t.targetPre b = .dup (t1.inc F.RMA_COUNT.DUPLICATES) g := fun h => by
    have hd : (t.c g).isDup d = true := isDup_iff.2 h
    exact ⟨not_new_of_dup hd, pre.trans (if_pos hd)⟩
  have preNew : fresh → t.targetPre b = .new t1 g d := fun h => by
    have hd : (t.c g).isDup d = false := not_dup_of_new (isNew_iff.2 h)
    have hnear : ¬ 257 ≤ d := Nat.not_le.2 (Nat.lt_succ_of_le h.2.1)
    exact pre.trans ((if_neg (by rw [hd]; decide)).trans (if_neg hnear))
  have keyOf : t1.keyCtx g = t.keyCtx g := keyCtx_judged
  have dueOf : ∀ {u key off len k}, t1.pagesDue u key off len k = [] → t.pagesDue u key off len k = [] := fun h => (pagesDue_judged _ _ _ _ _).symm.trans h
  refine ⟨fun h hp => ?_, fun h1 h2 => ?_, fun h hp => ⟨fun hw => ?_, fun c u hw hpages hu => ?_, fun idx u hw hu => ?_⟩,
    fun h hp hq => ⟨fun h0 h1 => ?_, fun h0 => ?_⟩, fun hp idx u => ⟨fun h hu => ?_, fun h => ?_⟩, fun hp => ?_⟩
  · obtain ⟨hnew, hpre⟩ := preDup h
    rcases hp with hp | hp
    · exact handle (packetPages_put (hk.trans hp) (.inl (by rw [hnew]; rfl))) ((onRequest_put (hk.trans hp)).trans (onPut_dup hpre))
    · exact handle (packetPages_putImm (hk.trans hp)) ((onRequest_putImm (hk.trans hp)).trans (onPutImm_dup hpre))
  · have hd : (t.c g).isDup d = false := Bool.eq_false_iff.2 (fun h => by
      rcases isDup_iff.1 h with h | h | h <;> omega)
    have hnew : (t.c g).isNew d = false := Bool.eq_false_iff.2 (fun h => by
      have := isNew_iff.1 h
      omega)
    exact handle (packetPages_far hrange hnew hd) (onRequest_stop (pre.trans ((if_neg (by rw [hd]; decide)).trans (if_pos h1))))
  · exact handle (packetPages_put (hk.trans hp) (.inl (by rw [hw, Bool.and_false]))) ((onRequest_put (hk.trans hp)).trans (onPut_parked (preNew h) hw))
  · exact handle hpages ((onRequest_put (hk.trans hp)).trans (onPut_violation (preNew h) hw hu))
  · have hdue := dueOf (pagesDue_of_check (keyUse_ok hu).1)
    rw [keyOf] at hdue
    exact handle (packetPages_put (hk.trans hp) (.inr hdue)) ((onRequest_put (hk.trans hp)).trans (onPut_lands (preNew h) hw hu))
  · exact handle (packetPages_putImm (hk.trans hp)) ((onRequest_putImm (hk.trans hp)).trans (onPutImm_full (preNew h) hq h0 h1))
  · exact handle (packetPages_putImm (hk.trans hp)) ((onRequest_putImm (hk.trans hp)).trans (onPutImm_holds (preNew h) hq h0))
  · have hdue := dueOf (pagesDue_of_check (keyUse_ok hu).1)
    rw [keyOf] at hdue
    exact handle (packetPages_get (hk.trans hp) (.inr hdue)) ((onRequest_get (hk.trans hp)).trans (onGetReq_serves (preNew h) hu))
  · intro w
    obtain ⟨-, hpre⟩ := preDup h
    have hw : w.keyCtx g = t.keyCtx g := (keyCtx_inc (by decide) 0).trans keyOf
    refine ⟨fun hu => ?_, fun c hpages hu => handle hpages ((onRequest_get (hk.trans hp)).trans (onGetReq_dup_refused hpre hu))⟩
    have hdue := dueOf ((pagesDue_inc (d := F.RMA_COUNT.DUPLICATES) (by decide) 0 _ _ _ _ _).symm.trans (pagesDue_of_check hu))
    rw [hw] at hdue
    exact handle (packetPages_get (hk.trans hp) (.inr hdue)) ((onRequest_get (hk.trans hp)).trans (onGetReq_dup hpre hu))
  · intro size aop
    refine ⟨fun x h hx => ?_, fun idx u h hu hroom => ?_⟩
    · obtain ⟨hnew, hpre⟩ := preDup h
      exact handle (packetPages_atomic (hk.trans hp) (.inl hnew)) ((onRequest_atomic (hk.trans hp)).trans (onAtomicReq_dup hpre hx))
    · have hdue := dueOf (pagesDue_of_check (keyUse_ok hu).1)
      rw [keyOf] at hdue
      exact handle (packetPages_atomic (hk.trans hp) (.inr hdue)) ((onRequest_atomic (hk.trans hp)).trans (onAtomicReq_starts (preNew h) hu hroom))

end Sys2Proof.Machine
end

section
/-! Answers at the requester and the timers of its connection (R262, R272, R274, R277 to R281, R296, Table 8.10). -/

namespace Sys2Proof.Machine

section
variable {s : State} {b : Bytes} {g : Nat}

/-! ### Acknowledgements -/

/-- What an ACK covers: a PSN at or before its own, or one that its ledger marks. -/
def ackCovers (b : Bytes) (p : Nat) : Bool :=
  decide (diff24 (pkPsn b) p < 2 ^ 23) ||
    (decide (1 ≤ diff24 p (pkPsn b) ∧ diff24 p (pkPsn b) ≤ 256) && bit (leNat (pkPayload b)) (diff24 p (pkPsn b) - 1))

/-- The entries whose RTS an ACK covers. -/
def Ctx.rtsAcked (c : Ctx) (b : Bytes) : List Nat :=
  (c.win.filter (fun u => u.req.kind == 0x41 && ackCovers b u.psn)).filterMap (fun u => u.req.ent)

theorem onAck_stale (h : s.answered b = none) : s.onAck b = s.rmaStale := by
  simp only [State.onAck, h]

theorem onAck_some (h : s.answered b = some g) : s.onAck b =
    if !((s.c g).win.any (fun u => byAck u.req.kind && !u.done && ackCovers b u.psn)) then s.rmaStale else
    (s.modCtx g (fun c => { c with
      win := c.win.map (fun u => if byAck u.req.kind && ackCovers b u.psn then { u with done := true, resendAt := none } else u),
      ents := c.ents.map (fun e => if ((s.c g).rtsAcked b).contains e.idx then { e with rtsDone := true } else e) })).advance g := by
  unfold State.onAck
  rw [h]
  rfl

/-! ### Refusals -/

theorem onNak_stale (h : s.answered b = none) : s.onNak b = s.rmaStale := by
  simp only [State.onNak, h]

theorem onNak_unsent (h : s.answered b = some g) (hu : s.unansOf g (pkPsn b) = none) : s.onNak b = s.rmaStale := by
  simp only [State.onNak, h, hu]

section
variable {u : Unans} (h : s.answered b = some g) (hu : s.unansOf g (pkPsn b) = some u)
include h hu

theorem onNak_access (hm : pkMod b = nkAccess) : s.onNak b = (s.raise .RMA_REMOTE_VIOLATION g).giveUp g u.psn 1 := by
  simp only [State.onNak, h, hu, hm]

theorem onNak_conn (hm : pkMod b = nkConn) : s.onNak b = s.giveUp g u.psn 2 := by
  simp only [State.onNak, h, hu, hm]

theorem onNak_cq (hm : pkMod b = nkCq) : s.onNak b = s.giveUp g u.psn 3 := by
  simp only [State.onNak, h, hu, hm]

theorem onNak_resend (hm : pkMod b = nkResend) : s.onNak b = s.resend g u := by
  simp only [State.onNak, h, hu, hm]

theorem onNak_busy (hm : pkMod b = nkBusy) : s.onNak b =
    if (s.c g).f Q.LIMITS / 16 ≠ 0 ∧ 16 * ((s.c g).f Q.LIMITS / 16) < (s.c g).busy + 1 then s.giveUp g u.psn 5
    else s.modCtx g (fun c => { c with
      busy := c.busy + 1,
      win := c.win.map (fun x => if x.psn = u.psn then
        { x with resendAt := some (s.beat + s.rd F.RMA_CFG.BACKOFF_BEATS * 2 ^ min (s.c g).busy 6) } else x) }) := by
  simp only [State.onNak, h, hu, hm]

end

/-! ### Responses -/

/-- A rendezvous that waits for a response goes on. -/
def State.rdvNotified (s : State) : Option Nat → State
  | some x => s.post (.rdvAnswer x)
  | none => s

variable {kind : Nat}

theorem onResp_stale (h : s.answered b = none) : s.onResp kind b = s.rmaStale := by
  simp only [State.onResp, h]

theorem onResp_unsent (h : s.answered b = some g) (hu : s.unansOf g (pkPsn b) = none) : s.onResp kind b = s.rmaStale := by
  simp only [State.onResp, h, hu]

section
variable {u : Unans} (h : s.answered b = some g) (hu : s.unansOf g (pkPsn b) = some u)
include h hu

theorem onResp_other (hk : u.req.kind ≠ kind) : s.onResp kind b = s.rmaStale := by
  simp only [State.onResp, h, hu]
  exact if_pos hk

theorem onResp_lands {key pos len : Nat} (hk : u.req.kind = kind) (hland : u.req.land = some (key, pos, len)) : s.onResp kind b =
    (((s.landed g u ((pkPayload b).take len)).markDone g u.psn).rdvNotified u.req.rdv).advance g := by
  unfold State.onResp
  rw [h]
  dsimp only
  rw [hu]
  dsimp only
  rw [if_neg (not_not.2 hk), hland]
  cases u.req.rdv with
  | none => rfl
  | some x => rfl

end

section
variable {u : Unans} {key pos len : Nat} (hland : u.req.land = some (key, pos, len)) (x : Bytes)
include hland

theorem landed_region (he : u.req.ent = none) (hk : key ≠ 0) : s.landed g u x = s.place (key / 256) pos x := by
  simp only [State.landed, hland, he, hk, if_false]

theorem landed_nowhere (he : u.req.ent = none) (hk : key = 0) : s.landed g u x = s := by
  simp only [State.landed, hland, he, hk, if_true]

theorem landed_entry {i : Nat} {e : Ent} (he : u.req.ent = some i) (hx : s.ent g i = some e) : s.landed g u x = s.landFrags e.frags pos x := by
  simp only [State.landed, hland, he, hx]

end

/-! ### An answer at its unit -/

theorem answerPacket_exec {k : Nat} {f : State → Bytes → State} {t : State} (hl : s.live = true) (hi : s.intact = true) (hb : rmaBad b = false)
    (hh : s.hands uRMA k b = true) (he : (s.handed k b).en uRMA = true) (e : f (s.handed k b) b = t) :
    running s (fun s => s.answerPacket k f) = .next (s.settle t) := by
  refine unitPacket_exec (f := fun s b => (s.reads (.ctx (pkDq b))).rmaPacket b (fun s => f s b)) hl hh ?_
  rw [reads_of_intact _ ((handed_intact s k b).trans hi), rmaPacket_good hb he]
  exact e

end

/-- Settles O31: each answer by what it names and by its kind. -/
theorem answersMoveTheWindow : Obligations.AnswersMoveTheWindow := by
  unfold Obligations.AnswersMoveTheWindow
  intro s b hl hi hb g psn
  refine ⟨?_, ?_, ?_⟩
  · intro hh t he
    have run : exec .ack s = running s (fun s => s.answerPacket 0x20 State.onAck) := rfl
    have go : ∀ {u}, t.onAck b = u → exec .ack s = .next (s.settle u) := fun e => run.trans (answerPacket_exec hl hi hb hh he e)
    refine ⟨fun h => go (onAck_stale h), fun h => ?_⟩
    intro led cov rts
    refine ⟨fun hall => go ((onAck_some h).trans (if_pos ?_)), fun hsome => go ((onAck_some h).trans (if_neg ?_))⟩
    · rw [Bool.not_eq_true', List.any_eq_false]
      intro u hu hx
      simp only [Bool.and_eq_true, Bool.not_eq_true'] at hx
      obtain ⟨⟨hk, hd⟩, hc⟩ := hx
      rw [hall u hu hk hc] at hd
      cases hd
    · obtain ⟨u, hu, hk, hc, hd⟩ := hsome
      have hc : ackCovers b u.psn = true := hc
      rw [Bool.not_eq_true', Bool.not_eq_false, List.any_eq_true]
      exact ⟨u, hu, by rw [hk, hd, hc]; rfl⟩
  · intro hh t he
    have run : exec .nakPacket s = running s (fun s => s.answerPacket 0x21 State.onNak) := rfl
    have go : ∀ {u}, t.onNak b = u → exec .nakPacket s = .next (s.settle u) := fun e => run.trans (answerPacket_exec hl hi hb hh he e)
    refine ⟨fun h => go (onNak_stale h), fun h hu => go (onNak_unsent h hu), fun u h hu => ⟨fun hm => go (onNak_access h hu hm),
      fun hm => go (onNak_conn h hu hm), fun hm => go (onNak_cq h hu hm), fun hm => go (onNak_resend h hu hm),
      fun hm h0 h1 => go ((onNak_busy h hu hm).trans (if_pos ⟨h0, h1⟩)), fun hm h0 => go ((onNak_busy h hu hm).trans (if_neg ?_))⟩⟩
    rintro ⟨hx, hy⟩
    rcases h0 with h0 | h0
    · exact hx h0
    · exact Nat.not_lt.2 h0 hy
  · intro rows r hr hh t he
    have run : exec r.2.2 s = running s (fun s => s.answerPacket r.1 (fun s b => s.onResp r.2.1 b)) := by
      simp only [rows, List.mem_cons, List.not_mem_nil, or_false] at hr
      rcases hr with rfl | rfl <;> rfl
    have go : ∀ {u}, t.onResp r.2.1 b = u → exec r.2.2 s = .next (s.settle u) := fun e => run.trans (answerPacket_exec hl hi hb hh he e)
    refine ⟨fun h => go (onResp_stale h), fun h hu => go (onResp_unsent h hu), fun u h hu => ?_⟩
    intro lands
    have lands_of : ∀ {w : State}, t.onResp r.2.1 b = (((w.markDone g u.psn).rdvNotified u.req.rdv).advance g) → lands w := fun {w} e => by
      have hgo := go e
      dsimp only [lands]
      cases hv : u.req.rdv with
      | none =>
        rw [hv] at hgo
        exact hgo
      | some x =>
        rw [hv] at hgo
        exact hgo
    refine ⟨fun hk => go (onResp_other h hu hk), fun key pos len hk hland => ?_⟩
    intro data
    have resp := onResp_lands h hu hk hland
    exact ⟨fun hent hkey => lands_of (by rw [resp, landed_region hland _ hent hkey]), fun hent hkey => lands_of (by rw [resp, landed_nowhere hland _ hent hkey]),
      fun i e hent hx => lands_of (by rw [resp, landed_entry hland _ hent hx])⟩

end Sys2Proof.Machine
end

section
/-! The timers of a connection: the statement about a completed atomic meets a damaged word of the SRAM (R274, R361). -/

namespace Sys2Proof.Machine

/-- A running device with one bay of Joiner engines for atomics, an atomic in progress whose operand was asked for, and one word of the SRAM
that is not known to be intact. -/
def atomicMeetsWord : State :=
  let s := (({ State.reset with pins := ⟨true, false, false, false, false⟩ }.wr F.GLB_BOOT_STATUS.PHASE phRunning).modTrs (fun t =>
    { t with img := some ⟨0, 0, 0, [], [(0x8005, 8 :: List.replicate 15 0)]⟩ })).wr F.TRS_ENABLE.ENABLE (2 ^ 24)
  ((s.modCtx 0 (fun c => c.put Q.STATE qActive)).modRma (fun r => { r with atoms := [⟨0, 1, 0, 8, 5, 0, 0, 0x1000, false, false, true⟩] })).modEcc
    (fun e => { e with words := [(0, ⟨0, 0, 0, false, false, none⟩)] })

/-- Before the atomic ends, the local store of its engine is read where a word of the SRAM may be damaged, and which engine that is, is an
open choice (log entry 33): it takes a free value. -/
theorem engineRead_takes_free :
    (atomicMeetsWord.settle ((atomicMeetsWord.engineReads 3).atomDone 0 (.ok []))).free ≠
      (atomicMeetsWord.settle (atomicMeetsWord.atomDone 0 (.ok []))).free := by
  decide +kernel

/-- Refutes O32: its clause about ATOMIC_COMPLETE leaves out that the engine's local store is read first, which is no step without an effect
while a word of the SRAM is damaged (R361); every clause beside it that meets such a read assumes the SRAM intact. -/
theorem not_connectionTimers : ¬ Obligations.ConnectionTimers := by
  unfold Obligations.ConnectionTimers
  intro h
  have hl : atomicMeetsWord.live = true := by decide +kernel
  have hg : atomicMeetsWord.gatedEngines = false := by decide +kernel
  obtain ⟨-, -, -, hatom, -⟩ := h atomicMeetsWord 0 0 hl
  have claim := hatom ⟨0, 1, 0, 8, 5, 0, 0, 0x1000, false, false, true⟩ [] [] hg rfl rfl rfl rfl (by decide +kernel) 5 (by decide +kernel)
  have run : exec (.atomicComplete 0 (.ok [])) atomicMeetsWord = running atomicMeetsWord (fun s =>
    if s.gatedEngines then s.wake none else (s.engineReads 3).atomDone 0 (.ok [])) := rfl
  have done := run.trans (running_eq hl (if_neg (by rw [hg]; decide)))
  have same := Host.Outcome.next.inj (done.symm.trans claim)
  exact engineRead_takes_free (congrArg State.free same)

end Sys2Proof.Machine
end

section
/-! Match list commands and their result codes (R284, R285, R287, Tables 9.2, 9.17 and 9.18). -/

namespace Sys2Proof.Machine

section
variable {s t : State} {f : Fn} {m : Nat}

/-! ### The command register -/

theorem mlCommand_exec {c : Nat} {i : Instr} (h : s.serves (.fn f) .MAT_ML_CMD 0 = true) (hb : s.rdI F.MAT_ML_RESULT.BUSY (fnInst f) 0 = 0)
    (hn : m < 4096) (hi : (c, i) = (1, .mlCreate f) ∨ (c, i) = (2, .mlDestroy f m))
    (e : (if c = 1 then s.mlCreate f else s.mlDestroy f m) = t) (ha : s.Calm t) : exec i s = .next (s.settle t) := by
  have run : ∃ w, exec i s = powered s (fun s => s.regCmd (.fn f) .MAT_ML_CMD 0 w) ∧ w % 16 = c ∧ (c = 1 ∨ bits w 16 12 = m) ∧ 1 ≤ c ∧ c ≤ 2 := by
    simp only [Prod.mk.injEq] at hi
    rcases hi with ⟨rfl, rfl⟩ | ⟨rfl, rfl⟩
    · exact ⟨1, rfl, by decide, .inl rfl, by decide, by decide⟩
    · refine ⟨m % 4096 * 65536 + 2, rfl, by omega, .inr ?_, by decide, by decide⟩
      simp only [bits]
      omega
  obtain ⟨w, run, hcmd, hnum, h1, h2⟩ := run
  refine run.trans (regCmd_exec h ?_)
  have hu : (s.unusedOut .MAT_ML_CMD 0 || s.ringOut (.fn f) .MAT_ML_CMD 0) = false := rfl
  have hcell : s.cellOf (.fn f) .MAT_ML_CMD 0 = (fnInst f, 0) := rfl
  have hgo : (if c = 1 then s.mlCreate f else s.mlDestroy f (bits w 16 12)) = t := by
    rcases hnum with rfl | hnum
    · exact e
    · rw [hnum]
      exact e
  have hne : c ≠ 0 := by omega
  have htop : decide (2 < c) = false := decide_eq_false (by omega)
  have hbusy : (s.rdI F.MAT_ML_RESULT.BUSY (fnInst f) 0 == 1) = false := by rw [hb]; rfl
  have hf : (whoFn (.fn f)).getD (.pf 0) = f := rfl
  unfold State.writeReg
  simp only [hu, hcell, hf, Bool.false_eq_true, if_false, State.command, hcmd, hne, hbusy, htop, Bool.or_self, hgo]
  exact ha.rejectOnce

theorem mlEnd_calm (f : Fn) (cmd code m : Nat) : s.Calm (s.mlEnd f cmd code m) := by
  unfold State.mlEnd
  exact Steady.ite (steady_calm.after (steady_calm.raise _ _ _ (by decide)) (calm_of_acts rfl)) (calm_of_acts rfl)

theorem mlEndOpen_calm (f : Fn) (code : Nat) : s.Calm (s.mlEndOpen f code) :=
  State.Calm.trans (calm_of_acts rfl) (mlEnd_calm (s := (s.pick 4096).2) f 1 code (s.pick 4096).1)

/-! ### ML_CREATE -/

theorem mlCreate_disabled (h : s.en uMAT = false) : s.mlCreate f = s.mlEndOpen f 5 := by
  simp only [State.mlCreate, h, Bool.not_false, if_true]

section
variable (h : s.en uMAT = true)
include h

theorem mlCreate_full (hf : ∀ j, j < 4096 → s.ml j ≠ none) : s.mlCreate f = s.mlEndOpen f 7 := by
  have hnone : (List.range 4096).find? (fun m => (s.ml m).isNone && !(s.mat.cmds.any (fun k => k.ml == m))) = none :=
    List.find?_eq_none.2 (fun j hj => by simp [Option.isNone_iff_eq_none, hf j (List.mem_range.1 hj)])
  simp only [State.mlCreate, h, Bool.not_true, Bool.false_eq_true, if_false, hnone]

theorem mlCreate_lowest {k : Nat} (hk : k < 4096) (hfree : s.ml k = none) (hc : s.mat.cmds = []) (hl : ∀ j, j < k → s.ml j ≠ none) :
    s.mlCreate f = ((((s.modMat (fun x => { x with cmds := [⟨f, k⟩] })).wrI F.MAT_ML_RESULT.BUSY (fnInst f) 0 1).wrI F.MAT_ML_RESULT.CMD
      (fnInst f) 0 1).wrI F.MAT_ML_RESULT.ML (fnInst f) 0 k).readHost f (s.rdI F.MAT_ML_ADDR.ADDR (fnInst f) 0 * 64) 64 := by
  have hfind : (List.range 4096).find? (fun m => (s.ml m).isNone && !(s.mat.cmds.any (fun k => k.ml == m))) = some k := by
    simp only [hc, List.any_nil, Bool.not_false, Bool.and_true]
    refine List.find?_range_eq_some.2 ⟨by rw [hfree]; rfl, List.mem_range.2 hk, fun j hj => ?_⟩
    rw [Bool.not_eq_true', Option.isNone_eq_false_iff, Option.isSome_iff_ne_none]
    exact hl j hj
  have hcmds : s.modMat (fun x => { x with cmds := x.cmds ++ [⟨f, k⟩] }) = s.modMat (fun x => { x with cmds := [⟨f, k⟩] }) := by
    simp only [State.modMat, hc, List.nil_append]
  have haddr : ∀ u : State, ∀ d x, d.reg = .MAT_ML_RESULT → (u.wrI d (fnInst f) 0 x).rdI F.MAT_ML_ADDR.ADDR (fnInst f) 0 =
      u.rdI F.MAT_ML_ADDR.ADDR (fnInst f) 0 := fun u d x hd =>
    rdI_wrI_ne u x (fun hk => by rw [hd] at hk; exact absurd hk.1 (by decide))
  simp only [State.mlCreate, h, Bool.not_true, Bool.false_eq_true, if_false, hfind, hcmds, haddr _ F.MAT_ML_RESULT.ML _ rfl,
    haddr _ F.MAT_ML_RESULT.CMD _ rfl, haddr _ F.MAT_ML_RESULT.BUSY _ rfl]
  rfl

/-! ### ML_DESTROY -/

theorem mlDestroy_none (hm : s.ml m = none) : s.mlDestroy f m = s.mlEnd f 2 4 m := by
  simp only [State.mlDestroy, h, Bool.not_true, Bool.false_eq_true, if_false, hm]

/-- An ML is FREE again; what it held ends with ML_RESET. -/
def State.mlFreed (s : State) (m : Nat) (x : Ml) : State :=
  (((foldS (x.allPosted ++ x.fromSlot.map (·.1)) s (fun s p => s.recvCqe x p none stMlReset 0)).endEvents x stMlReset).modMat (fun y =>
    { y with mls := tabDel y.mls m })).dropSlotReads m

theorem mlDestroy_some {x : Ml} (hm : s.ml m = some x) : s.mlDestroy f m =
    if fnInst x.fn ≠ fnInst f then s.mlEnd f 2 4 m else if s.mlBound m then s.mlEnd f 2 3 m else (s.mlFreed m x).mlEnd f 2 0 m := by
  simp only [State.mlDestroy, h, Bool.not_true, Bool.false_eq_true, if_false, hm]
  rfl

end

theorem mlDestroy_disabled (h : s.en uMAT = false) : s.mlDestroy f m = s.mlEnd f 2 5 m := by
  simp only [State.mlDestroy, h, Bool.not_false, if_true]

theorem mlFreed_empty {x : Ml} (hp : x.allPosted = []) (hs : x.fromSlot = []) (he : x.events = []) :
    s.mlFreed m x = (s.modMat (fun y => { y with mls := tabDel y.mls m })).dropSlotReads m := by
  simp only [State.mlFreed, State.endEvents, hp, hs, he]
  rfl

/-! ### The descriptor of an ML_CREATE -/

/-- The find of the command that a descriptor belongs to. -/
theorem find_and {α : Type} {p q : α → Bool} {l : List α} {a : α} (h : l.find? p = some a) (ha : q a = true) :
    l.find? (fun x => p x && q x) = some a := by
  obtain ⟨hp, as, bs, rfl, hn⟩ := List.find?_eq_some_iff_append.1 h
  exact List.find?_eq_some_iff_append.2 ⟨by rw [hp, ha]; rfl, as, bs, rfl, fun x hx => by have := hn x hx; simp_all⟩

theorem mlDesc_refused {k : MlCmd} (h : s.mat.cmds.find? (fun k => fnInst k.fn == fnInst f) = some k)
    (hc : s.mat.checking.any (fun c => c.1 == k.ml) = false) : s.mlDescDone f .err = (s.raise .HIF_DMA_ERR).mlEnd f 1 6 k.ml := by
  unfold State.mlDescDone
  rw [find_and (q := fun k => !(s.mat.checking.any (fun c => c.1 == k.ml))) h (by rw [hc]; rfl)]

/-- A fold that no element moves. -/
theorem foldl_fixed_of_mem {α β : Type} {g : β → α → β} {b : β} {l : List α} (h : ∀ a ∈ l, g b a = b) : l.foldl g b = b := by
  induction l with
  | nil => rfl
  | cons a l ih => rw [List.foldl_cons, h a List.mem_cons_self, ih (fun c hc => h c (List.mem_cons_of_mem a hc))]

theorem keyUse_of_check {u : Use} {key off len idx : Nat} {k : KeyCtx} (h : s.keyCheck u key off len k = .ok idx) :
    s.keyUse u key off len k = (.ok idx, s) := by
  unfold State.keyUse
  rw [h]

/-- An ML whose keys passed takes its place on an engine, if one has room (R286). -/
def State.mlPlaced (s : State) (f : Fn) (i : Nat) (d : Bytes) : State :=
  match s.placeOn 0 (64 * (Ml.of f d).f ML.ONCHIP) with
  | (none, s) => s.mlEnd f 1 2 i
  | (some e, s) => (s.modMat (fun y => { y with mls := tabPut y.mls i { Ml.of f d with engine := e } })).mlEnd f 1 0 i

section
variable {i : Nat} {d : Bytes} {u : State}

theorem mlPlaced_some {e : Nat} (hu : s.placeOn 0 (64 * (Ml.of f d).f ML.ONCHIP) = (some e, u)) :
    s.mlPlaced f i d = (u.modMat (fun y => { y with mls := tabPut y.mls i { Ml.of f d with engine := e } })).mlEnd f 1 0 i := by
  unfold State.mlPlaced
  rw [hu]

theorem mlPlaced_none (hu : s.placeOn 0 (64 * (Ml.of f d).f ML.ONCHIP) = (none, u)) : s.mlPlaced f i d = u.mlEnd f 1 2 i := by
  unfold State.mlPlaced
  rw [hu]

end

section
variable {i : Nat} {d : Bytes} (hc : s.mat.checking = [])
include hc

theorem unchecked : s.modMat (fun x => { x with checking := x.checking.filter (fun c => c.1 != i) }) = s := by
  simp only [State.modMat, hc, List.filter_nil]
  rw [← hc]

theorem mlDesc_whole (h : s.mat.cmds.find? (fun k => fnInst k.fn == fnInst f) = some ⟨f, i⟩) (hd : d.length = 64) : s.mlDescDone f (.ok d) =
    if (mlDescOk d (s.qCount f) && s.pdOk f ((Ml.of f d).f ML.PD)) = true then s.mlCheck i d else s.mlEnd f 1 1 i := by
  unfold State.mlDescDone
  rw [find_and (q := fun k => !(s.mat.checking.any (fun c => c.1 == k.ml))) h (by rw [hc]; rfl)]
  dsimp only
  rw [padded_whole hd]

variable (h : s.mat.cmds.find? (fun k => k.ml == i) = some ⟨f, i⟩)
include h

/-- The check of an ML_CREATE, with no other one under way, waits for page entries (R260), or makes each use of its keys and takes its place. -/
theorem mlCheck_waits (hp : s.mlPages (Ml.of f d) ≠ []) :
    s.mlCheck i d = (s.modMat (fun y => { y with checking := [(i, d)] })).pagesAsk (s.mlPages (Ml.of f d)) := by
  unfold State.mlCheck
  rw [unchecked hc]
  dsimp only
  rw [h]
  dsimp only
  split
  next hn => exact absurd hn hp
  next => simp only [State.modMat, hc, List.nil_append]

variable (hp : s.mlPages (Ml.of f d) = [])
  (hk : ∀ r ∈ (Ml.of f d).ranges, ∃ n, s.keyCheck .lwrite r.1 r.2.2 r.2.1 (Ml.of f d).keyCtx = .ok n)
include hp hk

theorem mlCheck_passed : s.mlCheck i d = s.mlPlaced f i d := by
  unfold State.mlCheck
  rw [unchecked hc]
  dsimp only
  rw [h]
  dsimp only
  rw [hp, foldl_fixed_of_mem (fun r hr => ?_)]
  · rfl
  · obtain ⟨n, hn⟩ := hk r hr
    dsimp only
    rw [keyUse_of_check hn]
    rfl

end

end

/-- Settles O33: the commands by the unit, the list and its queues; a descriptor by Table 9.1, its keys and the engines. -/
theorem matchListCommandsEnd : Obligations.MatchListCommandsEnd := by
  unfold Obligations.MatchListCommandsEnd
  intro s f m
  refine ⟨?_, ?_, ?_⟩
  · intro h hb hm
    have create : ∀ {t}, s.mlCreate f = t → s.Calm t → exec (.mlCreate f) s = .next (s.settle t) := fun e ha =>
      mlCommand_exec h hb hm (.inl rfl) e ha
    have destroy : ∀ {t}, s.mlDestroy f m = t → s.Calm t → exec (.mlDestroy f m) s = .next (s.settle t) := fun e ha =>
      mlCommand_exec h hb hm (.inr rfl) e ha
    refine ⟨fun he => ⟨create (mlCreate_disabled he) (mlEndOpen_calm f 5), destroy (mlDestroy_disabled he) (mlEnd_calm f 2 5 m)⟩, fun he => ?_⟩
    refine ⟨fun k hk hfree hc hl => ?_, fun hf => create (mlCreate_full he hf) (mlEndOpen_calm f 7),
      fun hn => destroy (mlDestroy_none he hn) (mlEnd_calm f 2 4 m), fun x hx => ⟨fun ho => ?_, fun ho hu => ?_, fun ho hu hp hs hev => ?_⟩⟩
    · refine create (mlCreate_lowest he hk hfree hc hl) (State.Calm.trans ?_ (steady_calm.readHost _ f _ 64))
      exact calm_of_acts rfl
    · exact destroy ((mlDestroy_some he hx).trans (if_pos ho)) (mlEnd_calm f 2 4 m)
    · exact destroy ((mlDestroy_some he hx).trans ((if_neg (not_not.2 ho)).trans (if_pos hu))) (mlEnd_calm f 2 3 m)
    · have hfreed := (mlDestroy_some he hx).trans ((if_neg (not_not.2 ho)).trans (if_neg (by rw [hu]; decide)))
      rw [mlFreed_empty hp hs hev] at hfreed
      refine destroy hfreed (State.Calm.trans ?_ (mlEnd_calm f 2 0 m))
      exact calm_of_acts rfl
  · intro k hl hk hc
    exact descDone_exec hl (mlDesc_refused hk hc)
  · intro i d hl hc hf hi hd x fits ends
    have whole := mlDesc_whole hc hf hd
    refine ⟨fun hn => descDone_exec hl (whole.trans (if_neg (fun hok => hn (Bool.and_eq_true_iff.1 hok)))), fun hfit hp => ?_, fun hfit hp hk => ?_⟩
    · exact descDone_exec hl (whole.trans ((if_pos (Bool.and_eq_true_iff.2 hfit)).trans (mlCheck_waits hc hi hp)))
    · have checked := whole.trans ((if_pos (Bool.and_eq_true_iff.2 hfit)).trans (mlCheck_passed hc hi hp hk))
      exact ⟨fun e u hu => descDone_exec hl (checked.trans (mlPlaced_some hu)),
        fun u hu => descDone_exec hl (checked.trans (mlPlaced_none hu))⟩

end Sys2Proof.Machine
end

section
/-! Messages at their target (R296 to R298, R304, R306, Table 9.7). -/

namespace Sys2Proof.Machine

section
variable {s t u : State} {b : Bytes} {g d : Nat}

/-! ### How a message stands in the ledger -/

/-- A request that is new is judged on its own queue, with its context used. -/
theorem parts_of_new (h : s.targetPre b = .new u g d) : u = s.judged b ∧ g = pkDq b := by
  unfold State.targetPre at h
  dsimp only at h
  split_ifs at h
  cases h
  exact ⟨rfl, rfl⟩

/-- A duplicate, and a request that the ledger stops, is no new one of a queue that takes packets. -/
theorem not_new_of_targetPre_dup (h : s.targetPre b = .dup u g) : s.newPsn b = false := by
  unfold State.targetPre at h
  dsimp only at h
  split_ifs at h with _ _ _ _ _ _ hdup
  exact not_new_of_dup hdup

theorem passes4_of_state (h : s.q (pkDq b) Q.STATE ≠ qActive ∧ s.q (pkDq b) Q.STATE ≠ qStopping) : s.passes4 b = false := by
  rw [passes4_of_parts]
  simp [h.1, h.2]

theorem not_new_of_targetPre_stop (h : s.targetPre b = .stop u) : s.passes4 b = false ∨ s.newPsn b = false := by
  unfold State.targetPre at h
  dsimp only at h
  have state : ∀ {st}, s.q (pkDq b) Q.STATE = st → st ≠ qActive → st ≠ qStopping → s.passes4 b = false := fun e ha hs =>
    passes4_of_state ⟨e ▸ ha, e ▸ hs⟩
  split_ifs at h with hc ha hg hn ho he hd hz
  · exact .inl (by rw [passes4_of_parts, (Bool.not_eq_true' _).mp hc]; rfl)
  · exact .inl (by rw [passes4_of_parts, (Bool.not_eq_true' _).mp ha, Bool.and_false]; rfl)
  · rcases hg with hg | hg
    · have hg : (pkDqgen b == s.q (pkDq b) Q.QGEN) = false := beq_eq_false_iff_ne.2 hg
      exact .inl (by rw [passes4_of_parts, hg, Bool.and_false]; rfl)
    · exact .inl (state hg (by decide) (by decide))
  · have hn : (pkSrc b == s.q (pkDq b) Q.REMOTE_NODE) = false := beq_eq_false_iff_ne.2 hn
    exact .inl (by rw [passes4_of_parts, hn, Bool.and_false]; rfl)
  · exact .inl (state ho (by decide) (by decide))
  · exact .inl (state he (by decide) (by decide))
  · exact .inr (Bool.eq_false_iff.2 (fun hnew => by
      have := isNew_iff.1 hnew
      omega))

/-! ### The page entries that a message waits for -/

theorem messagePages_none (h : matBad b = true ∨ s.passes4 b = false ∨ s.newPsn b = false ∨ bit (s.q (pkDq b) Q.RIGHTS) 3 = false) :
    s.messagePages b = [] := by
  refine if_pos ?_
  rcases h with h | h | h | h
  · rw [h]; rfl
  · rw [h]; simp
  · rw [show (s.c (pkDq b)).isNew (diff24 (pkPsn b) ((s.c (pkDq b)).f Q.CUM_PSN)) = false from h]; simp
  · rw [show bit ((s.c (pkDq b)).f Q.RIGHTS) 3 = false from h]; simp

theorem messagePages_noList (h : s.ml (s.q (pkDq b) Q.ML % 4096) = none) : s.messagePages b = [] := by
  have h : s.ml ((s.c (pkDq b)).f Q.ML % 4096) = none := h
  unfold State.messagePages
  simp only [h, ite_self]

/-! ### The message at its unit -/

section
variable (hi : s.intact = true) (hk : 0x40 ≤ pkKind b ∧ pkKind b ≤ 0x42)
include hi hk

theorem message_waits (hp : s.messagePages b ≠ []) :
    s.request b = (s.pagesAsk (s.messagePages b)).modRte (fun x => { x with ejected := b :: x.ejected }) := by
  have held : s.heldPages b = s.messagePages b := if_pos hk
  have hne : (!(s.heldPages b).isEmpty) = true := by
    rw [held, Bool.not_eq_true', List.isEmpty_eq_false_iff]
    exact hp
  unfold State.request
  rw [reads_of_intact _ hi]
  dsimp only
  rw [if_pos hne, held]

theorem message_goes (hp : s.messagePages b = []) : s.request b = s.onMessage b := by
  have hnil : (s.heldPages b).isEmpty = true := by rw [show s.heldPages b = s.messagePages b from if_pos hk, hp]; rfl
  unfold State.request
  rw [reads_of_intact _ hi]
  dsimp only
  rw [hnil, if_neg (by decide), if_pos hk]

end

/-- The rows of messages. -/
def messageRows : List (Nat × Instr) := [(0x40, .msgEager), (0x41, .msgRts), (0x42, .msgFin)]

theorem messageRow_kind {r : Nat × Instr} (hr : r ∈ messageRows) : 0x40 ≤ r.1 ∧ r.1 ≤ 0x42 := by
  simp only [messageRows, List.mem_cons, List.not_mem_nil, or_false] at hr
  rcases hr with rfl | rfl | rfl <;> exact ⟨by decide, by decide⟩

section
variable {r : Nat × Instr} (hr : r ∈ messageRows) (hl : s.live = true) (hi : s.intact = true) (hh : s.hands uMAT r.1 b = true)
include hr hl hi hh

omit hi in
theorem message_exec (e : (s.handed r.1 b).request b = t) : exec r.2 s = .next (s.settle t) := by
  have run : exec r.2 s = running s (fun s => s.unitPacket uMAT r.1 State.request) := by
    simp only [messageRows, List.mem_cons, List.not_mem_nil, or_false] at hr
    rcases hr with rfl | rfl | rfl <;> rfl
  exact run.trans (unitPacket_exec hl hh e)

theorem message_waits_exec (hp : (s.handed r.1 b).messagePages b ≠ []) : exec r.2 s = .next (s.settle
    (((s.handed r.1 b).pagesAsk ((s.handed r.1 b).messagePages b)).modRte (fun x => { x with ejected := b :: x.ejected }))) :=
  message_exec hr hl hh (message_waits ((handed_intact s r.1 b).trans hi) (kind_of_hands hh ▸ messageRow_kind hr) hp)

theorem message_goes_exec (hp : (s.handed r.1 b).messagePages b = []) (e : (s.handed r.1 b).onMessage b = t) :
    exec r.2 s = .next (s.settle t) :=
  message_exec hr hl hh ((message_goes ((handed_intact s r.1 b).trans hi) (kind_of_hands hh ▸ messageRow_kind hr) hp).trans e)

end

/-! ### What a message does, by the ledger, its list and its kind -/

theorem onMessage_bad (h : matBad b = true) : s.onMessage b = s.malformed := if_pos h

/-- A message of a queue whose list is there and READY (Table 9.7 from step 8). -/
def State.listMessage (s : State) (g d m : Nat) (x : Ml) (b : Bytes) : State :=
  let e := headerEnt s g b
  let exp := s.q g Q.EXP_MSN
  let dm := diff24 e.msn exp
  if 255 < dm then
    let s := (s.nak g (pkPsn b) nkConn 0).setQ g Q.CAUSE stConnBroken
    (s.raiseOcc { occ .MAT_MSN_BAD g with info := e.msn + exp * 2 ^ 24, init := pkSrc b, remote := true }).queueError g
      erTransport (s.q g Q.TAKEN)
  else if dm = 0 ∧ (!x.spillRoom || (needsSlot x e && decide (x.f ML.SLOT_COUNT ≤ x.slots.length))) then s.noRoom g m (pkPsn b) 5
  else if dm ≠ 0 ∧ (x.f ML.ONCHIP ≤ 2 * x.held.length ∨ !x.entryRoom || (needsSlot x e && decide (x.f ML.SLOT_COUNT ≤ x.slots.length))) then
    s.noRoom g m (pkPsn b) 6
  else
    let p := if needsSlot x e then s.takeSlot m x else (none, s)
    p.2.admitHeader g d m { e with slot := p.1 } ((pkPayload b).drop 8 |>.take e.len) (dm == 0)

section
variable (hb : matBad b = false)
include hb

theorem onMessage_stop (h : s.targetPre b = .stop u) : s.onMessage b = u := by
  unfold State.onMessage
  rw [if_neg (by rw [hb]; decide), h]

theorem onMessage_dup (h : s.targetPre b = .dup u g) : s.onMessage b = u.ackNow g := by
  unfold State.onMessage
  rw [if_neg (by rw [hb]; decide), h]

section
variable (h : s.targetPre b = .new u g d)
include h

theorem onMessage_noRight (hr : bit (u.q g Q.RIGHTS) 3 = false) : s.onMessage b = u.violation g d 5 b := by
  unfold State.onMessage
  rw [if_neg (by rw [hb]; decide), h]
  dsimp only
  rw [if_pos (by rw [hr]; rfl)]

variable (hr : bit (u.q g Q.RIGHTS) 3 = true) (hw : pkWhole b = true)
include hr hw

theorem onMessage_noList (hm : u.ml (u.q g Q.ML % 4096) = none) : s.onMessage b = u.notReady g (pkPsn b) := by
  unfold State.onMessage
  rw [if_neg (by rw [hb]; decide), h]
  dsimp only
  rw [if_neg (by rw [hr]; decide), if_neg (by rw [hw]; decide), hm]

theorem onMessage_list {x : Ml} (hm : u.ml (u.q g Q.ML % 4096) = some x) : s.onMessage b =
    if x.broken ∨ fnInst x.fn ≠ fnInst (u.ownerOf g) ∨ !u.en uMAT then u.notReady g (pkPsn b)
    else if pkKind b = 0x42 then u.onFin g d b else u.listMessage g d (u.q g Q.ML % 4096) x b := by
  unfold State.onMessage
  rw [if_neg (by rw [hb]; decide), h]
  dsimp only
  rw [if_neg (by rw [hr]; decide), if_neg (by rw [hw]; decide), hm]
  rfl

end

end

/-! ### A header on a READY list -/

theorem headerEnt_rts (hk : pkKind b = 0x41) : (headerEnt s g b).kind = 3 := by
  simp only [headerEnt, hk, beq_self_eq_true, if_true]

theorem headerEnt_eager (hk : pkKind b = 0x40) : (headerEnt s g b).kind = 2 := by
  have h : (pkKind b == 0x41) = false := by rw [hk]; rfl
  simp only [headerEnt, h, Bool.false_eq_true, if_false]

theorem needsSlot_rts {x : Ml} {e : LEnt} (h : e.kind = 3) : needsSlot x e = false := by
  simp only [needsSlot, h, Nat.reduceBEq, Bool.false_and]

/-- A header in order becomes an event of its list, and EXP_MSN moves on (R300). -/
def State.enters (s : State) (g m : Nat) (e : LEnt) (data : Option Bytes) : State :=
  ((s.modMl m (fun x => { x with events := x.events ++ [.header e data] })).setQ g Q.EXP_MSN (add24 e.msn 1)).release g m 256

theorem admitHeader_inOrder {m : Nat} {e : LEnt} {data : Bytes} :
    s.admitHeader g d m e data true = ((s.settlePsn g d).ackLater g).enters g m e (if e.kind = 2 then some data else none) := by
  unfold State.admitHeader
  dsimp only
  rw [if_pos rfl]
  rfl

theorem q_modMl {m : Nat} {f : Ml → Ml} (i : Nat) (x : Nat × Nat) : (s.modMl m f).q i x = s.q i x := rfl

theorem admitHeader_ahead {m : Nat} {e : LEnt} {data : Bytes} (hk : e.kind = 3) (hs : e.slot = none) (hl : e.lost = false) :
    s.admitHeader g d m e data false = (((s.settlePsn g d).ackLater g).modMl m (fun x => { x with held := x.held ++ [{ e with kind := 5 }] })).setQ g
      Q.HELD (((s.settlePsn g d).ackLater g).q g Q.HELD + 1) := by
  unfold State.admitHeader
  dsimp only
  rw [if_neg Bool.false_ne_true, beq_eq_false_iff_ne.2 (show e.kind ≠ 2 by rw [hk]; decide), Bool.false_and, Bool.false_and,
    if_neg Bool.false_ne_true, if_pos hk, ← hl]
  split
  next hk _ => rw [hs] at hk; cases hk
  next => rw [q_modMl]

section
variable {m : Nat} {x : Ml}

theorem listMessage_far (h : 255 < diff24 (headerEnt s g b).msn (s.q g Q.EXP_MSN)) : s.listMessage g d m x b =
    (((s.nak g (pkPsn b) nkConn 0).setQ g Q.CAUSE stConnBroken).raiseOcc { occ .MAT_MSN_BAD g with
      info := (headerEnt s g b).msn + s.q g Q.EXP_MSN * 2 ^ 24, init := pkSrc b, remote := true }).queueError g
      erTransport (((s.nak g (pkPsn b) nkConn 0).setQ g Q.CAUSE stConnBroken).q g Q.TAKEN) := if_pos h

section
variable (h : diff24 (headerEnt s g b).msn (s.q g Q.EXP_MSN) = 0)
include h

theorem listMessage_noRoom (hr : x.spillRoom = false) : s.listMessage g d m x b = s.noRoom g m (pkPsn b) 5 :=
  (if_neg (by rw [h]; decide)).trans (if_pos ⟨h, by rw [hr]; rfl⟩)

variable (hr : x.spillRoom = true)
include hr

theorem listMessage_inOrder (hf : (needsSlot x (headerEnt s g b) && decide (x.f ML.SLOT_COUNT ≤ x.slots.length)) = false) :
    s.listMessage g d m x b =
      (if needsSlot x (headerEnt s g b) then s.takeSlot m x else (none, s)).2.admitHeader g d m { headerEnt s g b with
        slot := (if needsSlot x (headerEnt s g b) then s.takeSlot m x else (none, s)).1 } (((pkPayload b).drop 8).take (headerEnt s g b).len) true := by
  unfold State.listMessage
  dsimp only
  rw [if_neg (by rw [h]; decide), if_neg (by rw [hr, hf]; exact fun hx => absurd hx.2 (by decide)), if_neg (fun hx => hx.1 h), h]
  rfl

theorem listMessage_enters (hn : needsSlot x (headerEnt s g b) = false) : s.listMessage g d m x b =
    ((s.settlePsn g d).ackLater g).enters g m (headerEnt s g b)
      (if (headerEnt s g b).kind = 2 then some (((pkPayload b).drop 8).take (headerEnt s g b).len) else none) := by
  refine (listMessage_inOrder h hr (by rw [hn]; rfl)).trans ?_
  simp only [hn, Bool.false_eq_true, if_false]
  exact admitHeader_inOrder

theorem listMessage_slot {k : Nat} {w : State} (hn : needsSlot x (headerEnt s g b) = true) (hf : x.slots.length < x.f ML.SLOT_COUNT)
    (hw : s.takeSlot m x = (some k, w)) (hk : (headerEnt s g b).kind = 2) : s.listMessage g d m x b =
    ((w.settlePsn g d).ackLater g).enters g m { headerEnt s g b with slot := some k }
      (some (((pkPayload b).drop 8).take (headerEnt s g b).len)) := by
  refine (listMessage_inOrder h hr (by rw [hn, decide_eq_false (Nat.not_le.2 hf)]; rfl)).trans ?_
  simp only [hn, if_true, hw]
  exact admitHeader_inOrder.trans (by rw [if_pos hk])

end

theorem listMessage_ahead (hk : pkKind b = 0x41) (h1 : 1 ≤ diff24 (headerEnt s g b).msn (s.q g Q.EXP_MSN))
    (h2 : diff24 (headerEnt s g b).msn (s.q g Q.EXP_MSN) ≤ 255) (hh : 2 * x.held.length < x.f ML.ONCHIP) (hr : x.entryRoom = true) :
    s.listMessage g d m x b = (((s.settlePsn g d).ackLater g).modMl m (fun x => { x with
      held := x.held ++ [{ headerEnt s g b with kind := 5 }] })).setQ g Q.HELD (((s.settlePsn g d).ackLater g).q g Q.HELD + 1) := by
  have hn : needsSlot x (headerEnt s g b) = false := needsSlot_rts (headerEnt_rts hk)
  have hne : diff24 (headerEnt s g b).msn (s.q g Q.EXP_MSN) ≠ 0 := by omega
  have hroom : ¬ (x.f ML.ONCHIP ≤ 2 * x.held.length ∨ (!x.entryRoom || (needsSlot x (headerEnt s g b) && decide (x.f ML.SLOT_COUNT ≤ x.slots.length)))
      = true) := by
    rw [hr, hn]
    exact not_or.2 ⟨Nat.not_le.2 hh, Bool.false_ne_true⟩
  unfold State.listMessage
  dsimp only
  rw [if_neg (Nat.not_lt.2 h2), if_neg (fun hx => hne hx.1), if_neg (fun hx => hroom hx.2), hn, if_neg (by decide), beq_eq_false_iff_ne.2 hne]
  exact admitHeader_ahead (headerEnt_rts hk) rfl rfl

end

/-- A SEND that waits for the MSG_FIN of a message (R304). -/
def State.finWaits (s : State) (g : Nat) (b : Bytes) (e : Ent) : Bool :=
  leAt e.b 0 1 == 0x20 && e.begun && e.fin.isNone && e.msn == some (leAt (pkPayload b) 4 3) && e.taken.isNone &&
    decide (s.q g Q.EAGER_MAX < leAt e.b 16 4)

theorem onFin_eq {v : State} (hv : (s.settlePsn g d).ackLater g = v) : s.onFin g d b =
    if (v.c g).ents.any (v.finWaits g b) then (((v.modCtx g (fun c => { c with ents := c.ents.map (fun e =>
      if v.finWaits g b e then { e with taken := some (leAt (pkPayload b) 0 4) } else e) })).countSrdv g).finishEnts g).post (.run g)
    else v.inc F.MAT_COUNT.STALE := by
  subst hv
  rfl

end

end Sys2Proof.Machine
end

section
/-! Matching on a list, its spill rings and its rendezvous (R250, R299, R301, R302, R304, Table 9.2). -/

namespace Sys2Proof.Machine

section
variable {s t u w : State} {m : Nat} {x : Ml} {at' : Option Nat}

/-! ### A search and what it finds -/

section
variable {posted : Bool} {ok : LEnt → Bool}

theorem search_chip {p : LEnt} (h : (if posted then x.posted else x.unexp).find? ok = some p) : x.search at' posted ok = .chip p := by
  unfold Ml.search
  dsimp only
  rw [h]

section
variable (h : (if posted then x.posted else x.unexp) = [])
include h

theorem search_none (hs : (if posted then x.postedSpill else x.unexpSpill) = []) : x.search at' posted ok = .none := by
  unfold Ml.search
  dsimp only
  rw [h, hs]
  rfl

theorem search_read (hs : (if posted then x.postedSpill else x.unexpSpill) ≠ []) (hw : x.waits = false) : x.search none posted ok = .read 0 := by
  unfold Ml.search
  dsimp only
  rw [h, List.find?_nil]
  dsimp only
  rw [if_neg (by rw [List.isEmpty_iff]; exact hs), hw, if_neg Bool.false_ne_true]

end

theorem regionRead_intact {k : Nat} (hi : s.intact = true) (hr : s.ecc.refetch = []) : s.regionRead k = (true, s) := by
  have hw : s.ecc.words.isEmpty = true := hi
  unfold State.regionRead
  dsimp only
  rw [if_pos hw, hr]
  rfl

variable {needs : LEnt → Needs} {quiet : LEnt → Bool} {hit : State → LEnt → State} {miss : State → State}

theorem searchEvent_none (h : x.search at' posted ok = .none) : s.searchEvent m x at' posted ok needs quiet hit miss = miss s := by
  unfold State.searchEvent
  rw [h]

theorem searchEvent_read (h : x.search at' posted ok = .read 0) :
    s.searchEvent m x at' posted ok needs quiet hit miss = (s.inc F.MAT_COUNT.SPILL_READS).readSpill m x posted 0 := by
  unfold State.searchEvent
  rw [h]
  rfl

section
variable {p : LEnt} (h : x.search at' posted ok = .chip p)
include h

theorem searchEvent_needs (hn : s.needWait x (needs p) = some w) : s.searchEvent m x at' posted ok needs quiet hit miss = w.eventWaits m := by
  unfold State.searchEvent
  rw [h]
  dsimp only
  rw [hn]

variable (hi : s.intact = true) (hr : s.ecc.refetch = []) (hn : s.needWait x (needs p) = none)
include hi hr hn

theorem searchEvent_found : s.searchEvent m x at' posted ok needs quiet hit miss =
    if (s.recvRoom x || quiet p) = true then hit ((s.takeFound m posted ok (.chip p)).eventDone m) p else s.eventWaits m := by
  unfold State.searchEvent
  rw [h]
  dsimp only
  rw [hn, regionRead_intact hi hr]
  rfl

theorem searchEvent_hit (hq : s.recvRoom x = true ∨ quiet p = true) :
    s.searchEvent m x at' posted ok needs quiet hit miss = hit ((s.takeFound m posted ok (.chip p)).eventDone m) p :=
  (searchEvent_found h hi hr hn).trans (if_pos (Bool.or_eq_true_iff.2 hq))

theorem searchEvent_noRoom (hq : s.recvRoom x = false) (hp : quiet p = false) :
    s.searchEvent m x at' posted ok needs quiet hit miss = s.eventWaits m :=
  (searchEvent_found h hi hr hn).trans (if_neg (by rw [hq, hp]; decide))

end

end

/-! ### The first event of a list -/

section
variable (hm : s.ml m = some x)
include hm

theorem matchEvent_idle (h : x.events = []) : s.matchEvent m at' = s := by
  unfold State.matchEvent
  rw [hm]
  dsimp only
  rw [h]

/-- Whether a header is a rendezvous whose connection is still there. -/
def State.rdvThere (s : State) (e : LEnt) : Bool := e.kind == 3 && s.sameConn e

theorem matchEvent_header {e : LEnt} {data : Option Bytes} {rest : List MEv} (h : x.events = .header e data :: rest) : s.matchEvent m at' =
    s.searchEvent m x at' true (fun p => accepts p e.tag e.rank) (fun p => needsOf p e) (fun _ => s.rdvThere e) (fun s p => s.deliver m p e data)
      (fun s => if x.ringFull then s.eventWaits m else (s.eventDone m).unexpected m e data) := by
  unfold State.matchEvent
  rw [hm]
  dsimp only
  rw [h]
  rfl

section
variable {q idx : Nat} {en : Ent} {rest : List MEv} (hen : s.ent q idx = some en)
include hen

theorem matchEvent_recv (h : x.events = .recv q idx :: rest) : s.matchEvent m at' =
    s.searchEvent m x at' false (fun e => accepts (recvEnt q en.b) e.tag e.rank) (fun e => needsOf (recvEnt q en.b) e) s.rdvThere
      (fun s e => (s.deliver m (recvEnt q en.b) e none).matEnd q idx 0)
      (fun s => if x.canPost then ((s.eventDone m).appendList m true (recvEnt q en.b)).matEnd q idx 0 else (s.eventDone m).matEnd q idx stListFull) := by
  unfold State.matchEvent
  rw [hm]
  dsimp only
  rw [h]
  dsimp only
  rw [hen]
  rfl

theorem matchEvent_cancel (h : x.events = .cancel q idx :: rest) : s.matchEvent m at' =
    s.searchEvent m x at' true (fun p => p.user == leAt en.b 20 4) (fun _ => ⟨(0, 0, 0), none⟩) (fun _ => false)
      (fun s p => (s.recvCqe x p none stCancelled 0).matEnd q idx 0) (fun s => (s.eventDone m).matEnd q idx stNotFound) := by
  unfold State.matchEvent
  rw [hm]
  dsimp only
  rw [h]
  dsimp only
  rw [hen]

end

theorem ml_eventDone : ∃ y, (s.eventDone m).ml m = some y := ⟨_, tabGet_mod_same _ hm⟩

/-- A rendezvous that nothing posted accepts joins the unexpected list (R301). -/
theorem unexpected_rts {e : LEnt} (hk : e.kind = 3) :
    s.unexpected m e none = (s.inc F.MAT_COUNT.UNEXPECTED).appendList m false { e with lost := false } := by
  have hn : (e.kind == 2) = false := by rw [hk]; rfl
  unfold State.unexpected
  rw [hm]
  simp only [hn, Bool.false_and, Bool.false_eq_true, if_false]

/-! ### Reads of the spill rings -/

theorem spillDone_none (h : x.reading = none) (a : Ans) : s.spillDone m a = s := by
  unfold State.spillDone
  rw [hm]
  dsimp only
  rw [h]

theorem spillDone_refused {i : Nat} (h : x.reading = some i) : s.spillDone m .err = s.mlBreak m := by
  unfold State.spillDone
  rw [hm]
  dsimp only
  rw [h]

theorem spillDone_read {i : Nat} (h : x.reading = some i) (b : Bytes) : s.spillDone m (.ok b) = s.matchEvent m (some i) := by
  unfold State.spillDone
  rw [hm]
  dsimp only
  rw [h]

end

theorem of_ml_modMl {f : Ml → Ml} {y : Ml} (h : (u.modMl m f).ml m = some y) : ∃ z, y = f z := by
  have h : tabGet (tabMod u.mat.mls m f) m = some y := h
  unfold tabMod at h
  split at h
  next z _ =>
    rw [tabGet_put_same] at h
    exact ⟨z, (Option.some.inj h).symm⟩
  next hn => rw [hn] at h; cases h

/-- A list that broke is BROKEN, and stays so. -/
theorem broken_of_mlBreak {y : Ml} (h : (u.mlBreak m).ml m = some y) : y.broken = true := by
  unfold State.mlBreak at h
  split at h
  next hn => rw [hn] at h; cases h
  next z hz =>
    split at h
    next hb =>
      rw [hz] at h
      cases h
      exact hb
    next =>
      obtain ⟨z, rfl⟩ := of_ml_modMl h
      rfl

theorem mlBreak_mlBreak : (u.mlBreak m).mlBreak m = u.mlBreak m := by
  rw [State.mlBreak]
  split
  next => rfl
  next y hy => exact if_pos (broken_of_mlBreak hy)

/-! ### Refills -/

section
variable (hm : s.ml m = some x) (hb : x.broken = false) (he : x.events = []) (hw : x.waits = false)
include hm hb he hw

theorem spillRefill_none (hp : x.refillable true = false) (hu : x.refillable false = false) (a : Ans) : s.spillRefill m a = s := by
  unfold State.spillRefill
  rw [hm]
  dsimp only
  rw [hb, he, hw, hp, hu]
  rfl

/-- The read of a refill. -/
def State.refillRead (s : State) (m : Nat) (x : Ml) : State :=
  s.mlRead m (x.f ML.SPILL_KEY) (x.spillOff (x.refillable true) 0) (64 * x.chunk (x.refillable true) 0)

/-- What a refill does once its read is made: its entries move onto the chip in order, or the list breaks. -/
def State.refilled (s : State) (m : Nat) (x : Ml) (a : Ans) : State :=
  match s.ml m, a with
  | some y, .ok _ => if y.broken then s else s.refillList m (x.refillable true) (x.chunk (x.refillable true) 0)
      (min (x.chunk (x.refillable true) 0) (x.f ML.ONCHIP - x.onchip))
  | _, _ => s.mlBreak m

theorem spillRefill_reads (hr : x.refillable true = true ∨ x.refillable false = true) (a : Ans) :
    s.spillRefill m a = (s.refillRead m x).refilled m x a := by
  have hnone : ¬ (!x.refillable true && !x.refillable false) = true := by
    rcases hr with h | h
    · rw [h, Bool.not_true, Bool.false_and]; decide
    · rw [h, Bool.not_true, Bool.and_false]; decide
  unfold State.spillRefill
  rw [hm]
  simp only [hb, he, hw, List.isEmpty_nil, Bool.true_or, Bool.not_true, Bool.false_eq_true, or_self, if_false, Bool.false_and, Bool.not_false,
    Bool.true_and, hnone]
  rfl

end

theorem refilled_refused : s.refilled m x .err = s.mlBreak m := by
  unfold State.refilled
  split
  next h => cases h
  next => rfl

theorem refilled_gone (h : ∀ y, s.ml m = some y → y.broken = true) (b : Bytes) : s.refilled m x (.ok b) = s.mlBreak m := by
  unfold State.refilled State.mlBreak
  cases hm : s.ml m with
  | none => rfl
  | some y =>
    have hb := h y hm
    dsimp only
    rw [if_pos hb, if_pos hb]

theorem refilled_moves {y : Ml} (hm : s.ml m = some y) (hb : y.broken = false) (b : Bytes) : s.refilled m x (.ok b) =
    s.refillList m (x.refillable true) (x.chunk (x.refillable true) 0) (min (x.chunk (x.refillable true) 0) (x.f ML.ONCHIP - x.onchip)) := by
  unfold State.refilled
  rw [hm]
  dsimp only
  rw [hb, if_neg Bool.false_ne_true]

section
variable (hm : s.ml m = some x) (hi : s.intact = true) (hr : s.ecc.refetch = []) {key off len : Nat}
include hm hi hr

theorem mlRead_ok {idx : Nat} (hk : s.keyUse .lwrite key off len x.keyCtx = (.ok idx, u)) : s.mlRead m key off len = u.fetch idx off len := by
  unfold State.mlRead
  rw [hm]
  dsimp only
  rw [regionRead_intact hi hr, hk]

theorem mlRead_refused {c : Nat} (hk : s.keyUse .lwrite key off len x.keyCtx = (.error c, u)) : s.mlRead m key off len = u.mlBreak m := by
  unfold State.mlRead
  rw [hm]
  dsimp only
  rw [regionRead_intact hi hr, hk]

end

theorem mat_fetch {idx off len : Nat} : (s.fetch idx off len).mat = s.mat :=
  foldS_keeps State.mat _ (fun t p => by
    unfold State.readHost
    split
    · rfl
    · rfl) _ s

/-! ### Rendezvous (R304) -/

theorem rdvStart_full (h : s.trackers = []) : s.rdvStart = s := by
  unfold State.rdvStart
  rw [h]
  split
  next => rfl
  next => rfl

theorem rdvStart_starts {r : Rdv} {e : Nat} (h : s.mat.rdvs.find? (fun r => !r.started && !r.over') = some r)
    (he : s.leastBusy 2 s.trackers = (some e, u)) : s.rdvStart =
    ((u.modMat (fun x => { x with rdvs := x.rdvs.map (fun y =>
      if y.id = r.id then { y with started := true, left := (cutMsg r.taken).length, engine := e } else y) })).modCtx r.q (fun c => { c with
        todo := c.todo ++ (cutMsg r.taken).map (fun p => ⟨0x12, none, some r.id, leBytes 1 0 ++ leBytes 4 r.rts.key ++
          leBytes 8 (r.rts.off + p.1), leBytes 4 p.2 ++ leBytes 4 0, some (r.post.key, r.post.off + p.1, p.2)⟩) })).pump r.q 4096 := by
  unfold State.rdvStart
  rw [h]
  dsimp only
  rw [he]

theorem ml_judged {b : Bytes} (i : Nat) : (s.judged b).ml i = s.ml i := by
  have h : (s.useCtx (pkDq b)).mat = s.mat := by
    unfold State.useCtx
    split
    · rfl
    · rfl
  show tabGet (s.useCtx (pkDq b)).mat.mls i = _
  rw [h]
  rfl

/-! ### The commands of a list -/

section
variable (hl : s.live = true) (hi : s.intact = true) (hp : s.pState = 0) (hm : s.ml m = some x)
include hl hi hp hm

theorem onMl_exec {c : Instr} {f : State → State} (run : exec c s = running s (fun s => s.onMl m f)) (hpg : s.mlPages x = []) (e : f s = t) :
    exec c s = .next (s.settle t) := by
  refine run.trans (running_eq hl ?_)
  unfold State.onMl
  rw [hm]
  dsimp only
  rw [hpg, if_pos List.isEmpty_nil, onEngine_awake hp hi, reads_of_intact _ hi]
  exact e

omit hi hp in
theorem onMl_waits {c : Instr} {f : State → State} (run : exec c s = running s (fun s => s.onMl m f)) (hpg : s.mlPages x ≠ []) :
    exec c s = .next (s.settle (s.pagesAsk (s.mlPages x))) := by
  refine run.trans (running_eq hl ?_)
  unfold State.onMl
  rw [hm]
  dsimp only
  exact if_neg (by rw [List.isEmpty_iff]; exact hpg)

theorem matchEvent_exec (hpg : s.mlPages x = []) (hb : x.broken = false) (he : s.en uMAT = true) (hr : x.reading = none)
    (e : s.matchEvent m none = t) : exec (.matchEvent m) s = .next (s.settle t) := by
  have run : exec (.matchEvent m) s = running s (fun s => s.onMl m (fun s => s.matchNext m)) := rfl
  refine onMl_exec hl hi hp hm run hpg ?_
  unfold State.matchNext
  rw [hm]
  dsimp only
  rw [hr, hb, show s.en 11 = true from he]
  exact e

end

end

/-- Settles O34: messages by the steps of Table 9.7; matching by what the search of a list finds; refills by their read. -/
theorem matchingGoesOn : Obligations.MatchingGoesOn := by
  unfold Obligations.MatchingGoesOn
  refine ⟨?_, ?_⟩
  · intro s b hl hi rows r hr hh t
    have hk : pkKind b = r.1 := kind_of_hands hh
    have go : ∀ {u}, t.messagePages b = [] → t.onMessage b = u → exec r.2 s = .next (s.settle u) := fun hp e =>
      message_goes_exec hr hl hi hh hp e
    refine ⟨fun hb => go (messagePages_none (.inl hb)) (onMessage_bad hb), message_waits_exec hr hl hi hh, fun u hb hu => ?_,
      fun u g hb hu => go (messagePages_none (.inr (.inr (.inl (not_new_of_targetPre_dup hu))))) (onMessage_dup hb hu), fun u g d hb hu => ?_⟩
    · rcases not_new_of_targetPre_stop hu with h | h
      · exact go (messagePages_none (.inr (.inl h))) (onMessage_stop hb hu)
      · exact go (messagePages_none (.inr (.inr (.inl h)))) (onMessage_stop hb hu)
    obtain ⟨hju, hg⟩ := parts_of_new hu
    have hq : ∀ f, u.q g f = t.q (pkDq b) f := fun f => by rw [hju, hg, q_judged]
    have hmat : ∀ i, u.ml i = t.ml i := fun i => by rw [hju, ml_judged]
    refine ⟨fun hr => ?_, fun hr hw hm => ?_, fun x hr hw hm hp => ?_⟩
    · rw [hq] at hr
      exact go (messagePages_none (.inr (.inr (.inr hr)))) (onMessage_noRight hb hu (by rw [hq]; exact hr))
    · refine go (messagePages_noList ?_) (onMessage_noList hb hu hr hw hm)
      rw [hmat, hq] at hm
      exact hm
    have list := onMessage_list hb hu hr hw hm
    intro m enters
    refine ⟨fun h => go hp (list.trans (if_pos ?_)), fun hx hf he hk1 => ?_, fun hx hf he hk0 => ?_, fun hx hf he hk2 => ?_⟩
    · rcases h with h | h
      · exact .inl h
      · exact .inr (.inl h)
    all_goals
      have ready : ¬ (x.broken = true ∨ fnInst x.fn ≠ fnInst (u.ownerOf g) ∨ (!u.en uMAT) = true) := by
        rw [hx, he]
        exact not_or.2 ⟨Bool.false_ne_true, not_or.2 ⟨not_not.2 hf, Bool.false_ne_true⟩⟩
      have list := list.trans (if_neg ready)
    · have header := list.trans (if_neg (by rw [hk, hk1]; decide))
      have hk1 := hk.trans hk1
      intro e exp
      refine ⟨fun h => ?_, fun h hs => go hp (header.trans (listMessage_noRoom h hs)), fun h hs => ?_,
        fun h1 h2 hh hs => go hp (header.trans (listMessage_ahead hk1 h1 h2 hh hs))⟩
      · intro v w
        exact go hp (header.trans (listMessage_far h))
      · have hk3 : (headerEnt u g b).kind ≠ 2 := by rw [headerEnt_rts hk1]; decide
        exact go hp (header.trans ((listMessage_enters h hs (needsSlot_rts (headerEnt_rts hk1))).trans (by rw [if_neg hk3]; rfl)))
    · have header := list.trans (if_neg (by rw [hk, hk0]; decide))
      have hk2 : (headerEnt u g b).kind = 2 := headerEnt_eager (hk.trans hk0)
      intro e data h hs
      refine ⟨fun hn => go hp (header.trans ((listMessage_enters h hs hn).trans (by rw [if_pos hk2]; rfl))), fun k w hn hf hw => ?_⟩
      exact go hp (header.trans (listMessage_slot h hs hn hf hw hk2))
    · have fin := list.trans ((if_pos (hk.trans hk2)).trans (onFin_eq rfl))
      intro v hit
      exact ⟨fun hn => go hp (fin.trans (if_neg (by rw [show (v.c g).ents.any (v.finWaits g b) = false from hn]; decide))),
        fun hn => go hp (fin.trans (if_pos hn))⟩
  · intro s m x hl hi href hp hm hb
    refine ⟨fun hpg c hc => ?_, fun hpg he hread => ?_, fun hpg => ⟨fun hn a => ?_, fun i hx => ⟨?_, fun b => ?_⟩⟩, fun hpg he hw => ?_, ?_⟩
    · simp only [List.mem_cons, List.not_mem_nil, or_false] at hc
      rcases hc with rfl | rfl | rfl
      · exact onMl_waits hl hm (f := fun s => s.matchNext m) rfl hpg
      · exact onMl_waits hl hm (f := fun s => s.spillDone m .err) rfl hpg
      · exact onMl_waits hl hm (f := fun s => s.spillRefill m .err) rfl hpg
    · have event : ∀ {t}, s.matchEvent m none = t → exec (.matchEvent m) s = .next (s.settle t) := fun e =>
        matchEvent_exec hl hi hp hm hpg hb he hread e
      obtain ⟨y, hy⟩ := ml_eventDone hm
      refine ⟨fun e p data rest hev hf => ⟨fun w hw => ?_, fun hn hroom => ?_, fun hn hroom hk => ?_⟩, fun e rest hev hk hpo hsp hfull => ?_,
        fun q idx en rest hev hen hun hsp => ⟨fun hc => ?_, fun hc => ?_⟩, fun q idx en e rest hev hen => ?_, fun q idx en rest hev hen hpo hsp => ?_,
        fun e data rest hev hpo hsp hw => ?_, fun hev => event (matchEvent_idle hm hev)⟩
      · exact event ((matchEvent_header hm hev).trans (searchEvent_needs (search_chip hf) hw))
      · refine event ((matchEvent_header hm hev).trans (searchEvent_hit (search_chip hf) hi href hn ?_))
        rcases hroom with h | ⟨hk, hc⟩
        · exact .inl h
        · exact .inr (by rw [State.rdvThere, hk, hc]; rfl)
      · refine event ((matchEvent_header hm hev).trans (searchEvent_noRoom (search_chip hf) hi href hn hroom ?_))
        rw [State.rdvThere, beq_eq_false_iff_ne.2 hk, Bool.false_and]
      · refine event ((matchEvent_header hm hev).trans ((searchEvent_none (search_none (x := x) (posted := true) hpo hsp)).trans ?_))
        rw [hfull, if_neg Bool.false_ne_true]
        exact unexpected_rts hy hk
      · exact event ((matchEvent_recv hm hen hev).trans ((searchEvent_none (search_none (x := x) (posted := false) hun hsp)).trans (if_pos hc)))
      · exact event ((matchEvent_recv hm hen hev).trans ((searchEvent_none (search_none (x := x) (posted := false) hun hsp)).trans (if_neg (by rw [hc]; decide))))
      · intro p hf hn hroom
        exact event ((matchEvent_recv hm hen hev).trans (searchEvent_hit (search_chip hf) hi href hn (.inl hroom)))
      · exact event ((matchEvent_cancel hm hen hev).trans (searchEvent_none (search_none hpo hsp)))
      · exact event ((matchEvent_header hm hev).trans (searchEvent_read (search_read hpo hsp hw)))
    · exact onMl_exec hl hi hp hm (f := fun s => s.spillDone m a) rfl hpg (spillDone_none hm hn a)
    · exact onMl_exec hl hi hp hm (f := fun s => s.spillDone m .err) rfl hpg (spillDone_refused hm hx)
    · exact onMl_exec hl hi hp hm (f := fun s => s.spillDone m (.ok b)) rfl hpg (spillDone_read hm hx b)
    · have refill : ∀ {t} (a : Ans), s.spillRefill m a = t → exec (.spillRefill m a) s = .next (s.settle t) := fun a e =>
        onMl_exec hl hi hp hm (f := fun s => s.spillRefill m a) rfl hpg e
      refine ⟨fun hn hu a => refill a (spillRefill_none hm hb he hw hn hu a), ?_⟩
      intro posted hr n off
      have reads := spillRefill_reads hm hb he hw hr
      refine ⟨fun idx u b hk => ?_, fun c u b hk => ?_⟩
      · have hread : s.refillRead m x = u.fetch idx off (64 * n) := mlRead_ok hm hi href hk
        obtain ⟨-, rfl⟩ := keyUse_ok hk
        have hx : (u.fetch idx off (64 * n)).ml m = some x := by rw [State.ml, mat_fetch]; exact hm
        exact ⟨refill (.ok b) ((reads (.ok b)).trans (by rw [hread]; exact refilled_moves hx hb b)),
          refill .err ((reads .err).trans (by rw [hread]; exact refilled_refused))⟩
      · have hread : s.refillRead m x = u.mlBreak m := mlRead_refused hm hi href hk
        refine refill (.ok b) ((reads (.ok b)).trans ?_)
        rw [hread]
        exact (refilled_gone (fun y hy => broken_of_mlBreak hy) b).trans mlBreak_mlBreak
    · intro free
      have hg : s.gatedEngines = false := by rw [State.gatedEngines, hp]; rfl
      have run : exec .rendezvousStart s = running s (fun s => if s.gatedEngines then s.wake none else s.rdvStart) := rfl
      have start : ∀ {t}, s.rdvStart = t → exec .rendezvousStart s = .next (s.settle t) := fun e =>
        run.trans (running_eq hl ((if_neg (by rw [hg]; decide)).trans e))
      exact ⟨fun hn => start (rdvStart_full hn), fun r e u hr hu => start (rdvStart_starts hr hu)⟩

end Sys2Proof.Machine
end

section
/-! The alignment states and the two-way exchange (R37 to R40, R42 to R44, R136, Table 1.6). -/

namespace Sys2Proof.Machine

section
variable {s t : State}

/-! ### The events of the alignment states -/

theorem upstreamLost_early (hq : s.bea.upQuiet < 16) (hp : s.beatPort (s.rd F.BEA_STATUS.UPSTREAM) = true) : s.upstreamLost = s :=
  if_neg (not_or.2 ⟨Nat.not_le.2 hq, by rw [hp]; decide⟩)

/-- A device that is LOCKED and has no other candidate holds over (R42). -/
theorem upLost_locked (hb : s.ba = baLocked) (hc : s.bea.cands = []) : s.upLost = (s.unfollow baHoldover).raise .BEA_HOLDOVER := by
  have hdrop : s.candDrop (s.rd F.BEA_STATUS.UPSTREAM) = s := by
    simp only [State.candDrop, State.modBea, hc]
    show { s with bea := { s.bea with cands := [] } } = s
    rw [← hc]
  have hbest : s.bestCand = none := by
    unfold State.bestCand
    rw [hc]
    rfl
  unfold State.upLost
  dsimp only
  rw [if_pos (Or.inr hb), hdrop, hbest]
  dsimp only
  rw [if_pos (Or.inl hb)]

theorem upstreamLost_quiet (hq : 16 ≤ s.bea.upQuiet) : s.upstreamLost = s.upLost := if_pos (.inl hq)

theorem holdLimit_early (h : s.bea.holdTime < s.rd F.BEA_HOLDOVER.LIMIT_S * 10000000000) : s.holdLimit = s :=
  if_neg (fun hx => Nat.not_le.2 h hx.2)

theorem holdLimit_reached (hb : s.ba = baHoldover) (h : s.rd F.BEA_HOLDOVER.LIMIT_S * 10000000000 ≤ s.bea.holdTime) :
    s.holdLimit = (s.unfollow baFree).raise .BEA_UNALIGNED := if_pos ⟨hb, h⟩

theorem aliveMissing_other (h : s.role ≠ 2) : s.aliveMissing = s := by
  refine if_neg ?_
  rw [beq_eq_false_iff_ne.2 h, Bool.and_false]
  decide

theorem aliveMissing_backup (hr : s.role = 2) (hb : s.ba = baLocked) (h : 16 ≤ s.bea.aliveQuiet) :
    s.aliveMissing = s.enterMaster.raise .BEA_MASTER_TAKEOVER := by
  refine if_pos ?_
  rw [hb, hr, beq_self_eq_true, Bool.and_true]
  exact decide_eq_true h

theorem listenEnd_other (h : s.role ≠ 1 ∨ s.bea.heard = true) : s.listenEnd = s := by
  refine if_neg ?_
  rcases h with h | h
  · rw [beq_eq_false_iff_ne.2 h, Bool.and_false]
    simp
  · rw [h, Bool.not_true, Bool.and_false]
    simp

theorem listenEnd_alone {n : Nat} (hb : s.ba = baFree) (hr : s.role = 1) (hh : s.bea.heard = false) (hs : s.bea.sinceLoad = some n) (hn : 64 ≤ n) :
    s.listenEnd = s.enterMaster := by
  refine if_pos ?_
  rw [hb, hr, hh, hs]
  simpa using hn

theorem ppsEdge_near {cycle sub ms : Nat} (hv : s.on F.BEA_PPS_PHASE.VALID = true) (hm : ms < 900) : s.ppsEdge cycle sub ms = s := if_pos ⟨hv, hm⟩

theorem ppsEdge_captures {cycle sub ms : Nat} (h : s.on F.BEA_PPS_PHASE.VALID = false ∨ 900 ≤ ms) : s.ppsEdge cycle sub ms =
    (((s.wr F.BEA_PPS_COUNT.COUNT s.beat).wr F.BEA_PPS_PHASE.VALID 1).wr F.BEA_PPS_PHASE.CYCLE cycle).wr F.BEA_PPS_PHASE.SUB sub := by
  refine if_neg (fun hx => ?_)
  rcases h with h | h
  · rw [h] at hx
    exact Bool.false_ne_true hx.1
  · exact Nat.not_le.2 hx.2 h

end

/-- Settles O6: each event by its condition in Table 1.6. -/
theorem alignmentStatesChange : Obligations.AlignmentStatesChange := by
  unfold Obligations.AlignmentStatesChange
  intro s
  refine ⟨fun hl => ?_, fun hp => ?_⟩
  · have upstream : ∀ {t}, s.upstreamLost = t → exec .upstreamLost s = .next (s.settle t) := fun e =>
      (show exec .upstreamLost s = running s State.upstreamLost from rfl).trans (running_eq hl e)
    have limit : ∀ {t}, s.holdLimit = t → exec .holdoverLimit s = .next (s.settle t) := fun e =>
      (show exec .holdoverLimit s = running s State.holdLimit from rfl).trans (running_eq hl e)
    have missing : ∀ {t}, s.aliveMissing = t → exec .masterAliveMissing s = .next (s.settle t) := fun e =>
      (show exec .masterAliveMissing s = running s State.aliveMissing from rfl).trans (running_eq hl e)
    have window : ∀ {t}, s.listenEnd = t → exec .listenWindowEnd s = .next (s.settle t) := fun e =>
      (show exec .listenWindowEnd s = running s State.listenEnd from rfl).trans (running_eq hl e)
    exact ⟨fun hq hb => upstream (upstreamLost_early hq hb), fun hq hb hc => upstream ((upstreamLost_quiet hq).trans (upLost_locked hb hc)),
      fun _ h => limit (holdLimit_early h), fun hb h => limit (holdLimit_reached hb h), fun h => missing (aliveMissing_other h),
      fun hr hb h => missing (aliveMissing_backup hr hb h), fun h => window (listenEnd_other h),
      fun n hb hr hh hs hn => window (listenEnd_alone hb hr hh hs hn)⟩
  · have lock : ∀ {t}, s.refLock = t → exec .beatRefLock s = .next (s.settle t) := fun e =>
      (show exec .beatRefLock s = powered s State.refLock from rfl).trans (powered_eq hp e)
    have lost : ∀ {t}, s.refLost = t → exec .beatRefLost s = .next (s.settle t) := fun e =>
      (show exec .beatRefLost s = powered s State.refLost from rfl).trans (powered_eq hp e)
    refine ⟨fun cycle sub ms => ?_, fun hb he => lock (if_pos ⟨hb, he⟩), fun hb => lock (if_neg (fun hx => hb hx.1)), fun h => lost (if_pos h),
      fun h => lost (if_neg (by rw [h]; decide))⟩
    have edge : ∀ {t}, s.ppsEdge cycle sub ms = t → exec (.ppsEdge cycle sub ms) s = .next (s.settle t) := fun e =>
      (show exec (.ppsEdge cycle sub ms) s = powered s (fun s => s.ppsEdge cycle sub ms) from rfl).trans (powered_eq hp e)
    exact ⟨fun hv hm => edge (ppsEdge_near hv hm), fun h => edge (ppsEdge_captures h)⟩

end Sys2Proof.Machine
end

section
/-! The two-way Beat exchange (R38 to R40, R43, R136, Table 1.6). -/

namespace Sys2Proof.Machine

section
variable {s t : State} {p : Nat} {m : Xchg}

/-! ### Requests that are sent -/

theorem xchgDue_iff : s.xchgDue p = true ↔ s.beatPort p = true ∧ ∀ n, tabGet s.bea.sentAt p = some n → n + s.xchgEvery p ≤ s.bea.ticks := by
  unfold State.xchgDue
  rw [Bool.and_eq_true]
  refine and_congr_right (fun _ => ?_)
  split
  next n hn => rw [hn]; simp
  next hn => rw [hn]; simp

theorem xchgSend_early (h : s.xchgDue p = false) : s.xchgSend p = s := if_neg (by rw [h]; decide)

theorem xchgSend_due (h : s.xchgDue p = true) : s.xchgSend p =
    ((s.pick 256).2.modBea (fun b => { b with xids := tabPut b.xids p (s.pick 256).1, sentAt := tabPut b.sentAt p b.ticks })).modLink p
      (fun l => { l with xchg := l.xchg ++ [(false, s.xchgOwn (s.pick 256).1 0 0)] }) := if_pos h

theorem xchgEvery_upstream (hv : s.on F.BEA_STATUS.UP_VALID = true) (hu : s.rd F.BEA_STATUS.UPSTREAM = p) : s.xchgEvery p = 4 :=
  if_pos (by rw [hv, hu, beq_self_eq_true]; rfl)

theorem xchgEvery_other (hu : s.rd F.BEA_STATUS.UPSTREAM ≠ p) : s.xchgEvery p = 64 :=
  if_neg (by rw [beq_eq_false_iff_ne.2 hu, Bool.and_false]; decide)

/-! ### What a message says -/

/-- A device does not follow a port. -/
def State.strange (s : State) (p : Nat) : Prop := s.on F.BEA_STATUS.UP_VALID = false ∨ s.rd F.BEA_STATUS.UPSTREAM ≠ p

theorem not_upstream_of_strange (h : s.strange p) : ¬ (s.on F.BEA_STATUS.UP_VALID = true ∧ s.rd F.BEA_STATUS.UPSTREAM = p) := fun hx => by
  rcases h with h | h
  · rw [h] at hx
    exact Bool.false_ne_true hx.1
  · exact h hx.2

theorem periodBad_strange (h : s.strange p) : s.periodBad p = (s.candDrop p).raise .BEA_PERIOD_MISMATCH p := if_neg (not_upstream_of_strange h)

/-- The candidate that a message of a master within reach makes. -/
def candFrom (m : Xchg) : Cand := ⟨m.prio, m.distance, m.masterId, 0⟩

theorem candOf_far (h : 1 < m.prio ∨ 6 ≤ m.distance) : candOf m = none := if_pos h

theorem candOf_near (hp : m.prio ≤ 1) (hd : m.distance < 6) : candOf m = some (candFrom m) := if_neg (not_or.2 ⟨Nat.not_lt.2 hp, Nat.not_le.2 hd⟩)

/-! ### Requests that come -/

theorem xchgRequest_answered (hb : s.beatPort p = true) {t2 : Stamp} (h : s.xchgHeard p m = t) : s.xchgRequest p m t2 =
    t.modLink p (fun l => { l with xchg := l.xchg ++ [(true, t.xchgOwn m.xid m.t1 t2)] }) := by
  subst h
  exact if_neg (by rw [hb]; decide)

theorem xchgHeard_period (h : m.period ≠ s.rd F.BEA_CONFIG.PERIOD_UNITS) : s.xchgHeard p m = s.periodBad p := if_pos h

section
variable (h : m.period = s.rd F.BEA_CONFIG.PERIOD_UNITS)
include h

theorem xchgHeard_far (hf : 1 < m.prio ∨ 6 ≤ m.distance) : s.xchgHeard p m = s := by
  unfold State.xchgHeard
  rw [if_neg (not_not.2 h), candOf_far hf]

theorem xchgHeard_near (hp : m.prio ≤ 1) (hd : m.distance < 6) : s.xchgHeard p m =
    if s.yields m then ((((s.modBea (fun b => { b with heard := true, cands := tabPut b.cands p (candFrom m) })).yieldTo p (candFrom m))).alive m.alive)
    else s.modBea (fun b => { b with heard := true }) := by
  unfold State.xchgHeard
  rw [if_neg (not_not.2 h), candOf_near hp hd]
  rfl

end

theorem yields_iff : s.yields m = true ↔ s.ba = baMaster ∧ (m.prio < s.ownPrio ∨ (m.prio = s.ownPrio ∧ m.masterId < s.nodeId)) := by
  simp only [State.yields, Bool.and_eq_true, beq_iff_eq, Bool.or_eq_true, decide_eq_true_eq]

/-! ### Responses that come -/

theorem xchgResponse_unasked {t4 : Stamp} (h : s.beatPort p = false ∨ tabGet s.bea.xids p ≠ some m.xid) : s.xchgResponse p m t4 = s := by
  refine if_pos ?_
  rcases h with h | h
  · exact .inl (by rw [h]; rfl)
  · exact .inr h

/-- The open identifier of a port is used. -/
def State.xidUsed (s : State) (p : Nat) : State := s.modBea (fun b => { b with xids := tabDel b.xids p })

/-- The delay of a link is set (R39; log entries 102 and 103). -/
def State.delaySet (s : State) (p : Nat) (m : Xchg) (t4 : Stamp) : State :=
  (s.wr F.BEA_LINK_DELAY.VALID 1 p).wr F.BEA_LINK_DELAY.DELAY (max 0 (min 65535 (xchgDelay s.beatSub m.t1 m.t2 m.t3 t4))).toNat p

theorem rd_delaySet {t4 : Stamp} {d : Fld} (h : d.reg.code ≠ Reg.BEA_LINK_DELAY.code) (i : Nat) : (s.delaySet p m t4).rd d i = s.rd d i :=
  (rd_wr_reg (s.wr F.BEA_LINK_DELAY.VALID 1 p) (d := F.BEA_LINK_DELAY.DELAY) p i _ h).trans (rd_wr_reg s (d := F.BEA_LINK_DELAY.VALID) p i 1 h)

/-- What a response of an open exchange does. -/
def State.xchgTaken (s : State) (p : Nat) (m : Xchg) (t4 : Stamp) : State :=
  if m.period ≠ s.rd F.BEA_CONFIG.PERIOD_UNITS then (s.xidUsed p).periodBad p
  else match candOf m with
    | none =>
      let t := ((s.xidUsed p).delaySet p m t4).candDrop p
      if t.on F.BEA_STATUS.UP_VALID ∧ t.rd F.BEA_STATUS.UPSTREAM = p then t.upLost else t
    | some c => ((s.xidUsed p).delaySet p m t4).xchgCand p c m (xchgOffset s.beatSub m.t1 m.t2 m.t3 t4) t4

section
variable {t4 : Stamp} (hb : s.beatPort p = true) (hx : tabGet s.bea.xids p = some m.xid)
include hb hx

theorem xchgResponse_asked : s.xchgResponse p m t4 = s.xchgTaken p m t4 := if_neg (not_or.2 ⟨by rw [hb]; decide, not_not.2 hx⟩)

theorem xchgResponse_period (h : m.period ≠ s.rd F.BEA_CONFIG.PERIOD_UNITS) : s.xchgResponse p m t4 = (s.xidUsed p).periodBad p := by
  exact (xchgResponse_asked hb hx).trans (if_pos h)

variable (h : m.period = s.rd F.BEA_CONFIG.PERIOD_UNITS)
include h

theorem xchgResponse_far (hu : s.strange p) (hf : 1 < m.prio ∨ 6 ≤ m.distance) :
    s.xchgResponse p m t4 = ((s.xidUsed p).delaySet p m t4).candDrop p := by
  have hstay : ((s.xidUsed p).delaySet p m t4).strange p := by
    rcases hu with hu | hu
    · refine .inl ?_
      unfold State.on
      rw [rd_delaySet (by decide)]
      exact hu
    · refine .inr ?_
      rw [rd_delaySet (by decide)]
      exact hu
  refine (xchgResponse_asked hb hx).trans ((if_neg (not_not.2 h)).trans ?_)
  rw [candOf_far hf]
  exact if_neg (not_upstream_of_strange (s := ((s.xidUsed p).delaySet p m t4).candDrop p) hstay)

theorem xchgResponse_near (hp : m.prio ≤ 1) (hd : m.distance < 6) : s.xchgResponse p m t4 =
    ((s.xidUsed p).delaySet p m t4).xchgCand p (candFrom m) m (xchgOffset s.beatSub m.t1 m.t2 m.t3 t4) t4 := by
  refine (xchgResponse_asked hb hx).trans ((if_neg (not_not.2 h)).trans ?_)
  rw [candOf_near hp hd]

end

/-- A port's peer is a candidate, and heard. -/
def State.candHeard (s : State) (p : Nat) (c : Cand) : State := s.modBea (fun b => { b with cands := tabPut b.cands p c, heard := true })

theorem xchgCand_locked {c : Cand} {off : Int} {t4 : Stamp} (hb : s.ba = baLocked) (hu : s.rd F.BEA_STATUS.UPSTREAM ≠ p) :
    s.xchgCand p c m off t4 = s.candHeard p c := by
  have hb : (s.candHeard p c).ba = baLocked := hb
  unfold State.xchgCand
  dsimp only
  rw [show s.modBea _ = s.candHeard p c from rfl, hb, if_neg (by decide), if_neg (by decide), if_neg (by decide)]
  exact if_neg hu

theorem xchgCand_free {c : Cand} {off : Int} {t4 : Stamp} (hb : s.ba = baFree) (hr : s.role ≠ 1) :
    s.xchgCand p c m off t4 = (((s.candHeard p c).acquire p c).alive m.alive).correct off t4 m.count := by
  have hr : ((s.candHeard p c).role == 1) = false := beq_eq_false_iff_ne.2 hr
  unfold State.xchgCand
  dsimp only
  rw [show s.modBea _ = s.candHeard p c from rfl, if_pos (show (s.candHeard p c).ba = baFree from hb), hr, Bool.false_and, if_neg Bool.false_ne_true]

end

/-- Settles O5: requests by what is due and what they say; responses by the candidate that they make. -/
theorem exchangesAlignTheBeat : Obligations.ExchangesAlignTheBeat := by
  unfold Obligations.ExchangesAlignTheBeat
  intro s p hl
  have send : ∀ {t}, s.xchgSend p.val = t → exec (.beatXchgSend p) s = .next (s.settle t) := fun e =>
    (show exec (.beatXchgSend p) s = running s (fun s => s.xchgSend p.val) from rfl).trans (running_eq hl e)
  have request : ∀ {m t2 t}, s.xchgRequest p.val m t2 = t → exec (.beatXchgRequest p m t2) s = .next (s.settle t) := fun {m t2 _} e =>
    (show exec (.beatXchgRequest p m t2) s = running s (fun s => s.xchgRequest p.val m t2) from rfl).trans (running_eq hl e)
  have response : ∀ {m t4 t}, s.xchgResponse p.val m t4 = t → exec (.beatXchgResponse p m t4) s = .next (s.settle t) := fun {m t4 _} e =>
    (show exec (.beatXchgResponse p m t4) s = running s (fun s => s.xchgResponse p.val m t4) from rfl).trans (running_eq hl e)
  refine ⟨fun hb => ?_, fun n hn ht => ?_, fun hb hd => ?_, ⟨fun hv hu => xchgEvery_upstream hv hu, fun hu => xchgEvery_other hu⟩, fun m t2 hb => ?_,
    fun m t4 h => response (xchgResponse_unasked h), fun m t4 hb hx hu => ?_⟩
  · refine send (xchgSend_early (Bool.eq_false_iff.2 (fun h => ?_)))
    rw [(xchgDue_iff.1 h).1] at hb
    cases hb
  · exact send (xchgSend_early (Bool.eq_false_iff.2 (fun h => Nat.not_le.2 ht ((xchgDue_iff.1 h).2 n hn))))
  · refine send (xchgSend_due (xchgDue_iff.2 ⟨hb, fun n hn => ?_⟩))
    rcases hd with hd | ⟨k, hk, hd⟩
    · rw [hd] at hn
      cases hn
    · rw [hk] at hn
      cases hn
      exact hd
  · intro answered c
    refine ⟨fun hp hu => ?_, fun hp hf => ?_, fun hp h1 h6 => ⟨fun hm => ?_, fun hm hy => ?_⟩⟩
    · exact request (xchgRequest_answered hb ((xchgHeard_period hp).trans (periodBad_strange hu)))
    · exact request (xchgRequest_answered hb (xchgHeard_far hp hf))
    · exact request (xchgRequest_answered hb ((xchgHeard_near hp h1 h6).trans (if_neg (fun hx => hm (yields_iff.1 hx).1))))
    · exact request (xchgRequest_answered hb ((xchgHeard_near hp h1 h6).trans (if_pos (yields_iff.2 ⟨hm, hy⟩))))
  · intro t len delay u c heard
    have hba : ((s.xidUsed p.val).delaySet p.val m t4).ba = s.ba := rd_delaySet (s := s.xidUsed p.val) (d := F.BEA_STATUS.STATE) (by decide) 0
    have hrole : ((s.xidUsed p.val).delaySet p.val m t4).role = s.role := rd_delaySet (s := s.xidUsed p.val) (d := F.BEA_CONFIG.ROLE) (by decide) 0
    have hup : ((s.xidUsed p.val).delaySet p.val m t4).rd F.BEA_STATUS.UPSTREAM = s.rd F.BEA_STATUS.UPSTREAM :=
      rd_delaySet (s := s.xidUsed p.val) (by decide) 0
    refine ⟨fun hp => response ((xchgResponse_period hb hx hp).trans (periodBad_strange (s := s.xidUsed p.val) hu)),
      fun hp hf => response (xchgResponse_far hb hx hp hu hf), fun hp h1 h6 => ⟨fun hl hn => ?_, fun hf hr => ?_⟩⟩
    · exact response ((xchgResponse_near hb hx hp h1 h6).trans (xchgCand_locked (hba.trans hl) (by rw [hup]; exact hn)))
    · exact response ((xchgResponse_near hb hx hp h1 h6).trans (xchgCand_free (hba.trans hf) (by rw [hrole]; exact hr)))

end Sys2Proof.Machine
end

section
/-! The Beat boundary, held and armed commit groups, and reads of BEA_COUNT (R12, R25, R27 to R29, R31, R35, R36, R45, R46, R393). -/

namespace Sys2Proof.Machine

section
variable {s t u : State} {m : BeatIn}

/-! ### The count of a Beat -/

/-- The state that a boundary finds: overruns counted, the count gone on, a Beat more in each window. -/
def State.ticked (s : State) : State := s.overruns.beatTick.windowTick

theorem windowTick_keeps {α : Type} (g : State → α) (he : ∀ (t : State) n, g { t with escBeats := n } = g t) (hl : ∀ (t : State) p f, g (t.modLink p f) = g t) :
    g s.windowTick = g s :=
  (foldS_keeps g _ (fun t p => by
    split
    · exact hl t p _
    · rfl) _ _).trans (he s _)

/-- What counting overruns leaves but for its own registers. -/
theorem overruns_keeps {α : Type} (g : State → α) (hp : ∀ (t : State) x, g (t.wr F.BEA_BUDGET.PEAK x) = g t)
    (ho : ∀ (t : State) x, g (t.wr F.BEA_STATUS.OVERRUNS x) = g t) (hr : ∀ (t : State) o, g (t.raiseOcc o) = g t) : g s.overruns = g s := by
  unfold State.overruns
  split
  · rfl
  · exact (foldS_keeps g _ (fun t k => (hr _ _).trans (ho t _)) _ _).trans (hp s _)

theorem rd_ticked {d : Fld} (hc : d.reg.code ≠ Reg.BEA_COUNT.code) (ho : d.reg.code ≠ Reg.BEA_OFFSET.code) (hs : d.reg.code ≠ Reg.BEA_STATUS.code)
    (hb : d.reg.code ≠ Reg.BEA_BUDGET.code) (i : Nat) : s.ticked.rd d i = s.rd d i :=
  calc s.ticked.rd d i
    _ = s.overruns.beatTick.rd d i := windowTick_keeps (fun t => t.rd d i) (fun _ _ => rfl) (fun _ _ _ => rfl)
    _ = (s.overruns.wr F.BEA_COUNT.COUNT (s.overruns.beat + 1)).rd d i := rd_wr_reg _ (d := F.BEA_OFFSET.HOLD_MS) 0 i _ ho
    _ = s.overruns.rd d i := rd_wr_reg _ 0 i _ hc
    _ = s.rd d i := overruns_keeps (fun t => t.rd d i) (fun t x => rd_wr_reg t 0 i x hb) (fun t x => rd_wr_reg t 0 i x hs) (fun _ _ => rfl)

theorem pins_ticked : s.ticked.pins = s.pins :=
  (windowTick_keeps State.pins (fun _ _ => rfl) (fun _ _ _ => rfl)).trans
    (overruns_keeps State.pins (fun _ _ => rfl) (fun _ _ => rfl) (fun _ _ => rfl))

theorem shadow_ticked : s.ticked.shadow = s.shadow :=
  (windowTick_keeps State.shadow (fun _ _ => rfl) (fun _ _ _ => rfl)).trans
    (overruns_keeps State.shadow (fun _ _ => rfl) (fun _ _ => rfl) (fun _ _ => rfl))

theorem spill_ticked : s.ticked.spill = s.spill := by
  unfold State.spill State.on
  rw [rd_ticked (by decide) (by decide) (by decide) (by decide)]

theorem phase_ticked : s.ticked.phase = s.phase := rd_ticked (by decide) (by decide) (by decide) (by decide) 0

theorem live_ticked : s.ticked.live = s.live := by
  unfold State.live
  rw [pins_ticked, spill_ticked, phase_ticked]

theorem count_ticked : s.ticked.rd F.BEA_COUNT.COUNT = (s.rd F.BEA_COUNT.COUNT + 1) % 2 ^ 64 :=
  calc s.ticked.rd F.BEA_COUNT.COUNT
    _ = s.overruns.beatTick.rd F.BEA_COUNT.COUNT := windowTick_keeps (fun t => t.rd F.BEA_COUNT.COUNT) (fun _ _ => rfl) (fun _ _ _ => rfl)
    _ = (s.overruns.wr F.BEA_COUNT.COUNT (s.overruns.beat + 1)).rd F.BEA_COUNT.COUNT :=
      rd_wr_reg _ (d := F.BEA_OFFSET.HOLD_MS) 0 0 _ (by decide)
    _ = (s.overruns.rd F.BEA_COUNT.COUNT + 1) % 2 ^ 64 := rd_wr_same _ _ 0 _
    _ = (s.rd F.BEA_COUNT.COUNT + 1) % 2 ^ 64 := by
      rw [overruns_keeps (fun t => t.rd F.BEA_COUNT.COUNT) (fun t x => rd_wr_reg t 0 0 x (by decide)) (fun t x => rd_wr_reg t 0 0 x (by decide))
        (fun _ _ => rfl)]

theorem acts_ticked : s.ticked.acts = s.overruns.acts := windowTick_keeps State.acts (fun _ _ => rfl) (fun _ _ _ => rfl)

theorem overruns_none (h : s.bea.late = []) : s.overruns = s := if_pos (by rw [h]; rfl)

theorem bea_peak {n : Nat} : (s.peak n).bea = s.bea := rfl

theorem acts_overruns_one {k : Nat} (h : s.bea.late = [k]) : s.overruns.acts = s.acts ++ [.occ (occ .BEA_OVERRUN k)] := by
  unfold State.overruns
  rw [if_neg (by rw [h]; exact Bool.false_ne_true)]
  dsimp only
  rw [bea_peak, h]
  rfl

/-! ### The boundary -/

/-- What a boundary does once the count has gone on. -/
def State.boundaryWork (t : State) (m : BeatIn) : State :=
  if t.live then ((t.boundaryCommit.tempTask m).tasks m).beatCounts m
  else ((if t.spill then t else t.armAt.commitAll).taskAt m 2 State.slewTask).tempTask m

theorem beatBoundary_eq (hp : m.parity = false) : s.beatBoundary m = (s.ticked.boundaryWork m).beatEnd m := by
  unfold State.beatBoundary
  rw [hp, if_neg Bool.false_ne_true]
  rfl

theorem taskAt_finished {k : Nat} {f : State → State} (h : m.overrun = []) : s.taskAt m k f = f s := if_neg (by rw [h]; simp)

theorem boundaryWork_live (h : t.live = true) : t.boundaryWork m = ((t.boundaryCommit.tempTask m).tasks m).beatCounts m := if_pos h

section
variable (h : t.live = false) (ho : m.overrun = [])
include h ho

theorem boundaryWork_before (hs : t.spill = false) : t.boundaryWork m = t.armAt.commitAll.slewTask.tempTask m := by
  unfold State.boundaryWork
  rw [if_neg (by rw [h]; decide), if_neg (by rw [hs]; decide), taskAt_finished ho]

theorem boundaryWork_spilled (hs : t.spill = true) : t.boundaryWork m = t.slewTask.tempTask m := by
  unfold State.boundaryWork
  rw [if_neg (by rw [h]; decide), if_pos hs, taskAt_finished ho]

end

/-! ### BEA_COMMIT_ARM and BEA_COMMIT_AT -/

section
variable {v : Nat} {arm : Bool} {mask : Nat}

section
variable (h : s.on F.BEA_COMMIT_ARM.ARM = true)
include h

theorem commitArm_other (hm : mask ≠ s.rd F.BEA_COMMIT_ARM.MASK) : s.commitArm true mask = s.raise .CFG_REJECT :=
  (if_pos h).trans ((if_pos rfl).trans (if_neg hm))

theorem commitArm_cancels : s.commitArm false mask =
    ((s.wr F.BEA_COMMIT_ARM.ARM 0).wr F.BEA_COMMIT_ARM.MASK mask).modBea (fun b => { b with armLate := false }) :=
  (if_pos h).trans (if_neg Bool.false_ne_true)

end

theorem ba_wr {d : Fld} (h : d.reg.code ≠ Reg.BEA_STATUS.code) (x : Nat) : (s.wr d x).ba = s.ba := rd_wr_reg s 0 0 x (Ne.symm h)

section
variable (h : s.on F.BEA_COMMIT_ARM.ARM = false)
include h

theorem commitArm_unaligned (hb : s.ba = baFree ∨ s.ba = baAcquire) :
    s.commitArm true mask = (s.wr F.BEA_COMMIT_ARM.MASK mask).raise .CFG_REJECT := by
  have hb : (s.wr F.BEA_COMMIT_ARM.MASK mask).ba = baFree ∨ (s.wr F.BEA_COMMIT_ARM.MASK mask).ba = baAcquire := by
    rw [ba_wr (by decide)]
    exact hb
  exact (if_neg (by rw [h]; decide)).trans ((if_neg (by decide)).trans (if_pos hb))

/-- The groups of a mask are armed, and held. -/
def State.armed (s : State) (mask : Nat) : State :=
  ((s.wr F.BEA_COMMIT_ARM.MASK mask).wr F.BEA_COMMIT_ARM.ARM 1).wr F.BEA_COMMIT_HOLD.HOLD (s.rd F.BEA_COMMIT_HOLD.HOLD ||| mask)

theorem commitArm_arms (hf : s.ba ≠ baFree) (ha : s.ba ≠ baAcquire) (hm : mask < 2 ^ 17) : s.commitArm true mask = (s.armed mask).lateCheck := by
  have hb : ¬ ((s.wr F.BEA_COMMIT_ARM.MASK mask).ba = baFree ∨ (s.wr F.BEA_COMMIT_ARM.MASK mask).ba = baAcquire) := by
    rw [ba_wr (by decide)]
    exact not_or.2 ⟨hf, ha⟩
  have hmask : (s.wr F.BEA_COMMIT_ARM.MASK mask).rd F.BEA_COMMIT_ARM.MASK = mask := (rd_wr_same s _ 0 mask).trans (Nat.mod_eq_of_lt hm)
  have hhold : (s.wr F.BEA_COMMIT_ARM.MASK mask).rd F.BEA_COMMIT_HOLD.HOLD = s.rd F.BEA_COMMIT_HOLD.HOLD := rd_wr_reg s 0 0 mask (by decide)
  refine (if_neg (by rw [h]; decide)).trans ((if_neg (by decide)).trans ((if_neg hb).trans ?_))
  rw [hmask, hhold]
  rfl

end

theorem armed_at : (s.armed mask).rd F.BEA_COMMIT_AT.TARGET = s.rd F.BEA_COMMIT_AT.TARGET ∧ (s.armed mask).beat = s.beat :=
  have keeps : ∀ {d : Fld}, d.reg.code ≠ Reg.BEA_COMMIT_ARM.code → d.reg.code ≠ Reg.BEA_COMMIT_HOLD.code → (s.armed mask).rd d = s.rd d :=
    fun ha hh => (rd_wr_reg _ (d := F.BEA_COMMIT_HOLD.HOLD) 0 0 _ hh).trans
      ((rd_wr_reg _ (d := F.BEA_COMMIT_ARM.ARM) 0 0 _ ha).trans (rd_wr_reg s (d := F.BEA_COMMIT_ARM.MASK) 0 0 _ ha))
  ⟨keeps (by decide) (by decide), keeps (by decide) (by decide)⟩

theorem lateCheck_ahead (h : s.beat < s.rd F.BEA_COMMIT_AT.TARGET) : s.lateCheck = s.modBea (fun b => { b with armLate := false }) :=
  if_neg (Nat.not_le.2 h)

theorem lateCheck_reached (h : s.rd F.BEA_COMMIT_AT.TARGET ≤ s.beat) :
    s.lateCheck = (s.modBea (fun b => { b with armLate := true })).raise .BEA_LATE_COMMIT := if_pos h

theorem commitAt_unarmed (h : s.on F.BEA_COMMIT_ARM.ARM = false) : s.commitAt v = s.wr F.BEA_COMMIT_AT.TARGET v := by
  have h : ¬ (s.wr F.BEA_COMMIT_AT.TARGET v).on F.BEA_COMMIT_ARM.ARM = true := by
    unfold State.on
    rw [rd_wr_reg s 0 0 v (by decide), show (s.rd F.BEA_COMMIT_ARM.ARM == 1) = false from h]
    decide
  exact if_neg h

theorem commitAt_armed (h : s.on F.BEA_COMMIT_ARM.ARM = true) : s.commitAt v = (s.wr F.BEA_COMMIT_AT.TARGET v).lateCheck := by
  have h : (s.wr F.BEA_COMMIT_AT.TARGET v).on F.BEA_COMMIT_ARM.ARM = true := by
    unfold State.on
    rw [rd_wr_reg s 0 0 v (by decide)]
    exact h
  exact if_pos h

end

/-! ### The commit of an armed group -/

theorem armedCommit_early (h : s.on F.BEA_COMMIT_ARM.ARM = false ∨ s.beat < s.rd F.BEA_COMMIT_AT.TARGET) : s.armedCommit = s := by
  refine if_neg (fun hx => ?_)
  rcases h with h | h
  · rw [h] at hx
    exact Bool.false_ne_true hx.1
  · exact Nat.not_le.2 h hx.2.2

theorem armedCommit_due (h : s.on F.BEA_COMMIT_ARM.ARM = true) (hl : s.bea.armLate = false) (ht : s.rd F.BEA_COMMIT_AT.TARGET ≤ s.beat) :
    s.armedCommit = (s.armRelease.commitGroups (bitsSet 17 (s.rd F.BEA_COMMIT_ARM.MASK))).commitRest (bit (s.rd F.BEA_COMMIT_ARM.MASK)) :=
  if_pos ⟨h, by rw [hl]; rfl, ht⟩

theorem bitsSet_pow : ∀ g < 17, bitsSet 17 (2 ^ g) = [g] := by decide

/-- A value outside the groups of the lanes, of multicast and of the fault collector starts nothing as it commits. -/
theorem committed_plain {e : Shade} {old : Nat} (h3 : e.fld.group ≠ 3) (h6 : e.fld.group ≠ 6) (h13 : e.fld.group ≠ 13) : s.committed e old = s := by
  have group : ∀ {r}, e.fld.reg = r → e.fld.group = r.place.blk := fun hr => by rw [Fld.group, hr]
  unfold State.committed
  split
  next hr => exact absurd (group hr) h3
  next hr => exact absurd (group hr) h3
  next hr => exact absurd (group hr) h3
  next hr => exact absurd (group hr) h3
  next hr => exact absurd (group hr) h3
  next hr => exact absurd (group hr) h3
  next hr => exact absurd (group hr) h13
  next hr => exact absurd (group hr) h6
  next => rfl

/-- A write of a table that no code watches leaves no flips behind. -/
theorem eccTableWrite_unwatched {d : Fld} {a i j x : Nat} (h : s.eccWatch = false) : (s.wrI d a i x).eccTableWrite d.reg j = s.wrI d a i x := by
  have calm : d.reg.code ≠ Reg.ECC_FLIP_CTRL.code → (s.wrI d a i x).eccWatch = false := fun hc => by
    unfold State.eccWatch State.on State.rd at h ⊢
    rw [rdI_wrI_ne s x (fun hk => hc hk.1.symm)]
    exact h
  unfold State.eccTableWrite
  split
  · rfl
  next hw =>
    split
    next hr => exact absurd (by rw [calm (by rw [hr]; decide)]; rfl) hw
    next hr => exact absurd (by rw [calm (by rw [hr]; decide)]; rfl) hw
    next hr => exact absurd (by rw [calm (by rw [hr]; decide)]; rfl) hw
    next hr => exact absurd (by rw [calm (by rw [hr]; decide)]; rfl) hw
    next => rfl

theorem commitGroups_one {g : Nat} {d : Fld} {a i v : Nat} (h3 : g ≠ 3) (h6 : g ≠ 6) (h13 : g ≠ 13) (hd : d.group = g)
    (hs : s.shadow = [(fkey d a i, ⟨d, a, i, v⟩)]) (he : s.eccWatch = false) (hl : s.tableLate ⟨d, a, i, v⟩ = false) :
    s.commitGroups [g] = { s.wrI d a i v with shadow := [] } := by
  have hes : ([g].flatMap s.shades).filter (fun e => !s.tableLate e) = [⟨d, a, i, v⟩] := by
    simp [State.shades, hs, hd, hl]
  have hg : [g].contains 3 = false := by simp [h3.symm]
  have hshadow : s.shadow.filter (fun e => !([g].contains e.2.fld.group) || s.tableLate e.2) = [] := by
    simp [hs, hd, hl]
  unfold State.commitGroups
  dsimp only
  rw [hes, hg, if_neg Bool.false_ne_true]
  have hone : ∀ (t : State) {α : Type} (x : α) (f : State → α → State), foldS [x] t f = f t x := fun _ _ _ _ => rfl
  rw [hone, List.map_singleton, hone]
  rw [committed_plain (by rw [hd]; exact h3) (by rw [hd]; exact h6) (by rw [hd]; exact h13), show (s.wrI d a i v).shadow = s.shadow from rfl, hshadow]
  exact eccTableWrite_unwatched (s := { s with shadow := [] }) he

theorem eccWatch_armRelease : s.armRelease.eccWatch = s.eccWatch := by
  have keeps : ∀ h, ((s.wr F.BEA_COMMIT_HOLD.HOLD h).wr F.BEA_COMMIT_ARM.ARM 0).rd F.ECC_FLIP_CTRL.ARM = s.rd F.ECC_FLIP_CTRL.ARM := fun h =>
    (rd_wr_reg _ 0 0 _ (by decide)).trans (rd_wr_reg s 0 0 h (by decide))
  unfold State.eccWatch State.on
  rw [show s.armRelease.rd F.ECC_FLIP_CTRL.ARM = s.rd F.ECC_FLIP_CTRL.ARM from keeps _]
  rfl

/-! ### Reads of BEA_COUNT -/

/-- A read of a served BEA_COUNT returns the count, and captures the phase (R46). -/
theorem sharedRead_beaCount {p : Fin 4} {c n : Nat} (h : s.serves (.fn (.pf p)) .BEA_COUNT 0 = true) :
    s.sharedRead (.fn (.pf p)) (regOffset (.fn (.pf p)) .BEA_COUNT 0) c n = (s.beat, s.capturePhase (.fn (.pf p)) c n) := by
  have hal := regOffset_aligned (.fn (.pf p)) .BEA_COUNT 0 (by decide) (by decide)
  obtain ⟨hl, -, -, ha, -⟩ := serves_parts h
  have hp := pfLoc_of_serves h rfl
  generalize regOffset (.fn (.pf p)) .BEA_COUNT 0 = a at hal hp
  have hn : Reg.fnOnly .BEA_COUNT = false := rfl
  have hword : s.regWord (.fn (.pf p)) .BEA_COUNT 0 = s.beat := by
    show 0 + s.beat * 2 ^ 0 = s.beat
    omega
  simp only [State.sharedRead, hal, hp, hn, readable_of_live hl, ha, ne_eq, not_true_eq_false, if_false, Bool.false_eq_true, Bool.not_true,
    Bool.or_false, hword]

section
variable {p : Fin 4} {v : Fin 512} {r : Reg} {i c n : Nat} (h : s.hostAnswers (.vf p v) = true)
include h

/-- A whole read by a VF at a place that it has no view of reads zero. -/
theorem sharedOut_vf (hs : s.linkAsleep (.vf p v) = false) : s.sharedOut (.fn (.vf p v)) r i c n true = s.readZero (.vf p v) := by
  have hg : s.locGated .outside = false := by
    have hu : s.gatedUnit (unitOfGroup 0) = false := by
      unfold State.gatedUnit
      rw [show (unitOfGroup 0 == uHIF || unitOfGroup 0 == uRMA || unitOfGroup 0 == uMAT || unitOfGroup 0 == uCOH) = false from rfl, Bool.and_false]
    simp only [State.locGated, Loc.blk, hu, Bool.and_false, Bool.or_false]
  have hsleep : s.sleeps (.vf p v) .outside = false := by rw [State.sleeps, hs, hg]; rfl
  unfold State.sharedOut
  dsimp only
  rw [h, if_neg (by decide), hsleep, if_neg Bool.false_ne_true, if_pos rfl]

/-- Its access through an attachment in L1 waits (R393). -/
theorem sharedOut_vf_asleep (hs : s.linkAsleep (.vf p v) = true) :
    s.sharedOut (.fn (.vf p v)) r i c n true = s.sleepOn (.read (.vf p v) r i c n true) := by
  have hsleep : s.sleeps (.vf p v) .outside = true := by rw [State.sleeps, hs]; rfl
  unfold State.sharedOut
  dsimp only
  rw [h, if_neg (by decide), if_pos hsleep]

end

end

/-- Settles O4: the boundary by the state of the device; ARM and the target by what is armed; a commit by its one staged value; reads by
who makes them. -/
theorem boundaryAndArmedCommits : Obligations.BoundaryAndArmedCommits := by
  unfold Obligations.BoundaryAndArmedCommits
  refine ⟨?_, fun s => ⟨fun who v h => ?_, fun who v h hv => ?_, fun hl => ⟨fun h => ?_, ?_⟩, fun p c n h => ?_, fun p v c n h => ?_⟩⟩
  · intro s m hp hm t
    have boundary : ∀ {u}, t.boundaryWork m = u → exec (.beatBoundary m) s = .next (s.settle (u.beatEnd m)) := fun e =>
      (show exec (.beatBoundary m) s = powered s (fun s => s.beatBoundary m) from rfl).trans
        (powered_eq hp ((beatBoundary_eq hm).trans (congrArg (State.beatEnd · m) e)))
    refine ⟨fun hl => boundary (boundaryWork_live (live_ticked.trans hl)), fun hph hs ho => ?_, fun hs ho => ?_, count_ticked, shadow_ticked,
      fun h => ?_, fun k h => acts_ticked.trans (acts_overruns_one h)⟩
    · have hl : s.live = false := Bool.eq_false_iff.2 (fun h => by
        obtain ⟨-, hr, -⟩ := (live_iff s).1 h
        exact hph hr)
      exact boundary (boundaryWork_before (live_ticked.trans hl) ho (spill_ticked.trans hs))
    · have hl : s.live = false := Bool.eq_false_iff.2 (fun h => by rw [spill_of_live h] at hs; cases hs)
      exact boundary (boundaryWork_spilled (live_ticked.trans hl) ho (spill_ticked.trans hs))
    · exact acts_ticked.trans (by rw [overruns_none h])
  · intro mask armed
    have write : ∀ {t}, s.commitArm (bit v 63) (v % 2 ^ 17) = t → s.rejectOnce t = t → exec (.beaCommitArm who v) s = .next (s.settle t) := fun e hr =>
      (show exec (.beaCommitArm who v) s = powered s (fun s => s.regCmd who .BEA_COMMIT_ARM 0 v) from rfl).trans
        (regCmd_exec h ((congrArg s.rejectOnce e).trans hr))
    refine ⟨fun ha hb hm => ?_, fun ha hb => ?_, fun ha hb hba => ?_, fun ha hb hf hq => ?_⟩
    · exact write (by rw [hb]; exact commitArm_other ha hm) (rejectOnce_of_one rfl)
    · exact write (by rw [hb]; exact commitArm_cancels ha) (rejectOnce_of_acts rfl)
    · exact write (by rw [hb]; exact commitArm_unaligned ha hba) (rejectOnce_of_one rfl)
    · have arms : s.commitArm (bit v 63) (v % 2 ^ 17) = (s.armed mask).lateCheck := by
        rw [hb]
        exact commitArm_arms ha hf hq (Nat.mod_lt _ (by decide))
      obtain ⟨htarget, hbeat⟩ := armed_at (s := s) (mask := mask)
      have late : ∀ {x}, decide (s.rd F.BEA_COMMIT_AT.TARGET ≤ s.beat) = x → armed = (s.armed mask).modBea (fun b => { b with armLate := x }) :=
        fun hx => by subst hx; rfl
      refine ⟨fun ht => ?_, fun ht => ?_⟩
      · rw [late (decide_eq_false (Nat.not_le.2 ht))]
        exact write (arms.trans (lateCheck_ahead (by rw [htarget, hbeat]; exact ht))) (rejectOnce_of_acts rfl)
      · rw [late (decide_eq_true ht)]
        exact write (arms.trans (lateCheck_reached (by rw [htarget, hbeat]; exact ht))) (rejectOnce_of_one rfl)
  · have write : ∀ {t}, s.commitAt v = t → s.rejectOnce t = t → exec (.beaCommitAt who v) s = .next (s.settle t) := fun e hr =>
      (show exec (.beaCommitAt who v) s = powered s (fun s => s.regCmd who .BEA_COMMIT_AT 0 v) from rfl).trans
        (regCmd_exec h ((show s.writeReg who .BEA_COMMIT_AT 0 v = s.rejectOnce (s.commitAt (v % 2 ^ 64)) from rfl).trans
          (by rw [Nat.mod_eq_of_lt hv, e]; exact hr)))
    have htarget : (s.wr F.BEA_COMMIT_AT.TARGET v).rd F.BEA_COMMIT_AT.TARGET = v := (rd_wr_same s _ 0 v).trans (Nat.mod_eq_of_lt hv)
    have hbeat : (s.wr F.BEA_COMMIT_AT.TARGET v).beat = s.beat := rd_wr_reg s 0 0 v (by decide)
    refine ⟨fun ha => write (commitAt_unarmed ha) (rejectOnce_of_acts rfl), fun ha ht => ?_, fun ha ht => ?_⟩
    · exact write ((commitAt_armed ha).trans (lateCheck_ahead (by rw [htarget, hbeat]; exact ht))) (rejectOnce_of_acts rfl)
    · exact write ((commitAt_armed ha).trans (lateCheck_reached (by rw [htarget, hbeat]; exact ht))) (rejectOnce_of_one rfl)
  · exact (show exec .armedCommit s = running s State.armedCommit from rfl).trans (running_eq hl (armedCommit_early h))
  · intro g d inst i v hg h3 h6 h13 hd hs he ha hlate ht hm htl
    refine (show exec .armedCommit s = running s State.armedCommit from rfl).trans (running_eq hl ((armedCommit_due ha hlate ht).trans ?_))
    rw [hm, bitsSet_pow g hg, commitGroups_one (s := s.armRelease) h3 h6 h13 hd hs (eccWatch_armRelease.trans he) htl]
  · have run : ∀ whole, exec (.beaCount ⟨.fn (.pf p), whole⟩ c n) s = powered s (fun s => s.sharedOut (.fn (.pf p)) .BEA_COUNT 0 c n whole) :=
      fun _ => rfl
    have hp := pwrok_of_live (live_of_serves h)
    exact ⟨(run true).trans (powered_eq hp (sharedOut_whole h rfl (sharedRead_beaCount h))), (run false).trans (powered_eq hp (sharedOut_narrow h rfl c n))⟩
  · have run : exec (.beaCount ⟨.fn (.vf p v), true⟩ c n) s = powered s (fun s => s.sharedOut (.fn (.vf p v)) .BEA_COUNT 0 c n true) := rfl
    have hp := pwrok_of_answers h
    exact ⟨fun hs => run.trans (powered_eq hp (sharedOut_vf h hs)), fun hs => run.trans (powered_eq hp (sharedOut_vf_asleep h hs))⟩

end Sys2Proof.Machine
end
